-- ==== Sys2Proof/Word.lean ====
section
/-! DEFINITION. The word types of the KZ-96 headgate (05 R110) and their plainest operations. -/

namespace Sys2Proof

/-- A 64-bit scalar register, pointer or management register (05 R110, R117). -/
abbrev Word := BitVec 64
/-- A byte of memory (00 R3). -/
abbrev Byte := BitVec 8
/-- A 512-bit vector register; element 0 in the least significant bits (00 R3). -/
abbrev VWord := BitVec 512
/-- The 128 data bits of a link, an edge lane or a cell register (03 R66). -/
abbrev Lane128 := BitVec 128
/-- A 32-bit instruction word (05 R119). -/
abbrev IWord := BitVec 32

/-- A scalar register name s0–s31 (05 R110). -/
abbrev SReg := Fin 32
/-- A predicate name p0–p7 (05 R110). -/
abbrev PReg := Fin 8
/-- A vector register name v0–v15 (05 R110). -/
abbrev VReg := Fin 16
/-- A shape slot name sh0–sh15 (05 R110). -/
abbrev ShReg := Fin 16
/-- A sluice name sl0–sl15 (05 R110). -/
abbrev SlReg := Fin 16
/-- A stream node name (08 R193). -/
abbrev NodeIx := Fin 2

end Sys2Proof
end

