-- ==== Sys2Proof/Machine/Bits.lean ====
section
/-! DEFINITION. Bit-field, sign-extension and byte-order helpers, and the sorted association lists that hold the
machine's sparse state. -/

namespace Sys2Proof.Machine

/-- Bits [lo+n-1:lo] of a number. -/
def bits (x lo n : Nat) : Nat := x / 2 ^ lo % 2 ^ n

/-- Bit i of a number. -/
def bit (x i : Nat) : Bool := x / 2 ^ i % 2 == 1

/-- A number whose bits [lo+n-1:lo] are those of v and whose other bits are those of x. -/
def setBits (x lo n v : Nat) : Nat := x - bits x lo n * 2 ^ lo + v % 2 ^ n * 2 ^ lo

/-- sx(x, n): the signed value of the low n bits (04 R78). -/
def sx (x n : Nat) : Int :=
  let y := x % 2 ^ n
  if y ≥ 2 ^ (n - 1) then (y : Int) - 2 ^ n else y

/-- The low n bits of an integer, which a register of n bits keeps (00 R5). -/
def keep (n : Nat) (x : Int) : Nat := (x % (2 ^ n : Int)).toNat

/-- A 64-bit register's value from an integer (00 R5). -/
def toWord (x : Int) : Word := BitVec.ofNat 64 (keep 64 x)

/-- The byte k of a number, little-endian (00 R3). -/
def byteOf (x k : Nat) : Byte := BitVec.ofNat 8 (x / 256 ^ k % 256)

/-- The low n bytes of a number, lowest first (00 R3). -/
def bytesOf (x : Nat) : Nat → List Byte
  | 0 => []
  | n + 1 => BitVec.ofNat 8 (x % 256) :: bytesOf (x / 256) n

/-- The number that bytes spell, lowest first (00 R3). -/
def ofBytes : List Byte → Nat
  | [] => 0
  | b :: t => b.toNat + 256 * ofBytes t

/-- Element k of width w in a packed number (02 R29). -/
def elem (x w k : Nat) : Nat := bits x (w * k) w

/-- The packing of elements of width w, element 0 lowest (02 R29). -/
def pack (w : Nat) : List Nat → Nat
  | [] => 0
  | e :: t => e % 2 ^ w + 2 ^ w * pack w t

/-- n elements of width w. -/
def unpack (x w : Nat) : Nat → List Nat
  | 0 => []
  | n + 1 => x % 2 ^ w :: unpack (x / 2 ^ w) w n


/-- The number of bits of x: 0 for 0, else the position of its top bit plus 1. -/
def bitLen (x : Nat) : Nat := if x = 0 then 0 else Nat.log2 x + 1

/-- floor(sqrt x) by bisection on the bits of the root, from bit n - 1 downwards. -/
def isqrtAux (x : Nat) : Nat → Nat → Nat
  | 0, r => r
  | n + 1, r => let c := r + 2 ^ n; isqrtAux x n (if c * c ≤ x then c else r)

/-- floor(sqrt x). -/
def isqrt (x : Nat) : Nat := isqrtAux x (bitLen x / 2 + 1) 0

/-- A sparse table: keys strictly rising when built by `set`. -/
abbrev SMap (α : Type) := List (Nat × α)

/-- The entry of a key. -/
def SMap.get? {α : Type} : SMap α → Nat → Option α
  | [], _ => none
  | (k, v) :: t, i => if k = i then some v else SMap.get? t i

/-- The table with one entry written. -/
def SMap.set {α : Type} : SMap α → Nat → α → SMap α
  | [], i, v => [(i, v)]
  | (k, w) :: t, i, v =>
    if i < k then (i, v) :: (k, w) :: t
    else if i = k then (i, v) :: t
    else (k, w) :: SMap.set t i v

/-- The table without a key. -/
def SMap.erase {α : Type} : SMap α → Nat → SMap α
  | [], _ => []
  | (k, w) :: t, i => if k = i then SMap.erase t i else (k, w) :: SMap.erase t i

/-- The entry of a key, or a default. -/
def SMap.getD {α : Type} (m : SMap α) (i : Nat) (d : α) : α := (SMap.get? m i).getD d

/-- The list with entry i replaced, unchanged when there is none. -/
def setAt {α : Type} : List α → Nat → α → List α
  | [], _, _ => []
  | _ :: t, 0, y => y :: t
  | x :: t, i + 1, y => x :: setAt t i y

/-- Drop the first element that meets a test; some of it and the rest. -/
def takeFirst {α : Type} (p : α → Bool) : List α → Option (α × List α)
  | [] => none
  | x :: t =>
    if p x then some (x, t)
    else match takeFirst p t with
      | some (y, r) => some (y, x :: r)
      | none => none

end Sys2Proof.Machine
end

