-- ==== Sys2Proof/Syntax.lean ====
section
/-! DEFINITION. The syntax of the KZ-96: one constructor of Instr per row of spec/opcode_table.json. First the
headgate instructions with their decoded fields (05 R119 to R121), then the machine's events, the rows without an
encoding: what an event acts on (a unit's number, a value from outside) stands in State.inp when it is run. -/

namespace Sys2Proof

/-- The observers an access is ordered for: SCOPE codes 0-6 (05 R119, 07 R169). -/
inductive Scope where
  | port | core | cluster | partition | wafer | domain | host
  deriving DecidableEq, Repr

/-- An LD or ST size: SZ 0-3 (05 R121, 07 R166). -/
inductive Size where
  | b1 | b2 | b4 | b8
  deriving DecidableEq, Repr

/-- An LDV or STV size: SZ 4-6 (05 R121, 07 R166). -/
inductive VSize where
  | b16 | b32 | b64
  deriving DecidableEq, Repr

/-- The element formats, in the order of their codes 0-12 (02 R23). -/
inductive Fmt where
  | f32 | bf16 | f16 | e4m3 | e5m2 | e2m1 | i8 | i4 | i32 | n8 | n32 | e3m5 | cb4
  deriving DecidableEq, Repr

/-- The VOP lane types 0-3 (05 R125). -/
inductive LaneType where
  | f32 | bf16 | f16 | i32
  deriving DecidableEq, Repr

/-- The COLL reductions 0-2 (05 R120). -/
inductive CollRed where
  | sum | max | min
  deriving DecidableEq, Repr

/-- The code of a Scope in its encoding field. -/
def Scope.code : Scope → Nat
  | .port => 0
  | .core => 1
  | .cluster => 2
  | .partition => 3
  | .wafer => 4
  | .domain => 5
  | .host => 6

/-- The Scope of a code; none for an unassigned code. -/
def Scope.ofCode : Nat → Option Scope
  | 0 => some .port
  | 1 => some .core
  | 2 => some .cluster
  | 3 => some .partition
  | 4 => some .wafer
  | 5 => some .domain
  | 6 => some .host
  | _ => none

/-- The code of a Size in its encoding field. -/
def Size.code : Size → Nat
  | .b1 => 0
  | .b2 => 1
  | .b4 => 2
  | .b8 => 3

/-- The Size of a code; none for an unassigned code. -/
def Size.ofCode : Nat → Option Size
  | 0 => some .b1
  | 1 => some .b2
  | 2 => some .b4
  | 3 => some .b8
  | _ => none

/-- The code of a VSize in its encoding field. -/
def VSize.code : VSize → Nat
  | .b16 => 4
  | .b32 => 5
  | .b64 => 6

/-- The VSize of a code; none for an unassigned code. -/
def VSize.ofCode : Nat → Option VSize
  | 4 => some .b16
  | 5 => some .b32
  | 6 => some .b64
  | _ => none

/-- The code of a Fmt in its encoding field. -/
def Fmt.code : Fmt → Nat
  | .f32 => 0
  | .bf16 => 1
  | .f16 => 2
  | .e4m3 => 3
  | .e5m2 => 4
  | .e2m1 => 5
  | .i8 => 6
  | .i4 => 7
  | .i32 => 8
  | .n8 => 9
  | .n32 => 10
  | .e3m5 => 11
  | .cb4 => 12

/-- The Fmt of a code; none for an unassigned code. -/
def Fmt.ofCode : Nat → Option Fmt
  | 0 => some .f32
  | 1 => some .bf16
  | 2 => some .f16
  | 3 => some .e4m3
  | 4 => some .e5m2
  | 5 => some .e2m1
  | 6 => some .i8
  | 7 => some .i4
  | 8 => some .i32
  | 9 => some .n8
  | 10 => some .n32
  | 11 => some .e3m5
  | 12 => some .cb4
  | _ => none

/-- The code of a LaneType in its encoding field. -/
def LaneType.code : LaneType → Nat
  | .f32 => 0
  | .bf16 => 1
  | .f16 => 2
  | .i32 => 3

/-- The LaneType of a code; none for an unassigned code. -/
def LaneType.ofCode : Nat → Option LaneType
  | 0 => some .f32
  | 1 => some .bf16
  | 2 => some .f16
  | 3 => some .i32
  | _ => none

/-- The code of a CollRed in its encoding field. -/
def CollRed.code : CollRed → Nat
  | .sum => 0
  | .max => 1
  | .min => 2

/-- The CollRed of a code; none for an unassigned code. -/
def CollRed.ofCode : Nat → Option CollRed
  | 0 => some .sum
  | 1 => some .max
  | 2 => some .min
  | _ => none



/-- The steps of the machine. -/
inductive Instr where
  /-- ADD (R131): s[d] := s[a] + s[b]. -/
  | add (d a b : SReg) (g : PReg)
  /-- SUB (R131): s[d] := s[a] - s[b]. -/
  | sub (d a b : SReg) (g : PReg)
  /-- AND (R131): Bitwise AND. -/
  | and (d a b : SReg) (g : PReg)
  /-- OR (R131): Bitwise OR. -/
  | or (d a b : SReg) (g : PReg)
  /-- XOR (R131): Bitwise XOR. -/
  | xor (d a b : SReg) (g : PReg)
  /-- ANDN (R131): s[a] and not s[b]. -/
  | andn (d a b : SReg) (g : PReg)
  /-- SHL (R131): Shift left by s[b][5:0]. -/
  | shl (d a b : SReg) (g : PReg)
  /-- SHR (R131): Logical shift right. -/
  | shr (d a b : SReg) (g : PReg)
  /-- SRA (R131): Arithmetic shift right. -/
  | sra (d a b : SReg) (g : PReg)
  /-- ROR (R131): Rotate right. -/
  | ror (d a b : SReg) (g : PReg)
  /-- MIN (R131): Signed minimum. -/
  | min (d a b : SReg) (g : PReg)
  /-- MAX (R131): Signed maximum. -/
  | max (d a b : SReg) (g : PReg)
  /-- MINN (R131): Unsigned minimum. -/
  | minn (d a b : SReg) (g : PReg)
  /-- MAXN (R131): Unsigned maximum. -/
  | maxn (d a b : SReg) (g : PReg)
  /-- MUL (R131): Low 64 bits of the product. -/
  | mul (d a b : SReg) (g : PReg)
  /-- MULH (R131): High 64 bits of the signed product. -/
  | mulh (d a b : SReg) (g : PReg)
  /-- MULHN (R131): High 64 bits of the unsigned product. -/
  | mulhn (d a b : SReg) (g : PReg)
  /-- DIV (R132): Signed quotient, never trapping. -/
  | div (d a b : SReg) (g : PReg)
  /-- DIVN (R132): Unsigned quotient, never trapping. -/
  | divn (d a b : SReg) (g : PReg)
  /-- REM (R132): Signed remainder. -/
  | rem (d a b : SReg) (g : PReg)
  /-- REMN (R132): Unsigned remainder. -/
  | remn (d a b : SReg) (g : PReg)
  /-- CLZ (R131): Count leading zeros. -/
  | clz (d a : SReg) (g : PReg)
  /-- CTZ (R131): Count trailing zeros. -/
  | ctz (d a : SReg) (g : PReg)
  /-- POPC (R131): Population count. -/
  | popc (d a : SReg) (g : PReg)
  /-- BREV (R131): Bit reversal. -/
  | brev (d a : SReg) (g : PReg)
  /-- SEXT (R131): Sign-extend from bit s[b][5:0]. -/
  | sext (d a b : SReg) (g : PReg)
  /-- ZEXT (R131): Zero-extend from bit s[b][5:0]. -/
  | zext (d a b : SReg) (g : PReg)
  /-- SEL (R133): s[d] := p[g] ? s[a] : s[b], with no guard. -/
  | sel (d a b : SReg) (p : PReg)
  /-- ADDI (R134): Add a signed immediate. -/
  | addi (d a : SReg) (i : BitVec 16)
  /-- ANDI (R134): AND with a zero-extended immediate. -/
  | andi (d a : SReg) (i : BitVec 16)
  /-- ORI (R134): OR with a zero-extended immediate. -/
  | ori (d a : SReg) (i : BitVec 16)
  /-- XORI (R134): XOR with a zero-extended immediate. -/
  | xori (d a : SReg) (i : BitVec 16)
  /-- SHFI_SHL (R134): Shift left by an immediate count. -/
  | shfiShl (d a : SReg) (c : BitVec 6)
  /-- SHFI_SHR (R134): Logical shift right by an immediate count. -/
  | shfiShr (d a : SReg) (c : BitVec 6)
  /-- SHFI_SRA (R134): Arithmetic shift right by an immediate count. -/
  | shfiSra (d a : SReg) (c : BitVec 6)
  /-- SHFI_ROR (R134): Rotate right by an immediate count. -/
  | shfiRor (d a : SReg) (c : BitVec 6)
  /-- MULI (R134): Multiply by a signed immediate. -/
  | muli (d a : SReg) (i : BitVec 16)
  /-- LI (R134): Load a sign-extended immediate. -/
  | li (d : SReg) (i : BitVec 16)
  /-- LIS (R134): s[d] := (s[d] << 16) or imm16. -/
  | lis (d : SReg) (i : BitVec 16)
  /-- SETP_EQ (R135): p[d] := s[a] == s[b]. -/
  | setpEq (d : PReg) (a b : SReg) (g : PReg)
  /-- SETP_NE (R135): p[d] := s[a] ≠ s[b]. -/
  | setpNe (d : PReg) (a b : SReg) (g : PReg)
  /-- SETP_LT (R135): Signed less-than. -/
  | setpLt (d : PReg) (a b : SReg) (g : PReg)
  /-- SETP_GE (R135): Signed greater-or-equal. -/
  | setpGe (d : PReg) (a b : SReg) (g : PReg)
  /-- SETP_LTN (R135): Unsigned less-than. -/
  | setpLtn (d : PReg) (a b : SReg) (g : PReg)
  /-- SETP_GEN (R135): Unsigned greater-or-equal. -/
  | setpGen (d : PReg) (a b : SReg) (g : PReg)
  /-- SETPI_EQ (R135): p := s[a] == immediate. -/
  | setpiEq (p : PReg) (a : SReg) (i : BitVec 16)
  /-- SETPI_NE (R135): p := s[a] ≠ immediate. -/
  | setpiNe (p : PReg) (a : SReg) (i : BitVec 16)
  /-- SETPI_LT (R135): p := s[a] < immediate, signed. -/
  | setpiLt (p : PReg) (a : SReg) (i : BitVec 16)
  /-- SETPI_GE (R135): p := s[a] ≥ immediate, signed. -/
  | setpiGe (p : PReg) (a : SReg) (i : BitVec 16)
  /-- PAND (R136): Predicate AND. -/
  | pand (d a b g : PReg)
  /-- POR (R136): Predicate OR. -/
  | por (d a b g : PReg)
  /-- PXOR (R136): Predicate XOR. -/
  | pxor (d a b g : PReg)
  /-- PNOT (R136): Predicate NOT. -/
  | pnot (d a g : PReg)
  /-- PMOV (R136): Predicate copy. -/
  | pmov (d a g : PReg)
  /-- PTOS (R136): Scalar register := predicate. -/
  | ptos (d : SReg) (a g : PReg)
  /-- MKPTR (R137): Builds a pointer from a space code and an address. -/
  | mkptr (d a b : SReg) (g : PReg)
  /-- PSPC (R137): Extracts a pointer's space code. -/
  | pspc (d a : SReg) (g : PReg)
  /-- PADD (R138): Adds to a pointer's offset field, poisoning the pointer on overflow. -/
  | padd (d a b : SReg) (g : PReg)
  /-- PCORE (R139): Retargets a scratchpad or cluster pointer to another index. -/
  | pcore (d a b : SReg) (g : PReg)
  /-- KEYLK (R140): Looks up a key's owner on the key ring and builds a scratchpad pointer to it. -/
  | keylk (d a b : SReg) (g : PReg)
  /-- BR (R141): Branches when p[g] xor inv is 1. -/
  | br (g : PReg) (v : Bool) (o : BitVec 22)
  /-- CALL (R141): A branch that links s31 when taken. -/
  | call (g : PReg) (v : Bool) (o : BitVec 22)
  /-- JR (R142): Jumps to s[a]. -/
  | jr (a : SReg) (g : PReg)
  /-- JALR (R142): Jumps and links in s[d]. -/
  | jalr (d a : SReg) (g : PReg)
  /-- RET (R142): Jumps to s31. -/
  | ret (g : PReg)
  /-- JTAB (R144): Jumps through a table entry chosen by an index, with a default entry. -/
  | jtab (d a : SReg) (n : BitVec 16)
  /-- LOOP (R145): Pushes a hardware loop whose count is in a register. -/
  | loop (a : SReg) (l : BitVec 16)
  /-- LOOPI (R145): Pushes a hardware loop whose count is an immediate. -/
  | loopi (l : BitVec 10) (c : BitVec 16)
  /-- LBRK (R148): Leaves the innermost loop when the guard holds. -/
  | lbrk (g : PReg)
  /-- FORK (R149): Enters forked issue with both queue banks empty. -/
  | fork (g : PReg)
  /-- SWQ (R149): Switches the issuing queue bank. -/
  | swq (g : PReg)
  /-- PICK (R153): Keeps the bank that p[N] names, performs its held instructions and cancels the other bank. -/
  | pick (p g : PReg)
  /-- LD (R166): Loads 1–8 bytes, zero-extended. -/
  | ld (d a : SReg) (o : BitVec 8) (z : Size) (s : Scope) (m : Bool)
  /-- ST (R166): Stores 1–8 bytes. -/
  | st (d a : SReg) (o : BitVec 8) (z : Size) (s : Scope) (m : Bool)
  /-- LDV (R166): Loads 16–64 bytes into a vector register. -/
  | ldv (d : VReg) (a : SReg) (o : BitVec 8) (z : VSize) (s : Scope) (m : Bool)
  /-- STV (R166): Stores 16–64 bytes from a vector register. -/
  | stv (d : VReg) (a : SReg) (o : BitVec 8) (z : VSize) (s : Scope) (m : Bool)
  /-- AMO_AADD (R170): Atomic add. -/
  | amoAadd (d a b : SReg) (s : Scope) (r z : Bool)
  /-- AMO_AMIN (R170): Atomic signed minimum. -/
  | amoAmin (d a b : SReg) (s : Scope) (r z : Bool)
  /-- AMO_AMAX (R170): Atomic signed maximum. -/
  | amoAmax (d a b : SReg) (s : Scope) (r z : Bool)
  /-- AMO_AMINN (R170): Atomic unsigned minimum. -/
  | amoAminn (d a b : SReg) (s : Scope) (r z : Bool)
  /-- AMO_AMAXN (R170): Atomic unsigned maximum. -/
  | amoAmaxn (d a b : SReg) (s : Scope) (r z : Bool)
  /-- AMO_AAND (R170): Atomic AND. -/
  | amoAand (d a b : SReg) (s : Scope) (r z : Bool)
  /-- AMO_AOR (R170): Atomic OR. -/
  | amoAor (d a b : SReg) (s : Scope) (r z : Bool)
  /-- AMO_AXOR (R170): Atomic XOR. -/
  | amoAxor (d a b : SReg) (s : Scope) (r z : Bool)
  /-- AMO_ASWAP (R170): Atomic swap. -/
  | amoAswap (d a b : SReg) (s : Scope) (r z : Bool)
  /-- AMO_ACAS (R170): Atomic compare-and-swap. -/
  | amoAcas (d a b : SReg) (s : Scope) (r z : Bool)
  /-- AMO_AFADD (R170): Atomic f32 add with RNE rounding. -/
  | amoAfadd (d a b : SReg) (s : Scope) (r z : Bool)
  /-- FENCE (R173): Waits for all earlier accesses and engine commands at the scope. -/
  | fence (s : Scope) (g : PReg)
  /-- FENCE_LD (R173): Waits for earlier loads and AMOs. -/
  | fenceLd (s : Scope) (g : PReg)
  /-- FENCE_ST (R173): Orders earlier stores before later stores. -/
  | fenceSt (s : Scope) (g : PReg)
  /-- WFENCE (R174): Waits two windows beyond the last remote access. -/
  | wfence (g : PReg)
  /-- MFENCE (R175): Waits for the bound plot's next commit or stop, then fences at partition scope. -/
  | mfence (g : PReg)
  /-- IFENCE (R176): Makes later fetches see stored code. -/
  | ifence (g : PReg)
  /-- BINIT (R178): Initialises a barrier record. -/
  | binit (a b : SReg) (g : PReg)
  /-- BARR (R178): Arrives at a barrier slot, releasing earlier accesses. -/
  | barr (d a b : SReg) (g : PReg)
  /-- BWAIT (R178): Waits for the barrier generation to change. -/
  | bwait (a b : SReg) (g : PReg)
  /-- BLEAVE (R178): Removes a slot from the barrier. -/
  | bleave (a b : SReg) (g : PReg)
  /-- BQRY (R178): Reads EXP, ARR or GEN. -/
  | bqry (d a b : SReg) (g : PReg)
  /-- QSEND (R180): Sends a 64-byte message to a core's queue. -/
  | qsend (d : VReg) (a b : SReg) (g : PReg)
  /-- QRECV (R181): Takes the oldest entry of a queue, waiting while it is empty. -/
  | qrecv (d : VReg) (a b : SReg) (g : PReg)
  /-- QPOLL (R181): Returns a queue's entry count. -/
  | qpoll (d a : SReg) (g : PReg)
  /-- COLL_ALLRED (R183): All-reduce collective. -/
  | collAllred (x y : ShReg) (a : SReg) (r : CollRed) (f : Fmt)
  /-- COLL_REDSCAT (R183): Reduce-scatter collective. -/
  | collRedscat (x y : ShReg) (a : SReg) (r : CollRed) (f : Fmt)
  /-- COLL_ALLGATH (R183): All-gather collective. -/
  | collAllgath (x y : ShReg) (a : SReg) (f : Fmt)
  /-- COLL_BCAST (R183): Broadcast collective. -/
  | collBcast (x y : ShReg) (a : SReg) (f : Fmt)
  /-- COLL_A2A (R183): All-to-all collective. -/
  | collA2a (x y : ShReg) (a : SReg) (f : Fmt)
  /-- LRPATCH (R185): Writes a patchable word of a launch record. -/
  | lrpatch (a b : SReg) (g : PReg)
  /-- LRARM (R185): Arms a launch record as a release. -/
  | lrarm (a : SReg) (g : PReg)
  /-- LRQRY (R185): Reads a record's state, count and cancellation code. -/
  | lrqry (d a : SReg) (g : PReg)
  /-- CNTADD (R187): Adds to a route counter. -/
  | cntadd (a b : SReg) (g : PReg)
  /-- VCNT (R187): Adds to the counters indexed by the vector lanes. -/
  | vcnt (a : VReg) (b : SReg) (g : PReg)
  /-- CNTRD (R187): Reads a route counter. -/
  | cntrd (d a : SReg) (g : PReg)
  /-- CNTSNAP (R188): Stores all counters and clears them in one step. -/
  | cntsnap (d a : SReg) (g : PReg)
  /-- WTRD (R189): Reads wafer time. -/
  | wtrd (d : SReg) (g : PReg)
  /-- ATSET (R189): Arms a timed-action slot. -/
  | atset (d a b : SReg) (g : PReg)
  /-- ATCAN (R190): Cancels a timed action and frees its slot. -/
  | atcan (d a : SReg) (g : PReg)
  /-- ATWAIT (R190): Waits for a timed action to fire and frees its slot. -/
  | atwait (d a : SReg) (g : PReg)
  /-- BWPH (R191): Declares a bandwidth phase and its time. -/
  | bwph (a b : SReg) (g : PReg)
  /-- BWQRY (R192): Reads the phase, its time or the phase status. -/
  | bwqry (d a : SReg) (g : PReg)
  /-- CFG (R202): Reads, checks and stages a fabric load, then switches to it. -/
  | cfg (a : SReg)
  /-- CFGWAIT (R203): Waits for the last CFG's background work. -/
  | cfgwait (a : SReg)
  /-- CFGWAIT_Q (R203): Queries a plot's state and committed rows. -/
  | cfgwaitQ (a : SReg)
  /-- START (R204): Starts or resumes a plot. -/
  | start (a : SReg)
  /-- STOPP (R204): Stops a plot at its next mark. -/
  | stopp (a : SReg)
  /-- STOPP_NOW (R204): Stops a plot at once and restores its last mark. -/
  | stoppNow (a : SReg)
  /-- SPLARM (R207): Arms a splice and stages the successor in the background. -/
  | splarm (a : SReg)
  /-- SPLICE (R208): Sends switch tokens behind the predecessors' feeds. -/
  | splice
  /-- BYPMAP (R209): Builds a bypass record of lost rows. -/
  | bypmap (a : SReg)
  /-- BYPMAP_COL (R209): Builds a bypass record of lost columns. -/
  | bypmapCol (a : SReg)
  /-- DLYSET (R211): Sets a segment's edge-lane delay counters. -/
  | dlyset (a : SReg)
  /-- HOLDTAB (R212): Sets a plot's hold-class limits. -/
  | holdtab (a : SReg)
  /-- SHLD (R213): Loads a shape record into a slot. -/
  | shld (x : ShReg) (a : SReg)
  /-- SHST (R213): Stores a shape slot to memory. -/
  | shst (x : ShReg) (a : SReg)
  /-- STRM (R214): Queues a copy on a stream node. -/
  | strm (x y : ShReg) (n : NodeIx) (a : SReg)
  /-- STRMQ (R217): Reads a stream node's status. -/
  | strmq (n : NodeIx) (a : SReg)
  /-- XFORM (R215): Sets a node's transform for later commands. -/
  | xform (n : NodeIx) (a : SReg)
  /-- CBLOAD (R218): Loads the 16-entry cb4 codebook. -/
  | cbload (a : SReg)
  /-- SLSET (R219): Sets a sluice's region and resets its pointers. -/
  | slset (x : SlReg) (a : SReg)
  /-- SLPUT (R220): Advances the producer pointer. -/
  | slput (x : SlReg) (a : SReg)
  /-- SLTAKE (R220): Advances the consumer pointer. -/
  | sltake (x : SlReg) (a : SReg)
  /-- SLQRY (R220): Reads the sluice pointers. -/
  | slqry (x : SlReg) (a : SReg)
  /-- SLQRY_D (R220): Reads the sluice descriptor. -/
  | slqryD (x : SlReg) (a : SReg)
  /-- SLWAIT_DATA (R220): Waits for an occupancy of n units. -/
  | slwaitData (x : SlReg) (a : SReg)
  /-- SLWAIT_ROOM (R220): Waits for room of n units. -/
  | slwaitRoom (x : SlReg) (a : SReg)
  /-- TSTEP (R222): Queues a tile-step row whose operand is in memory. -/
  | tstep (x : ShReg) (y : SlReg) (a : SReg) (n : BitVec 9)
  /-- TSTEP_V (R222): Queues a tile-step row whose operand is a vector register. -/
  | tstepV (x : ShReg) (y : SlReg) (z : VReg) (n : BitVec 9)
  /-- WTBL (R224): Loads and checks a decode table into a slot. -/
  | wtbl (a b : SReg) (g : PReg)
  /-- WDEC (R224): Queues a decode of coded tiles. -/
  | wdec (a : SReg) (g : PReg)
  /-- WSEEK (R225): Sets a pending decode position. -/
  | wseek (a : SReg) (g : PReg)
  /-- WDQRY (R225): Reads the decoder's position or status. -/
  | wdqry (d a : SReg) (g : PReg)
  /-- SCSET (R226): Sets a scale-cache parameter and invalidates the cache. -/
  | scset (a b : SReg) (g : PReg)
  /-- SCFL (R226): Invalidates the scale cache. -/
  | scfl (g : PReg)
  /-- CHAIN (R229): Queues a chain program over sluice elements. -/
  | chain (a b : SReg) (g : PReg)
  /-- CHCONST (R229): Sets a chain constant. -/
  | chconst (a b : SReg) (g : PReg)
  /-- VOP_ADD (R230): Vector add. -/
  | vopAdd (d a b : VReg) (g : PReg) (t : LaneType)
  /-- VOP_SUB (R230): Vector subtract. -/
  | vopSub (d a b : VReg) (g : PReg) (t : LaneType)
  /-- VOP_MUL (R230): Vector multiply. -/
  | vopMul (d a b : VReg) (g : PReg) (t : LaneType)
  /-- VOP_FMA (R230): Vector a × b + old d. -/
  | vopFma (d a b : VReg) (g : PReg) (t : LaneType)
  /-- VOP_FNMA (R230): Vector old d - a × b. -/
  | vopFnma (d a b : VReg) (g : PReg) (t : LaneType)
  /-- VOP_MIN (R230): Vector minimum. -/
  | vopMin (d a b : VReg) (g : PReg) (t : LaneType)
  /-- VOP_MAX (R230): Vector maximum. -/
  | vopMax (d a b : VReg) (g : PReg) (t : LaneType)
  /-- VOP_ABS (R230): Vector absolute value. -/
  | vopAbs (d a : VReg) (g : PReg) (t : LaneType)
  /-- VOP_NEG (R230): Vector negate. -/
  | vopNeg (d a : VReg) (g : PReg) (t : LaneType)
  /-- VOP_RSQS (R230): Vector reciprocal square-root seed. -/
  | vopRsqs (d a : VReg) (g : PReg) (t : LaneType)
  /-- VOP_RCPS (R230): Vector reciprocal seed. -/
  | vopRcps (d a : VReg) (g : PReg) (t : LaneType)
  /-- VOP_EXP2S (R230): Vector 2^x seed. -/
  | vopExp2s (d a : VReg) (g : PReg) (t : LaneType)
  /-- VOP_LOG2S (R230): Vector log2 seed. -/
  | vopLog2s (d a : VReg) (g : PReg) (t : LaneType)
  /-- VOP_RELU (R230): Vector ReLU. -/
  | vopRelu (d a : VReg) (g : PReg) (t : LaneType)
  /-- VOP_CLAMP (R230): Vector clamp to ±|b|. -/
  | vopClamp (d a b : VReg) (g : PReg) (t : LaneType)
  /-- VOP_SEL (R230): Vector select by the old d. -/
  | vopSel (d a b : VReg) (g : PReg) (t : LaneType)
  /-- VOP_CMPEQ (R230): Vector compare equal. -/
  | vopCmpeq (d a b : VReg) (g : PReg) (t : LaneType)
  /-- VOP_CMPLT (R230): Vector compare less-than. -/
  | vopCmplt (d a b : VReg) (g : PReg) (t : LaneType)
  /-- VOP_CMPLE (R230): Vector compare less-or-equal. -/
  | vopCmple (d a b : VReg) (g : PReg) (t : LaneType)
  /-- VOP_MOV (R230): Vector move. -/
  | vopMov (d a : VReg) (g : PReg) (t : LaneType)
  /-- VOP_AMAXU (R230): Vector pass that updates AMAX. -/
  | vopAmaxu (d a : VReg) (g : PReg) (t : LaneType)
  /-- VCVT (R232): Converts vector elements between formats. -/
  | vcvt (d a : VReg) (g : PReg) (t f : Fmt)
  /-- VSUM (R233): Pairwise tree sum of 16 lanes. -/
  | vsum (d a : VReg) (g : PReg)
  /-- VMAX (R233): Maximum of the lanes. -/
  | vmax (d a : VReg) (g : PReg)
  /-- VMIN (R233): Minimum of the lanes. -/
  | vmin (d a : VReg) (g : PReg)
  /-- VAMAX (R233): Largest lane magnitude, which also updates AMAX. -/
  | vamax (d a : VReg) (g : PReg)
  /-- VBCAST (R234): Broadcasts lane 0. -/
  | vbcast (d a : VReg) (g : PReg)
  /-- VEXT (R234): Extracts lanes from a register pair. -/
  | vext (d a b : VReg) (g : PReg)
  /-- VSHUF (R234): Shuffles lanes by index. -/
  | vshuf (d a b : VReg) (g : PReg)
  /-- VINS (R234): Inserts a lane. -/
  | vins (d a b : VReg) (g : PReg)
  /-- FSC_ADD (R230): Scalar f32 add. -/
  | fscAdd (d a b : SReg) (g : PReg)
  /-- FSC_SUB (R230): Scalar f32 subtract. -/
  | fscSub (d a b : SReg) (g : PReg)
  /-- FSC_MUL (R230): Scalar f32 multiply. -/
  | fscMul (d a b : SReg) (g : PReg)
  /-- FSC_FMA (R230): Scalar a × b + old d. -/
  | fscFma (d a b : SReg) (g : PReg)
  /-- FSC_FNMA (R230): Scalar old d - a × b. -/
  | fscFnma (d a b : SReg) (g : PReg)
  /-- FSC_MIN (R230): Scalar f32 minimum. -/
  | fscMin (d a b : SReg) (g : PReg)
  /-- FSC_MAX (R230): Scalar f32 maximum. -/
  | fscMax (d a b : SReg) (g : PReg)
  /-- FSC_ABS (R230): Scalar f32 absolute value. -/
  | fscAbs (d a : SReg) (g : PReg)
  /-- FSC_NEG (R230): Scalar f32 negate. -/
  | fscNeg (d a : SReg) (g : PReg)
  /-- FSC_RSQS (R230): Scalar reciprocal square-root seed. -/
  | fscRsqs (d a : SReg) (g : PReg)
  /-- FSC_RCPS (R230): Scalar reciprocal seed. -/
  | fscRcps (d a : SReg) (g : PReg)
  /-- FSC_EXP2S (R230): Scalar 2^x seed. -/
  | fscExp2s (d a : SReg) (g : PReg)
  /-- FSC_LOG2S (R230): Scalar log2 seed. -/
  | fscLog2s (d a : SReg) (g : PReg)
  /-- FSC_RELU (R230): Scalar ReLU. -/
  | fscRelu (d a : SReg) (g : PReg)
  /-- FSC_CLAMP (R230): Scalar clamp. -/
  | fscClamp (d a b : SReg) (g : PReg)
  /-- FSC_SEL (R230): Scalar select by the old d. -/
  | fscSel (d a b : SReg) (g : PReg)
  /-- FSC_CMPEQ (R230): Scalar compare equal. -/
  | fscCmpeq (d a b : SReg) (g : PReg)
  /-- FSC_CMPLT (R230): Scalar compare less-than. -/
  | fscCmplt (d a b : SReg) (g : PReg)
  /-- FSC_CMPLE (R230): Scalar compare less-or-equal. -/
  | fscCmple (d a b : SReg) (g : PReg)
  /-- FSC_MOV (R230): Scalar move. -/
  | fscMov (d a : SReg) (g : PReg)
  /-- VQNT (R235): Block-quantises 16 f32 lanes into codes and scales. -/
  | vqnt (d a : VReg) (g : PReg) (f : Fmt)
  /-- VSACC_E2M1 (R235): Scaled accumulation of e2m1 partials. -/
  | vsaccE2m1 (d a b : VReg) (g : PReg)
  /-- VSACC_E4M3 (R235): Scaled accumulation of binary64 partials. -/
  | vsaccE4m3 (d a b : VReg) (g : PReg)
  /-- NOP (R156): Does nothing. -/
  | nop
  /-- TRAP (R157): Enters system code at TVEC. -/
  | trap (n : BitVec 10)
  /-- ERET (R158): Returns from system mode to EPC. -/
  | eret
  /-- MRD (R159): Reads a headgate-local register. -/
  | mrd (r : BitVec 10) (d : SReg)
  /-- MWR (R159): Writes a headgate-local register. -/
  | mwr (r : BitVec 10) (a : SReg)
  /-- YIELD (R160): Agrees to a pending pre-emption. -/
  | yield
  /-- WAIT (R161): Waits for selected pending events. -/
  | wait (d a : SReg)
  /-- HALT (R162): Ends the program or task once its accesses and engines are done. -/
  | halt
  /-- BRK (R163): Raises DEBUG_HALT at its address. -/
  | brk (n : BitVec 10)
  /-- DBGH (R163): Halts the partition or the whole wafer. -/
  | dbgh (a : SReg)
  /-- SEED (R164): Sets the stochastic-rounding generator. -/
  | seed (a : SReg)
  /-- POWER_ON_RESET (R452): Reset brings the module up. The root monitor checks its ROM, writes the defect map and the BPC_MAP classes, sets FWBASE and FWSIZE, and the device writes the pass-through and isolate words into every cell outside a plot. -/
  | powerOnReset
  /-- HOST_PORT_TRAINING (R449): A host port trains its UCIe modules; each module that fails is left out and its PORTSTAT.MODS bit drops. -/
  | hostPortTraining
  /-- MREAD (R449): A host reads through a space-0xF pointer and receives data or DENIED. -/
  | mread
  /-- MWRITE (R449): A host writes through a space-0xF pointer and the write completes DONE or DENIED. -/
  | mwrite
  /-- REGISTER_WRITE (R365): A store to a management register that has no row of its own; the register takes the value under its type rules. -/
  | registerWrite
  /-- MB_BOOT (R452): The BOOT mailbox command measures and verifies the firmware body; on success the RMCs start at ENTRY, and on failure ERR is set and boot returns to stage 2. -/
  | mbBoot
  /-- MB_ATTEST (R453): The root monitor signs the nonce together with MEAS0, MAPGEN and BOOTSTAT, and places the signature and values in MBDATA. -/
  | mbAttest
  /-- MB_PUBKEY (R453): Installs a publisher key in the named slot. -/
  | mbPubkey
  /-- MB_MANIFEST (R453): Verifies a signed manifest and keeps it as the accepted manifest once BUSY clears. -/
  | mbManifest
  /-- MB_INSTALL (R453): Copies a layer part into protected memory, hashes the copy, and stores it to the destination only if the hash matches. -/
  | mbInstall
  /-- MB_CMAP (R448): Sets or clears bits of the context-memory map for a run of 2 MiB granules. -/
  | mbCmap
  /-- HOST_BUILD (R355): The dispatcher accepts a BUILD and copies LSTAGE into the record, which becomes READY and remembers the issuing port. -/
  | hostBuild
  /-- HOST_LAUNCH (R355): The dispatcher accepts a LAUNCH and arms the record. -/
  | hostLaunch
  /-- HOST_CANCEL (R355): The dispatcher accepts a CANCEL and cancels the record with code HOSTCANCEL. -/
  | hostCancel
  /-- HOST_CLEAR (R351): The dispatcher accepts a CLEAR and returns the record to EMPTY. -/
  | hostClear
  /-- HOST_TEARDOWN (R359): Tear-down of a context cancels each of its ARMED and RUNNING records with code TEARDOWN and stops its engines. -/
  | hostTeardown
  /-- SEM_READ (R356): A read of a semaphore returns it and, if HELD was 0, takes it for the reader in the same step. -/
  | semRead
  /-- SEM_FREE (R356): A write of 0 by the owner frees the semaphore. -/
  | semFree
  /-- DEVICE_LAUNCH (R357): The dispatcher accepts a device launch made by LRARM, an ARM node or a timed action, and discards it if the record is no longer ARMED. -/
  | deviceLaunch
  /-- LAUNCH_DISPATCH (R358): When the active context has no RUNNING launch, the dispatcher picks the armed record of highest effective level and runs it, or requests a pre-emption. -/
  | launchDispatch
  /-- PREEMPT_REQUEST (R376): The dispatcher accepts a pre-emption, sets the yield deadline and begins restoring the incoming context into the shadow banks. -/
  | preemptRequest
  /-- GRAPH_NODE_END (R351): The walker reaches an END node; the launch becomes DONE and the count advances. -/
  | graphNodeEnd
  /-- GRAPH_NODE_LOAD (R354): The walker configures the node's image if it names one and starts the headgates of the LOAD node. -/
  | graphNodeLoad
  /-- LOAD_END (R361): The load ends once every started headgate has halted, no task runs and every task queue is empty, and the walker moves to NEXT. -/
  | loadEnd
  /-- GRAPH_NODE_COND (R354): The walker tests the condition word and goes to NEXT or ALT. -/
  | graphNodeCond
  /-- GRAPH_NODE_WHILE (R354): The walker tests the condition word and counts iterations, cancelling the launch with LOOP_LIMIT past ITERMAX. -/
  | graphNodeWhile
  /-- GRAPH_NODE_HOLD (R354): The walker reads the condition word and goes on only when the test holds. -/
  | graphNodeHold
  /-- HOLD_NODE_REREAD (R354): Every 1,600 ticks the walker re-reads the word of a waiting HOLD node. -/
  | holdNodeReread
  /-- GRAPH_NODE_ARM (R354): The walker arms the named record as LRARM does, or cancels the launch with ARM_STATE. -/
  | graphNodeArm
  /-- PARTITION_ENABLE (R366): Writing PCTL.EN enables or disables a partition after its checks, and PLACEGEN advances. -/
  | partitionEnable
  /-- PCMD_RESUME (R368): Lowers the halt line of a halted partition whose stop records are written, and every unit goes on. -/
  | pcmdResume
  /-- PCMD_HALT (R368): Raises the partition's halt line without a trap record. -/
  | pcmdHalt
  /-- PCMD_SWITCH (R368): Asks the dispatcher for a pre-emption to the context in SHADOW. -/
  | pcmdSwitch
  /-- PRINGRD_WRITE (R385): Software advances RD; the records that were pending are written with REPEAT = 1. -/
  | pringrdWrite
  /-- PRINGBASE_WRITE (R460): Sets the trap ring base if the area is valid, and resets WR, RD and OVF. -/
  | pringbaseWrite
  /-- PSTOPBASE_WRITE (R460): Sets the stop-area base if the area is valid. -/
  | pstopbaseWrite
  /-- PRINGCTL_WRITE (R367): Writes LOGSIZE or COMPAT; a LOGSIZE write resets WR, RD and OVF. -/
  | pringctlWrite
  /-- KMFIFO_READ (R387): A read of KMFIFO returns the next word of the oldest KM-72 record, and the fourth read pops the record. -/
  | kmfifoRead
  /-- CTX_CREATE (R369): Writing STATE from FREE to SAVED creates a context with reset state and gives each core its ring token. -/
  | ctxCreate
  /-- CTX_DESTROY (R369): Writing STATE from SAVED to FREE destroys the context. -/
  | ctxDestroy
  /-- XINV_CTX (R375): Invalidates every cached translation of one context in all translation units. -/
  | xinvCtx
  /-- XINV_PAGE (R375): Invalidates one context's cached translations of the page that holds VA. -/
  | xinvPage
  /-- XINV_ALL (R375): Invalidates every cached translation. -/
  | xinvAll
  /-- XINV_COMPLETE (R375): BUSY clears once no matching entry remains, affected walks have restarted and users of the old mapping have performed. -/
  | xinvComplete
  /-- TRANSLATION_WALK_DONE (R373): A page walk finishes: it caches a valid leaf or faults with XLATE or ECC_UNCORR, and the accesses waiting on it go on or fail. -/
  | translationWalkDone
  /-- YIELD_DEADLINE (R377): At D + 1 with no cooperative YIELD, the switch is forced and the rinse begins. -/
  | yieldDeadline
  /-- COOPERATIVE_STOP (R377): Once every plot has committed a mark after a cooperative YIELD, the headgates and engines stop. -/
  | cooperativeStop
  /-- COOPERATIVE_TIMEOUT (R377): A plot that has not committed by D + YIELD is rinsed as in a forced switch. -/
  | cooperativeTimeout
  /-- CONTEXT_FLIP (R378): Every cell of the partition exchanges its active and shadow copies, and the incoming context's pending arrivals are written. -/
  | contextFlip
  /-- BANK_SPILL_RESTORE (R380): A core spills and restores its next bank in order; when the last is done, PSTAT.SWITCH clears. -/
  | bankSpillRestore
  /-- HALT_LINE_ARRIVAL (R337): The halt line reaches a core, and its headgates, engines, plots and task scheduler stop. -/
  | haltLineArrival
  /-- STOP_RECORDS_DONE (R338): All stop records are written and PSTAT.DONE is set. -/
  | stopRecordsDone
  /-- PLOT_ROW_ATTEMPT (R243): A running plot attempts its next row: every cell executes its slot, or the row is held and repeated a cycle later. -/
  | plotRowAttempt
  /-- MARK_COMMIT (R301): A mark row commits: drain units advance P, PAMAX goes to the starting headgate, the snapshot replaces the checkpoint area, and the feed and drain mark positions are recorded. -/
  | markCommit
  /-- TIMING_LIMIT (R245): A held row passes its class limit. The plot raises TIMING and restarts automatically, or stops and raises the halt line. -/
  | timingLimit
  /-- PLOT_RELEASE (R332): Every wait recorded at the TIMING has ended, and the restarted plot is released. -/
  | plotRelease
  /-- TSTEP_FEED_PRESENT (R247): A headgate presents one lane row to its segment's edge lanes once every lane has room. -/
  | tstepFeedPresent
  /-- CFG_SWITCHING (R202): After staging, the covered cells switch in one step, old plots are deconfigured, bindings take effect, and the new plots enter READY. -/
  | cfgSwitching
  /-- CFG_BACKGROUND_DONE (R202): The bank roles and the weight-store images of a CFG are complete, and its plots become startable. -/
  | cfgBackgroundDone
  /-- SPLICE_STAGING_DONE (R207): Background staging of an armed splice completes or fails. -/
  | spliceStagingDone
  /-- STREAM_NODE_READ (R266): A stream node's read walk reads elements into its staging buffer, or parks at a faulting element. -/
  | streamNodeRead
  /-- STREAM_NODE_FIRE (R263): A stream node takes or fills one sluice unit once the occupancy and room allow it. -/
  | streamNodeFire
  /-- CHAIN_FIRE (R263): The chain unit takes its next 16 elements and fills the units of their results. -/
  | chainFire
  /-- DECODER_SEGMENT_DECODE (R279): The decoder reads a marker and segment, then decodes and checks it whole. -/
  | decoderSegmentDecode
  /-- DECODER_WORD_DELIVER (R281): The decoder delivers packed words to the edge lanes or to weight-store rows, and its position advances. -/
  | decoderWordDeliver
  /-- SCALE_CACHE_FILL (R269): A scale-cache miss returns and fills its entry, releasing the waiting feed. -/
  | scaleCacheFill
  /-- TASK_SCHEDULER_CYCLE (R259): Each cycle the scheduler tests each task queue's head and starts one passing task. -/
  | taskSchedulerCycle
  /-- TSKCTL_WRITE (R256): A write to TSKCTL changes the task queues and recopies the task table. -/
  | tskctlWrite
  /-- TTBASE_WRITE (R255): A write to TTBASE is checked and recopies the task table. -/
  | ttbaseWrite
  /-- QUEUE_MESSAGE_ARRIVAL (R180): A message is written into its hardware queue with its arrival stamp, or waits while the queue is full. -/
  | queueMessageArrival
  /-- ROUTER_FORWARD (R394): A router chooses a packet's output from its table or by the default route, or holds the packet at a closed output. -/
  | routerForward
  /-- PACKET_DELIVER (R390): A packet reaches its network interface. At a sleeping cluster it waits and sets KNOCK. -/
  | packetDeliver
  /-- ROUTE_TABLE_WRITE (R393): A write to a routing entry is checked and either accepted or refused, with RTSTAT recording the refusal. -/
  | routeTableWrite
  /-- TIMED_ACTION_FIRE (R189): An armed timed action fires on its tick: a PEV latch, START, LRARM, gate open or DEMAND. -/
  | timedActionFire
  /-- DOMAIN_WINDOW_BOUNDARY (R399): At a window boundary a change of SYNC takes effect. -/
  | domainWindowBoundary
  /-- SERVO_ADJUST (R399): The 1588 servo adds or withholds one tick in every core. -/
  | servoAdjust
  /-- PTP_EVENT (R450): A PTP event message arrives and is stamped in WT at the port. -/
  | ptpEvent
  /-- ETH_LINK_EVENT (R450): An Ethernet link comes up or goes down, and traffic to an unreachable member waits. -/
  | ethLinkEvent
  /-- REMOTE_ACCESS_ARRIVAL (R451): A space-0x8 access arrives from another module and is translated under the domain table's context. -/
  | remoteAccessArrival
  /-- L1_SECTOR_AGE_WRITEBACK (R294): A dirty L1 sector 16,384 cycles old is written back. -/
  | l1SectorAgeWriteback
  /-- BANK_IDLE_LOWER (R315): An idle bank passes a threshold and is lowered to DOZE, RETAIN or DEEP above its floor. -/
  | bankIdleLower
  /-- BANK_WAKE_COMPLETE (R312): A bank's wake latency ends and the bank is ACTIVE, releasing the accesses that wait on it. -/
  | bankWakeComplete
  /-- BWPH_APPLY (R321): A phase declaration is applied at its WT, and SHORT is judged. -/
  | bwphApply
  /-- BANK_PHASE_WAKE_START (R321): The BPC starts a named bank's wake no later than the declared time minus its latency. -/
  | bankPhaseWakeStart
  /-- BWPH_PHASE_TIME (R192): WT reaches BWPHWT: PEND clears and the named banks are held ACTIVE. -/
  | bwphPhaseTime
  /-- BPC_CLASS_WRITE (R319): A write of a bank's CLASS sets its floor and may begin a wake. -/
  | bpcClassWrite
  /-- BUDGET_INTERVAL_BOUNDARY (R325): At an interval boundary the byte count returns to zero and waiting transfers are granted in order. -/
  | budgetIntervalBoundary
  /-- CL_QREQ_WRITE (R420): Setting or clearing QREQ stops or releases a cluster's boundary-crossing requests. -/
  | clQreqWrite
  /-- CL_SWALLOW_REQ_WRITE (R421): A write of the requested clock pattern is accepted, or refused when it is 0 while the cluster is not QUIET. -/
  | clSwallowReqWrite
  /-- QUIESCE_POINT_CHANGE (R419): At a quiesce point CUR takes the effective pattern in every cluster concerned. -/
  | quiescePointChange
  /-- SWALLOW_FORCE_TIMEOUT (R419): After 4,096 ticks with SWPEND set, FORCED is set and the clusters stop new crossing requests. -/
  | swallowForceTimeout
  /-- CL_RAIL_REQ_WRITE (R423): A rail-state request is checked and starts a rail transition, or is refused with ERRCODE. -/
  | clRailReqWrite
  /-- RAIL_TRANSITION_DONE (R422): The rail reaches RETENTION or OFF, with the retention set saved first for OFF. -/
  | railTransitionDone
  /-- CL_WAKE_WRITE (R425): A wake request waits for any rail change, is refused under T3, or raises the rail. -/
  | clWakeWrite
  /-- CLUSTER_WAKE_DONE (R425): The rail is ON, the retention set is restored, QREQ clears, and the new pattern is delivered. -/
  | clusterWakeDone
  /-- THERMAL_SAMPLE (R426): Every 1,600 ticks the sensors are sampled, and levels are entered or left. -/
  | thermalSample
  /-- ENERGY_INTERVAL (R429): At the end of each 1,600-tick interval, each core's estimated energy is added to its account. -/
  | energyInterval
  /-- BALLAST_STEP (R428): Every 200 ticks, ballast around a timed START steps up or down. -/
  | ballastStep
  /-- RMC_WAKE (R430): A halted RMC resumes after its HALT when a wake event occurs. -/
  | rmcWake
  /-- RMC_DOORBELL (R458): A write to RMCDB wakes the RMC, or clears FAULT and restarts it at RMCPC. -/
  | rmcDoorbell
  /-- RETCMD_TEST (R441): Starts the built-in test of an unowned core. -/
  | retcmdTest
  /-- TEST_COMPLETE (R441): The built-in test ends, and its result is written to RETSTAT.CODE. -/
  | testComplete
  /-- RETCMD_RETIRE (R440): Starts retirement of a core: its units stop, its plots become UNCONF, routes to it are invalidated and its slice leaves the interleave. -/
  | retcmdRetire
  /-- RETCMD_CELLBAD (R440): Marks a cell defective, unconfigures plots over it and advances the map generation. -/
  | retcmdCellbad
  /-- RETIRE_COMPLETE (R440): The DRAM re-lay ends, the map marks the core retired, MAPGEN advances, indices are recounted and BUSY clears. -/
  | retireComplete
  /-- PATROL_SCRUB (R443): Patrol reads and corrects the next units of ACTIVE or DOZE banks and slice rows. -/
  | patrolScrub
  /-- SLICE_ROW_REMAP (R444): A slice remaps a row that keeps erring onto a spare row. -/
  | sliceRowRemap
  /-- DBGCTL_HALTALL (R454): Raises every enabled partition's halt line in one tick. -/
  | dbgctlHaltall
  /-- DBGCTL_RESUMEALL (R454): When DONE = 1, resumes every partition and clears DBGSTAT. -/
  | dbgctlResumeall
  /-- TEST_PORT_HALT (R454): The test port's HALT instruction halts the whole wafer. -/
  | testPortHalt
  /-- COLL_COMPLETE (R184): The last participant arrives and the collective completes at every rank. -/
  | collComplete
  /-- ILLEGAL_ENCODING (R120): A headgate issues a word that decodes to no instruction, such as an unassigned opcode or FN or the all-zero word, and raises ILLEGAL precisely. -/
  | illegalEncoding
  /-- INSTRUCTION_FETCH_FAULT (R124): An instruction fetch fails translation, hits an unallocated bank or an unfetchable space, or breaks the RMC firmware bounds, and raises the fetch's cause precisely at the fetched address. -/
  | instructionFetchFault
  /-- STREAM_NODE_WRITE_WALK (R266): A stream node's write walk writes staged elements to the destination shape, advancing independently of the read walk, and the command finishes when its last element is written. -/
  | streamNodeWriteWalk
  /-- REMOTE_ACKNOWLEDGEMENT (R307): A reply or acknowledgement for a space-0x8 access comes back from the target module and releases the waiting store, load, WFENCE or domain release. -/
  | remoteAcknowledgement
  /-- ETH_FRAME_RETRANSMIT (R450): A Sarailon frame to a peer is lost or refused and is retransmitted, and ETHSTAT.ERRS counts it. -/
  | ethFrameRetransmit
  /-- SERVO_LOCK_CHANGE (R398): The 1588 servo gains or loses lock, which changes DTSTAT.LOCKED and OFFB and therefore SYNC. -/
  | servoLockChange
  deriving DecidableEq, Repr

end Sys2Proof
end

