-- ==== Sys2Proof/Machine/Num.lean ====
section
/-! DEFINITION. Number formats and arithmetic (02): exact values, rounding to a format, conversions, seeds. -/

namespace Sys2Proof.Machine

/-- The exact value of a float or integer element: a NaN, an infinity, or (-1)^neg x mag x 2^e. -/
inductive FVal where
  | nan
  | inf (neg : Bool)
  | fin (neg : Bool) (mag : Nat) (e : Int)
  deriving DecidableEq, Repr

/-- A way of rounding: the modes of R37, and SR with its 16-bit draw (02 R38). -/
inductive Rnd where
  | rne | rtz | rup | rdn
  | sr (r : Nat)
  deriving DecidableEq, Repr

/-- The flush classes of 02 R35. -/
inductive FClass where
  | f32 | h | q8 | q4 | none
  deriving DecidableEq, Repr

/-- How a format spells infinities and NaNs (02 R23). -/
inductive FKind where
  | ieee | e4m3 | e2m1 | e3m5
  deriving DecidableEq, Repr

/-- The layout of a float format. -/
structure FSpec where
  eb : Nat
  mb : Nat
  bias : Int
  kind : FKind
  cls : FClass
  deriving DecidableEq, Repr

/-- The layout of an integer format: width and sign. -/
structure ISpec where
  w : Nat
  signed : Bool
  deriving DecidableEq, Repr

/-- The float formats of 02 R23. -/
def fspec : Fmt → Option FSpec
  | .f32 => some ⟨8, 23, 127, .ieee, .f32⟩
  | .bf16 => some ⟨8, 7, 127, .ieee, .h⟩
  | .f16 => some ⟨5, 10, 15, .ieee, .h⟩
  | .e4m3 => some ⟨4, 3, 7, .e4m3, .q8⟩
  | .e5m2 => some ⟨5, 2, 15, .ieee, .q8⟩
  | .e2m1 => some ⟨2, 1, 1, .e2m1, .q4⟩
  | .e3m5 => some ⟨3, 5, 3, .e3m5, .q4⟩
  | .i8 | .i4 | .i32 | .n8 | .n32 | .cb4 => none

/-- The integer formats of 02 R23; a cb4 code is its index. -/
def ispec : Fmt → Option ISpec
  | .i8 => some ⟨8, true⟩
  | .i4 => some ⟨4, true⟩
  | .i32 => some ⟨32, true⟩
  | .n8 => some ⟨8, false⟩
  | .n32 => some ⟨32, false⟩
  | .cb4 => some ⟨4, false⟩
  | .f32 | .bf16 | .f16 | .e4m3 | .e5m2 | .e2m1 | .e3m5 => none

/-- The bits of an element (02 R23). -/
def fmtWidth : Fmt → Nat
  | .f32 | .i32 | .n32 => 32
  | .bf16 | .f16 => 16
  | .e4m3 | .e5m2 | .i8 | .n8 | .e3m5 => 8
  | .e2m1 | .i4 | .cb4 => 4

/-- binary64, in which BDOT leaves 8-bit partials (02 R41). -/
def spec64 : FSpec := ⟨11, 52, 1023, .ieee, .none⟩
/-- f32's layout. -/
def spec32 : FSpec := ⟨8, 23, 127, .ieee, .f32⟩

/-- FMODE.RM (02 R33). -/
def fmRm (fm : Word) : Nat := bits fm.toNat 0 3
/-- FMODE.SATF (02 R33). -/
def fmSat (fm : Word) : Bool := bit fm.toNat 4
/-- The FTZI bit of a class (02 R33). -/
def ftzi (fm : Word) : FClass → Bool
  | .f32 => bit fm.toNat 8
  | .h => bit fm.toNat 10
  | .q8 => bit fm.toNat 12
  | .q4 => bit fm.toNat 14
  | .none => false
/-- The FTZO bit of a class (02 R33). -/
def ftzo (fm : Word) : FClass → Bool
  | .f32 => bit fm.toNat 9
  | .h => bit fm.toNat 11
  | .q8 => bit fm.toNat 13
  | .q4 => bit fm.toNat 15
  | .none => false

/-- The rounding of an operation that is no conversion: SR acts as RNE (02 R37). -/
def rndOf (fm : Word) : Rnd :=
  match fmRm fm with
  | 1 => .rtz
  | 2 => .rup
  | 3 => .rdn
  | _ => .rne

/-- Does the mode give an exact zero sum the sign minus (04 R86)? -/
def isRdn : Rnd → Bool
  | .rdn => true
  | .rne | .rtz | .rup | .sr _ => false

/-- One draw of a generator: the new state and the 16-bit draw (02 R39). -/
def drawG (g : Word) : Word × Nat :=
  let g := g ^^^ (g <<< 13)
  let g := g ^^^ (g >>> 7)
  let g := g ^^^ (g <<< 17)
  (g, g.toNat / 2 ^ 48)

/-- The generator state of a SEED value: 0 stands for the constant (02 R39). -/
def seedG (x : Word) : Word := if x = 0 then 0x9E3779B97F4A7C15#64 else x

/-- The exact value of a float code (02 R23 to R27). -/
def fdecode (sp : FSpec) (x : Nat) : FVal :=
  let m := bits x 0 sp.mb
  let e := bits x sp.mb sp.eb
  let s := match sp.kind with
    | .e3m5 => false
    | _ => bit x (sp.eb + sp.mb)
  let num : FVal :=
    if e = 0 then .fin s m (1 - sp.bias - sp.mb)
    else .fin s (2 ^ sp.mb + m) (e - sp.bias - sp.mb)
  match sp.kind with
  | .ieee => if e = 2 ^ sp.eb - 1 then (if m = 0 then .inf s else .nan) else num
  | .e4m3 | .e3m5 => if e = 2 ^ sp.eb - 1 ∧ m = 2 ^ sp.mb - 1 then .nan else num
  | .e2m1 => num

/-- Is a code subnormal in its format? -/
def isSub (sp : FSpec) (x : Nat) : Bool := bits x sp.mb sp.eb == 0 && bits x 0 sp.mb != 0

/-- A float code read with its class's input flush (02 R35). -/
def fread (fm : Word) (sp : FSpec) (x : Nat) : FVal :=
  if isSub sp x && ftzi fm sp.cls then
    .fin (match sp.kind with | .e3m5 => false | _ => bit x (sp.eb + sp.mb)) 0 0
  else fdecode sp x

/-- An integer as an exact value. -/
def ofInt (x : Int) : FVal := .fin (decide (x < 0)) x.natAbs 0

/-- The integer of a code of an integer format. -/
def iread (sp : ISpec) (x : Nat) : Int := if sp.signed then sx x sp.w else (x % 2 ^ sp.w : Nat)

/-- An element of any format but cb4 read as an exact value (02 R35). -/
def readElem (fm : Word) (f : Fmt) (x : Nat) : FVal :=
  match fspec f with
  | some sp => fread fm sp x
  | none => match ispec f with
    | some sp => ofInt (iread sp x)
    | none => .nan

/-- fin(v): 32 bits read as f32 with FTZI_F32 (04 R78). -/
def fin32 (fm : Word) (x : Nat) : FVal := fread fm spec32 x

/-- The canonical NaN of a float layout (02 R23); e2m1 has none and gives +0 (R40). -/
def canonNaN (sp : FSpec) : Nat :=
  match sp.kind with
  | .ieee => (2 ^ sp.eb - 1) * 2 ^ sp.mb + 2 ^ (sp.mb - 1)
  | .e4m3 => 0x7F
  | .e3m5 => 0xFF
  | .e2m1 => 0

/-- The magnitude code of the largest finite value (02 R23). -/
def maxFinite (sp : FSpec) : Nat :=
  match sp.kind with
  | .ieee => (2 ^ sp.eb - 1) * 2 ^ sp.mb - 1
  | .e4m3 | .e3m5 => 2 ^ (sp.eb + sp.mb) - 2
  | .e2m1 => 2 ^ (sp.eb + sp.mb) - 1

/-- Does a magnitude of k whole steps and a rest rem/den (not zero) round up to k + 1? (02 R37, R38). -/
def roundUp (rnd : Rnd) (neg : Bool) (k rem den : Nat) : Bool :=
  match rnd with
  | .rne => decide (2 * rem > den) || (decide (2 * rem = den) && k % 2 == 1)
  | .rtz => false
  | .rup => !neg
  | .rdn => neg
  | .sr r => if neg then !decide (r < 2 ^ 16 * (den - rem) / den) else decide (r < 2 ^ 16 * rem / den)

/-- num/den x 2^e in whole steps of 2^q: the steps, the rest and its denominator. -/
def steps (num den : Nat) (e q : Int) : Nat × Nat × Nat :=
  let n := num * 2 ^ (e - q).toNat
  let d := den * 2 ^ (q - e).toNat
  (n / d, n % d, d)

/-- The exponent of the leading bit of num/den x 2^e, for num, den above 0. -/
def topExp (num den : Nat) (e : Int) : Int :=
  let ln := bitLen num
  let ld := bitLen den
  if num * 2 ^ ld ≥ den * 2 ^ ln then (ln : Int) - ld + e else (ln : Int) - ld - 1 + e

/-- The exponent of the grid step around num/den x 2^e: p significant bits, but no finer than 2^qmin. -/
def gridExp (num den : Nat) (e : Int) (p : Nat) (qmin : Int) : Int :=
  if num = 0 then qmin else max (topExp num den e - (p - 1 : Nat)) qmin

/-- A magnitude rounded to a grid of p significant bits and least step 2^qmin: the code ((q - qmin) x 2^(p-1)) + k, in
which a float's exponent and mantissa fields stand, unbounded upwards; and whether it was inexact. -/
def roundMag (rnd : Rnd) (neg : Bool) (num den : Nat) (e : Int) (p : Nat) (qmin : Int) : Nat × Bool :=
  let q := gridExp num den e p qmin
  let (k, rem, d) := steps num den e q
  let k' := if rem = 0 then k else if roundUp rnd neg k rem d then k + 1 else k
  ((q - qmin).toNat * 2 ^ (p - 1) + k', rem != 0)

/-- Where an overflow of the IEEE formats goes when nothing saturates: true for the infinity (02 R40). -/
def overflowInf (rnd : Rnd) (neg : Bool) : Bool :=
  match rnd with
  | .rne | .sr _ => true
  | .rtz => false
  | .rup => !neg
  | .rdn => neg

/-- The code of sign and magnitude. -/
def signed (sp : FSpec) (neg : Bool) (m : Nat) : Nat := (if neg then 2 ^ (sp.eb + sp.mb) else 0) + m

/-- The code of (-1)^neg x num/den x 2^e in a float format: rounded, overflow handled, flushed (02 R40). -/
def encodeFin (fm : Word) (sp : FSpec) (sat : Bool) (rnd : Rnd) (neg : Bool) (num den : Nat) (e : Int) : Nat :=
  let m := (roundMag rnd neg num den e (sp.mb + 1) (1 - sp.bias - sp.mb)).1
  let ovf := decide (m > maxFinite sp)
  let m' := if !ovf && ftzo fm sp.cls && decide (m < 2 ^ sp.mb) then 0 else m
  match sp.kind with
  | .ieee =>
    if ovf then
      if sat || !overflowInf rnd neg then signed sp neg (maxFinite sp)
      else signed sp neg ((2 ^ sp.eb - 1) * 2 ^ sp.mb)
    else signed sp neg m'
  | .e4m3 => if ovf then (if sat then signed sp neg (maxFinite sp) else 0x7F) else signed sp neg m'
  | .e2m1 => signed sp neg (if ovf then maxFinite sp else m')
  | .e3m5 =>
    if neg then (if m = 0 then 0 else if sat then 0 else 0xFF)
    else if ovf then (if sat then maxFinite sp else 0xFF)
    else m'

/-- The code of an infinity (02 R40). -/
def encodeInf (sp : FSpec) (sat : Bool) (neg : Bool) : Nat :=
  match sp.kind with
  | .ieee => signed sp neg (if sat then maxFinite sp else (2 ^ sp.eb - 1) * 2 ^ sp.mb)
  | .e4m3 => if sat then signed sp neg (maxFinite sp) else 0x7F
  | .e2m1 => signed sp neg (maxFinite sp)
  | .e3m5 => if neg then (if sat then 0 else 0xFF) else if sat then maxFinite sp else 0xFF

/-- The code of an exact value in a float format. -/
def encodeVal (fm : Word) (sp : FSpec) (sat : Bool) (rnd : Rnd) : FVal → Nat
  | .nan => canonNaN sp
  | .inf s => encodeInf sp sat s
  | .fin s m e => encodeFin fm sp sat rnd s m 1 e

/-- rnd32(t) (04 R78). -/
def rnd32 (fm : Word) (t : FVal) : Nat := encodeVal fm spec32 false (rndOf fm) t

/-- An integer limited to a format's range. -/
def clampInt (sp : ISpec) (x : Int) : Int :=
  let lo : Int := if sp.signed then -(2 ^ (sp.w - 1) : Int) else 0
  let hi : Int := if sp.signed then 2 ^ (sp.w - 1) - 1 else 2 ^ sp.w - 1
  max lo (min hi x)

/-- num/den x 2^e rounded to an integer magnitude. -/
def roundInt (rnd : Rnd) (neg : Bool) (num den : Nat) (e : Int) : Nat × Bool :=
  let (k, rem, d) := steps num den e 0
  ((if rem = 0 then k else if roundUp rnd neg k rem d then k + 1 else k), rem != 0)

/-- Is the quotient inexact on the destination's grid (02 R38)? -/
def inexactTo (dst : Fmt) (num den : Nat) (e : Int) : Bool :=
  match fspec dst with
  | some sp => (roundMag .rtz false num den e (sp.mb + 1) (1 - sp.bias - sp.mb)).2
  | none => (roundInt .rtz false num den e).2

/-- A finite quotient converted to a format with a given rounding (02 R40). -/
def convFin (fm : Word) (dst : Fmt) (rnd : Rnd) (neg : Bool) (num den : Nat) (e : Int) : Nat :=
  match fspec dst with
  | some sp => encodeFin fm sp (fmSat fm) rnd neg num den e
  | none => match ispec dst with
    | some sp =>
      let m := (roundInt rnd neg num den e).1
      keep sp.w (clampInt sp (if neg then -(m : Int) else m))
    | none => 0

/-- A NaN or infinity converted to a format (02 R40). -/
def convSpecial (fm : Word) (dst : Fmt) : FVal → Nat
  | .inf s => match fspec dst with
    | some sp => encodeInf sp (fmSat fm) s
    | none => match ispec dst with
      | some sp => keep sp.w (if s then clampInt sp (-(2 ^ 64)) else clampInt sp (2 ^ 64))
      | none => 0
  | _ => match fspec dst with
    | some sp => canonNaN sp
    | none => 0

/-- The rounding of a conversion, and the generator after its draw if it draws (02 R38). -/
def convRnd (fm : Word) (g : Word) (inexact : Bool) : Rnd × Word :=
  if fmRm fm = 4 then
    if inexact then let (g', r) := drawG g; (.sr r, g') else (.rne, g)
  else (rndOf fm, g)

/-- conv(v, F) (04 R78): the code, and the generator after the draw an inexact SR conversion makes. -/
def conv (fm g : Word) (dst : Fmt) : FVal → Nat × Word
  | .fin s m e =>
    let (r, g') := convRnd fm g (inexactTo dst m 1 e)
    (convFin fm dst r s m 1 e, g')
  | v => (convSpecial fm dst v, g)

/-- Integer to integer: low bits when SATF = 0, the range limit when it is 1 (02 R40). -/
def convInt (fm : Word) (dst : ISpec) (x : Int) : Nat := keep dst.w (if fmSat fm then clampInt dst x else x)

/-- Convert an element of one format to another, from its code (02 R40). -/
def convElem (fm g : Word) (dst from_ : Fmt) (x : Nat) : Nat × Word :=
  match ispec from_, ispec dst with
  | some a, some b => (convInt fm b (iread a x), g)
  | _, _ => conv fm g dst (readElem fm from_ x)

/-- Sign change. -/
def FVal.neg : FVal → FVal
  | .nan => .nan
  | .inf s => .inf (!s)
  | .fin s m e => .fin (!s) m e

/-- Magnitude. -/
def FVal.abs : FVal → FVal
  | .nan => .nan
  | .inf _ => .inf false
  | .fin _ m e => .fin false m e

/-- Is it a zero of either sign? -/
def FVal.isZero : FVal → Bool
  | .fin _ m _ => m == 0
  | .nan | .inf _ => false

def FVal.isNan : FVal → Bool
  | .nan => true
  | .inf _ | .fin _ _ _ => false

/-- The exact product, with IEEE specials. -/
def FVal.mul : FVal → FVal → FVal
  | .nan, _ | _, .nan => .nan
  | .inf s, .inf t => .inf (s != t)
  | .inf s, .fin t m _ => if m = 0 then .nan else .inf (s != t)
  | .fin t m _, .inf s => if m = 0 then .nan else .inf (s != t)
  | .fin s m e, .fin t n f => .fin (s != t) (m * n) (e + f)

/-- The signed mantissa of a finite value at exponent q, for q at or below its own. -/
def mantAt (s : Bool) (m : Nat) (e q : Int) : Int :=
  let k : Int := (m * 2 ^ (e - q).toNat : Nat)
  if s then -k else k

/-- The exact sum, with IEEE specials; an exact zero from unlike signs is minus zero when rdn is set (04 R86). -/
def FVal.add (rdn : Bool) : FVal → FVal → FVal
  | .nan, _ | _, .nan => .nan
  | .inf s, .inf t => if s = t then .inf s else .nan
  | .inf s, .fin _ _ _ => .inf s
  | .fin _ _ _, .inf s => .inf s
  | .fin s m e, .fin t n f =>
    if m = 0 ∧ n = 0 then .fin (if s = t then s else rdn) 0 0
    else
      let q := min e f
      let k := mantAt s m e q + mantAt t n f q
      if k = 0 then .fin rdn 0 0 else .fin (decide (k < 0)) k.natAbs q

/-- Strictly below, for values that are no NaN; +0 equals -0. -/
def FVal.lt : FVal → FVal → Bool
  | .nan, _ | _, .nan => false
  | .inf s, .inf t => s && !t
  | .inf s, .fin _ _ _ => s
  | .fin _ _ _, .inf t => !t
  | .fin s m e, .fin t n f => let q := min e f; decide (mantAt s m e q < mantAt t n f q)

/-- Equal as numbers; false on a NaN. -/
def FVal.eq (a b : FVal) : Bool := !a.isNan && !b.isNan && !a.lt b && !b.lt a

/-- The sign bit of a value. -/
def FVal.sign : FVal → Bool
  | .nan => false
  | .inf s => s
  | .fin s _ _ => s

/-- MIN of R45: NaN when either is; -0 below +0. -/
def FVal.min2 (a b : FVal) : FVal :=
  if a.isNan || b.isNan then .nan
  else if a.lt b then a
  else if b.lt a then b
  else if a.sign then a else b

/-- MAX of R45. -/
def FVal.max2 (a b : FVal) : FVal :=
  if a.isNan || b.isNan then .nan
  else if a.lt b then b
  else if b.lt a then a
  else if a.sign then b else a

/-- The exact sum of a list onto a first value. -/
def FVal.sum (rdn : Bool) (t : FVal) (l : List FVal) : FVal := l.foldl (FVal.add rdn) t

/-- The f32 magnitude bits of |v| rounded towards zero, +inf for an infinity (04 R84); none for a NaN. -/
def amaxBits : FVal → Option Nat
  | .nan => none
  | .inf _ => some 0x7F800000
  | .fin _ m e =>
    let c := (roundMag .rtz false m 1 e 24 (-149)).1
    some (if c > 0x7F7FFFFF then 0x7F7FFFFF else c)

/-- AMAX and NSEEN after one update (02 R48). -/
def amaxUpdate (amax : Nat) (nseen : Bool) (v : FVal) : Nat × Bool :=
  match amaxBits v with
  | none => (amax, true)
  | some m => (max amax m, nseen)

/-! Seeds (02 R46). -/

/-- A magnitude rounded to 13 significant bits with ties to even, then to f32 under RNE, with FTZO_F32. -/
def seedOut (fm : Word) (neg : Bool) (num : Nat) (e : Int) : Nat :=
  let q := gridExp num 1 e 13 (-100000)
  let (k, rem, d) := steps num 1 e q
  let k' := if rem = 0 then k else if roundUp .rne neg k rem d then k + 1 else k
  encodeFin fm spec32 false .rne neg k' 1 q

/-- 1/x of a nonzero magnitude: 64 quotient bits and a sticky bit. -/
def recip (m : Nat) (e : Int) : Nat × Int :=
  let k := bitLen m + 64
  let q := 2 ^ k / m
  let st := if 2 ^ k % m = 0 then 0 else 1
  (2 * q + st, -(k : Int) - 1 - e)

/-- 1/sqrt x of a nonzero magnitude: at least 60 root bits and a sticky bit. -/
def rsqrt (m : Nat) (e : Int) : Nat × Int :=
  -- make the exponent even
  let odd : Bool := e % 2 != 0
  let m' := if odd then 2 * m else m
  let e' : Int := if odd then e - 1 else e
  let k := bitLen m' + 64
  let z := 2 ^ (2 * k) / m'
  let r := isqrt z
  let st := if r * r * m' = 2 ^ (2 * k) then 0 else 1
  (2 * r + st, -(k : Int) - 1 - e' / 2)

/-- ln 2 in units of 2^-160. -/
def ln2Fix : Nat := 0xb17217f7d1cf79abc9e3b39803f2f6af40f34326

/-- The Taylor sum of exp y - 1, y in units of 2^-160: term n and fuel. -/
def expSum (y : Nat) : Nat → Nat → Nat → Nat
  | 0, _, _ => 0
  | fuel + 1, n, t =>
    let t' := t * y / 2 ^ 160 / n
    t' + expSum y fuel (n + 1) t'

/-- 2^f for a fraction f in units of 2^-160: floor, in units of 2^-160. -/
def exp2Fix (f : Nat) : Nat := 2 ^ 160 + expSum (f * ln2Fix / 2 ^ 160) 45 1 (2 ^ 160)

/-- The series z + z^3/3 + z^5/5 + ... of atanh, z in units of 2^-160. -/
def atanhSum (z2 : Nat) : Nat → Nat → Nat → Nat
  | 0, _, _ => 0
  | fuel + 1, n, t => t / n + atanhSum z2 fuel (n + 2) (t * z2 / 2 ^ 160)

/-- log2 of m x 2^-k in [1, 2): in units of 2^-160. -/
def log2Fix (m k : Nat) : Nat :=
  let z := (m - 2 ^ k) * 2 ^ 160 / (m + 2 ^ k)
  2 * atanhSum (z * z / 2 ^ 160) 55 1 z * 2 ^ 160 / ln2Fix

/-- 2^x for a finite nonzero x: a magnitude with a sticky bit, and its exponent; clipped far outside f32's range. -/
def exp2 (s : Bool) (m : Nat) (e : Int) : Nat × Int :=
  -- floor and fraction of x in units of 2^-160
  let fx : Int :=
    let n : Nat := if e ≥ -160 then m * 2 ^ (min (e + 160) 300).toNat else m / 2 ^ (-160 - e).toNat
    let n' : Int := n
    if s then (if e ≥ -160 then -n' else if m % 2 ^ (-160 - e).toNat = 0 then -n' else -n' - 1) else n'
  let ip := fx / 2 ^ 160
  let fp := (fx % 2 ^ 160).toNat
  let ipc := max (-1000) (min 1000 ip)
  let exact : Bool := decide (e ≥ -160) && fp == 0
  if exact then (2, ipc - 1) else (2 * exp2Fix fp + 1, ipc - 161)

/-- The seed operations. -/
inductive SeedOp where
  | rsqs | rcps | exp2s | log2s
  deriving DecidableEq, Repr

/-- A seed operation on an f32 value (02 R46): the special values, then the 13-bit result. -/
def seed (fm : Word) (op : SeedOp) (v : FVal) : Nat :=
  let nan := 0x7FC00000
  let inf := fun (s : Bool) => if s then 0xFF800000 else 0x7F800000
  let zero := fun (s : Bool) => if s then 0x80000000 else 0
  match op with
  | .rsqs => match v with
    | .nan => nan
    | .inf s => if s then nan else 0
    | .fin s m e =>
      if m = 0 then inf s
      else if s then nan
      else let (n, q) := rsqrt m e; seedOut fm false n q
  | .rcps => match v with
    | .nan => nan
    | .inf s => zero s
    | .fin s m e => if m = 0 then inf s else let (n, q) := recip m e; seedOut fm s n q
  | .exp2s => match v with
    | .nan => nan
    | .inf s => if s then 0 else inf false
    | .fin s m e => if m = 0 then 0x3F800000 else let (n, q) := exp2 s m e; seedOut fm false n q
  | .log2s => match v with
    | .nan => nan
    | .inf s => if s then nan else inf false
    | .fin s m e =>
      if m = 0 then inf true
      else if s then nan
      else
        let k := bitLen m - 1
        let ip : Int := k + e
        let fr := log2Fix m k
        let x : Int := ip * 2 ^ 160 + fr
        if m = 2 ^ k then (if ip = 0 then 0 else seedOut fm (decide (ip < 0)) ip.natAbs 0)
        else
          -- the value lies strictly inside (x, x + 1) units: append a sticky bit
          let neg := decide (x < 0)
          let n := if neg then 2 * (-x).toNat - 1 else 2 * x.toNat + 1
          seedOut fm neg n (-161)

/-! The block-scale rule (08 R216). -/

/-- The largest magnitude of a list after the input flush, NaNs ignored. -/
def maxMag (l : List FVal) : FVal :=
  l.foldl (fun a v => if v.isNan then a else FVal.max2 a v.abs) (.fin false 0 0)

/-- F of R216, as a mantissa and an exponent. -/
def blockF : Fmt → Nat
  | .e2m1 => 6
  | .e4m3 => 448
  | .e5m2 => 57344
  | _ => 1

/-- The smallest e3m5 code at or above num/den x 2^e, 0xFE when it exceeds 31 (08 R216). -/
def scaleCode (num den : Nat) (e : Int) : Nat :=
  let c := (roundMag .rup false num den e 6 (-7)).1
  if c > 0xFE then 0xFE else c

/-- The scale of a block (08 R216). -/
def blockScale (fm : Word) (dst : Fmt) (l : List FVal) : Nat :=
  match maxMag l with
  | .fin _ m e =>
    if m = 0 then 0
    else
      let c := scaleCode m (blockF dst) e
      if ftzo fm .q4 then max c 0x20 else c
  | .inf _ => 0xFE
  | .nan => 0

/-- The exact quotient of a value by a positive finite scale, converted (08 R216). -/
def convQuot (fm g : Word) (dst : Fmt) (x : FVal) (sm : Nat) (se : Int) : Nat × Word :=
  match x with
  | .fin s m e =>
    let (r, g') := convRnd fm g (inexactTo dst m sm (e - se))
    (convFin fm dst r s m sm (e - se), g')
  | v => (convSpecial fm dst v, g)

/-- Is |a - x| below |b - x| for finite a, b and the quotient x = xm/sm x 2^xe (signed xm)? Compared exactly. -/
def nearer (a b : Int × Int) (xm : Int) (xe : Int) (sm : Nat) : Bool :=
  -- multiply everything by sm and bring to one exponent
  let q := min a.2 (min b.2 xe)
  let at_ := fun (p : Int × Int) => p.1 * sm * 2 ^ (p.2 - q).toNat - xm * 2 ^ (xe - q).toNat
  decide ((at_ a).natAbs < (at_ b).natAbs)

/-- The signed mantissa and exponent of a finite f16 codebook entry. -/
def cbEntry (cb : List Nat) (k : Nat) : Int × Int :=
  match fdecode ⟨5, 10, 15, .ieee, .h⟩ (cb.getD k 0) with
  | .fin s m e => ((if s then -(m : Int) else m), e)
  | _ => (0, 0)

/-- The codebook index nearest to a quotient, ties to the lower index (08 R216). -/
def cbNearest (cb : List Nat) (xm : Int) (xe : Int) (sm : Nat) : Nat :=
  ((List.range 15).foldl (fun best k =>
    if nearer (cbEntry cb (k + 1)) (cbEntry cb best) xm xe sm then k + 1 else best) 0)

/-- The codebook index of an infinite value. Every entry is infinitely far from it; DESIGN CHOICE (log 61): the entry of largest or smallest
value, lowest index first. -/
def cbExtreme (cb : List Nat) (neg : Bool) : Nat :=
  ((List.range 15).foldl (fun best k =>
    let v := fdecode ⟨5, 10, 15, .ieee, .h⟩ (cb.getD (k + 1) 0)
    let b := fdecode ⟨5, 10, 15, .ieee, .h⟩ (cb.getD best 0)
    if (if neg then v.lt b else b.lt v) then k + 1 else best) 0)

/-- One code of a block (08 R216). -/
def blockCode (fm g : Word) (cb : List Nat) (dst : Fmt) (scale : Nat) (x : FVal) : Nat × Word :=
  match fdecode ⟨3, 5, 3, .e3m5, .q4⟩ scale with
  | .fin _ sm se =>
    match dst with
    | .cb4 =>
      if sm = 0 then (cbNearest cb 0 0 1, g)
      else match x with
      | .nan => (0, g)
      | .inf s => (cbExtreme cb s, g)
      | .fin s m e => (cbNearest cb (if s then -(m : Int) else m) (e - se) sm, g)
    | _ => if sm = 0 then (0, g) else convQuot fm g dst x sm se
  | _ => (0, g)

/-- A block of values as its scale, its codes and the generator afterwards (08 R216). -/
def blockConv (fm g : Word) (cb : List Nat) (dst : Fmt) (l : List FVal) : Nat × List Nat × Word :=
  let sc := blockScale fm dst l
  let (cs, g') := l.foldl (fun (acc : List Nat × Word) x =>
    let (c, g') := blockCode fm acc.2 cb dst sc x
    (acc.1 ++ [c], g')) ([], g)
  (sc, cs, g')

end Sys2Proof.Machine
end

