-- ==== Sys2Proof/WellFormed.lean ====
section
/-! DEFINITION. Which field values that are each in range make a well-formed instruction: the conditions of the manual
that relate fields of one word to each other (05 R119, R121, R125, R126; 07 R166, R170, R183; 08 R221, R232, R235). -/

namespace Sys2Proof

/-- The formats of an all-reduce or reduce-scatter: 0, 1, 2, 8 and 10 (07 R183). -/
def Fmt.reducible : Fmt → Bool
  | .f32 | .bf16 | .f16 | .i32 | .n32 => true
  | .e4m3 | .e5m2 | .e2m1 | .i8 | .i4 | .n8 | .e3m5 | .cb4 => false

/-- The destinations of the block-scale rule: e4m3, e5m2, e2m1 and cb4 (08 R235). -/
def Fmt.blockScalable : Fmt → Bool
  | .e4m3 | .e5m2 | .e2m1 | .cb4 => true
  | .f32 | .bf16 | .f16 | .i8 | .i4 | .i32 | .n8 | .n32 | .e3m5 => false

/-- The conversion pairs of VCVT, destination first (08 R232). -/
def vcvtPair : Fmt → Fmt → Bool
  | .f32, .f32 => false
  | .f32, .cb4 => false
  | .f32, _ => true
  | .cb4, .f32 => false
  | _, .f32 => true
  | .i4, .i32 | .i8, .i32 | .n8, .i32 => true
  | .i32, .i4 | .i32, .i8 | .i32, .n8 => true
  | _, _ => false

/-- An instruction whose fields agree with each other. An event is always well formed: one whose conditions do not hold
when it is due changes nothing. -/
def Instr.wellFormed : Instr → Bool
  | .powerOnReset => true
  | .hostPortTraining => true
  | .mread => true
  | .mwrite => true
  | .registerWrite => true
  | .mbBoot => true
  | .mbAttest => true
  | .mbPubkey => true
  | .mbManifest => true
  | .mbInstall => true
  | .mbCmap => true
  | .hostBuild => true
  | .hostLaunch => true
  | .hostCancel => true
  | .hostClear => true
  | .hostTeardown => true
  | .semRead => true
  | .semFree => true
  | .deviceLaunch => true
  | .launchDispatch => true
  | .preemptRequest => true
  | .graphNodeEnd => true
  | .graphNodeLoad => true
  | .loadEnd => true
  | .graphNodeCond => true
  | .graphNodeWhile => true
  | .graphNodeHold => true
  | .holdNodeReread => true
  | .graphNodeArm => true
  | .partitionEnable => true
  | .pcmdResume => true
  | .pcmdHalt => true
  | .pcmdSwitch => true
  | .pringrdWrite => true
  | .pringbaseWrite => true
  | .pstopbaseWrite => true
  | .pringctlWrite => true
  | .kmfifoRead => true
  | .ctxCreate => true
  | .ctxDestroy => true
  | .xinvCtx => true
  | .xinvPage => true
  | .xinvAll => true
  | .xinvComplete => true
  | .translationWalkDone => true
  | .yieldDeadline => true
  | .cooperativeStop => true
  | .cooperativeTimeout => true
  | .contextFlip => true
  | .bankSpillRestore => true
  | .haltLineArrival => true
  | .stopRecordsDone => true
  | .plotRowAttempt => true
  | .markCommit => true
  | .timingLimit => true
  | .plotRelease => true
  | .tstepFeedPresent => true
  | .cfgSwitching => true
  | .cfgBackgroundDone => true
  | .spliceStagingDone => true
  | .streamNodeRead => true
  | .streamNodeFire => true
  | .chainFire => true
  | .decoderSegmentDecode => true
  | .decoderWordDeliver => true
  | .scaleCacheFill => true
  | .taskSchedulerCycle => true
  | .tskctlWrite => true
  | .ttbaseWrite => true
  | .queueMessageArrival => true
  | .routerForward => true
  | .packetDeliver => true
  | .routeTableWrite => true
  | .timedActionFire => true
  | .domainWindowBoundary => true
  | .servoAdjust => true
  | .ptpEvent => true
  | .ethLinkEvent => true
  | .remoteAccessArrival => true
  | .l1SectorAgeWriteback => true
  | .bankIdleLower => true
  | .bankWakeComplete => true
  | .bwphApply => true
  | .bankPhaseWakeStart => true
  | .bwphPhaseTime => true
  | .bpcClassWrite => true
  | .budgetIntervalBoundary => true
  | .clQreqWrite => true
  | .clSwallowReqWrite => true
  | .quiescePointChange => true
  | .swallowForceTimeout => true
  | .clRailReqWrite => true
  | .railTransitionDone => true
  | .clWakeWrite => true
  | .clusterWakeDone => true
  | .thermalSample => true
  | .energyInterval => true
  | .ballastStep => true
  | .rmcWake => true
  | .rmcDoorbell => true
  | .retcmdTest => true
  | .testComplete => true
  | .retcmdRetire => true
  | .retcmdCellbad => true
  | .retireComplete => true
  | .patrolScrub => true
  | .sliceRowRemap => true
  | .dbgctlHaltall => true
  | .dbgctlResumeall => true
  | .testPortHalt => true
  | .collComplete => true
  | .add _ _ _ _ => true
  | .sub _ _ _ _ => true
  | .and _ _ _ _ => true
  | .or _ _ _ _ => true
  | .xor _ _ _ _ => true
  | .andn _ _ _ _ => true
  | .shl _ _ _ _ => true
  | .shr _ _ _ _ => true
  | .sra _ _ _ _ => true
  | .ror _ _ _ _ => true
  | .min _ _ _ _ => true
  | .max _ _ _ _ => true
  | .minn _ _ _ _ => true
  | .maxn _ _ _ _ => true
  | .mul _ _ _ _ => true
  | .mulh _ _ _ _ => true
  | .mulhn _ _ _ _ => true
  | .div _ _ _ _ => true
  | .divn _ _ _ _ => true
  | .rem _ _ _ _ => true
  | .remn _ _ _ _ => true
  | .clz _ _ _ => true
  | .ctz _ _ _ => true
  | .popc _ _ _ => true
  | .brev _ _ _ => true
  | .sext _ _ _ _ => true
  | .zext _ _ _ _ => true
  | .sel _ _ _ _ => true
  | .addi _ _ _ => true
  | .andi _ _ _ => true
  | .ori _ _ _ => true
  | .xori _ _ _ => true
  | .shfiShl _ _ _ => true
  | .shfiShr _ _ _ => true
  | .shfiSra _ _ _ => true
  | .shfiRor _ _ _ => true
  | .muli _ _ _ => true
  | .li _ _ => true
  | .lis _ _ => true
  | .setpEq _ _ _ _ => true
  | .setpNe _ _ _ _ => true
  | .setpLt _ _ _ _ => true
  | .setpGe _ _ _ _ => true
  | .setpLtn _ _ _ _ => true
  | .setpGen _ _ _ _ => true
  | .setpiEq _ _ _ => true
  | .setpiNe _ _ _ => true
  | .setpiLt _ _ _ => true
  | .setpiGe _ _ _ => true
  | .pand _ _ _ _ => true
  | .por _ _ _ _ => true
  | .pxor _ _ _ _ => true
  | .pnot _ _ _ => true
  | .pmov _ _ _ => true
  | .ptos _ _ _ => true
  | .mkptr _ _ _ _ => true
  | .pspc _ _ _ => true
  | .padd _ _ _ _ => true
  | .pcore _ _ _ _ => true
  | .keylk _ _ _ _ => true
  | .br g v _ => !(g == 0 && v)
  | .call g v _ => !(g == 0 && v)
  | .jr _ _ => true
  | .jalr _ _ _ => true
  | .ret _ => true
  | .jtab _ _ _ => true
  | .loop _ l => l != 0
  | .loopi l _ => l != 0
  | .lbrk _ => true
  | .fork _ => true
  | .swq _ => true
  | .pick _ _ => true
  | .ld _ _ _ _ s m => m || s == .port
  | .st _ _ _ _ s m => m || s == .port
  | .ldv _ _ _ _ s m => m || s == .port
  | .stv _ _ _ _ s m => m || s == .port
  | .amoAadd _ _ _ _ _ _ => true
  | .amoAmin _ _ _ _ _ _ => true
  | .amoAmax _ _ _ _ _ _ => true
  | .amoAminn _ _ _ _ _ _ => true
  | .amoAmaxn _ _ _ _ _ _ => true
  | .amoAand _ _ _ _ _ _ => true
  | .amoAor _ _ _ _ _ _ => true
  | .amoAxor _ _ _ _ _ _ => true
  | .amoAswap _ _ _ _ _ _ => true
  | .amoAcas _ _ b _ _ _ => b.val ≤ 30
  | .amoAfadd _ _ _ _ _ z => !z
  | .fence _ _ => true
  | .fenceLd _ _ => true
  | .fenceSt _ _ => true
  | .wfence _ => true
  | .mfence _ => true
  | .ifence _ => true
  | .binit _ _ _ => true
  | .barr _ _ _ _ => true
  | .bwait _ _ _ => true
  | .bleave _ _ _ => true
  | .bqry _ _ _ _ => true
  | .qsend _ _ _ _ => true
  | .qrecv _ _ b _ => b.val ≤ 30
  | .qpoll _ _ _ => true
  | .collAllred _ _ _ _ f => f.reducible
  | .collRedscat _ _ _ _ f => f.reducible
  | .collAllgath _ _ _ _ => true
  | .collBcast _ _ _ _ => true
  | .collA2a _ _ _ _ => true
  | .lrpatch _ _ _ => true
  | .lrarm _ _ => true
  | .lrqry _ _ _ => true
  | .cntadd _ _ _ => true
  | .vcnt _ _ _ => true
  | .cntrd _ _ _ => true
  | .cntsnap _ _ _ => true
  | .wtrd _ _ => true
  | .atset _ _ _ _ => true
  | .atcan _ _ _ => true
  | .atwait _ _ _ => true
  | .bwph _ _ _ => true
  | .bwqry _ _ _ => true
  | .cfg _ => true
  | .cfgwait _ => true
  | .cfgwaitQ _ => true
  | .start _ => true
  | .stopp _ => true
  | .stoppNow _ => true
  | .splarm _ => true
  | .splice => true
  | .bypmap _ => true
  | .bypmapCol _ => true
  | .dlyset _ => true
  | .holdtab _ => true
  | .shld _ _ => true
  | .shst _ _ => true
  | .strm _ _ _ _ => true
  | .strmq _ _ => true
  | .xform _ _ => true
  | .cbload _ => true
  | .slset _ _ => true
  | .slput _ _ => true
  | .sltake _ _ => true
  | .slqry _ _ => true
  | .slqryD _ _ => true
  | .slwaitData _ _ => true
  | .slwaitRoom _ _ => true
  | .tstep _ _ a n => n != 0 && a.val != 0 && a.val ≤ 30
  | .tstepV _ _ _ n => n != 0
  | .wtbl _ _ _ => true
  | .wdec _ _ => true
  | .wseek _ _ => true
  | .wdqry _ _ _ => true
  | .scset _ _ _ => true
  | .scfl _ => true
  | .chain _ _ _ => true
  | .chconst _ _ _ => true
  | .vopAdd _ _ _ _ _ => true
  | .vopSub _ _ _ _ _ => true
  | .vopMul _ _ _ _ _ => true
  | .vopFma _ _ _ _ _ => true
  | .vopFnma _ _ _ _ t => t == .f32
  | .vopMin _ _ _ _ _ => true
  | .vopMax _ _ _ _ _ => true
  | .vopAbs _ _ _ _ => true
  | .vopNeg _ _ _ _ => true
  | .vopRsqs _ _ _ t => t == .f32
  | .vopRcps _ _ _ t => t == .f32
  | .vopExp2s _ _ _ t => t == .f32
  | .vopLog2s _ _ _ t => t == .f32
  | .vopRelu _ _ _ _ => true
  | .vopClamp _ _ _ _ _ => true
  | .vopSel _ _ _ _ _ => true
  | .vopCmpeq _ _ _ _ _ => true
  | .vopCmplt _ _ _ _ _ => true
  | .vopCmple _ _ _ _ _ => true
  | .vopMov _ _ _ _ => true
  | .vopAmaxu _ _ _ t => t != .i32
  | .vcvt _ _ _ t f => vcvtPair t f
  | .vsum _ _ _ => true
  | .vmax _ _ _ => true
  | .vmin _ _ _ => true
  | .vamax _ _ _ => true
  | .vbcast _ _ _ => true
  | .vext _ _ _ _ => true
  | .vshuf _ _ _ _ => true
  | .vins _ _ _ _ => true
  | .fscAdd _ _ _ _ => true
  | .fscSub _ _ _ _ => true
  | .fscMul _ _ _ _ => true
  | .fscFma _ _ _ _ => true
  | .fscFnma _ _ _ _ => true
  | .fscMin _ _ _ _ => true
  | .fscMax _ _ _ _ => true
  | .fscAbs _ _ _ => true
  | .fscNeg _ _ _ => true
  | .fscRsqs _ _ _ => true
  | .fscRcps _ _ _ => true
  | .fscExp2s _ _ _ => true
  | .fscLog2s _ _ _ => true
  | .fscRelu _ _ _ => true
  | .fscClamp _ _ _ _ => true
  | .fscSel _ _ _ _ => true
  | .fscCmpeq _ _ _ _ => true
  | .fscCmplt _ _ _ _ => true
  | .fscCmple _ _ _ _ => true
  | .fscMov _ _ _ => true
  | .vqnt _ _ _ f => f.blockScalable
  | .vsaccE2m1 _ _ _ _ => true
  | .vsaccE4m3 _ _ _ _ => true
  | .nop => true
  | .trap _ => true
  | .eret => true
  | .mrd _ _ => true
  | .mwr _ _ => true
  | .yield => true
  | .wait _ _ => true
  | .halt => true
  | .brk _ => true
  | .dbgh _ => true
  | .seed _ => true
  | .illegalEncoding => true
  | .instructionFetchFault => true
  | .streamNodeWriteWalk => true
  | .remoteAcknowledgement => true
  | .ethFrameRetransmit => true
  | .servoLockChange => true

end Sys2Proof
end

