-- ==== Sys2Proof/Decode.lean ====
section
/-! DEFINITION. The decoder of 32-bit instruction words (05 R119 to R121, R125, R126), total on any word and rejecting
by name, and after it the encoder, written from the same encodings. -/

namespace Sys2Proof

/-- Why a word decodes to no instruction (05 R120, R121). Every one of them is the ILLEGAL of R120. -/
inductive DecodeError where
  /-- OP is unassigned; 0x00 includes the all-zero word. -/
  | unassignedOpcode (op : Nat)
  /-- FN is beyond its group's list. -/
  | unassignedFn (op fn : Nat)
  /-- A field that must be zero, or must hold one value, holds another. -/
  | fixedField
  /-- A predicate, vector register, node, scope, size, semantics, type or format field holds an unassigned value. -/
  | fieldRange
  /-- Fields that are each in range make a pair that the manual refuses. -/
  | illFormed
  deriving DecidableEq, Repr

/-- The n bits of w from bit lo upwards. -/
def fld (w lo n : Nat) : Nat := w / 2 ^ lo % 2 ^ n

def sreg (n : Nat) : SReg := Fin.ofNat 32 n
def preg (n : Nat) : PReg := Fin.ofNat 8 n
def reg16 (n : Nat) : Fin 16 := Fin.ofNat 16 n
/-- A predicate named by a 5-bit field: 8-31 raise ILLEGAL (05 R121). -/
def preg? (n : Nat) : Option PReg := if n < 8 then some (preg n) else none
/-- A vector register named by a 5-bit field: 16-31 raise ILLEGAL (05 R121). -/
def vreg? (n : Nat) : Option VReg := if n < 16 then some (reg16 n) else none
/-- A stream node: values 2-15 raise ILLEGAL (08 R193). -/
def node? (n : Nat) : Option NodeIx := if n < 2 then some (Fin.ofNat 2 n) else none
/-- LD and LDV accept SEM 0 and 1; true is acquire (07 R166). -/
def acq? (n : Nat) : Option Bool := if n < 2 then some (decide (n = 1)) else none
/-- ST and STV accept SEM 0 and 2; true is release (07 R166). -/
def rel? (n : Nat) : Option Bool := if n = 0 then some false else if n = 2 then some true else none
/-- Go on with an assigned value, or reject the field. -/
def need {α : Type} (o : Option α) (k : α → Except DecodeError Instr) : Except DecodeError Instr :=
  match o with
  | some x => k x
  | none => .error .fieldRange

/-- OP 0x01 (05 R120, R121). -/
def decodeAlu (w : Nat) : Except DecodeError Instr :=
  match fld w 0 8 with
  | 0 => .ok (.add (sreg (fld w 21 5)) (sreg (fld w 16 5)) (sreg (fld w 11 5)) (preg (fld w 8 3)))
  | 1 => .ok (.sub (sreg (fld w 21 5)) (sreg (fld w 16 5)) (sreg (fld w 11 5)) (preg (fld w 8 3)))
  | 2 => .ok (.and (sreg (fld w 21 5)) (sreg (fld w 16 5)) (sreg (fld w 11 5)) (preg (fld w 8 3)))
  | 3 => .ok (.or (sreg (fld w 21 5)) (sreg (fld w 16 5)) (sreg (fld w 11 5)) (preg (fld w 8 3)))
  | 4 => .ok (.xor (sreg (fld w 21 5)) (sreg (fld w 16 5)) (sreg (fld w 11 5)) (preg (fld w 8 3)))
  | 5 => .ok (.andn (sreg (fld w 21 5)) (sreg (fld w 16 5)) (sreg (fld w 11 5)) (preg (fld w 8 3)))
  | 6 => .ok (.shl (sreg (fld w 21 5)) (sreg (fld w 16 5)) (sreg (fld w 11 5)) (preg (fld w 8 3)))
  | 7 => .ok (.shr (sreg (fld w 21 5)) (sreg (fld w 16 5)) (sreg (fld w 11 5)) (preg (fld w 8 3)))
  | 8 => .ok (.sra (sreg (fld w 21 5)) (sreg (fld w 16 5)) (sreg (fld w 11 5)) (preg (fld w 8 3)))
  | 9 => .ok (.ror (sreg (fld w 21 5)) (sreg (fld w 16 5)) (sreg (fld w 11 5)) (preg (fld w 8 3)))
  | 10 => .ok (.min (sreg (fld w 21 5)) (sreg (fld w 16 5)) (sreg (fld w 11 5)) (preg (fld w 8 3)))
  | 11 => .ok (.max (sreg (fld w 21 5)) (sreg (fld w 16 5)) (sreg (fld w 11 5)) (preg (fld w 8 3)))
  | 12 => .ok (.minn (sreg (fld w 21 5)) (sreg (fld w 16 5)) (sreg (fld w 11 5)) (preg (fld w 8 3)))
  | 13 => .ok (.maxn (sreg (fld w 21 5)) (sreg (fld w 16 5)) (sreg (fld w 11 5)) (preg (fld w 8 3)))
  | 14 => .ok (.mul (sreg (fld w 21 5)) (sreg (fld w 16 5)) (sreg (fld w 11 5)) (preg (fld w 8 3)))
  | 15 => .ok (.mulh (sreg (fld w 21 5)) (sreg (fld w 16 5)) (sreg (fld w 11 5)) (preg (fld w 8 3)))
  | 16 => .ok (.mulhn (sreg (fld w 21 5)) (sreg (fld w 16 5)) (sreg (fld w 11 5)) (preg (fld w 8 3)))
  | 17 => .ok (.div (sreg (fld w 21 5)) (sreg (fld w 16 5)) (sreg (fld w 11 5)) (preg (fld w 8 3)))
  | 18 => .ok (.divn (sreg (fld w 21 5)) (sreg (fld w 16 5)) (sreg (fld w 11 5)) (preg (fld w 8 3)))
  | 19 => .ok (.rem (sreg (fld w 21 5)) (sreg (fld w 16 5)) (sreg (fld w 11 5)) (preg (fld w 8 3)))
  | 20 => .ok (.remn (sreg (fld w 21 5)) (sreg (fld w 16 5)) (sreg (fld w 11 5)) (preg (fld w 8 3)))
  | 21 => if fld w 11 5 = 0 then .ok (.clz (sreg (fld w 21 5)) (sreg (fld w 16 5)) (preg (fld w 8 3))) else .error .fixedField
  | 22 => if fld w 11 5 = 0 then .ok (.ctz (sreg (fld w 21 5)) (sreg (fld w 16 5)) (preg (fld w 8 3))) else .error .fixedField
  | 23 => if fld w 11 5 = 0 then .ok (.popc (sreg (fld w 21 5)) (sreg (fld w 16 5)) (preg (fld w 8 3))) else .error .fixedField
  | 24 => if fld w 11 5 = 0 then .ok (.brev (sreg (fld w 21 5)) (sreg (fld w 16 5)) (preg (fld w 8 3))) else .error .fixedField
  | 25 => .ok (.sext (sreg (fld w 21 5)) (sreg (fld w 16 5)) (sreg (fld w 11 5)) (preg (fld w 8 3)))
  | 26 => .ok (.zext (sreg (fld w 21 5)) (sreg (fld w 16 5)) (sreg (fld w 11 5)) (preg (fld w 8 3)))
  | 27 => .ok (.sel (sreg (fld w 21 5)) (sreg (fld w 16 5)) (sreg (fld w 11 5)) (preg (fld w 8 3)))
  | fn => .error (.unassignedFn 1 fn)

/-- OP 0x02 (05 R120, R121). -/
def decodeAddi (w : Nat) : Except DecodeError Instr :=
  .ok (.addi (sreg (fld w 21 5)) (sreg (fld w 16 5)) (BitVec.ofNat 16 (fld w 0 16)))

/-- OP 0x03 (05 R120, R121). -/
def decodeAndi (w : Nat) : Except DecodeError Instr :=
  .ok (.andi (sreg (fld w 21 5)) (sreg (fld w 16 5)) (BitVec.ofNat 16 (fld w 0 16)))

/-- OP 0x04 (05 R120, R121). -/
def decodeOri (w : Nat) : Except DecodeError Instr :=
  .ok (.ori (sreg (fld w 21 5)) (sreg (fld w 16 5)) (BitVec.ofNat 16 (fld w 0 16)))

/-- OP 0x05 (05 R120, R121). -/
def decodeXori (w : Nat) : Except DecodeError Instr :=
  .ok (.xori (sreg (fld w 21 5)) (sreg (fld w 16 5)) (BitVec.ofNat 16 (fld w 0 16)))

/-- OP 0x06 (05 R120, R121). -/
def decodeShfi (w : Nat) : Except DecodeError Instr :=
  match fld w 6 2 with
  | 0 => if fld w 8 8 = 0 then .ok (.shfiShl (sreg (fld w 21 5)) (sreg (fld w 16 5)) (BitVec.ofNat 6 (fld w 0 6))) else .error .fixedField
  | 1 => if fld w 8 8 = 0 then .ok (.shfiShr (sreg (fld w 21 5)) (sreg (fld w 16 5)) (BitVec.ofNat 6 (fld w 0 6))) else .error .fixedField
  | 2 => if fld w 8 8 = 0 then .ok (.shfiSra (sreg (fld w 21 5)) (sreg (fld w 16 5)) (BitVec.ofNat 6 (fld w 0 6))) else .error .fixedField
  | 3 => if fld w 8 8 = 0 then .ok (.shfiRor (sreg (fld w 21 5)) (sreg (fld w 16 5)) (BitVec.ofNat 6 (fld w 0 6))) else .error .fixedField
  | fn => .error (.unassignedFn 6 fn)

/-- OP 0x07 (05 R120, R121). -/
def decodeMuli (w : Nat) : Except DecodeError Instr :=
  .ok (.muli (sreg (fld w 21 5)) (sreg (fld w 16 5)) (BitVec.ofNat 16 (fld w 0 16)))

/-- OP 0x08 (05 R120, R121). -/
def decodeLi (w : Nat) : Except DecodeError Instr :=
  if fld w 16 5 = 0 then .ok (.li (sreg (fld w 21 5)) (BitVec.ofNat 16 (fld w 0 16)))
  else .error .fixedField

/-- OP 0x09 (05 R120, R121). -/
def decodeLis (w : Nat) : Except DecodeError Instr :=
  if fld w 16 5 = 0 then .ok (.lis (sreg (fld w 21 5)) (BitVec.ofNat 16 (fld w 0 16)))
  else .error .fixedField

/-- OP 0x0A (05 R120, R121). -/
def decodeSetp (w : Nat) : Except DecodeError Instr :=
  match fld w 0 8 with
  | 0 => need (preg? (fld w 21 5)) fun d => .ok (.setpEq d (sreg (fld w 16 5)) (sreg (fld w 11 5)) (preg (fld w 8 3)))
  | 1 => need (preg? (fld w 21 5)) fun d => .ok (.setpNe d (sreg (fld w 16 5)) (sreg (fld w 11 5)) (preg (fld w 8 3)))
  | 2 => need (preg? (fld w 21 5)) fun d => .ok (.setpLt d (sreg (fld w 16 5)) (sreg (fld w 11 5)) (preg (fld w 8 3)))
  | 3 => need (preg? (fld w 21 5)) fun d => .ok (.setpGe d (sreg (fld w 16 5)) (sreg (fld w 11 5)) (preg (fld w 8 3)))
  | 4 => need (preg? (fld w 21 5)) fun d => .ok (.setpLtn d (sreg (fld w 16 5)) (sreg (fld w 11 5)) (preg (fld w 8 3)))
  | 5 => need (preg? (fld w 21 5)) fun d => .ok (.setpGen d (sreg (fld w 16 5)) (sreg (fld w 11 5)) (preg (fld w 8 3)))
  | fn => .error (.unassignedFn 10 fn)

/-- OP 0x0B (05 R120, R121). -/
def decodeSetpi (w : Nat) : Except DecodeError Instr :=
  match fld w 24 2 with
  | 0 => .ok (.setpiEq (preg (fld w 21 3)) (sreg (fld w 16 5)) (BitVec.ofNat 16 (fld w 0 16)))
  | 1 => .ok (.setpiNe (preg (fld w 21 3)) (sreg (fld w 16 5)) (BitVec.ofNat 16 (fld w 0 16)))
  | 2 => .ok (.setpiLt (preg (fld w 21 3)) (sreg (fld w 16 5)) (BitVec.ofNat 16 (fld w 0 16)))
  | 3 => .ok (.setpiGe (preg (fld w 21 3)) (sreg (fld w 16 5)) (BitVec.ofNat 16 (fld w 0 16)))
  | fn => .error (.unassignedFn 11 fn)

/-- OP 0x0C (05 R120, R121). -/
def decodePlog (w : Nat) : Except DecodeError Instr :=
  match fld w 0 8 with
  | 0 => need (preg? (fld w 21 5)) fun d => need (preg? (fld w 16 5)) fun a => need (preg? (fld w 11 5)) fun b => .ok (.pand d a b (preg (fld w 8 3)))
  | 1 => need (preg? (fld w 21 5)) fun d => need (preg? (fld w 16 5)) fun a => need (preg? (fld w 11 5)) fun b => .ok (.por d a b (preg (fld w 8 3)))
  | 2 => need (preg? (fld w 21 5)) fun d => need (preg? (fld w 16 5)) fun a => need (preg? (fld w 11 5)) fun b => .ok (.pxor d a b (preg (fld w 8 3)))
  | 3 => if fld w 11 5 = 0 then need (preg? (fld w 21 5)) fun d => need (preg? (fld w 16 5)) fun a => .ok (.pnot d a (preg (fld w 8 3))) else .error .fixedField
  | 4 => if fld w 11 5 = 0 then need (preg? (fld w 21 5)) fun d => need (preg? (fld w 16 5)) fun a => .ok (.pmov d a (preg (fld w 8 3))) else .error .fixedField
  | 5 => if fld w 11 5 = 0 then need (preg? (fld w 16 5)) fun a => .ok (.ptos (sreg (fld w 21 5)) a (preg (fld w 8 3))) else .error .fixedField
  | fn => .error (.unassignedFn 12 fn)

/-- OP 0x0D (05 R120, R121). -/
def decodePtr (w : Nat) : Except DecodeError Instr :=
  match fld w 0 8 with
  | 0 => .ok (.mkptr (sreg (fld w 21 5)) (sreg (fld w 16 5)) (sreg (fld w 11 5)) (preg (fld w 8 3)))
  | 1 => if fld w 11 5 = 0 then .ok (.pspc (sreg (fld w 21 5)) (sreg (fld w 16 5)) (preg (fld w 8 3))) else .error .fixedField
  | 2 => .ok (.padd (sreg (fld w 21 5)) (sreg (fld w 16 5)) (sreg (fld w 11 5)) (preg (fld w 8 3)))
  | 3 => .ok (.pcore (sreg (fld w 21 5)) (sreg (fld w 16 5)) (sreg (fld w 11 5)) (preg (fld w 8 3)))
  | 4 => .ok (.keylk (sreg (fld w 21 5)) (sreg (fld w 16 5)) (sreg (fld w 11 5)) (preg (fld w 8 3)))
  | fn => .error (.unassignedFn 13 fn)

/-- OP 0x10 (05 R120, R121). -/
def decodeBr (w : Nat) : Except DecodeError Instr :=
  .ok (.br (preg (fld w 23 3)) (decide (fld w 22 1 = 1)) (BitVec.ofNat 22 (fld w 0 22)))

/-- OP 0x11 (05 R120, R121). -/
def decodeCall (w : Nat) : Except DecodeError Instr :=
  .ok (.call (preg (fld w 23 3)) (decide (fld w 22 1 = 1)) (BitVec.ofNat 22 (fld w 0 22)))

/-- OP 0x12 (05 R120, R121). -/
def decodeJr (w : Nat) : Except DecodeError Instr :=
  match fld w 0 8 with
  | 0 => if fld w 11 5 = 0 ∧ fld w 21 5 = 0 then .ok (.jr (sreg (fld w 16 5)) (preg (fld w 8 3))) else .error .fixedField
  | 1 => if fld w 11 5 = 0 then .ok (.jalr (sreg (fld w 21 5)) (sreg (fld w 16 5)) (preg (fld w 8 3))) else .error .fixedField
  | 2 => if fld w 11 15 = 0 then .ok (.ret (preg (fld w 8 3))) else .error .fixedField
  | fn => .error (.unassignedFn 18 fn)

/-- OP 0x13 (05 R120, R121). -/
def decodeJtab (w : Nat) : Except DecodeError Instr :=
  .ok (.jtab (sreg (fld w 21 5)) (sreg (fld w 16 5)) (BitVec.ofNat 16 (fld w 0 16)))

/-- OP 0x14 (05 R120, R121). -/
def decodeLoop (w : Nat) : Except DecodeError Instr :=
  if fld w 21 5 = 0 then .ok (.loop (sreg (fld w 16 5)) (BitVec.ofNat 16 (fld w 0 16)))
  else .error .fixedField

/-- OP 0x15 (05 R120, R121). -/
def decodeLoopi (w : Nat) : Except DecodeError Instr :=
  .ok (.loopi (BitVec.ofNat 10 (fld w 16 10)) (BitVec.ofNat 16 (fld w 0 16)))

/-- OP 0x16 (05 R120, R121). -/
def decodeLbrk (w : Nat) : Except DecodeError Instr :=
  match fld w 0 8 with
  | 0 => if fld w 11 15 = 0 then .ok (.lbrk (preg (fld w 8 3))) else .error .fixedField
  | fn => .error (.unassignedFn 22 fn)

/-- OP 0x17 (05 R120, R121). -/
def decodeQbank (w : Nat) : Except DecodeError Instr :=
  match fld w 0 8 with
  | 0 => if fld w 11 15 = 0 then .ok (.fork (preg (fld w 8 3))) else .error .fixedField
  | 1 => if fld w 11 15 = 0 then .ok (.swq (preg (fld w 8 3))) else .error .fixedField
  | 2 => if fld w 16 10 = 0 then need (preg? (fld w 11 5)) fun p => .ok (.pick p (preg (fld w 8 3))) else .error .fixedField
  | fn => .error (.unassignedFn 23 fn)

/-- OP 0x18 (05 R120, R121). -/
def decodeLd (w : Nat) : Except DecodeError Instr :=
  need (Size.ofCode (fld w 5 3)) fun z => need (Scope.ofCode (fld w 2 3)) fun s => need (acq? (fld w 0 2)) fun m => .ok (.ld (sreg (fld w 21 5)) (sreg (fld w 16 5)) (BitVec.ofNat 8 (fld w 8 8)) z s m)

/-- OP 0x19 (05 R120, R121). -/
def decodeSt (w : Nat) : Except DecodeError Instr :=
  need (Size.ofCode (fld w 5 3)) fun z => need (Scope.ofCode (fld w 2 3)) fun s => need (rel? (fld w 0 2)) fun m => .ok (.st (sreg (fld w 21 5)) (sreg (fld w 16 5)) (BitVec.ofNat 8 (fld w 8 8)) z s m)

/-- OP 0x1A (05 R120, R121). -/
def decodeLdv (w : Nat) : Except DecodeError Instr :=
  need (vreg? (fld w 21 5)) fun d => need (VSize.ofCode (fld w 5 3)) fun z => need (Scope.ofCode (fld w 2 3)) fun s => need (acq? (fld w 0 2)) fun m => .ok (.ldv d (sreg (fld w 16 5)) (BitVec.ofNat 8 (fld w 8 8)) z s m)

/-- OP 0x1B (05 R120, R121). -/
def decodeStv (w : Nat) : Except DecodeError Instr :=
  need (vreg? (fld w 21 5)) fun d => need (VSize.ofCode (fld w 5 3)) fun z => need (Scope.ofCode (fld w 2 3)) fun s => need (rel? (fld w 0 2)) fun m => .ok (.stv d (sreg (fld w 16 5)) (BitVec.ofNat 8 (fld w 8 8)) z s m)

/-- OP 0x1C (05 R120, R121). -/
def decodeAmo (w : Nat) : Except DecodeError Instr :=
  match fld w 0 6 with
  | 0 => need (Scope.ofCode (fld w 8 3)) fun s => .ok (.amoAadd (sreg (fld w 21 5)) (sreg (fld w 16 5)) (sreg (fld w 11 5)) s (decide (fld w 7 1 = 1)) (decide (fld w 6 1 = 1)))
  | 1 => need (Scope.ofCode (fld w 8 3)) fun s => .ok (.amoAmin (sreg (fld w 21 5)) (sreg (fld w 16 5)) (sreg (fld w 11 5)) s (decide (fld w 7 1 = 1)) (decide (fld w 6 1 = 1)))
  | 2 => need (Scope.ofCode (fld w 8 3)) fun s => .ok (.amoAmax (sreg (fld w 21 5)) (sreg (fld w 16 5)) (sreg (fld w 11 5)) s (decide (fld w 7 1 = 1)) (decide (fld w 6 1 = 1)))
  | 3 => need (Scope.ofCode (fld w 8 3)) fun s => .ok (.amoAminn (sreg (fld w 21 5)) (sreg (fld w 16 5)) (sreg (fld w 11 5)) s (decide (fld w 7 1 = 1)) (decide (fld w 6 1 = 1)))
  | 4 => need (Scope.ofCode (fld w 8 3)) fun s => .ok (.amoAmaxn (sreg (fld w 21 5)) (sreg (fld w 16 5)) (sreg (fld w 11 5)) s (decide (fld w 7 1 = 1)) (decide (fld w 6 1 = 1)))
  | 5 => need (Scope.ofCode (fld w 8 3)) fun s => .ok (.amoAand (sreg (fld w 21 5)) (sreg (fld w 16 5)) (sreg (fld w 11 5)) s (decide (fld w 7 1 = 1)) (decide (fld w 6 1 = 1)))
  | 6 => need (Scope.ofCode (fld w 8 3)) fun s => .ok (.amoAor (sreg (fld w 21 5)) (sreg (fld w 16 5)) (sreg (fld w 11 5)) s (decide (fld w 7 1 = 1)) (decide (fld w 6 1 = 1)))
  | 7 => need (Scope.ofCode (fld w 8 3)) fun s => .ok (.amoAxor (sreg (fld w 21 5)) (sreg (fld w 16 5)) (sreg (fld w 11 5)) s (decide (fld w 7 1 = 1)) (decide (fld w 6 1 = 1)))
  | 8 => need (Scope.ofCode (fld w 8 3)) fun s => .ok (.amoAswap (sreg (fld w 21 5)) (sreg (fld w 16 5)) (sreg (fld w 11 5)) s (decide (fld w 7 1 = 1)) (decide (fld w 6 1 = 1)))
  | 9 => need (Scope.ofCode (fld w 8 3)) fun s => .ok (.amoAcas (sreg (fld w 21 5)) (sreg (fld w 16 5)) (sreg (fld w 11 5)) s (decide (fld w 7 1 = 1)) (decide (fld w 6 1 = 1)))
  | 10 => need (Scope.ofCode (fld w 8 3)) fun s => .ok (.amoAfadd (sreg (fld w 21 5)) (sreg (fld w 16 5)) (sreg (fld w 11 5)) s (decide (fld w 7 1 = 1)) (decide (fld w 6 1 = 1)))
  | fn => .error (.unassignedFn 28 fn)

/-- OP 0x1D (05 R120, R121). -/
def decodeFence (w : Nat) : Except DecodeError Instr :=
  match fld w 0 8 with
  | 0 => if fld w 16 10 = 0 then need (Scope.ofCode (fld w 11 5)) fun s => .ok (.fence s (preg (fld w 8 3))) else .error .fixedField
  | 1 => if fld w 16 10 = 0 then need (Scope.ofCode (fld w 11 5)) fun s => .ok (.fenceLd s (preg (fld w 8 3))) else .error .fixedField
  | 2 => if fld w 16 10 = 0 then need (Scope.ofCode (fld w 11 5)) fun s => .ok (.fenceSt s (preg (fld w 8 3))) else .error .fixedField
  | 3 => if fld w 11 15 = 0 then .ok (.wfence (preg (fld w 8 3))) else .error .fixedField
  | 4 => if fld w 11 15 = 0 then .ok (.mfence (preg (fld w 8 3))) else .error .fixedField
  | 5 => if fld w 11 15 = 0 then .ok (.ifence (preg (fld w 8 3))) else .error .fixedField
  | fn => .error (.unassignedFn 29 fn)

/-- OP 0x1E (05 R120, R121). -/
def decodeBar (w : Nat) : Except DecodeError Instr :=
  match fld w 0 8 with
  | 0 => if fld w 21 5 = 0 then .ok (.binit (sreg (fld w 16 5)) (sreg (fld w 11 5)) (preg (fld w 8 3))) else .error .fixedField
  | 1 => .ok (.barr (sreg (fld w 21 5)) (sreg (fld w 16 5)) (sreg (fld w 11 5)) (preg (fld w 8 3)))
  | 2 => if fld w 21 5 = 0 then .ok (.bwait (sreg (fld w 16 5)) (sreg (fld w 11 5)) (preg (fld w 8 3))) else .error .fixedField
  | 3 => if fld w 21 5 = 0 then .ok (.bleave (sreg (fld w 16 5)) (sreg (fld w 11 5)) (preg (fld w 8 3))) else .error .fixedField
  | 4 => .ok (.bqry (sreg (fld w 21 5)) (sreg (fld w 16 5)) (sreg (fld w 11 5)) (preg (fld w 8 3)))
  | fn => .error (.unassignedFn 30 fn)

/-- OP 0x1F (05 R120, R121). -/
def decodeMsg (w : Nat) : Except DecodeError Instr :=
  match fld w 0 8 with
  | 0 => need (vreg? (fld w 21 5)) fun d => .ok (.qsend d (sreg (fld w 16 5)) (sreg (fld w 11 5)) (preg (fld w 8 3)))
  | 1 => need (vreg? (fld w 21 5)) fun d => .ok (.qrecv d (sreg (fld w 16 5)) (sreg (fld w 11 5)) (preg (fld w 8 3)))
  | 2 => if fld w 11 5 = 0 then .ok (.qpoll (sreg (fld w 21 5)) (sreg (fld w 16 5)) (preg (fld w 8 3))) else .error .fixedField
  | fn => .error (.unassignedFn 31 fn)

/-- OP 0x20 (05 R120, R121). -/
def decodeColl (w : Nat) : Except DecodeError Instr :=
  match fld w 6 3 with
  | 0 => if fld w 14 4 = 0 then need (CollRed.ofCode (fld w 4 2)) fun r => need (Fmt.ofCode (fld w 0 4)) fun f => .ok (.collAllred (reg16 (fld w 22 4)) (reg16 (fld w 18 4)) (sreg (fld w 9 5)) r f) else .error .fixedField
  | 1 => if fld w 14 4 = 0 then need (CollRed.ofCode (fld w 4 2)) fun r => need (Fmt.ofCode (fld w 0 4)) fun f => .ok (.collRedscat (reg16 (fld w 22 4)) (reg16 (fld w 18 4)) (sreg (fld w 9 5)) r f) else .error .fixedField
  | 2 => if fld w 4 2 = 0 ∧ fld w 14 4 = 0 then need (Fmt.ofCode (fld w 0 4)) fun f => .ok (.collAllgath (reg16 (fld w 22 4)) (reg16 (fld w 18 4)) (sreg (fld w 9 5)) f) else .error .fixedField
  | 3 => if fld w 4 2 = 0 ∧ fld w 14 4 = 0 then need (Fmt.ofCode (fld w 0 4)) fun f => .ok (.collBcast (reg16 (fld w 22 4)) (reg16 (fld w 18 4)) (sreg (fld w 9 5)) f) else .error .fixedField
  | 4 => if fld w 4 2 = 0 ∧ fld w 14 4 = 0 then need (Fmt.ofCode (fld w 0 4)) fun f => .ok (.collA2a (reg16 (fld w 22 4)) (reg16 (fld w 18 4)) (sreg (fld w 9 5)) f) else .error .fixedField
  | fn => .error (.unassignedFn 32 fn)

/-- OP 0x21 (05 R120, R121). -/
def decodeLrec (w : Nat) : Except DecodeError Instr :=
  match fld w 0 8 with
  | 0 => if fld w 21 5 = 0 then .ok (.lrpatch (sreg (fld w 16 5)) (sreg (fld w 11 5)) (preg (fld w 8 3))) else .error .fixedField
  | 1 => if fld w 11 5 = 0 ∧ fld w 21 5 = 0 then .ok (.lrarm (sreg (fld w 16 5)) (preg (fld w 8 3))) else .error .fixedField
  | 2 => if fld w 11 5 = 0 then .ok (.lrqry (sreg (fld w 21 5)) (sreg (fld w 16 5)) (preg (fld w 8 3))) else .error .fixedField
  | fn => .error (.unassignedFn 33 fn)

/-- OP 0x22 (05 R120, R121). -/
def decodeCnt (w : Nat) : Except DecodeError Instr :=
  match fld w 0 8 with
  | 0 => if fld w 21 5 = 0 then .ok (.cntadd (sreg (fld w 16 5)) (sreg (fld w 11 5)) (preg (fld w 8 3))) else .error .fixedField
  | 1 => if fld w 21 5 = 0 then need (vreg? (fld w 16 5)) fun a => .ok (.vcnt a (sreg (fld w 11 5)) (preg (fld w 8 3))) else .error .fixedField
  | 2 => if fld w 11 5 = 0 then .ok (.cntrd (sreg (fld w 21 5)) (sreg (fld w 16 5)) (preg (fld w 8 3))) else .error .fixedField
  | 3 => if fld w 11 5 = 0 then .ok (.cntsnap (sreg (fld w 21 5)) (sreg (fld w 16 5)) (preg (fld w 8 3))) else .error .fixedField
  | fn => .error (.unassignedFn 34 fn)

/-- OP 0x23 (05 R120, R121). -/
def decodeTime (w : Nat) : Except DecodeError Instr :=
  match fld w 0 8 with
  | 0 => if fld w 11 10 = 0 then .ok (.wtrd (sreg (fld w 21 5)) (preg (fld w 8 3))) else .error .fixedField
  | 1 => .ok (.atset (sreg (fld w 21 5)) (sreg (fld w 16 5)) (sreg (fld w 11 5)) (preg (fld w 8 3)))
  | 2 => if fld w 11 5 = 0 then .ok (.atcan (sreg (fld w 21 5)) (sreg (fld w 16 5)) (preg (fld w 8 3))) else .error .fixedField
  | 3 => if fld w 11 5 = 0 then .ok (.atwait (sreg (fld w 21 5)) (sreg (fld w 16 5)) (preg (fld w 8 3))) else .error .fixedField
  | fn => .error (.unassignedFn 35 fn)

/-- OP 0x24 (05 R120, R121). -/
def decodePhase (w : Nat) : Except DecodeError Instr :=
  match fld w 0 8 with
  | 0 => if fld w 21 5 = 0 then .ok (.bwph (sreg (fld w 16 5)) (sreg (fld w 11 5)) (preg (fld w 8 3))) else .error .fixedField
  | 1 => if fld w 11 5 = 0 then .ok (.bwqry (sreg (fld w 21 5)) (sreg (fld w 16 5)) (preg (fld w 8 3))) else .error .fixedField
  | fn => .error (.unassignedFn 36 fn)

/-- OP 0x28 (05 R120, R121). -/
def decodeFab (w : Nat) : Except DecodeError Instr :=
  match fld w 0 9 with
  | 0 => if fld w 14 12 = 0 then .ok (.cfg (sreg (fld w 9 5))) else .error .fixedField
  | 1 => if fld w 14 12 = 0 then .ok (.cfgwait (sreg (fld w 9 5))) else if fld w 14 12 = 1 then .ok (.cfgwaitQ (sreg (fld w 9 5))) else .error .fixedField
  | 2 => if fld w 14 12 = 0 then .ok (.start (sreg (fld w 9 5))) else .error .fixedField
  | 3 => if fld w 14 12 = 0 then .ok (.stopp (sreg (fld w 9 5))) else if fld w 14 12 = 1 then .ok (.stoppNow (sreg (fld w 9 5))) else .error .fixedField
  | 4 => if fld w 14 12 = 0 then .ok (.splarm (sreg (fld w 9 5))) else .error .fixedField
  | 5 => if fld w 9 17 = 0 then .ok .splice else .error .fixedField
  | 6 => if fld w 14 12 = 0 then .ok (.bypmap (sreg (fld w 9 5))) else if fld w 14 12 = 1 then .ok (.bypmapCol (sreg (fld w 9 5))) else .error .fixedField
  | 7 => if fld w 14 12 = 0 then .ok (.dlyset (sreg (fld w 9 5))) else .error .fixedField
  | 8 => if fld w 14 12 = 0 then .ok (.holdtab (sreg (fld w 9 5))) else .error .fixedField
  | fn => .error (.unassignedFn 40 fn)

/-- OP 0x29 (05 R120, R121). -/
def decodeStrm (w : Nat) : Except DecodeError Instr :=
  match fld w 0 9 with
  | 0 => if fld w 14 8 = 0 then .ok (.shld (reg16 (fld w 22 4)) (sreg (fld w 9 5))) else .error .fixedField
  | 1 => if fld w 14 8 = 0 then .ok (.shst (reg16 (fld w 22 4)) (sreg (fld w 9 5))) else .error .fixedField
  | 2 => need (node? (fld w 14 4)) fun n => .ok (.strm (reg16 (fld w 22 4)) (reg16 (fld w 18 4)) n (sreg (fld w 9 5)))
  | 3 => if fld w 18 8 = 0 then need (node? (fld w 14 4)) fun n => .ok (.strmq n (sreg (fld w 9 5))) else .error .fixedField
  | 4 => if fld w 18 8 = 0 then need (node? (fld w 14 4)) fun n => .ok (.xform n (sreg (fld w 9 5))) else .error .fixedField
  | 5 => if fld w 14 12 = 0 then .ok (.cbload (sreg (fld w 9 5))) else .error .fixedField
  | fn => .error (.unassignedFn 41 fn)

/-- OP 0x2A (05 R120, R121). -/
def decodeSlu (w : Nat) : Except DecodeError Instr :=
  match fld w 0 9 with
  | 0 => if fld w 14 8 = 0 then .ok (.slset (reg16 (fld w 22 4)) (sreg (fld w 9 5))) else .error .fixedField
  | 1 => if fld w 14 8 = 0 then .ok (.slput (reg16 (fld w 22 4)) (sreg (fld w 9 5))) else .error .fixedField
  | 2 => if fld w 14 8 = 0 then .ok (.sltake (reg16 (fld w 22 4)) (sreg (fld w 9 5))) else .error .fixedField
  | 3 => if fld w 14 8 = 0 then .ok (.slqry (reg16 (fld w 22 4)) (sreg (fld w 9 5))) else if fld w 14 8 = 1 then .ok (.slqryD (reg16 (fld w 22 4)) (sreg (fld w 9 5))) else .error .fixedField
  | 4 => if fld w 14 8 = 0 then .ok (.slwaitData (reg16 (fld w 22 4)) (sreg (fld w 9 5))) else if fld w 14 8 = 1 then .ok (.slwaitRoom (reg16 (fld w 22 4)) (sreg (fld w 9 5))) else .error .fixedField
  | fn => .error (.unassignedFn 42 fn)

/-- OP 0x2B (05 R120, R121). -/
def decodeTstep (w : Nat) : Except DecodeError Instr :=
  if fld w 9 5 = 0 then .ok (.tstepV (reg16 (fld w 22 4)) (reg16 (fld w 18 4)) (reg16 (fld w 14 4)) (BitVec.ofNat 9 (fld w 0 9)))
  else if fld w 14 4 = 0 then .ok (.tstep (reg16 (fld w 22 4)) (reg16 (fld w 18 4)) (sreg (fld w 9 5)) (BitVec.ofNat 9 (fld w 0 9)))
  else .error .fixedField

/-- OP 0x2C (05 R120, R121). -/
def decodeWd (w : Nat) : Except DecodeError Instr :=
  match fld w 0 8 with
  | 0 => if fld w 21 5 = 0 then .ok (.wtbl (sreg (fld w 16 5)) (sreg (fld w 11 5)) (preg (fld w 8 3))) else .error .fixedField
  | 1 => if fld w 11 5 = 0 ∧ fld w 21 5 = 0 then .ok (.wdec (sreg (fld w 16 5)) (preg (fld w 8 3))) else .error .fixedField
  | 2 => if fld w 11 5 = 0 ∧ fld w 21 5 = 0 then .ok (.wseek (sreg (fld w 16 5)) (preg (fld w 8 3))) else .error .fixedField
  | 3 => if fld w 11 5 = 0 then .ok (.wdqry (sreg (fld w 21 5)) (sreg (fld w 16 5)) (preg (fld w 8 3))) else .error .fixedField
  | fn => .error (.unassignedFn 44 fn)

/-- OP 0x2D (05 R120, R121). -/
def decodeScl (w : Nat) : Except DecodeError Instr :=
  match fld w 0 8 with
  | 0 => if fld w 21 5 = 0 then .ok (.scset (sreg (fld w 16 5)) (sreg (fld w 11 5)) (preg (fld w 8 3))) else .error .fixedField
  | 1 => if fld w 11 15 = 0 then .ok (.scfl (preg (fld w 8 3))) else .error .fixedField
  | fn => .error (.unassignedFn 45 fn)

/-- OP 0x2E (05 R120, R121). -/
def decodeChn (w : Nat) : Except DecodeError Instr :=
  match fld w 0 8 with
  | 0 => if fld w 21 5 = 0 then .ok (.chain (sreg (fld w 16 5)) (sreg (fld w 11 5)) (preg (fld w 8 3))) else .error .fixedField
  | 1 => if fld w 21 5 = 0 then .ok (.chconst (sreg (fld w 16 5)) (sreg (fld w 11 5)) (preg (fld w 8 3))) else .error .fixedField
  | fn => .error (.unassignedFn 46 fn)

/-- OP 0x30 (05 R120, R121). -/
def decodeVop (w : Nat) : Except DecodeError Instr :=
  match fld w 0 5 with
  | 0 => need (vreg? (fld w 21 5)) fun d => need (vreg? (fld w 16 5)) fun a => need (vreg? (fld w 11 5)) fun b => need (LaneType.ofCode (fld w 5 3)) fun t => .ok (.vopAdd d a b (preg (fld w 8 3)) t)
  | 1 => need (vreg? (fld w 21 5)) fun d => need (vreg? (fld w 16 5)) fun a => need (vreg? (fld w 11 5)) fun b => need (LaneType.ofCode (fld w 5 3)) fun t => .ok (.vopSub d a b (preg (fld w 8 3)) t)
  | 2 => need (vreg? (fld w 21 5)) fun d => need (vreg? (fld w 16 5)) fun a => need (vreg? (fld w 11 5)) fun b => need (LaneType.ofCode (fld w 5 3)) fun t => .ok (.vopMul d a b (preg (fld w 8 3)) t)
  | 3 => need (vreg? (fld w 21 5)) fun d => need (vreg? (fld w 16 5)) fun a => need (vreg? (fld w 11 5)) fun b => need (LaneType.ofCode (fld w 5 3)) fun t => .ok (.vopFma d a b (preg (fld w 8 3)) t)
  | 4 => need (vreg? (fld w 21 5)) fun d => need (vreg? (fld w 16 5)) fun a => need (vreg? (fld w 11 5)) fun b => need (LaneType.ofCode (fld w 5 3)) fun t => .ok (.vopFnma d a b (preg (fld w 8 3)) t)
  | 5 => need (vreg? (fld w 21 5)) fun d => need (vreg? (fld w 16 5)) fun a => need (vreg? (fld w 11 5)) fun b => need (LaneType.ofCode (fld w 5 3)) fun t => .ok (.vopMin d a b (preg (fld w 8 3)) t)
  | 6 => need (vreg? (fld w 21 5)) fun d => need (vreg? (fld w 16 5)) fun a => need (vreg? (fld w 11 5)) fun b => need (LaneType.ofCode (fld w 5 3)) fun t => .ok (.vopMax d a b (preg (fld w 8 3)) t)
  | 7 => if fld w 11 5 = 0 then need (vreg? (fld w 21 5)) fun d => need (vreg? (fld w 16 5)) fun a => need (LaneType.ofCode (fld w 5 3)) fun t => .ok (.vopAbs d a (preg (fld w 8 3)) t) else .error .fixedField
  | 8 => if fld w 11 5 = 0 then need (vreg? (fld w 21 5)) fun d => need (vreg? (fld w 16 5)) fun a => need (LaneType.ofCode (fld w 5 3)) fun t => .ok (.vopNeg d a (preg (fld w 8 3)) t) else .error .fixedField
  | 9 => if fld w 11 5 = 0 then need (vreg? (fld w 21 5)) fun d => need (vreg? (fld w 16 5)) fun a => need (LaneType.ofCode (fld w 5 3)) fun t => .ok (.vopRsqs d a (preg (fld w 8 3)) t) else .error .fixedField
  | 10 => if fld w 11 5 = 0 then need (vreg? (fld w 21 5)) fun d => need (vreg? (fld w 16 5)) fun a => need (LaneType.ofCode (fld w 5 3)) fun t => .ok (.vopRcps d a (preg (fld w 8 3)) t) else .error .fixedField
  | 11 => if fld w 11 5 = 0 then need (vreg? (fld w 21 5)) fun d => need (vreg? (fld w 16 5)) fun a => need (LaneType.ofCode (fld w 5 3)) fun t => .ok (.vopExp2s d a (preg (fld w 8 3)) t) else .error .fixedField
  | 12 => if fld w 11 5 = 0 then need (vreg? (fld w 21 5)) fun d => need (vreg? (fld w 16 5)) fun a => need (LaneType.ofCode (fld w 5 3)) fun t => .ok (.vopLog2s d a (preg (fld w 8 3)) t) else .error .fixedField
  | 13 => if fld w 11 5 = 0 then need (vreg? (fld w 21 5)) fun d => need (vreg? (fld w 16 5)) fun a => need (LaneType.ofCode (fld w 5 3)) fun t => .ok (.vopRelu d a (preg (fld w 8 3)) t) else .error .fixedField
  | 14 => need (vreg? (fld w 21 5)) fun d => need (vreg? (fld w 16 5)) fun a => need (vreg? (fld w 11 5)) fun b => need (LaneType.ofCode (fld w 5 3)) fun t => .ok (.vopClamp d a b (preg (fld w 8 3)) t)
  | 15 => need (vreg? (fld w 21 5)) fun d => need (vreg? (fld w 16 5)) fun a => need (vreg? (fld w 11 5)) fun b => need (LaneType.ofCode (fld w 5 3)) fun t => .ok (.vopSel d a b (preg (fld w 8 3)) t)
  | 16 => need (vreg? (fld w 21 5)) fun d => need (vreg? (fld w 16 5)) fun a => need (vreg? (fld w 11 5)) fun b => need (LaneType.ofCode (fld w 5 3)) fun t => .ok (.vopCmpeq d a b (preg (fld w 8 3)) t)
  | 17 => need (vreg? (fld w 21 5)) fun d => need (vreg? (fld w 16 5)) fun a => need (vreg? (fld w 11 5)) fun b => need (LaneType.ofCode (fld w 5 3)) fun t => .ok (.vopCmplt d a b (preg (fld w 8 3)) t)
  | 18 => need (vreg? (fld w 21 5)) fun d => need (vreg? (fld w 16 5)) fun a => need (vreg? (fld w 11 5)) fun b => need (LaneType.ofCode (fld w 5 3)) fun t => .ok (.vopCmple d a b (preg (fld w 8 3)) t)
  | 19 => if fld w 11 5 = 0 then need (vreg? (fld w 21 5)) fun d => need (vreg? (fld w 16 5)) fun a => need (LaneType.ofCode (fld w 5 3)) fun t => .ok (.vopMov d a (preg (fld w 8 3)) t) else .error .fixedField
  | 23 => if fld w 11 5 = 0 then need (vreg? (fld w 21 5)) fun d => need (vreg? (fld w 16 5)) fun a => need (LaneType.ofCode (fld w 5 3)) fun t => .ok (.vopAmaxu d a (preg (fld w 8 3)) t) else .error .fixedField
  | fn => .error (.unassignedFn 48 fn)

/-- OP 0x31 (05 R120, R121). -/
def decodeVcvt (w : Nat) : Except DecodeError Instr :=
  if fld w 11 5 = 0 then need (vreg? (fld w 21 5)) fun d => need (vreg? (fld w 16 5)) fun a => need (Fmt.ofCode (fld w 4 4)) fun t => need (Fmt.ofCode (fld w 0 4)) fun f => .ok (.vcvt d a (preg (fld w 8 3)) t f)
  else .error .fixedField

/-- OP 0x32 (05 R120, R121). -/
def decodeVred (w : Nat) : Except DecodeError Instr :=
  match fld w 0 8 with
  | 0 => if fld w 11 5 = 0 then need (vreg? (fld w 21 5)) fun d => need (vreg? (fld w 16 5)) fun a => .ok (.vsum d a (preg (fld w 8 3))) else .error .fixedField
  | 1 => if fld w 11 5 = 0 then need (vreg? (fld w 21 5)) fun d => need (vreg? (fld w 16 5)) fun a => .ok (.vmax d a (preg (fld w 8 3))) else .error .fixedField
  | 2 => if fld w 11 5 = 0 then need (vreg? (fld w 21 5)) fun d => need (vreg? (fld w 16 5)) fun a => .ok (.vmin d a (preg (fld w 8 3))) else .error .fixedField
  | 3 => if fld w 11 5 = 0 then need (vreg? (fld w 21 5)) fun d => need (vreg? (fld w 16 5)) fun a => .ok (.vamax d a (preg (fld w 8 3))) else .error .fixedField
  | fn => .error (.unassignedFn 50 fn)

/-- OP 0x33 (05 R120, R121). -/
def decodeVmov (w : Nat) : Except DecodeError Instr :=
  match fld w 0 8 with
  | 0 => if fld w 11 5 = 0 then need (vreg? (fld w 21 5)) fun d => need (vreg? (fld w 16 5)) fun a => .ok (.vbcast d a (preg (fld w 8 3))) else .error .fixedField
  | 1 => need (vreg? (fld w 21 5)) fun d => need (vreg? (fld w 16 5)) fun a => need (vreg? (fld w 11 5)) fun b => .ok (.vext d a b (preg (fld w 8 3)))
  | 2 => need (vreg? (fld w 21 5)) fun d => need (vreg? (fld w 16 5)) fun a => need (vreg? (fld w 11 5)) fun b => .ok (.vshuf d a b (preg (fld w 8 3)))
  | 3 => need (vreg? (fld w 21 5)) fun d => need (vreg? (fld w 16 5)) fun a => need (vreg? (fld w 11 5)) fun b => .ok (.vins d a b (preg (fld w 8 3)))
  | fn => .error (.unassignedFn 51 fn)

/-- OP 0x34 (05 R120, R121). -/
def decodeFsc (w : Nat) : Except DecodeError Instr :=
  match fld w 0 8 with
  | 0 => .ok (.fscAdd (sreg (fld w 21 5)) (sreg (fld w 16 5)) (sreg (fld w 11 5)) (preg (fld w 8 3)))
  | 1 => .ok (.fscSub (sreg (fld w 21 5)) (sreg (fld w 16 5)) (sreg (fld w 11 5)) (preg (fld w 8 3)))
  | 2 => .ok (.fscMul (sreg (fld w 21 5)) (sreg (fld w 16 5)) (sreg (fld w 11 5)) (preg (fld w 8 3)))
  | 3 => .ok (.fscFma (sreg (fld w 21 5)) (sreg (fld w 16 5)) (sreg (fld w 11 5)) (preg (fld w 8 3)))
  | 4 => .ok (.fscFnma (sreg (fld w 21 5)) (sreg (fld w 16 5)) (sreg (fld w 11 5)) (preg (fld w 8 3)))
  | 5 => .ok (.fscMin (sreg (fld w 21 5)) (sreg (fld w 16 5)) (sreg (fld w 11 5)) (preg (fld w 8 3)))
  | 6 => .ok (.fscMax (sreg (fld w 21 5)) (sreg (fld w 16 5)) (sreg (fld w 11 5)) (preg (fld w 8 3)))
  | 7 => if fld w 11 5 = 0 then .ok (.fscAbs (sreg (fld w 21 5)) (sreg (fld w 16 5)) (preg (fld w 8 3))) else .error .fixedField
  | 8 => if fld w 11 5 = 0 then .ok (.fscNeg (sreg (fld w 21 5)) (sreg (fld w 16 5)) (preg (fld w 8 3))) else .error .fixedField
  | 9 => if fld w 11 5 = 0 then .ok (.fscRsqs (sreg (fld w 21 5)) (sreg (fld w 16 5)) (preg (fld w 8 3))) else .error .fixedField
  | 10 => if fld w 11 5 = 0 then .ok (.fscRcps (sreg (fld w 21 5)) (sreg (fld w 16 5)) (preg (fld w 8 3))) else .error .fixedField
  | 11 => if fld w 11 5 = 0 then .ok (.fscExp2s (sreg (fld w 21 5)) (sreg (fld w 16 5)) (preg (fld w 8 3))) else .error .fixedField
  | 12 => if fld w 11 5 = 0 then .ok (.fscLog2s (sreg (fld w 21 5)) (sreg (fld w 16 5)) (preg (fld w 8 3))) else .error .fixedField
  | 13 => if fld w 11 5 = 0 then .ok (.fscRelu (sreg (fld w 21 5)) (sreg (fld w 16 5)) (preg (fld w 8 3))) else .error .fixedField
  | 14 => .ok (.fscClamp (sreg (fld w 21 5)) (sreg (fld w 16 5)) (sreg (fld w 11 5)) (preg (fld w 8 3)))
  | 15 => .ok (.fscSel (sreg (fld w 21 5)) (sreg (fld w 16 5)) (sreg (fld w 11 5)) (preg (fld w 8 3)))
  | 16 => .ok (.fscCmpeq (sreg (fld w 21 5)) (sreg (fld w 16 5)) (sreg (fld w 11 5)) (preg (fld w 8 3)))
  | 17 => .ok (.fscCmplt (sreg (fld w 21 5)) (sreg (fld w 16 5)) (sreg (fld w 11 5)) (preg (fld w 8 3)))
  | 18 => .ok (.fscCmple (sreg (fld w 21 5)) (sreg (fld w 16 5)) (sreg (fld w 11 5)) (preg (fld w 8 3)))
  | 19 => if fld w 11 5 = 0 then .ok (.fscMov (sreg (fld w 21 5)) (sreg (fld w 16 5)) (preg (fld w 8 3))) else .error .fixedField
  | fn => .error (.unassignedFn 52 fn)

/-- OP 0x35 (05 R120, R121). -/
def decodeVqnt (w : Nat) : Except DecodeError Instr :=
  if fld w 4 4 = 0 ∧ fld w 11 5 = 0 then need (vreg? (fld w 21 5)) fun d => need (vreg? (fld w 16 5)) fun a => need (Fmt.ofCode (fld w 0 4)) fun f => .ok (.vqnt d a (preg (fld w 8 3)) f)
  else .error .fixedField

/-- OP 0x36 (05 R120, R121). -/
def decodeVsacc (w : Nat) : Except DecodeError Instr :=
  match fld w 0 8 with
  | 0 => need (vreg? (fld w 21 5)) fun d => need (vreg? (fld w 16 5)) fun a => need (vreg? (fld w 11 5)) fun b => .ok (.vsaccE2m1 d a b (preg (fld w 8 3)))
  | 1 => need (vreg? (fld w 21 5)) fun d => need (vreg? (fld w 16 5)) fun a => need (vreg? (fld w 11 5)) fun b => .ok (.vsaccE4m3 d a b (preg (fld w 8 3)))
  | fn => .error (.unassignedFn 54 fn)

/-- OP 0x3F (05 R120, R121). -/
def decodeSys (w : Nat) : Except DecodeError Instr :=
  match fld w 0 6 with
  | 0 => if fld w 6 20 = 0 then .ok .nop else .error .fixedField
  | 1 => if fld w 6 10 = 0 then .ok (.trap (BitVec.ofNat 10 (fld w 16 10))) else .error .fixedField
  | 2 => if fld w 6 20 = 0 then .ok .eret else .error .fixedField
  | 3 => if fld w 6 5 = 0 then .ok (.mrd (BitVec.ofNat 10 (fld w 16 10)) (sreg (fld w 11 5))) else .error .fixedField
  | 4 => if fld w 11 5 = 0 then .ok (.mwr (BitVec.ofNat 10 (fld w 16 10)) (sreg (fld w 6 5))) else .error .fixedField
  | 5 => if fld w 6 20 = 0 then .ok .yield else .error .fixedField
  | 6 => if fld w 16 10 = 0 then .ok (.wait (sreg (fld w 11 5)) (sreg (fld w 6 5))) else .error .fixedField
  | 7 => if fld w 6 20 = 0 then .ok .halt else .error .fixedField
  | 8 => if fld w 6 10 = 0 then .ok (.brk (BitVec.ofNat 10 (fld w 16 10))) else .error .fixedField
  | 9 => if fld w 11 15 = 0 then .ok (.dbgh (sreg (fld w 6 5))) else .error .fixedField
  | 10 => if fld w 11 15 = 0 then .ok (.seed (sreg (fld w 6 5))) else .error .fixedField
  | fn => .error (.unassignedFn 63 fn)

/-- The fields of a word, by its major opcode (05 R120). -/
def parse (w : Nat) : Except DecodeError Instr :=
  match fld w 26 6 with
  | 1 => decodeAlu w
  | 2 => decodeAddi w
  | 3 => decodeAndi w
  | 4 => decodeOri w
  | 5 => decodeXori w
  | 6 => decodeShfi w
  | 7 => decodeMuli w
  | 8 => decodeLi w
  | 9 => decodeLis w
  | 10 => decodeSetp w
  | 11 => decodeSetpi w
  | 12 => decodePlog w
  | 13 => decodePtr w
  | 16 => decodeBr w
  | 17 => decodeCall w
  | 18 => decodeJr w
  | 19 => decodeJtab w
  | 20 => decodeLoop w
  | 21 => decodeLoopi w
  | 22 => decodeLbrk w
  | 23 => decodeQbank w
  | 24 => decodeLd w
  | 25 => decodeSt w
  | 26 => decodeLdv w
  | 27 => decodeStv w
  | 28 => decodeAmo w
  | 29 => decodeFence w
  | 30 => decodeBar w
  | 31 => decodeMsg w
  | 32 => decodeColl w
  | 33 => decodeLrec w
  | 34 => decodeCnt w
  | 35 => decodeTime w
  | 36 => decodePhase w
  | 40 => decodeFab w
  | 41 => decodeStrm w
  | 42 => decodeSlu w
  | 43 => decodeTstep w
  | 44 => decodeWd w
  | 45 => decodeScl w
  | 46 => decodeChn w
  | 48 => decodeVop w
  | 49 => decodeVcvt w
  | 50 => decodeVred w
  | 51 => decodeVmov w
  | 52 => decodeFsc w
  | 53 => decodeVqnt w
  | 54 => decodeVsacc w
  | 63 => decodeSys w
  | op => .error (.unassignedOpcode op)

/-- The decoder: a word is an instruction when its fields parse and make a well-formed instruction. -/
def decode (w : IWord) : Except DecodeError Instr :=
  match parse w.toNat with
  | .ok i => if i.wellFormed then .ok i else .error .illFormed
  | .error e => .error e

/-- The host's probe: the instruction of a word whose bits are numbered as spec/opcode_table.json numbers them. The
KZ-96 has 32-bit little-endian words, so bit 0 of the table is bit 0 of the word (05 R119). -/
def decodeTableWord (_nbits w : Nat) : Option Instr :=
  match decode (BitVec.ofNat 32 w) with
  | .ok i => some i
  | .error _ => none

/-- The number an instruction's word spells, from the encodings of 05 R119 to R121; an event has no word. -/
def encodeNat : Instr → Option Nat
  | .powerOnReset => none
  | .hostPortTraining => none
  | .mread => none
  | .mwrite => none
  | .registerWrite => none
  | .mbBoot => none
  | .mbAttest => none
  | .mbPubkey => none
  | .mbManifest => none
  | .mbInstall => none
  | .mbCmap => none
  | .hostBuild => none
  | .hostLaunch => none
  | .hostCancel => none
  | .hostClear => none
  | .hostTeardown => none
  | .semRead => none
  | .semFree => none
  | .deviceLaunch => none
  | .launchDispatch => none
  | .preemptRequest => none
  | .graphNodeEnd => none
  | .graphNodeLoad => none
  | .loadEnd => none
  | .graphNodeCond => none
  | .graphNodeWhile => none
  | .graphNodeHold => none
  | .holdNodeReread => none
  | .graphNodeArm => none
  | .partitionEnable => none
  | .pcmdResume => none
  | .pcmdHalt => none
  | .pcmdSwitch => none
  | .pringrdWrite => none
  | .pringbaseWrite => none
  | .pstopbaseWrite => none
  | .pringctlWrite => none
  | .kmfifoRead => none
  | .ctxCreate => none
  | .ctxDestroy => none
  | .xinvCtx => none
  | .xinvPage => none
  | .xinvAll => none
  | .xinvComplete => none
  | .translationWalkDone => none
  | .yieldDeadline => none
  | .cooperativeStop => none
  | .cooperativeTimeout => none
  | .contextFlip => none
  | .bankSpillRestore => none
  | .haltLineArrival => none
  | .stopRecordsDone => none
  | .plotRowAttempt => none
  | .markCommit => none
  | .timingLimit => none
  | .plotRelease => none
  | .tstepFeedPresent => none
  | .cfgSwitching => none
  | .cfgBackgroundDone => none
  | .spliceStagingDone => none
  | .streamNodeRead => none
  | .streamNodeFire => none
  | .chainFire => none
  | .decoderSegmentDecode => none
  | .decoderWordDeliver => none
  | .scaleCacheFill => none
  | .taskSchedulerCycle => none
  | .tskctlWrite => none
  | .ttbaseWrite => none
  | .queueMessageArrival => none
  | .routerForward => none
  | .packetDeliver => none
  | .routeTableWrite => none
  | .timedActionFire => none
  | .domainWindowBoundary => none
  | .servoAdjust => none
  | .ptpEvent => none
  | .ethLinkEvent => none
  | .remoteAccessArrival => none
  | .l1SectorAgeWriteback => none
  | .bankIdleLower => none
  | .bankWakeComplete => none
  | .bwphApply => none
  | .bankPhaseWakeStart => none
  | .bwphPhaseTime => none
  | .bpcClassWrite => none
  | .budgetIntervalBoundary => none
  | .clQreqWrite => none
  | .clSwallowReqWrite => none
  | .quiescePointChange => none
  | .swallowForceTimeout => none
  | .clRailReqWrite => none
  | .railTransitionDone => none
  | .clWakeWrite => none
  | .clusterWakeDone => none
  | .thermalSample => none
  | .energyInterval => none
  | .ballastStep => none
  | .rmcWake => none
  | .rmcDoorbell => none
  | .retcmdTest => none
  | .testComplete => none
  | .retcmdRetire => none
  | .retcmdCellbad => none
  | .retireComplete => none
  | .patrolScrub => none
  | .sliceRowRemap => none
  | .dbgctlHaltall => none
  | .dbgctlResumeall => none
  | .testPortHalt => none
  | .collComplete => none
  | .add d a b g => some (0x04000000 + d.val * 2097152 + a.val * 65536 + b.val * 2048 + g.val * 256)
  | .sub d a b g => some (0x04000001 + d.val * 2097152 + a.val * 65536 + b.val * 2048 + g.val * 256)
  | .and d a b g => some (0x04000002 + d.val * 2097152 + a.val * 65536 + b.val * 2048 + g.val * 256)
  | .or d a b g => some (0x04000003 + d.val * 2097152 + a.val * 65536 + b.val * 2048 + g.val * 256)
  | .xor d a b g => some (0x04000004 + d.val * 2097152 + a.val * 65536 + b.val * 2048 + g.val * 256)
  | .andn d a b g => some (0x04000005 + d.val * 2097152 + a.val * 65536 + b.val * 2048 + g.val * 256)
  | .shl d a b g => some (0x04000006 + d.val * 2097152 + a.val * 65536 + b.val * 2048 + g.val * 256)
  | .shr d a b g => some (0x04000007 + d.val * 2097152 + a.val * 65536 + b.val * 2048 + g.val * 256)
  | .sra d a b g => some (0x04000008 + d.val * 2097152 + a.val * 65536 + b.val * 2048 + g.val * 256)
  | .ror d a b g => some (0x04000009 + d.val * 2097152 + a.val * 65536 + b.val * 2048 + g.val * 256)
  | .min d a b g => some (0x0400000A + d.val * 2097152 + a.val * 65536 + b.val * 2048 + g.val * 256)
  | .max d a b g => some (0x0400000B + d.val * 2097152 + a.val * 65536 + b.val * 2048 + g.val * 256)
  | .minn d a b g => some (0x0400000C + d.val * 2097152 + a.val * 65536 + b.val * 2048 + g.val * 256)
  | .maxn d a b g => some (0x0400000D + d.val * 2097152 + a.val * 65536 + b.val * 2048 + g.val * 256)
  | .mul d a b g => some (0x0400000E + d.val * 2097152 + a.val * 65536 + b.val * 2048 + g.val * 256)
  | .mulh d a b g => some (0x0400000F + d.val * 2097152 + a.val * 65536 + b.val * 2048 + g.val * 256)
  | .mulhn d a b g => some (0x04000010 + d.val * 2097152 + a.val * 65536 + b.val * 2048 + g.val * 256)
  | .div d a b g => some (0x04000011 + d.val * 2097152 + a.val * 65536 + b.val * 2048 + g.val * 256)
  | .divn d a b g => some (0x04000012 + d.val * 2097152 + a.val * 65536 + b.val * 2048 + g.val * 256)
  | .rem d a b g => some (0x04000013 + d.val * 2097152 + a.val * 65536 + b.val * 2048 + g.val * 256)
  | .remn d a b g => some (0x04000014 + d.val * 2097152 + a.val * 65536 + b.val * 2048 + g.val * 256)
  | .clz d a g => some (0x04000015 + d.val * 2097152 + a.val * 65536 + g.val * 256)
  | .ctz d a g => some (0x04000016 + d.val * 2097152 + a.val * 65536 + g.val * 256)
  | .popc d a g => some (0x04000017 + d.val * 2097152 + a.val * 65536 + g.val * 256)
  | .brev d a g => some (0x04000018 + d.val * 2097152 + a.val * 65536 + g.val * 256)
  | .sext d a b g => some (0x04000019 + d.val * 2097152 + a.val * 65536 + b.val * 2048 + g.val * 256)
  | .zext d a b g => some (0x0400001A + d.val * 2097152 + a.val * 65536 + b.val * 2048 + g.val * 256)
  | .sel d a b p => some (0x0400001B + d.val * 2097152 + a.val * 65536 + b.val * 2048 + p.val * 256)
  | .addi d a i => some (0x08000000 + d.val * 2097152 + a.val * 65536 + i.toNat)
  | .andi d a i => some (0x0C000000 + d.val * 2097152 + a.val * 65536 + i.toNat)
  | .ori d a i => some (0x10000000 + d.val * 2097152 + a.val * 65536 + i.toNat)
  | .xori d a i => some (0x14000000 + d.val * 2097152 + a.val * 65536 + i.toNat)
  | .shfiShl d a c => some (0x18000000 + d.val * 2097152 + a.val * 65536 + c.toNat)
  | .shfiShr d a c => some (0x18000040 + d.val * 2097152 + a.val * 65536 + c.toNat)
  | .shfiSra d a c => some (0x18000080 + d.val * 2097152 + a.val * 65536 + c.toNat)
  | .shfiRor d a c => some (0x180000C0 + d.val * 2097152 + a.val * 65536 + c.toNat)
  | .muli d a i => some (0x1C000000 + d.val * 2097152 + a.val * 65536 + i.toNat)
  | .li d i => some (0x20000000 + d.val * 2097152 + i.toNat)
  | .lis d i => some (0x24000000 + d.val * 2097152 + i.toNat)
  | .setpEq d a b g => some (0x28000000 + d.val * 2097152 + a.val * 65536 + b.val * 2048 + g.val * 256)
  | .setpNe d a b g => some (0x28000001 + d.val * 2097152 + a.val * 65536 + b.val * 2048 + g.val * 256)
  | .setpLt d a b g => some (0x28000002 + d.val * 2097152 + a.val * 65536 + b.val * 2048 + g.val * 256)
  | .setpGe d a b g => some (0x28000003 + d.val * 2097152 + a.val * 65536 + b.val * 2048 + g.val * 256)
  | .setpLtn d a b g => some (0x28000004 + d.val * 2097152 + a.val * 65536 + b.val * 2048 + g.val * 256)
  | .setpGen d a b g => some (0x28000005 + d.val * 2097152 + a.val * 65536 + b.val * 2048 + g.val * 256)
  | .setpiEq p a i => some (0x2C000000 + p.val * 2097152 + a.val * 65536 + i.toNat)
  | .setpiNe p a i => some (0x2D000000 + p.val * 2097152 + a.val * 65536 + i.toNat)
  | .setpiLt p a i => some (0x2E000000 + p.val * 2097152 + a.val * 65536 + i.toNat)
  | .setpiGe p a i => some (0x2F000000 + p.val * 2097152 + a.val * 65536 + i.toNat)
  | .pand d a b g => some (0x30000000 + d.val * 2097152 + a.val * 65536 + b.val * 2048 + g.val * 256)
  | .por d a b g => some (0x30000001 + d.val * 2097152 + a.val * 65536 + b.val * 2048 + g.val * 256)
  | .pxor d a b g => some (0x30000002 + d.val * 2097152 + a.val * 65536 + b.val * 2048 + g.val * 256)
  | .pnot d a g => some (0x30000003 + d.val * 2097152 + a.val * 65536 + g.val * 256)
  | .pmov d a g => some (0x30000004 + d.val * 2097152 + a.val * 65536 + g.val * 256)
  | .ptos d a g => some (0x30000005 + d.val * 2097152 + a.val * 65536 + g.val * 256)
  | .mkptr d a b g => some (0x34000000 + d.val * 2097152 + a.val * 65536 + b.val * 2048 + g.val * 256)
  | .pspc d a g => some (0x34000001 + d.val * 2097152 + a.val * 65536 + g.val * 256)
  | .padd d a b g => some (0x34000002 + d.val * 2097152 + a.val * 65536 + b.val * 2048 + g.val * 256)
  | .pcore d a b g => some (0x34000003 + d.val * 2097152 + a.val * 65536 + b.val * 2048 + g.val * 256)
  | .keylk d a b g => some (0x34000004 + d.val * 2097152 + a.val * 65536 + b.val * 2048 + g.val * 256)
  | .br g v o => some (0x40000000 + g.val * 8388608 + v.toNat * 4194304 + o.toNat)
  | .call g v o => some (0x44000000 + g.val * 8388608 + v.toNat * 4194304 + o.toNat)
  | .jr a g => some (0x48000000 + a.val * 65536 + g.val * 256)
  | .jalr d a g => some (0x48000001 + d.val * 2097152 + a.val * 65536 + g.val * 256)
  | .ret g => some (0x48000002 + g.val * 256)
  | .jtab d a n => some (0x4C000000 + d.val * 2097152 + a.val * 65536 + n.toNat)
  | .loop a l => some (0x50000000 + a.val * 65536 + l.toNat)
  | .loopi l c => some (0x54000000 + l.toNat * 65536 + c.toNat)
  | .lbrk g => some (0x58000000 + g.val * 256)
  | .fork g => some (0x5C000000 + g.val * 256)
  | .swq g => some (0x5C000001 + g.val * 256)
  | .pick p g => some (0x5C000002 + p.val * 2048 + g.val * 256)
  | .ld d a o z s m => some (0x60000000 + d.val * 2097152 + a.val * 65536 + o.toNat * 256 + z.code * 32 + s.code * 4 + m.toNat)
  | .st d a o z s m => some (0x64000000 + d.val * 2097152 + a.val * 65536 + o.toNat * 256 + z.code * 32 + s.code * 4 + m.toNat * 2)
  | .ldv d a o z s m => some (0x68000000 + d.val * 2097152 + a.val * 65536 + o.toNat * 256 + z.code * 32 + s.code * 4 + m.toNat)
  | .stv d a o z s m => some (0x6C000000 + d.val * 2097152 + a.val * 65536 + o.toNat * 256 + z.code * 32 + s.code * 4 + m.toNat * 2)
  | .amoAadd d a b s r z => some (0x70000000 + d.val * 2097152 + a.val * 65536 + b.val * 2048 + s.code * 256 + r.toNat * 128 + z.toNat * 64)
  | .amoAmin d a b s r z => some (0x70000001 + d.val * 2097152 + a.val * 65536 + b.val * 2048 + s.code * 256 + r.toNat * 128 + z.toNat * 64)
  | .amoAmax d a b s r z => some (0x70000002 + d.val * 2097152 + a.val * 65536 + b.val * 2048 + s.code * 256 + r.toNat * 128 + z.toNat * 64)
  | .amoAminn d a b s r z => some (0x70000003 + d.val * 2097152 + a.val * 65536 + b.val * 2048 + s.code * 256 + r.toNat * 128 + z.toNat * 64)
  | .amoAmaxn d a b s r z => some (0x70000004 + d.val * 2097152 + a.val * 65536 + b.val * 2048 + s.code * 256 + r.toNat * 128 + z.toNat * 64)
  | .amoAand d a b s r z => some (0x70000005 + d.val * 2097152 + a.val * 65536 + b.val * 2048 + s.code * 256 + r.toNat * 128 + z.toNat * 64)
  | .amoAor d a b s r z => some (0x70000006 + d.val * 2097152 + a.val * 65536 + b.val * 2048 + s.code * 256 + r.toNat * 128 + z.toNat * 64)
  | .amoAxor d a b s r z => some (0x70000007 + d.val * 2097152 + a.val * 65536 + b.val * 2048 + s.code * 256 + r.toNat * 128 + z.toNat * 64)
  | .amoAswap d a b s r z => some (0x70000008 + d.val * 2097152 + a.val * 65536 + b.val * 2048 + s.code * 256 + r.toNat * 128 + z.toNat * 64)
  | .amoAcas d a b s r z => some (0x70000009 + d.val * 2097152 + a.val * 65536 + b.val * 2048 + s.code * 256 + r.toNat * 128 + z.toNat * 64)
  | .amoAfadd d a b s r z => some (0x7000000A + d.val * 2097152 + a.val * 65536 + b.val * 2048 + s.code * 256 + r.toNat * 128 + z.toNat * 64)
  | .fence s g => some (0x74000000 + s.code * 2048 + g.val * 256)
  | .fenceLd s g => some (0x74000001 + s.code * 2048 + g.val * 256)
  | .fenceSt s g => some (0x74000002 + s.code * 2048 + g.val * 256)
  | .wfence g => some (0x74000003 + g.val * 256)
  | .mfence g => some (0x74000004 + g.val * 256)
  | .ifence g => some (0x74000005 + g.val * 256)
  | .binit a b g => some (0x78000000 + a.val * 65536 + b.val * 2048 + g.val * 256)
  | .barr d a b g => some (0x78000001 + d.val * 2097152 + a.val * 65536 + b.val * 2048 + g.val * 256)
  | .bwait a b g => some (0x78000002 + a.val * 65536 + b.val * 2048 + g.val * 256)
  | .bleave a b g => some (0x78000003 + a.val * 65536 + b.val * 2048 + g.val * 256)
  | .bqry d a b g => some (0x78000004 + d.val * 2097152 + a.val * 65536 + b.val * 2048 + g.val * 256)
  | .qsend d a b g => some (0x7C000000 + d.val * 2097152 + a.val * 65536 + b.val * 2048 + g.val * 256)
  | .qrecv d a b g => some (0x7C000001 + d.val * 2097152 + a.val * 65536 + b.val * 2048 + g.val * 256)
  | .qpoll d a g => some (0x7C000002 + d.val * 2097152 + a.val * 65536 + g.val * 256)
  | .collAllred x y a r f => some (0x80000000 + x.val * 4194304 + y.val * 262144 + a.val * 512 + r.code * 16 + f.code)
  | .collRedscat x y a r f => some (0x80000040 + x.val * 4194304 + y.val * 262144 + a.val * 512 + r.code * 16 + f.code)
  | .collAllgath x y a f => some (0x80000080 + x.val * 4194304 + y.val * 262144 + a.val * 512 + f.code)
  | .collBcast x y a f => some (0x800000C0 + x.val * 4194304 + y.val * 262144 + a.val * 512 + f.code)
  | .collA2a x y a f => some (0x80000100 + x.val * 4194304 + y.val * 262144 + a.val * 512 + f.code)
  | .lrpatch a b g => some (0x84000000 + a.val * 65536 + b.val * 2048 + g.val * 256)
  | .lrarm a g => some (0x84000001 + a.val * 65536 + g.val * 256)
  | .lrqry d a g => some (0x84000002 + d.val * 2097152 + a.val * 65536 + g.val * 256)
  | .cntadd a b g => some (0x88000000 + a.val * 65536 + b.val * 2048 + g.val * 256)
  | .vcnt a b g => some (0x88000001 + a.val * 65536 + b.val * 2048 + g.val * 256)
  | .cntrd d a g => some (0x88000002 + d.val * 2097152 + a.val * 65536 + g.val * 256)
  | .cntsnap d a g => some (0x88000003 + d.val * 2097152 + a.val * 65536 + g.val * 256)
  | .wtrd d g => some (0x8C000000 + d.val * 2097152 + g.val * 256)
  | .atset d a b g => some (0x8C000001 + d.val * 2097152 + a.val * 65536 + b.val * 2048 + g.val * 256)
  | .atcan d a g => some (0x8C000002 + d.val * 2097152 + a.val * 65536 + g.val * 256)
  | .atwait d a g => some (0x8C000003 + d.val * 2097152 + a.val * 65536 + g.val * 256)
  | .bwph a b g => some (0x90000000 + a.val * 65536 + b.val * 2048 + g.val * 256)
  | .bwqry d a g => some (0x90000001 + d.val * 2097152 + a.val * 65536 + g.val * 256)
  | .cfg a => some (0xA0000000 + a.val * 512)
  | .cfgwait a => some (0xA0000001 + a.val * 512)
  | .cfgwaitQ a => some (0xA0004001 + a.val * 512)
  | .start a => some (0xA0000002 + a.val * 512)
  | .stopp a => some (0xA0000003 + a.val * 512)
  | .stoppNow a => some (0xA0004003 + a.val * 512)
  | .splarm a => some (0xA0000004 + a.val * 512)
  | .splice => some (0xA0000005)
  | .bypmap a => some (0xA0000006 + a.val * 512)
  | .bypmapCol a => some (0xA0004006 + a.val * 512)
  | .dlyset a => some (0xA0000007 + a.val * 512)
  | .holdtab a => some (0xA0000008 + a.val * 512)
  | .shld x a => some (0xA4000000 + x.val * 4194304 + a.val * 512)
  | .shst x a => some (0xA4000001 + x.val * 4194304 + a.val * 512)
  | .strm x y n a => some (0xA4000002 + x.val * 4194304 + y.val * 262144 + n.val * 16384 + a.val * 512)
  | .strmq n a => some (0xA4000003 + n.val * 16384 + a.val * 512)
  | .xform n a => some (0xA4000004 + n.val * 16384 + a.val * 512)
  | .cbload a => some (0xA4000005 + a.val * 512)
  | .slset x a => some (0xA8000000 + x.val * 4194304 + a.val * 512)
  | .slput x a => some (0xA8000001 + x.val * 4194304 + a.val * 512)
  | .sltake x a => some (0xA8000002 + x.val * 4194304 + a.val * 512)
  | .slqry x a => some (0xA8000003 + x.val * 4194304 + a.val * 512)
  | .slqryD x a => some (0xA8004003 + x.val * 4194304 + a.val * 512)
  | .slwaitData x a => some (0xA8000004 + x.val * 4194304 + a.val * 512)
  | .slwaitRoom x a => some (0xA8004004 + x.val * 4194304 + a.val * 512)
  | .tstep x y a n => some (0xAC000000 + x.val * 4194304 + y.val * 262144 + a.val * 512 + n.toNat)
  | .tstepV x y z n => some (0xAC000000 + x.val * 4194304 + y.val * 262144 + z.val * 16384 + n.toNat)
  | .wtbl a b g => some (0xB0000000 + a.val * 65536 + b.val * 2048 + g.val * 256)
  | .wdec a g => some (0xB0000001 + a.val * 65536 + g.val * 256)
  | .wseek a g => some (0xB0000002 + a.val * 65536 + g.val * 256)
  | .wdqry d a g => some (0xB0000003 + d.val * 2097152 + a.val * 65536 + g.val * 256)
  | .scset a b g => some (0xB4000000 + a.val * 65536 + b.val * 2048 + g.val * 256)
  | .scfl g => some (0xB4000001 + g.val * 256)
  | .chain a b g => some (0xB8000000 + a.val * 65536 + b.val * 2048 + g.val * 256)
  | .chconst a b g => some (0xB8000001 + a.val * 65536 + b.val * 2048 + g.val * 256)
  | .vopAdd d a b g t => some (0xC0000000 + d.val * 2097152 + a.val * 65536 + b.val * 2048 + g.val * 256 + t.code * 32)
  | .vopSub d a b g t => some (0xC0000001 + d.val * 2097152 + a.val * 65536 + b.val * 2048 + g.val * 256 + t.code * 32)
  | .vopMul d a b g t => some (0xC0000002 + d.val * 2097152 + a.val * 65536 + b.val * 2048 + g.val * 256 + t.code * 32)
  | .vopFma d a b g t => some (0xC0000003 + d.val * 2097152 + a.val * 65536 + b.val * 2048 + g.val * 256 + t.code * 32)
  | .vopFnma d a b g t => some (0xC0000004 + d.val * 2097152 + a.val * 65536 + b.val * 2048 + g.val * 256 + t.code * 32)
  | .vopMin d a b g t => some (0xC0000005 + d.val * 2097152 + a.val * 65536 + b.val * 2048 + g.val * 256 + t.code * 32)
  | .vopMax d a b g t => some (0xC0000006 + d.val * 2097152 + a.val * 65536 + b.val * 2048 + g.val * 256 + t.code * 32)
  | .vopAbs d a g t => some (0xC0000007 + d.val * 2097152 + a.val * 65536 + g.val * 256 + t.code * 32)
  | .vopNeg d a g t => some (0xC0000008 + d.val * 2097152 + a.val * 65536 + g.val * 256 + t.code * 32)
  | .vopRsqs d a g t => some (0xC0000009 + d.val * 2097152 + a.val * 65536 + g.val * 256 + t.code * 32)
  | .vopRcps d a g t => some (0xC000000A + d.val * 2097152 + a.val * 65536 + g.val * 256 + t.code * 32)
  | .vopExp2s d a g t => some (0xC000000B + d.val * 2097152 + a.val * 65536 + g.val * 256 + t.code * 32)
  | .vopLog2s d a g t => some (0xC000000C + d.val * 2097152 + a.val * 65536 + g.val * 256 + t.code * 32)
  | .vopRelu d a g t => some (0xC000000D + d.val * 2097152 + a.val * 65536 + g.val * 256 + t.code * 32)
  | .vopClamp d a b g t => some (0xC000000E + d.val * 2097152 + a.val * 65536 + b.val * 2048 + g.val * 256 + t.code * 32)
  | .vopSel d a b g t => some (0xC000000F + d.val * 2097152 + a.val * 65536 + b.val * 2048 + g.val * 256 + t.code * 32)
  | .vopCmpeq d a b g t => some (0xC0000010 + d.val * 2097152 + a.val * 65536 + b.val * 2048 + g.val * 256 + t.code * 32)
  | .vopCmplt d a b g t => some (0xC0000011 + d.val * 2097152 + a.val * 65536 + b.val * 2048 + g.val * 256 + t.code * 32)
  | .vopCmple d a b g t => some (0xC0000012 + d.val * 2097152 + a.val * 65536 + b.val * 2048 + g.val * 256 + t.code * 32)
  | .vopMov d a g t => some (0xC0000013 + d.val * 2097152 + a.val * 65536 + g.val * 256 + t.code * 32)
  | .vopAmaxu d a g t => some (0xC0000017 + d.val * 2097152 + a.val * 65536 + g.val * 256 + t.code * 32)
  | .vcvt d a g t f => some (0xC4000000 + d.val * 2097152 + a.val * 65536 + g.val * 256 + t.code * 16 + f.code)
  | .vsum d a g => some (0xC8000000 + d.val * 2097152 + a.val * 65536 + g.val * 256)
  | .vmax d a g => some (0xC8000001 + d.val * 2097152 + a.val * 65536 + g.val * 256)
  | .vmin d a g => some (0xC8000002 + d.val * 2097152 + a.val * 65536 + g.val * 256)
  | .vamax d a g => some (0xC8000003 + d.val * 2097152 + a.val * 65536 + g.val * 256)
  | .vbcast d a g => some (0xCC000000 + d.val * 2097152 + a.val * 65536 + g.val * 256)
  | .vext d a b g => some (0xCC000001 + d.val * 2097152 + a.val * 65536 + b.val * 2048 + g.val * 256)
  | .vshuf d a b g => some (0xCC000002 + d.val * 2097152 + a.val * 65536 + b.val * 2048 + g.val * 256)
  | .vins d a b g => some (0xCC000003 + d.val * 2097152 + a.val * 65536 + b.val * 2048 + g.val * 256)
  | .fscAdd d a b g => some (0xD0000000 + d.val * 2097152 + a.val * 65536 + b.val * 2048 + g.val * 256)
  | .fscSub d a b g => some (0xD0000001 + d.val * 2097152 + a.val * 65536 + b.val * 2048 + g.val * 256)
  | .fscMul d a b g => some (0xD0000002 + d.val * 2097152 + a.val * 65536 + b.val * 2048 + g.val * 256)
  | .fscFma d a b g => some (0xD0000003 + d.val * 2097152 + a.val * 65536 + b.val * 2048 + g.val * 256)
  | .fscFnma d a b g => some (0xD0000004 + d.val * 2097152 + a.val * 65536 + b.val * 2048 + g.val * 256)
  | .fscMin d a b g => some (0xD0000005 + d.val * 2097152 + a.val * 65536 + b.val * 2048 + g.val * 256)
  | .fscMax d a b g => some (0xD0000006 + d.val * 2097152 + a.val * 65536 + b.val * 2048 + g.val * 256)
  | .fscAbs d a g => some (0xD0000007 + d.val * 2097152 + a.val * 65536 + g.val * 256)
  | .fscNeg d a g => some (0xD0000008 + d.val * 2097152 + a.val * 65536 + g.val * 256)
  | .fscRsqs d a g => some (0xD0000009 + d.val * 2097152 + a.val * 65536 + g.val * 256)
  | .fscRcps d a g => some (0xD000000A + d.val * 2097152 + a.val * 65536 + g.val * 256)
  | .fscExp2s d a g => some (0xD000000B + d.val * 2097152 + a.val * 65536 + g.val * 256)
  | .fscLog2s d a g => some (0xD000000C + d.val * 2097152 + a.val * 65536 + g.val * 256)
  | .fscRelu d a g => some (0xD000000D + d.val * 2097152 + a.val * 65536 + g.val * 256)
  | .fscClamp d a b g => some (0xD000000E + d.val * 2097152 + a.val * 65536 + b.val * 2048 + g.val * 256)
  | .fscSel d a b g => some (0xD000000F + d.val * 2097152 + a.val * 65536 + b.val * 2048 + g.val * 256)
  | .fscCmpeq d a b g => some (0xD0000010 + d.val * 2097152 + a.val * 65536 + b.val * 2048 + g.val * 256)
  | .fscCmplt d a b g => some (0xD0000011 + d.val * 2097152 + a.val * 65536 + b.val * 2048 + g.val * 256)
  | .fscCmple d a b g => some (0xD0000012 + d.val * 2097152 + a.val * 65536 + b.val * 2048 + g.val * 256)
  | .fscMov d a g => some (0xD0000013 + d.val * 2097152 + a.val * 65536 + g.val * 256)
  | .vqnt d a g f => some (0xD4000000 + d.val * 2097152 + a.val * 65536 + g.val * 256 + f.code)
  | .vsaccE2m1 d a b g => some (0xD8000000 + d.val * 2097152 + a.val * 65536 + b.val * 2048 + g.val * 256)
  | .vsaccE4m3 d a b g => some (0xD8000001 + d.val * 2097152 + a.val * 65536 + b.val * 2048 + g.val * 256)
  | .nop => some (0xFC000000)
  | .trap n => some (0xFC000001 + n.toNat * 65536)
  | .eret => some (0xFC000002)
  | .mrd r d => some (0xFC000003 + r.toNat * 65536 + d.val * 2048)
  | .mwr r a => some (0xFC000004 + r.toNat * 65536 + a.val * 64)
  | .yield => some (0xFC000005)
  | .wait d a => some (0xFC000006 + d.val * 2048 + a.val * 64)
  | .halt => some (0xFC000007)
  | .brk n => some (0xFC000008 + n.toNat * 65536)
  | .dbgh a => some (0xFC000009 + a.val * 64)
  | .seed a => some (0xFC00000A + a.val * 64)
  | .illegalEncoding => none
  | .instructionFetchFault => none
  | .streamNodeWriteWalk => none
  | .remoteAcknowledgement => none
  | .ethFrameRetransmit => none
  | .servoLockChange => none

/-- The word of an instruction; none for an event. -/
def encode (i : Instr) : Option IWord := (encodeNat i).map (BitVec.ofNat 32)

end Sys2Proof
end

