-- ==== Sys2Proof/Config.lean ====
section
/-! DEFINITION. What an implementation fixes and the manual does not give: the values of memory that a retirement leaves
undefined, the values of results and detail words that it does not state, and the cryptographic functions of the root monitor. All are opaque: no proof can see a value. -/

namespace Sys2Proof.Config

/-- A byte of cluster memory that a retirement left undefined (25 R440): the n-th such retirement, byte a (log 12). -/
opaque freeByte (n a : Nat) : Byte

/-- The logical owner KEYLK gives an issuer that has no key ring, which the manual does not state (log 12). -/
opaque freeOwner (n : Nat) : BitVec 16

/-- A value that the manual does not state: what BWQRY gives an issuer without a partition (log 12). -/
opaque freeWord (n : Nat) : Word

/-- Detail word i of the n-th trap record of the module's units, when the manual states no value for it (log 12). -/
opaque freeDetail (n i : Nat) : Word

/-- SHA-512 of a byte string, as a 512-bit number (26 R452, R453; log 14). -/
opaque sha512 (b : List Byte) : Nat

/-- Does a 512-byte RSASSA-PSS signature verify over a byte string under a modulus (26 R452, R453; log 14)? -/
opaque pssVerify (modulus : Nat) (msg : List Byte) (signature : Nat) : Bool

/-- The attestation signature of the root monitor over a byte string (26 R453; log 14). -/
opaque attestSign (msg : List Byte) : Nat

/-- The vendor's modulus, whose SHA-512 is fused (26 R452; log 14). -/
opaque vendorKey : Nat

end Sys2Proof.Config
end

