-- ==== Sys2Proof/Machine/State.lean ====
section
/-! DEFINITION. The state of the KZ-96, as plain data: sequencers (headgates and RMCs), cores, clusters, reticles,
plots, cells, partitions, contexts, launch records, the module's own registers, memory, and the model's agenda. -/

namespace Sys2Proof.Machine

/-! ## Sequencers -/

/-- One active hardware loop (06 R145). -/
structure Loop where
  start : Word
  stop : Word
  rem : Nat
  deriving DecidableEq, Repr

/-- A timed-action slot (07 R189, R190). -/
structure TimedSlot where
  busy : Bool := false
  wt : Nat := 0
  desc : Word := 0
  fmode : Word := 0
  g : Word := 0
  fired : Bool := false
  late : Bool := false
  err : Bool := false
  cause : Nat := 0
  deriving DecidableEq, Repr

/-- The operands a headgate instruction read when it issued: what a held instruction carries to its PICK
(06 R150, R153; 02 R36). -/
structure Operands where
  va : Word := 0
  va1 : Word := 0
  vb : Word := 0
  vd : Word := 0
  vec : VWord := 0
  sx : BitVec 256 := 0
  sy : BitVec 256 := 0
  fmode : Word := 0
  g : Word := 0
  deriving DecidableEq, Repr

/-- An instruction held in a queue bank, with its operands and its own address (06 R150, R154). -/
structure Held where
  instr : Instr
  ops : Operands
  addr : Word
  deriving DecidableEq, Repr

/-- What a sequencer is doing (06 R162; 10 R258). -/
inductive Run where
  /-- Free: it runs neither a program nor a task. -/
  | idle
  /-- It runs the program of the current load. -/
  | program
  /-- It runs a task, with the claims it holds: (sluice, units) (10 R260). -/
  | task (claims : List (Nat × Nat))
  deriving DecidableEq, Repr

/-- A pending wait that an instruction begun but not finished leaves behind. -/
inductive Pending where
  | none
  /-- MFENCE waits for a commit, a STOPP or the unbinding (07 R175); true once it has come. -/
  | mfence (came : Bool)
  /-- COLL has arrived in the collective of a key (07 R184). -/
  | coll (key : Nat)
  /-- CFG has staged its load; true once its switching phase has been done (08 R202) -/
  | cfg (done : Bool)
  /-- HALT waits for the headgate's engines (06 R162). -/
  | halt
  deriving DecidableEq, Repr

/-- What a headgate is bound to: a segment of a side of a plot (08 R199). -/
structure Binding where
  plot : Nat
  side : Nat
  seg : Nat
  kind : Nat
  deriving DecidableEq, Repr

/-- A command of a stream node (08 R214), with both walks (10 R266). -/
structure StreamCmd where
  src : BitVec 256
  dst : BitVec 256
  desc : Word
  xform : Word
  fmode : Word
  g : Word
  /-- elements read, elements written -/
  rd : Nat := 0
  wr : Nat := 0
  /-- codes ready to be written, in walk order -/
  staged : List Nat := []
  /-- source codes read of a block that is not whole -/
  block : List Nat := []
  /-- scales of converted blocks: (first position, scale) -/
  scales : List (Nat × Nat) := []
  /-- elements taken from the open unit of the input sluice, positions filled of the open unit of the output sluice -/
  xoff : Nat := 0
  ooff : Nat := 0
  deriving DecidableEq, Repr

/-- What a walk of a node has moved in a cycle of its cluster's clock, in bits (10 R266); of the decoder, in words (11 R283). -/
structure WalkRate where
  cycle : Nat := 0
  moved : Nat := 0
  deriving DecidableEq, Repr

/-- A stream node (08 R214 to R217). -/
structure Node where
  queue : List StreamCmd := []
  xform : Word := 0
  cause : Nat := 0
  faddr : Word := 0
  /-- the fault was the write walk's -/
  wrFault : Bool := false
  /-- what the read walk and the write walk moved lately -/
  rdRate : WalkRate := {}
  wrRate : WalkRate := {}
  deriving DecidableEq, Repr

/-- A decode table slot (11 R272, R273): 4,096 entries as one number of 32-bit fields. -/
structure TableSlot where
  valid : Bool := false
  tabid : Nat := 0
  logAlpha : Nat := 0
  entries : List Nat := []
  deriving DecidableEq, Repr

/-- A WDEC command (08 R224). -/
structure WdecCmd where
  serial : Nat
  image : Word
  index : Word
  tile0 : Nat
  ntiles : Nat
  slot : Nat
  fmt : Fmt
  dest : Nat
  darg : Nat
  seek : Option (Nat × Nat × Nat)
  fmode : Word
  g : Word
  /-- the position at which it goes on when it starts again; it has begun before (11 R284, R286, R287) -/
  resume : Option (Nat × Nat × Nat) := none
  begun : Bool := false
  deriving DecidableEq, Repr

/-- A decoded and checked segment waiting for delivery (11 R280). -/
structure SegBuf where
  tile : Nat
  seg : Nat
  /-- symbols already delivered or skipped -/
  done : Nat
  syms : List Nat
  last : Bool
  /-- index within the tile of its first word -/
  word0 : Nat
  /-- its tile's index entry, and the cycle before which none of it is delivered (11 R283) -/
  entry : Nat
  ready : Nat
  deriving DecidableEq, Repr

/-- The weight decoder (11). -/
structure Decoder where
  t0 : TableSlot := {}
  t1 : TableSlot := {}
  queue : List WdecCmd := []
  bufs : List SegBuf := []
  /-- the running command has begun: the next segment to decode stands in the next fields -/
  started : Bool := false
  /-- position {tile, segment, consumed} as delivered (11 R284), the cycle in which it moved last, and the one before that cycle -/
  pos : Nat × Nat × Nat := (0, 0, 0)
  posCycle : Nat := 0
  posPrev : Nat × Nat × Nat := (0, 0, 0)
  /-- next segment to decode: tile, segment, bytes of the tile before its marker, words and symbols of the tile before it -/
  nextTile : Nat := 0
  nextSeg : Nat := 0
  nextOff : Nat := 0
  nextSyms : Nat := 0
  /-- symbols of the next segment that a seek discards -/
  skip : Nat := 0
  /-- pending WSEEK position (08 R225) -/
  seek : Option (Nat × Nat × Nat) := none
  /-- last fault cause (08 R225), and where the decoder is parked -/
  cause : Nat := 0
  parked : Bool := false
  faddr : Word := 0
  /-- the entry of the index table for the tile being decoded, and for the tile of the fault -/
  entry : Nat := 0
  fentry : Option Nat := none
  /-- the page walk of its read has failed: its cause and address (11 R280, R288) -/
  walkFail : Option (Nat × Nat) := none
  /-- the cycle until which it decodes, and the words delivered lately (11 R283) -/
  busy : Nat := 0
  rate : WalkRate := {}
  /-- words of the lane row being put together, and the position after the last of them (11 R280, R281) -/
  asm : List Nat := []
  /-- the position of the first of them, its word index within the tile, and whether the tile ends with them -/
  asmPos : Nat × Nat × Nat := (0, 0, 0)
  asmWord : Nat := 0
  asmLast : Bool := false
  asmEnd : Nat × Nat × Nat := (0, 0, 0)
  /-- lane rows of a cb4 lane row that have been presented (02 R32) -/
  sub : Nat := 0
  /-- words written by a DEST 1 command -/
  wsWords : Nat := 0
  deriving DecidableEq, Repr

/-- A chain command (08 R229). -/
structure ChainCmd where
  slots : BitVec 256
  desc : Word
  left : Nat
  fmode : Word
  g : Word
  k : List Nat
  /-- elements already taken from, or put into, the open unit of x, y and out -/
  xoff : Nat := 0
  yoff : Nat := 0
  ooff : Nat := 0
  deriving DecidableEq, Repr

/-- The chain unit (08 R228, R229). -/
structure Chain where
  queue : List ChainCmd := []
  k : Vector Nat 4 := Vector.replicate 4 0
  cause : Nat := 0
  faddr : Word := 0
  deriving DecidableEq, Repr

/-- A tile-step row (08 R221). -/
structure TileCmd where
  serial : Nat
  shape : BitVec 256
  sl : Nat
  vec : Option VWord
  base : Word
  step : Word
  n : Nat
  fmode : Word
  /-- words per lane that the drain takes before this row's (08 R223) -/
  dbase : Nat := 0
  deriving DecidableEq, Repr

/-- A drained word of a unit that has not committed (08 R223; 12 R300): the tile-step row it belongs to and that row's sluice, the
cycle it emerges in, its lane (99 for a zero completion), the order in which it was driven, the row, and its data: none for a word
that is dropped. -/
structure DrainWord where
  serial : Nat
  sl : Nat
  cycle : Nat
  lane : Nat
  seq : Nat
  row : Nat
  data : Option Nat
  deriving DecidableEq, Repr

/-- A drain position (14 R328): words taken so far by each lane, those that have not emerged, those appended and not committed, by
sluice, in order of arrival, and the places of the units that they fill, as counts of P: none for one whose place another producer has
taken, which is written when it commits. -/
structure DrainPos where
  counts : List Nat := []
  coming : List DrainWord := []
  ents : SMap (List DrainWord) := []
  places : SMap (List (Option Nat)) := []
  deriving DecidableEq, Repr

/-- A committed unit that P has not passed yet (10 R264; 12 R300): its sluice, its tile-step row, its place, its words, and the cycle
of the headgate's clock from which P may pass it. -/
structure DrainOut where
  sl : Nat
  serial : Nat
  place : Option Nat
  words : List Nat
  due : Nat
  deriving DecidableEq, Repr

/-- The drain of the tile-step rows of a headgate (08 R223; 12 R300): the rows not wholly behind the drain mark position,
the words per lane that they all take, the position now and at the last commit. -/
structure Drain where
  rows : List TileCmd := []
  total : Nat := 0
  pos : DrainPos := {}
  mark : DrainPos := {}
  seq : Nat := 0
  adv : List DrainOut := []
  deriving DecidableEq, Repr

/-! ## Cells and plots -/

/-- A word on a link or an edge lane (03 R66). -/
structure LWord where
  data : Nat := 0
  side : Nat := 0
  valid : Bool := false
  guard : Bool := false
  mark : Bool := false
  last : Bool := false
  deriving DecidableEq, Repr

/-- The snapshot items of a cell (03 R51). -/
structure CellRegs where
  c : Vector Nat 16 := Vector.replicate 16 0
  rb : Nat := 0
  a : Vector Nat 4 := Vector.replicate 4 0
  q : Nat := 0
  qs : Nat := 0
  w : Vector Nat 4 := Vector.replicate 4 0
  ws : Vector Nat 4 := Vector.replicate 4 0
  ovf : Bool := false
  gf : Bool := false
  pmag : Nat := 0
  pnseen : Bool := false
  g : Word := 0
  deriving DecidableEq, Repr

/-- A cell (03 R51): slots as 80-bit numbers, registers, weight store, checkpoint area, shadow bank. -/
structure Cell where
  slots : SMap Nat := []
  regs : CellRegs := {}
  store : SMap Nat := []
  ckpt : CellRegs := {}
  /-- pending snapshots of mark rows that have not committed: (row, items) -/
  pend : List (Nat × CellRegs) := []
  shSlots : SMap Nat := []
  shRegs : CellRegs := {}
  deriving DecidableEq, Repr

/-- A plot's state code (08 R204). -/
inductive PlotState where
  | unconf | ready | running | stopping | stopped
  deriving DecidableEq, Repr

/-- One word standing in an edge or furrow lane. -/
structure LaneWord where
  w : LWord
  /-- readable from this cycle, before the receiving cell's lag is counted -/
  at_ : Nat
  /-- ordinal of its lane row on the segment, or the row the sender drove it in -/
  ord : Nat
  /-- a furrow's word that belongs to neither plot's mark (14 R329) -/
  stray : Bool := false
  deriving DecidableEq, Repr

/-- An edge lane: words not yet read, and (for a furrow) the words read since the last commit (09 R247, R250). -/
structure Lane where
  fifo : List LaneWord := []
  kept : List LaneWord := []
  /-- the row in which the sender drove the latest word whose reading has committed -/
  last : Option Nat := none
  /-- the sender went back behind a word that was read, and the words it drives since are refused; for good once that reading has
  committed (14 R329) -/
  void : Bool := false
  lost : Bool := false
  deriving DecidableEq, Repr

/-- A furrow (08 R200). -/
structure Furrow where
  fromPlot : Nat
  fromSide : Nat
  fromSeg : Nat
  toPlot : Nat
  toSide : Nat
  toSeg : Nat
  logDepth : Nat
  deriving DecidableEq, Repr

/-- A mark row that has executed and not committed (12 R301). -/
structure PendMark where
  /-- row counter after the mark row -/
  rc : Nat
  /-- first cycle in which it can commit -/
  ready : Nat
  /-- per fed segment (side * 64 + seg): ordinal of the first lane row no edge cell had read -/
  reads : SMap Nat
  /-- what the cells offer to AMAX and NSEEN (02 R48) -/
  amax : Nat
  nseen : Bool
  /-- the output words that later rows still read, the words per lane that each headgate's drain had taken, and how many words each
  furrow lane had kept -/
  out : SMap (List LWord)
  drains : SMap (List Nat)
  kept : SMap Nat
  /-- the cells that had switched, and the switch tokens -/
  switched : List Nat := []
  tokens : SMap Nat := []
  deriving DecidableEq, Repr

/-- What a holding cell waits for (14 R331). -/
inductive HoldWait where
  /-- kind 0 -/
  | unexplained
  /-- kind 1: a bank that wakes -/
  | bank (cl n : Nat)
  /-- kind 2: a bank of a core that is not restored -/
  | restore (core b : Nat)
  /-- kind 3: a page walk of a cluster -/
  | walk (cl ctx va : Nat)
  /-- kind 4: a waiter's transfer of a cluster -/
  | budget (cl waiter : Nat)
  /-- kind 5: a headgate's scale-cache miss -/
  | scale (hg : Nat) (run : Word)
  deriving DecidableEq, Repr

/-- A configured plot (08 R198, 09). -/
structure Plot where
  st : PlotState := .unconf
  rows : Nat := 0
  cols : Nat := 0
  ii : Nat := 1
  redun : Bool := false
  origin : Nat := 0
  i0 : Nat := 0
  j0 : Nat := 0
  rowlim : Nat := 0
  slotImg : Word := 0
  wsImg : Word := 0
  image : Word := 0
  bypass : Nat := 0
  /-- bypassed physical column and row offsets from the origin -/
  bypCols : List Nat := []
  bypRows : List Nat := []
  /-- wafer cell coordinate of the south-west cell -/
  px : Nat := 0
  py : Nat := 0
  rc : Nat := 0
  rcMark : Nat := 0
  /-- row cycle of the next attempt -/
  next : Nat := 0
  fmode : Word := 0
  starter : Nat := 0
  limits : List Nat := [0, 64, 256, 1024, 4096, 16384, 65536, 0xFFFFFFFF]
  held : Nat := 0
  restarts : Nat := 0
  /-- row counter at the START that a ROWLIM counts from (08 R205) -/
  limBase : Nat := 0
  /-- the latest held attempt: what its cells wait for, and the first of them (row, col) -/
  waits : List HoldWait := []
  firstHold : Nat × Nat := (0, 0)
  /-- an automatic restart waits for the recorded waits to end -/
  waiting : Bool := false
  startable : Bool := true
  err : Bool := false
  pend : List PendMark := []
  lanes : SMap Lane := []
  dly : SMap Nat := []
  furrows : List Furrow := []
  reads : SMap Nat := []
  readsMark : SMap Nat := []
  /-- latest emergence cycle of a drained word (09 R249) -/
  lastEmerge : Nat := 0
  /-- output words of each cell: cell index * 4 + direction to the words of the latest rows, newest first -/
  out : SMap (List LWord) := []
  outMark : SMap (List LWord) := []
  /-- the bindings of its sides: (side, segment, kind, headgate) -/
  binds : List (Nat × Nat × Nat × Nat) := []
  /-- a splice has placed its tokens; the cells that switched; cell to the cycle in which it receives the token -/
  spliced : Bool := false
  switched : List Nat := []
  tokens : SMap Nat := []
  /-- both as the last committed mark row left them -/
  switchedMark : List Nat := []
  tokensMark : SMap Nat := []
  /-- no row has executed, and no mark committed, since a START from READY (09 R241) -/
  fresh : Bool := true
  freshMark : Bool := true
  /-- the stop of the halt line: RC and WT (14 R338), and the cause of a TIMING or REDUN_MISMATCH that stopped it -/
  stopRc : Nat := 0
  stopWt : Nat := 0
  stopCause : Nat := 0
  /-- hold class and lowest wait kind of the row held at the stop -/
  stopInfo : Nat := 0
  /-- a cooperative switch: 1 it runs to its next mark, 2 it has committed one and stands there (18 R377) -/
  yield : Nat := 0
  /-- the map generation of its bypass record (08 R210) -/
  gen : Nat := 0
  deriving DecidableEq, Repr

/-- A word that a plot's edge cell drove out of its plot (03 R456): that cell, its direction of travel, the WT. -/
structure Flight where
  x : Nat
  y : Nat
  dir : Nat
  at_ : Nat
  w : LWord
  deriving DecidableEq, Repr

/-! ## Engines and the headgate -/

/-- A fabric load as its image describes it (08 R197 to R200): its plots, its bindings (headgate, binding) and its role
images. -/
structure Load where
  plots : SMap Plot := []
  binds : List (Nat × Binding) := []
  roles : Option (Word × Word) := none
  /-- a splice's weight-store images: cell to its rows -/
  stores : SMap (SMap Nat) := []
  deriving DecidableEq, Repr

/-- An armed splice (08 R207). -/
structure Splice where
  image : Word
  /-- staging complete, and the cause it failed with (0 none) -/
  staged : Bool := false
  cause : Nat := 0
  detail : List Nat := []
  load : Load := {}
  preds : List Nat := []
  deriving DecidableEq, Repr

/-- A splice whose tokens are placed (08 R208): a successor that does not run yet, its predecessors, and what was sampled at the
SPLICE. -/
structure Wave where
  load : Load
  preds : List Nat
  /-- headgates whose engines must finish before the successor runs (12 R304) -/
  hgs : List Nat
  starter : Nat
  fmode : Word
  g : Word
  deriving DecidableEq, Repr

/-- Where a presented lane row came from, for the feed mark position (14 R328). -/
inductive FeedPos where
  | tile (serial k r : Nat)
  | dec (serial tile seg consumed sub : Nat)
  deriving DecidableEq, Repr

/-- The tile-step queue, the replay list and the feed position (08 R195, R222; 14 R328). -/
structure Feed where
  /-- rows whose lane rows are not all presented, oldest first; the head stands at repeat k, lane row r -/
  queue : List TileCmd := []
  k : Nat := 0
  r : Nat := 0
  replay : List TileCmd := []
  /-- decode commands that fed lanes and may have to feed again -/
  decReplay : List WdecCmd := []
  nextSerial : Nat := 0
  /-- lane rows presented so far, and the origin of those not yet behind a mark, oldest first: (ordinal, origin) -/
  presented : Nat := 0
  origins : List (Nat × FeedPos) := []
  /-- feed held until the plot is started or released again -/
  held : Bool := false
  /-- earliest cycle of the next presentation -/
  nextCycle : Nat := 0
  cause : Nat := 0
  faddr : Word := 0
  /-- the serial from which rows belong to a splice's successor -/
  tokenAt : Option Nat := none
  deriving DecidableEq, Repr

/-- The background work of a CFG (08 R202, R203). -/
structure CfgWork where
  /-- the plots whose weight-store images are still to be read -/
  plots : List Nat := []
  busy : Bool := false
  /-- the first failure, or 0 -/
  cause : Nat := 0
  /-- the walk that the read of the first of the plots waited for has failed -/
  failed : Bool := false
  deriving DecidableEq, Repr

/-- The scale cache and its parameters (08 R226, R227; 10 R269). -/
structure ScaleCache where
  scbase : Word := 0
  elbase : Word := 0
  shift : Nat := 0
  bandbase : Word := 0
  /-- index [11:4] of a run to (run address, 16 bytes) -/
  runs : SMap (Word × Nat) := []
  /-- misses outstanding: the run, and the engine that waits for it -/
  misses : List (Word × Nat) := []
  deriving DecidableEq, Repr

/-- Why and when a unit stopped (14 R337, R338). -/
structure StopInfo where
  cause : Nat := 0
  info : Nat := 0
  wt : Nat := 0
  pos : Nat := 0
  addr : Word := 0
  deriving DecidableEq, Repr

/-- A headgate, or an RMC (05 R110). -/
structure Hg where
  s : Vector Word 32 := Vector.replicate 32 0
  p : Vector Bool 8 := Vector.replicate 8 false
  v : Vector VWord 16 := Vector.replicate 16 0
  sh : Vector (BitVec 256) 16 := Vector.replicate 16 0
  pc : Word := 0
  sys : Bool := false
  forked : Bool := false
  qb : Bool := false
  bank0 : List Held := []
  bank1 : List Held := []
  loops : List Loop := []
  fmode : Word := 0
  amax : Nat := 0
  nseen : Bool := false
  g : Word := 0x9E3779B97F4A7C15#64
  epc : Word := 0
  ecause : Word := 0
  tvec : Word := 0
  escr : Word := 0
  pev : BitVec 5 := 0
  timed : Vector TimedSlot 8 := Vector.replicate 8 {}
  run : Run := .idle
  /-- the cycle of its cluster's clock before which it issues nothing (10 R259) -/
  startAt : Nat := 0
  /-- the entry of a LOAD start that waits for a task's HALT (17 R360) -/
  pendStart : Option Word := none
  /-- stopped by a fault of its own or by the halt line -/
  stopped : Bool := false
  stop : StopInfo := {}
  /-- the WT at which an engine of its stopped with a fault, by unit number -/
  engWt : SMap Nat := []
  icache : SMap IWord := []
  bound : Option Binding := none
  /-- the binding that a splice gives it when its successor enters RUNNING (08 R208) -/
  nextBound : Option Binding := none
  /-- the load a CFG has staged -/
  staged : Option Load := none
  wait : Pending := .none
  /-- WT window of the latest space-0x8 store or AMO since the last WFENCE or restore (07 R174) -/
  lastWin : Option Nat := none
  codebook : Vector Nat 16 := Vector.replicate 16 0
  scale : ScaleCache := {}
  node0 : Node := {}
  node1 : Node := {}
  dec : Decoder := {}
  chain : Chain := {}
  feed : Feed := {}
  drain : Drain := {}
  splice : Option Splice := none
  cfg : CfgWork := {}
  deriving DecidableEq, Repr

/-! ## Cores -/

/-- A message entry (07 R180). -/
structure Msg where
  payload : Nat
  header : Word
  sent : Nat
  arrived : Nat
  deriving DecidableEq, Repr

/-- The arbiter of a sluice pointer (10 R264), in cycles of its cluster's clock. The 16 ports stand in the order of R264. -/
structure PointerArb where
  /-- the last winner, and the cycle of its step -/
  last : Nat := 15
  used : Option Nat := none
  /-- the engine that has begun the unit at the pointer, whose step is the next (10 R263) -/
  owner : Option Nat := none
  /-- ports whose ready steps lost, with the cycle in which they lost last -/
  asks : List (Nat × Nat) := []
  deriving DecidableEq, Repr

/-- A sluice (08 R219, R220; 10 R260). -/
structure Sluice where
  set : Bool := false
  desc : Word := 0
  p : Nat := 0
  c : Nat := 0
  open_ : Bool := true
  claim : Nat := 0
  parb : PointerArb := {}
  carb : PointerArb := {}
  deriving DecidableEq, Repr

/-- A copied task-table entry: its 256 bits, or the cause of its failed read (10 R256). -/
inductive TaskEntry where
  | entry (w : BitVec 256)
  | unreadable (cause : Nat)
  deriving DecidableEq, Repr

/-- A 32-byte L1 sector (12 R293): the core bank that holds it (log 58), data, valid and dirty byte masks, and the cycle
of its cluster's clock in which its oldest dirty byte was written. -/
structure Sector where
  bank : Nat
  data : Nat
  valid : Nat
  dirty : Nat
  since : Nat
  deriving DecidableEq, Repr

/-- A core (01 R11). -/
structure Core where
  role0 : Word := 0x1111111111111111#64
  role1 : Word := 0x4444333322222222#64
  pendRole0 : Option Word := none
  pendRole1 : Option Word := none
  queues : Vector (List Msg) 8 := Vector.replicate 8 []
  arrivals : Vector (List Msg) 8 := Vector.replicate 8 []
  counters : Vector Nat 64 := Vector.replicate 64 0
  cntovf : Nat := 0
  tskctl : Word := 0
  ttbase : Word := 0
  taskReady : Nat := 0
  lastq : Nat := 0
  table : List TaskEntry := []
  sluices : Vector Sluice 16 := Vector.replicate 16 {}
  /-- the sectors of its L1 by address / 32 (12 R293) -/
  l1 : SMap Sector := []
  seq : Nat := 0
  routes : Vector (Vector Word 16) 4 := Vector.replicate 4 (Vector.replicate 16 0)
  rtstat : Word := 0
  /-- per class and output of its router (8 x class + output): the last input served, and the WT of it (19 R389) -/
  links : SMap (Nat × Nat) := []
  kmfifo : List Nat := []
  kmpos : Nat := 0
  kmovf : Bool := false
  halted : Bool := false
  haltWt : Nat := 0
  /-- the banks that the context's last restore has not brought back yet (18 R380) -/
  unrestored : List Nat := []
  deriving DecidableEq, Repr

/-! ## Clusters and reticles -/

/-- The arbiter of a core bank (10 R265), in cycles of its cluster's clock. Ports 0 to 23 are the engine ports in the order of
R265; port 24 + h is headgate h. -/
structure Arb where
  /-- the latest cycle in which an access asked and was granted; the first cycle that no grant has taken -/
  used : Option Nat := none
  next : Nat := 0
  /-- cycles of the latest grants to headgates, newest first -/
  wins : List Nat := []
  /-- the last engine winner -/
  last : Nat := 23
  /-- ports that asked and were not granted, with the cycle in which they asked last -/
  asks : List (Nat × Nat) := []
  deriving DecidableEq, Repr

/-- A bank under the Bank Power Controller (13 R310). -/
structure Bank where
  state : Nat := 0
  cls : Nat := 0
  /-- cycle of the cluster's clock of the last access or wake (13 R315) -/
  last : Nat := 0
  /-- where a wake in progress ends: a cycle of the cluster's clock for an SRAM bank, a WT for a DRAM bank (13 R312) -/
  wake : Option Nat := none
  arb : Arb := {}
  /-- it has left DEEP as a SPARE bank and nothing has accessed it since (13 R314) -/
  lost : Bool := false
  /-- the cycle of the cluster's clock in which the controller lowered it last (13 R319) -/
  lowered : Option Nat := none
  deriving DecidableEq, Repr

/-- An access that waits for a page walk (18 R374): its waiter (a sequencer, plus 65,536 times the engine's unit number for an
access of an engine), its address, and the detail words of a precise record. -/
structure Joined where
  waiter : Nat
  va : Nat
  d : List Nat
  deriving DecidableEq, Repr

/-- A page walk in progress (18 R372 to R374). -/
structure WalkReq where
  ctx : Nat
  va : Nat
  /-- whose accesses joined, the one that began it first -/
  joined : List Joined
  deriving DecidableEq, Repr

/-- A cached translation (18 R373). -/
structure TlbEntry where
  ctx : Nat
  va : Nat
  size : Nat
  pa : Nat
  r : Bool
  w : Bool
  x : Bool
  deriving DecidableEq, Repr

/-- Transfers of one waiter at the memory-side arbiter (13 R325): 64-byte units that wait, and units granted and not yet
moved. -/
structure Transfer where
  seqr : Nat
  units : Nat
  got : Nat
  deriving DecidableEq, Repr

/-- A 64-byte line that an L2 slice holds (01 R12; 12 R295): its way, whether it differs from DRAM, whether space 0x1 brought it
in, whether the DRAM bank behind it has lost its bytes since. The bytes themselves stand at their home address in memory. -/
structure L2Line where
  way : Nat
  dirty : Bool
  early : Bool
  lost : Bool
  deriving DecidableEq, Repr

/-- A cluster (01 R12). -/
structure Cluster where
  banks : SMap Bank := []
  idle : Word := 0x0000040000400001#64
  lost : Vector Word 7 := Vector.replicate 7 0
  ctl : Word := 2
  knock : Bool := false
  err : Bool := false
  errcode : Nat := 0
  rail : Nat := 0
  forced : Bool := false
  /-- WT since which CUR differs from the effective pattern -/
  swpend : Option Nat := none
  cur : Nat := 0xFFFF
  req : Nat := 0xFFFF
  /-- cycles its clock had delivered at a WT, the last at which CUR changed (09 R238; 23 R418) -/
  cycBase : Nat := 0
  cycWt : Nat := 0
  railReq : Nat := 0
  retsave : Word := 0
  budget : Word := 0x0000064000000000#64
  /-- the interval and the effective budget in force since the last boundary (13 R324; 23 R427) -/
  interval : Nat := 1600
  eff : Nat := 0
  granted : Nat := 0
  /-- the interval boundary that has been taken last -/
  boundWt : Option Nat := none
  transfers : List Transfer := []
  /-- the lines of the L2 slice, by region offset / 64 -/
  l2 : SMap L2Line := []
  tlb : List TlbEntry := []
  walks : List WalkReq := []
  /-- who waits at the network interface while the cluster is stopped (23 R424) -/
  waiters : List Nat := []
  /-- rail transition under way: the state it goes to, and the WT at which it began -/
  railTo : Option Nat := none
  railAt : Nat := 0
  /-- a CL_WAKE in progress: the pattern, and the sequencer whose store has not performed -/
  wakePat : Option Nat := none
  wakeBy : Option Nat := none
  /-- ballast: the tick of the plot start it rises to; the tick since which it falls, and the level it falls from; its level of 0 to 16 -/
  ballastAt : Option Nat := none
  ballastFall : Option (Nat × Nat) := none
  ballast : Nat := 0
  deriving DecidableEq, Repr

/-- The RMC's own registers beside its sequencer (26 R458, 24 R433). -/
structure Rmc where
  fault : Bool := false
  wakepend : Bool := false
  pc : Word := 0
  trap : Nat := 0
  deriving DecidableEq, Repr

/-- One level of one sensor (23 R426): in force, since when, and how many samples in a row were low. -/
structure SensorLevel where
  on : Bool := false
  entered : Nat := 0
  low : Nat := 0
  deriving DecidableEq, Repr

/-- A reticle (01 R12; 23 R426). Level n of sensor k is entry 3k + n - 1. -/
structure Reticle where
  sensors : Vector Nat 8 := Vector.replicate 8 0
  levels : Vector SensorLevel 24 := Vector.replicate 24 {}
  top : Nat := 0
  rmc : Rmc := {}
  deriving DecidableEq, Repr

/-! ## Partitions, contexts, launches -/

/-- A trap record waiting at its unit (18 R385). -/
structure TrapRec where
  cause : Nat
  repeat_ : Bool
  unit : Nat
  hg : Nat
  x : Nat
  y : Nat
  ctx : Nat
  lcore : Nat
  plot : Nat
  seq : Nat
  iaddr : Word
  wt : Nat
  d : List Nat
  deriving DecidableEq, Repr

/-- A participant's arrival (07 R184): its rank, its headgate as 4 x logical core + number, its source's elements packed,
its destination record. -/
structure CollArrival where
  rank : Nat
  lhg : Nat
  src : Nat
  dst : BitVec 256
  deriving DecidableEq, Repr

/-- A collective in progress (07 R183, R184): its group and size, the signature its first arrival fixed, the arrivals that
have not retired. -/
structure Collective where
  group : Nat
  size : Nat
  kind : Nat
  red : Nat
  fmt : Fmt
  ex : Nat
  ey : Nat
  root : Nat
  arrived : List CollArrival
  done : Bool
  deriving DecidableEq, Repr

/-- Where the graph walker stands (17 R354). -/
inductive Walker where
  | idle
  /-- about to act on a node -/
  | at_ (record node : Nat)
  /-- a load runs; the node that follows it -/
  | loading (record node next : Nat)
  /-- a HOLD node waits; WT of its last read, and the node's 512 bits -/
  | holding (record node since image : Nat)
  deriving DecidableEq, Repr

/-- Where a context switch stands until its flip (18 R376 to R378). -/
inductive Switch where
  | none
  /-- requested at a, deadline d -/
  | requested (inc : Nat) (a d : Nat) (coop : Bool)
  /-- rinsed or stopped; the flip is next, not before a WT -/
  | flip (inc : Nat) (at_ : Nat)
  deriving DecidableEq, Repr

/-- A partition's registers and machinery (18 R367). -/
structure Part where
  en : Bool := false
  nrect : Nat := 0
  rects : Vector Word 8 := Vector.replicate 8 0
  err : Bool := false
  switch : Bool := false
  done : Bool := false
  halted : Bool := false
  haltWt : Nat := 0
  sv : Bool := false
  shadow : Nat := 0
  av : Bool := false
  active : Nat := 0
  yield_ : Nat := 16000
  slice : Nat := 0
  stopbase : Word := 0
  ringbase : Word := 0
  ovf : Bool := false
  compat : Bool := false
  logsize : Nat := 6
  wr : Nat := 0
  rd : Nat := 0
  ways : Nat := 0
  waysNow : Nat := 0
  cores : List Nat := []
  pending : List TrapRec := []
  bwphase : Word := 0
  bwphwt : Word := 0
  /-- WT at which the standing declaration was applied; due: it waits to be applied after a restore -/
  bwSet : Option Nat := none
  bwDue : Bool := false
  short : Bool := false
  /-- the HOT set that an earlier declaration still holds awake until the standing one's time comes (13 R321) -/
  bwHold : Nat := 0
  /-- LOST, and the WT at which it was set last (13 R323) -/
  lostBw : Bool := false
  lostBwWt : Nat := 0
  walker : Walker := .idle
  /-- by level, the context last served (17 R358) -/
  served : SMap Nat := []
  /-- the page walk that a NOTIFY store waited for has failed: its cause and address (17 R351) -/
  walkFault : Option (Nat × Nat) := none
  iters : SMap Nat := []
  sw : Switch := .none
  /-- banks are spilled and restored after a flip: the incoming context, and the outgoing one (18 R380) -/
  restoring : Option (Nat × Option Nat) := none
  /-- contexts for which the dispatcher has been asked for a pre-emption that it has not accepted (18 R376); plus 1,024 when a
  PCMD SWITCH asked -/
  preq : List Nat := []
  colls : SMap Collective := []
  plots : SMap Plot := []
  flights : List Flight := []
  waves : List Wave := []
  /-- the current LOAD node's cores and headgates: CORELO, CORECNT, HGMASK -/
  load : Option (Nat × Nat × Nat) := none
  deriving DecidableEq, Repr

/-- A space-0x8 access sent and not acknowledged (12 R306, R307). -/
structure Remote where
  seqr : Nat
  module_ : Nat
  kind : Nat
  addr : Nat
  size : Nat
  data : Nat
  sent : Nat
  /-- the address of the instruction that issued it -/
  iaddr : Word
  /-- the instruction waits for the reply, and the reply's data -/
  blocking : Bool
  reply : Option Nat
  /-- the other module has translated it: it cannot fail any more -/
  passed : Bool := false
  deriving DecidableEq, Repr

/-- Everything of a partition that a context switch saves, by logical core (18 R379). -/
structure SavedCtx where
  hgs : SMap Hg := []
  cores : SMap Core := []
  plots : SMap Plot := []
  cells : SMap Cell := []
  /-- the banks whose bytes stand in the shadow areas (18 R369): 64 x logical core + bank to the home address of its copy -/
  banks : SMap Nat := []
  colls : SMap Collective := []
  halted : Bool := false
  /-- its stop records are written, and the WT of its halt -/
  done : Bool := false
  haltWt : Nat := 0
  placement : List Nat := []
  waves : List Wave := []
  /-- words outside its plots -/
  flights : List Flight := []
  walker : Walker := .idle
  iters : SMap Nat := []
  load : Option (Nat × Nat × Nat) := none
  bwphase : Word := 0
  bwphwt : Word := 0
  bwOn : Bool := false
  short : Bool := false
  lostBw : Bool := false
  /-- the answered requests that its instructions have not taken yet -/
  remotes : List Remote := []
  /-- WT when it was saved, and the cycle of each plot's island then -/
  wt : Nat := 0
  cycles : SMap Nat := []
  deriving DecidableEq, Repr

/-- A context (18 R369). -/
structure Ctx where
  xroot : Word := 0
  shbase : Nat := 0
  tvec : Word := 0
  part : Nat := 0
  sys : Bool := false
  state : Nat := 0
  saved : SavedCtx := {}
  /-- a PCMD SWITCH has switched it out: the dispatcher does not resume its launch -/
  parked : Bool := false
  /-- the key ring's tokens by the physical core that holds each (19 R403) -/
  tokens : SMap Nat := []
  deriving DecidableEq, Repr

/-- A launch record (17 R349) and its state. -/
structure Launch where
  words : Vector Word 16 := Vector.replicate 16 0
  state : Nat := 0
  count : Nat := 0
  code : Nat := 0
  /-- the port whose BUILD wrote it, and the port of the launch (12 R309) -/
  port : Nat := 0
  via : Nat := 0
  order : Nat := 0
  /-- the dispatcher has accepted the command that armed it (17 R357) -/
  accepted : Bool := false
  armedWt : Nat := 0
  runWt : Nat := 0
  deriving DecidableEq, Repr

/-! ## The module -/

/-- The defect map (25 R437, R438). -/
structure Defects where
  dead : List Nat := []
  retired : List Nat := []
  testing : List Nat := []
  cells : List (Nat × Nat) := []
  spares : SMap Nat := []
  usable : SMap Nat := []
  deriving DecidableEq, Repr

/-- Where a packet stands (19 R390, R394): at its sender's network interface, at the router of a core on an input port
(0 N, 1 E, 2 S, 3 W), on its way out of its last router, or at the receiving network interface. -/
inductive PacketAt where
  | source
  | router (core port : Nat)
  | leaving
  | arrived
  deriving DecidableEq, Repr

/-- A packet on the mesh (19 R389, R390): a message from a sequencer of core src for a queue of core dst. -/
structure Packet where
  cls : Nat
  src : Nat
  seqr : Nat
  dst : Nat
  queue : Nat
  msg : Msg
  place : PacketAt := .source
  /-- the WT from which it stands where it is, and the output it has taken at a router, where a table write came after it -/
  ready : Nat := 0
  out : Option Nat := none
  /-- its arrival at a stopped cluster has set KNOCK (23 R424) -/
  knocked : Bool := false
  deriving DecidableEq, Repr

/-- A host port's registers (26 R446; 17 R355). -/
structure HostPort where
  dcmd : Option Word := none
  dstat : Word := 0
  lstage : Vector Word 16 := Vector.replicate 16 0
  mods : Word := 0
  deriving DecidableEq, Repr

/-- The module's own registers and units. -/
structure Module where
  placegen : Nat := 0
  mapgen : Nat := 0
  defects : Defects := {}
  live : Nat := 4096
  eccu : Nat := 0
  minslice : Nat := 480
  replaceReq : Bool := false
  retstat : Word := 0
  /-- the core whose TEST or RETIRE is in progress -/
  retCore : Nat := 0
  /-- 0 none, 1 TEST, 2 RETIRE -/
  retOp : Nat := 0
  defbase : Word := 0xF500000000000000#64
  scrubctl : Word := 4
  ecclog : Word := 0
  xinvBusy : Bool := false
  xinvLost : Bool := false
  xinv : Word := 0
  sems : Vector Word 64 := Vector.replicate 64 0
  thcfg : Word := 0xD2BEAA#64
  enacc : SMap Word := []
  ensys : Word := 0
  dtctl : Word := 1600
  dtstat : Word := 0xFFFFFFFF00000000#64
  dtlat : Word := 0
  sync : Bool := false
  portA : HostPort := {}
  portB : HostPort := {}
  bootstat : Word := 0
  latbase : Word := 0
  /-- the WT at which the firmware's sweep has come to its end and writes the latency matrix (19 R395) -/
  sweepAt : Option Nat := none
  fwbase : Word := 0
  fwsize : Word := 0
  mbcmd : Word := 0
  mbstat : Word := 0
  mbdata : List Word := []
  meas0 : Nat := 0
  pubkeys : SMap Nat := []
  manifest : Option (List Nat) := none
  cmap : List Nat := []
  caps : SMap Nat := []
  domtab : SMap Word := []
  eth : SMap Word := []
  dbgctl : Word := 0
  dbgstat : Word := 0
  dcmds : List (Nat × Word) := []
  lastWinner : Nat := 0
  armSeq : Nat := 0
  /-- two whole-wafer requests of one tick: the WT of the request that stands -/
  dbgWt : Nat := 0
  packets : List Packet := []
  remotes : List Remote := []
  poison : List Nat := []
  /-- ranges of home addresses whose contents are undefined: (first, length, a number of its own) -/
  undef : List (Nat × Nat × Nat) := []
  deriving DecidableEq, Repr

/-! ## The whole machine -/

/-- What an event is about, when the agenda runs it: the unit's number, and the values the outside world supplies. Each
event's meaning says which fields it reads. -/
structure Inp where
  unit : Nat := 0
  sub : Nat := 0
  idx : Nat := 0
  addr : Word := 0
  val : Word := 0
  data : List Nat := []
  deriving DecidableEq, Repr

/-- The last completion delivered to a host, the I3C target or the test port (26 R447, R449). -/
structure Completion where
  denied : Bool := false
  data : Nat := 0
  deriving DecidableEq, Repr

/-- What the agenda does next (log 1). -/
inductive Action where
  /-- a sequencer issues its next instruction -/
  | issue (seqr : Nat)
  /-- an event of the opcode table takes place -/
  | event (i : Instr) (inp : Inp)
  /-- a core's L1 evicts a sector (12 R294) -/
  | evict (core sector : Nat)
  /-- a sequencer's instruction cache drops the word of an address (05 R110) -/
  | evictI (seqr addr : Nat)
  /-- an L2 slice evicts a line (12 R295) -/
  | evictL2 (cl line : Nat)
  /-- the device's choice of the bank or way that takes the next line (12 R295; logs 11 and 58) -/
  | pick (n : Nat)
  /-- a read of the device finds an error, correctable or not, at a home address or in a cell's window (25 R442) -/
  | ecc (unc : Bool) (addr : Nat)
  deriving DecidableEq, Repr

/-- What a rule orders, or allows once, among the steps of one tick. -/
inductive Turn where
  /-- anything but a cycle of a task scheduler (10 R258, R262) -/
  | anything
  /-- an instruction of a sequencer: one in a tick -/
  | seqr (k : Nat)
  /-- a cycle of a core's task scheduler: one in a tick (10 R259) -/
  | scheduler (core : Nat)
  /-- barrier instructions of a partition (07 R179) -/
  | barriers (part : Nat)
  /-- operations on launch records (07 R186) -/
  | records
  /-- BWPH of a partition (07 R191) -/
  | phases (part : Nat)
  /-- timed starts, then FAB instructions, of a partition's plots (08 R206) -/
  | plots (part : Nat)
  /-- QRECV of a core's headgates (07 R181) -/
  | queues (core : Nat)
  /-- pointers of a core's sluices: engines, then instructions (08 R220) -/
  | sluices (core : Nat)
  /-- AMAX and NSEEN of a headgate: MWR, then updates (02 R49) -/
  | stats (hg : Nat)
  /-- reads of a semaphore (17 R356) -/
  | sem (k : Nat)
  /-- the sample of a reticle's sensors: one in a tick (23 R426) -/
  | sample (r : Nat)
  /-- the energy of a core for an interval: one in a tick (23 R429) -/
  | energy (core : Nat)
  /-- record operations, then the accepted command, then the walkers' transitions (17 R357) -/
  | dispatcher
  /-- a command of the dispatcher: one in a tick (17 R357) -/
  | command
  deriving DecidableEq, Repr

/-- An agenda item: the ticks that pass before it, and what then happens. -/
structure Item where
  dt : Nat
  act : Action
  deriving DecidableEq, Repr

/-- The state of a KZ-96 module. -/
structure State where
  mem : List Host.Cell := []
  wt : Nat := 0
  cur : Nat := 0
  inp : Inp := {}
  compl : Completion := {}
  agenda : List Item := []
  fresh : Nat := 0
  /-- the device's choice of the bank or way that takes the next line -/
  pick : Nat := 0
  /-- what has taken place in this tick, where a rule orders the steps of one tick, with its rank in that order -/
  turns : List (Turn × Nat) := []
  hgs : SMap Hg := []
  cores : SMap Core := []
  cells : SMap Cell := []
  clusters : SMap Cluster := []
  reticles : SMap Reticle := []
  parts : SMap Part := []
  ctxs : SMap Ctx := []
  launches : SMap Launch := []
  mod : Module := {}
  deriving DecidableEq, Repr

/-- Why the machine stops. -/
inductive Fault where
  /-- A unit addresses memory that the manual says does not exist, past every check it has passed; unreachable, safe. -/
  | noSuchMemory
  deriving DecidableEq, Repr

/-- Why a step has no meaning. -/
inductive Refusal where
  /-- An instruction without a meaning yet; raised by its arm of exec; safe. -/
  | notModelled (mnemonic : String)
  deriving DecidableEq, Repr

/-- The machine right after reset (05 R112 and the register maps; log 6 where the manual gives no value). -/
def State.reset : State := {}

end Sys2Proof.Machine
end

