-- ==== Sys2Proof/Machine/Geom.lean ====
section
/-! DEFINITION. Access to the parts of the state by number, and the geometry of the wafer (01). -/

namespace Sys2Proof.Machine

/-! Parts of the state. An absent entry of a sparse table is the part as it stands after reset. -/

/-- The number of the first RMC among the sequencers; headgate h of core c is 4c + h. -/
def rmcBase : Nat := 16384

/-- Is a sequencer an RMC (05 R111)? -/
def isRmc (k : Nat) : Bool := decide (k ≥ rmcBase)

/-- A sequencer after reset; an RMC is always in system mode (05 R111). -/
def resetHg (k : Nat) : Hg := { sys := isRmc k }

def State.hg (s : State) (k : Nat) : Hg := SMap.getD s.hgs k (resetHg k)
def State.setHg (s : State) (k : Nat) (h : Hg) : State := { s with hgs := SMap.set s.hgs k h }
def State.modHg (s : State) (k : Nat) (f : Hg → Hg) : State := s.setHg k (f (s.hg k))
/-- The sequencer whose instruction is being issued. -/
def State.me (s : State) : Hg := s.hg s.cur
def State.setMe (s : State) (h : Hg) : State := s.setHg s.cur h
def State.modMe (s : State) (f : Hg → Hg) : State := s.setMe (f s.me)

def State.core (s : State) (c : Nat) : Core := SMap.getD s.cores c {}
def State.setCore (s : State) (c : Nat) (x : Core) : State := { s with cores := SMap.set s.cores c x }
def State.modCore (s : State) (c : Nat) (f : Core → Core) : State := s.setCore c (f (s.core c))

def State.cell (s : State) (i : Nat) : Cell := SMap.getD s.cells i {}
def State.setCell (s : State) (i : Nat) (x : Cell) : State := { s with cells := SMap.set s.cells i x }
def State.modCell (s : State) (i : Nat) (f : Cell → Cell) : State := s.setCell i (f (s.cell i))

def State.cluster (s : State) (c : Nat) : Cluster := SMap.getD s.clusters c {}
def State.setCluster (s : State) (c : Nat) (x : Cluster) : State := { s with clusters := SMap.set s.clusters c x }
def State.modCluster (s : State) (c : Nat) (f : Cluster → Cluster) : State := s.setCluster c (f (s.cluster c))

def State.reticle (s : State) (r : Nat) : Reticle := SMap.getD s.reticles r {}
def State.setReticle (s : State) (r : Nat) (x : Reticle) : State := { s with reticles := SMap.set s.reticles r x }
def State.modReticle (s : State) (r : Nat) (f : Reticle → Reticle) : State := s.setReticle r (f (s.reticle r))

def State.part (s : State) (p : Nat) : Part := SMap.getD s.parts p {}
def State.setPart (s : State) (p : Nat) (x : Part) : State := { s with parts := SMap.set s.parts p x }
def State.modPart (s : State) (p : Nat) (f : Part → Part) : State := s.setPart p (f (s.part p))

def State.ctx (s : State) (c : Nat) : Ctx := SMap.getD s.ctxs c {}
def State.setCtx (s : State) (c : Nat) (x : Ctx) : State := { s with ctxs := SMap.set s.ctxs c x }
def State.modCtx (s : State) (c : Nat) (f : Ctx → Ctx) : State := s.setCtx c (f (s.ctx c))

def State.launch (s : State) (r : Nat) : Launch := SMap.getD s.launches r {}
def State.setLaunch (s : State) (r : Nat) (x : Launch) : State := { s with launches := SMap.set s.launches r x }
def State.modLaunch (s : State) (r : Nat) (f : Launch → Launch) : State := s.setLaunch r (f (s.launch r))

def State.modMod (s : State) (f : Module → Module) : State := { s with mod := f s.mod }

def State.plot? (s : State) (p id : Nat) : Option Plot := SMap.get? (s.part p).plots id
def State.setPlot (s : State) (p id : Nat) (x : Plot) : State :=
  s.modPart p fun q => { q with plots := SMap.set q.plots id x }
def State.modPlot (s : State) (p id : Nat) (f : Plot → Plot) : State :=
  match s.plot? p id with
  | some x => s.setPlot p id (f x)
  | none => s

/-! Geometry (01 R6 to R9). -/

def coreX (c : Nat) : Nat := c % 64
def coreY (c : Nat) : Nat := c / 64
def coreAt (x y : Nat) : Nat := 64 * y + x
/-- The reticle of a core (01 R6). -/
def reticleOf (c : Nat) : Nat := coreX c / 8 + 8 * (coreY c / 8)
/-- The cluster of a core (01 R6). -/
def clusterOf (c : Nat) : Nat := coreX c / 2 + 32 * (coreY c / 4)
/-- The core-in-cluster index (01 R6). -/
def cicOf (c : Nat) : Nat := coreX c % 2 + 2 * (coreY c % 4)
/-- The core of a cluster with a core-in-cluster index (01 R6). -/
def coreOfCic (cl i : Nat) : Nat := coreAt (2 * (cl % 32) + i % 2) (4 * (cl / 32) + i / 2)
/-- The core of a headgate. -/
def coreOf (k : Nat) : Nat := k / 4
/-- The core whose shared units a sequencer names: its core, or, for an RMC, units of its own beyond the wafer's cores
(log 27). -/
def unitCore (k : Nat) : Nat := if isRmc k then 4096 + (k - rmcBase) else coreOf k
/-- The headgate number, 0 N, 1 E, 2 S, 3 W (01 R11). -/
def hgnOf (k : Nat) : Nat := k % 4
/-- The south-west core of an RMC's reticle (01 R10). -/
def rmcCore (k : Nat) : Nat := let r := k - rmcBase; coreAt (8 * (r % 8)) (8 * (r / 8))

/-- A core is live unless the defect map or a retirement has made it dead (01 R7). -/
def State.live (s : State) (c : Nat) : Bool :=
  decide (c < 4096) && !s.mod.defects.dead.contains c && !s.mod.defects.retired.contains c

/-- The live cores of a cluster in ascending core-in-cluster index (01 R19). -/
def State.liveOf (s : State) (cl : Nat) : List Nat := ((List.range 8).map (coreOfCic cl)).filter s.live

/-- The enabled partition that owns a core. -/
def State.partOf (s : State) (c : Nat) : Option Nat :=
  (s.parts.find? fun e => e.2.en && e.2.cores.contains c).map (·.1)

/-- Is a partition's work stopped for a context switch until the flip (18 R377, R378)? -/
def State.frozen (s : State) (p : Nat) : Bool :=
  match (s.part p).sw with
  | .flip _ _ => true
  | .none | .requested _ _ _ _ => false

/-- Does a cluster's clock deliver a pulse in this tick, and its rail stand (23 R418, R424)? -/
def State.clocked (s : State) (cl : Nat) : Bool := bit (s.cluster cl).cur (s.wt % 16) && (s.cluster cl).rail == 0

/-- QREQ of a cluster (23 R420). -/
def State.quiescing (s : State) (cl : Nat) : Bool := bit (s.cluster cl).ctl.toNat 0

/-- Does a cluster's clock run at all, and its rail stand? -/
def State.running (s : State) (cl : Nat) : Bool := (s.cluster cl).cur != 0 && (s.cluster cl).rail == 0

/-! What has taken place in a tick. -/

/-- May a step of a rank be taken in this tick: has nothing taken place that comes after it? -/
def State.inTurn (s : State) (t : Turn) (rank : Nat) : Bool := s.turns.all fun x => x.1 != t || decide (x.2 ≤ rank)

/-- Has nothing of a kind taken place in this tick? -/
def State.firstTurn (s : State) (t : Turn) : Bool := s.turns.all fun x => x.1 != t

/-- A step of a rank has been taken in this tick. -/
def State.noteTurn (s : State) (t : Turn) (rank : Nat) : State :=
  if s.turns.contains (t, rank) then s else { s with turns := (t, rank) :: s.turns }

/-- Do the units of a core run: live, clocked, not halted, not stopped for a switch? -/
def State.coreOn (s : State) (c : Nat) : Bool :=
  !(s.core c).halted && s.live c && s.clocked (clusterOf c) && !((s.partOf c).map s.frozen).getD false

/-- Do the engines of a sequencer run? -/
def State.engineOn (s : State) (k : Nat) : Bool := isRmc k || s.coreOn (coreOf k)

/-- The partition of a sequencer; an RMC has none (01 R8). -/
def State.partOfHg (s : State) (k : Nat) : Option Nat := if isRmc k then none else s.partOf (coreOf k)

/-- Position of a value in a list. -/
def indexIn (l : List Nat) (x : Nat) : Option Nat :=
  match l with
  | [] => none
  | y :: t => if y = x then some 0 else (indexIn t x).map (· + 1)

/-- The logical index of a core in its partition, 0xFFFF when unowned (01 R10). -/
def State.lcore (s : State) (c : Nat) : Nat :=
  match s.partOf c with
  | some p => (indexIn (s.part p).cores c).getD 0xFFFF
  | none => 0xFFFF

/-- A list without repeats, first occurrences kept in order. -/
def dedup : List Nat → List Nat
  | [] => []
  | x :: t => x :: (dedup t).filter (· != x)

/-- The wholly owned clusters of a partition in logical order (01 R9). -/
def State.lclusters (s : State) (p : Nat) : List Nat :=
  let cs := (s.part p).cores
  (dedup (cs.map clusterOf)).filter fun cl => (s.liveOf cl).all cs.contains

/-- The logical index of a cluster, 0xFFFF when it is not wholly owned (01 R10). -/
def State.lclusOf (s : State) (c : Nat) : Nat :=
  match s.partOf c with
  | some p => (indexIn (s.lclusters p) (clusterOf c)).getD 0xFFFF
  | none => 0xFFFF

/-- COREID (01 R10). -/
def State.coreid (s : State) (k : Nat) : Word :=
  if isRmc k then
    let c := rmcCore k
    BitVec.ofNat 64 (0xFFFF * 2 ^ 48 + 0xFFFF * 2 ^ 32 + 2 ^ 15 + coreY c * 64 + coreX c)
  else
    let c := coreOf k
    BitVec.ofNat 64 (s.lcore c * 2 ^ 48 + s.lclusOf c * 2 ^ 32 + cicOf c * 2 ^ 12 + coreY c * 64 + coreX c)

/-! Banks (01 R14 to R19). -/

/-- Bytes of a core bank. -/
def bankBytes : Nat := 98304

/-- The role of a core bank: 0 unallocated, 1 CACHE, 2 SCRATCH, 3 OPERAND, 4 CLUSTER (01 R14). -/
def Core.role (c : Core) (b : Nat) : Nat := if b < 16 then bits c.role0.toNat (4 * b) 4 else bits c.role1.toNat (4 * (b - 16)) 4

/-- The banks of a core that hold a role, ascending. -/
def Core.banksOf (c : Core) (r : Nat) : List Nat := (List.range 32).filter fun b => c.role b == r

/-! The one byte map of every home (00; 12 R289). -/

/-- DRAM: the physical address of 01 R22. -/
def dramAddr (cl off : Nat) : Nat := cl * 2 ^ 32 + off
/-- Byte off of bank b of a core. -/
def bankAddr (c b off : Nat) : Nat := 2 ^ 42 + c * 2 ^ 22 + b * bankBytes + off
/-- Byte off of the wafer-scratchpad ways of a cluster. -/
def wspAddr (cl off : Nat) : Nat := 2 ^ 43 + cl * 2 ^ 24 + off
/-- Host memory behind a port (0 A, 1 B). -/
def hostAddr (port a : Nat) : Nat := 2 ^ 50 + port * 2 ^ 48 + a

/-- The place of a cell's window among the home addresses, for the poisoned words in it (25 R442). -/
def cellAddr (key off : Nat) : Nat := 2 ^ 44 + key * 2 ^ 14 + off

/-- Slice bytes a live core presents (01 R21). -/
def sliceBytes : Nat := 480 * 2 ^ 20

/-- The live core, and the core-local offset, of an interleaved offset (01 R19, R22). -/
def interleave (cores : List Nat) (o : Nat) : Nat × Nat :=
  let l := cores.length
  let g := o / 256
  (cores.getD (g % l) 0, 256 * (g / l) + o % 256)

end Sys2Proof.Machine
end

