-- ==== Sys2Proof/Machine/Bank.lean ====
section
/-! DEFINITION. Bytes at their homes, banks and their power states, the L2 slices, byte budgets, and the arbiter of a core bank
(01 R12, R20; 10 R265; 12 R295; 13). -/

namespace Sys2Proof.Machine

/-! ## Why an access or an instruction does not complete -/

/-- What a stalled access waits for. -/
inductive Wait where
  /-- a page walk of a context at an address by a cluster's translation unit (18 R374); the detail words of the record an
  instruction writes should it fail -/
  | walk (cl ctx va : Nat) (d : List Nat)
  /-- the wakes of banks (13 R317) -/
  | wakes (l : List (Nat × Nat))
  /-- an access for a cluster that is asleep (23 R424) -/
  | knock (cl : Nat)
  /-- a transfer beyond a cluster's byte budget (13 R325) -/
  | budget (cl units : Nat)
  /-- a bank not yet restored after a context switch (18 R380) -/
  | restore (core b : Nat)
  /-- the reply to a space-0x8 access (12 R306, R307) -/
  | remote (r : Remote)
  /-- anything else that another step ends -/
  | busy
  deriving DecidableEq, Repr

/-- An instruction that does not complete: it raises a precise cause with its detail words, or waits. -/
inductive Stop where
  | fault (cause : Nat) (d : List Nat)
  | wait (w : Wait)
  /-- it waits, and has already changed the state -/
  | held (s : State) (w : Wait)
  deriving DecidableEq, Repr

/-- The outcome of an access: its value, or why there is none. -/
abbrev Acc (α : Type) := Except Stop α

/-! The cause codes of 05 R122. -/
def cIllegal : Nat := 0x01
def cPriv : Nat := 0x02
def cAddr : Nat := 0x03
def cAlign : Nat := 0x04
def cXlate : Nat := 0x05
def cProt : Nat := 0x06
def cTiming : Nat := 0x07
def cBank : Nat := 0x08
def cEcc : Nat := 0x09
def cCfgBad : Nat := 0x0A
def cCfgEcc : Nat := 0x0B
def cWdecMark : Nat := 0x10
def cWdecOver : Nat := 0x11
def cWdecCrc : Nat := 0x12
def cWdecTable : Nat := 0x13
def cWdecTail : Nat := 0x14
def cRedun : Nat := 0x18
def cStale : Nat := 0x19
def cSluice : Nat := 0x1A
def cLaunch : Nat := 0x1B
def cDebug : Nat := 0x1F

/-- A fault with no detail words. -/
def flt {α : Type} (c : Nat) : Acc α := .error (.fault c [])

/-- Go on only when a condition holds; otherwise the cause. -/
def chk (b : Bool) (c : Nat) : Acc Unit := if b then .ok () else flt c

/-- Go on only when a condition holds; otherwise wait. -/
def waitFor (b : Bool) : Acc Unit := if b then .ok () else .error (.wait .busy)

/-! ## Bytes at their homes -/

/-- The listed byte of an address; an unlisted address reads as 0 (log 4). -/
def memGet : List Host.Cell → Nat → Byte
  | [], _ => 0
  | (k, v) :: t, a => if k = a then v else memGet t a

/-- A list with the byte of an address written, in canonical form: rising addresses, no zero byte listed. -/
def memSet : List Host.Cell → Nat → Byte → List Host.Cell
  | [], a, b => if b = 0 then [] else [(a, b)]
  | (k, v) :: t, a, b =>
    if a < k then (if b = 0 then (k, v) :: t else (a, b) :: (k, v) :: t)
    else if a = k then (if b = 0 then t else (a, b) :: t)
    else (k, v) :: memSet t a b

/-- Addresses strictly rising above a bound, and no zero byte. -/
def memWfFrom : Nat → List Host.Cell → Bool
  | _, [] => true
  | lo, (k, v) :: t => decide (lo ≤ k) && v != 0 && memWfFrom (k + 1) t

/-- The canonical form of memory. -/
def memWf (m : List Host.Cell) : Bool := memWfFrom 0 m

/-- The canonical form of memory, under the name the statements use. -/
abbrev Memory.wf (m : List Host.Cell) : Bool := memWf m

/-- What an address holds beyond its listed byte: nothing, or, in a range whose contents are undefined, a free byte that the stored byte is
combined with (log 12). -/
def undefMask : List (Nat × Nat × Nat) → Nat → Byte
  | [], _ => 0
  | (lo, m, n) :: t, a => if lo ≤ a ∧ a < lo + m then Config.freeByte n a else undefMask t a

/-- The byte at a home address. -/
def State.byte (s : State) (a : Nat) : Byte := memGet s.mem a ^^^ undefMask s.mod.undef a

/-- Write the byte at a home address. -/
def State.setByte (s : State) (a : Nat) (b : Byte) : State :=
  { s with mem := memSet s.mem a (b ^^^ undefMask s.mod.undef a) }

/-- n bytes from a home address, little-endian (00 R3). -/
def State.readN (s : State) (a : Nat) : Nat → Nat
  | 0 => 0
  | n + 1 => (s.byte a).toNat + 256 * s.readN (a + 1) n

/-- Write the low n bytes of a number from a home address on (00 R3). -/
def State.writeN (s : State) (a : Nat) : Nat → Nat → State
  | 0, _ => s
  | n + 1, v => (s.setByte a (BitVec.ofNat 8 (v % 256))).writeN (a + 1) n (v / 256)

/-- n bytes from a home address, lowest first. -/
def State.readBytes (s : State) (a n : Nat) : List Byte := (List.range n).map fun k => s.byte (a + k)

/-- Write bytes from a home address on. -/
def State.writeBytes (s : State) (a : Nat) : List Byte → State
  | [] => s
  | b :: t => (s.setByte a b).writeBytes (a + 1) t

/-- What is left of an undefined range without n bytes from lo on. -/
def cutRange (lo n : Nat) (u : Nat × Nat × Nat) : List (Nat × Nat × Nat) :=
  let (a, m, k) := u
  if a + m ≤ lo ∨ lo + n ≤ a then [u]
  else (if a < lo then [(a, lo - a, k)] else []) ++ (if lo + n < a + m then [(lo + n, a + m - (lo + n), k)] else [])

/-- The parts of an undefined range in each aligned line of 64 bytes. -/
def lineParts (u : Nat × Nat × Nat) : List (Nat × Nat × Nat) :=
  let (a, m, k) := u
  (List.range ((a + m + 63) / 64 - a / 64)).map fun j =>
    let lo := max a (64 * (a / 64 + j))
    (lo, min (a + m) (64 * (a / 64 + j + 1)) - lo, k)

/-- An undefined range without the lines that are gone. -/
def dropLines (gone : Nat → Bool) (u : Nat × Nat × Nat) : List (Nat × Nat × Nat) :=
  if (lineParts u).any fun x => gone x.1 then (lineParts u).filter fun x => !gone x.1 else [u]

/-- Every byte of a range reads as zero afterwards: its listed bytes are dropped, none of it is undefined, and no word in it is
poisoned. -/
def State.clearRange (s : State) (lo n : Nat) : State :=
  let inside := fun (a m : Nat) => decide (lo ≤ a) && decide (a + m ≤ lo + n)
  { s with
    mem := s.mem.filter fun c => !inside c.1 1,
    mod := { s.mod with
      poison := s.mod.poison.filter fun w => !inside (8 * w) 8,
      undef := s.mod.undef.flatMap (cutRange lo n) } }

/-- The contents of a range become undefined (log 12). -/
def State.undefine (s : State) (lo n : Nat) : State :=
  { s.clearRange lo n with fresh := s.fresh + 1 }.modMod fun m => { m with undef := (lo, n, s.fresh) :: m.undef }

/-- The 8-byte words of a range that hold a poisoned word (25 R442). -/
def State.poisoned (s : State) (a n : Nat) : Bool :=
  s.mod.poison.any fun w => decide (a < 8 * w + 8) && decide (8 * w < a + n)

/-- Whole 8-byte words that a store covers are poisoned no more (25 R442). -/
def State.unpoison (s : State) (a n : Nat) : State :=
  if s.mod.poison.isEmpty then s
  else s.modMod fun m => { m with poison := m.poison.filter fun w => !(decide (a ≤ 8 * w) && decide (8 * w + 8 ≤ a + n)) }

/-- Read at the home, unless a word is poisoned: ECC_UNCORR (25 R442). -/
def State.homeRead (s : State) (a n : Nat) : Acc Nat := if s.poisoned a n then flt cEcc else .ok (s.readN a n)

/-- Store at the home. -/
def State.homeWrite (s : State) (a n v : Nat) : State := (s.writeN a n v).unpoison a n

/-! ## Clocks (23 R418) -/

/-- The pulses a cluster's clock delivers in 16 ticks (23 R418). -/
def pulses (pat : Nat) : Nat := (List.range 16).foldl (fun n i => if bit pat i then n + 1 else n) 0

/-- The pulses of a pattern at the n ticks that follow a tick. -/
def pulsesIn (pat from_ n : Nat) : Nat :=
  n / 16 * pulses pat + (List.range (n % 16)).foldl (fun k i => if bit pat ((from_ + 1 + i) % 16) then k + 1 else k) 0

/-- The cycles a cluster's clock has delivered up to a tick (09 R238). -/
def Cluster.cycles (c : Cluster) (wt : Nat) : Nat := c.cycBase + pulsesIn c.cur c.cycWt (wt - c.cycWt)

/-- The least number of ticks, up to a bound, after which a pattern has delivered a number of pulses. -/
def ticksUntil (pat from_ need : Nat) : Nat → Nat → Nat
  | 0, t => t
  | fuel + 1, t => if need ≤ pulsesIn pat from_ t then t else ticksUntil pat from_ need fuel (t + 1)

/-- Ticks after a tick until a pattern has delivered a number of pulses; none while it delivers none. -/
def ticksFor (pat from_ need : Nat) : Option Nat :=
  let n := pulses pat
  if need = 0 then some 0
  else if n = 0 then none
  else
    let t0 := (need - 1) / n * 16
    some (ticksUntil pat from_ need 16 t0)

/-- The WT at which a cluster's clock will have delivered a number of cycles. -/
def Cluster.tickOf (c : Cluster) (wt cycle : Nat) : Option Nat := (ticksFor c.cur wt (cycle - c.cycles wt)).map (wt + ·)

/-- The cycle in which a cluster's clock stands. -/
def State.cycleOf (s : State) (cl : Nat) : Nat := (s.cluster cl).cycles s.wt

/-! ## Banks under the Bank Power Controller (13) -/

/-- The backed bytes of a cluster's DRAM region (01 R22). -/
def State.backed (s : State) (cl : Nat) : Nat := (s.liveOf cl).length * sliceBytes

/-- Do n bytes at a physical address lie in backed DRAM (01 R22)? -/
def State.isBacked (s : State) (pa n : Nat) : Bool :=
  decide (pa < 2 ^ 41) && decide (pa % 2 ^ 32 + n ≤ s.backed (pa / 2 ^ 32))

/-- The cluster and bank number n of 13 R310 behind a home address; none for host memory. -/
def State.bankOfAddr (s : State) (a : Nat) : Option (Nat × Nat) :=
  if a < 2 ^ 41 then
    let cl := a / 2 ^ 32
    let (c, o) := interleave (s.liveOf cl) (a % 2 ^ 32)
    some (cl, 272 + 16 * cicOf c + o / (30 * 2 ^ 20))
  else if 2 ^ 42 ≤ a ∧ a < 2 ^ 43 then
    let c := (a - 2 ^ 42) / 2 ^ 22
    some (clusterOf c, 32 * cicOf c + a % 2 ^ 22 / bankBytes)
  else if 2 ^ 43 ≤ a ∧ a < 2 ^ 44 then
    let cl := (a - 2 ^ 43) / 2 ^ 24
    some (cl, 256 + a % 2 ^ 24 / 2 ^ 20)
  else none

def Cluster.bank (c : Cluster) (n : Nat) : Bank := SMap.getD c.banks n {}
def State.bank (s : State) (cl n : Nat) : Bank := (s.cluster cl).bank n
def State.modBank (s : State) (cl n : Nat) (f : Bank → Bank) : State :=
  s.modCluster cl fun c => { c with banks := SMap.set c.banks n (f (c.bank n)) }

/-- The number in its cluster of bank b of a core (13 R310). -/
def coreBank (c b : Nat) : Nat := 32 * cicOf c + b

/-- Is a home address DRAM? -/
def isDram (a : Nat) : Bool := decide (a < 2 ^ 41)

/-- An access that a program issues is refused at a bank of class UNALLOC (13 R311). -/
def State.classOk (s : State) (cl n : Nat) : Acc Unit := chk ((s.bank cl n).cls != 0) cBank

/-- An access waits until every bank it touches is ACTIVE, and wakes those that are not (13 R317). -/
def State.awake (s : State) (l : List (Nat × Nat)) : Acc Unit :=
  match l.filter fun b => (s.bank b.1 b.2).state != 0 with
  | [] => .ok ()
  | l => .error (.wait (.wakes l))

/-- Can a program's access to a bank proceed? UNALLOC raises BANK_UNALLOC (13 R311); a sleeping bank is woken and
waited for (R317). -/
def State.bankReady (s : State) (cl n : Nat) : Acc Unit := do
  s.classOk cl n
  s.awake [(cl, n)]

/-- The partitions that own a core of a cluster. -/
def State.partsOfCluster (s : State) (cl : Nat) : List Nat :=
  (s.parts.filter fun e => e.2.en && e.2.cores.any fun c => clusterOf c == cl).map (·.1)

/-- The wake latency of a bank from a state (13 R312). -/
def wakeLatency (n state : Nat) : Nat :=
  if n < 272 then (match state with | 0 => 0 | 1 => 4 | 2 => 320 | _ => 3200)
  else (match state with | 0 => 0 | 1 => 16 | 2 => 2400 | _ => 16000)

/-- Begin the wake of a bank, unless it is awake or waking, or its cluster's clock is stopped (13 R312, R317): an SRAM bank's
latency is counted in the cluster's own cycles, a DRAM bank's in ticks. An access in the cycle of a lowering would have won against it, so
none wakes the bank in that cycle (R319). -/
def State.beginWake (s : State) (cl n : Nat) : State :=
  let c := s.cluster cl
  let b := c.bank n
  if b.state = 0 ∨ b.wake.isSome ∨ c.cur = 0 ∨ c.rail ≠ 0 ∨ b.lowered = some (c.cycles s.wt) then s
  else s.modBank cl n fun b => { b with wake := some ((if n < 272 then c.cycles s.wt else s.wt) + wakeLatency n b.state) }

/-- An access touches a bank: its idle count restarts (13 R316), and the first access after DEEP sets the flags of
R314. A bank that still sleeps is one of the device's own access, which is not refused and wakes it (R311). -/
def State.touchBank (s : State) (cl n : Nat) : State :=
  let s := s.beginWake cl n
  let lost := (s.bank cl n).lost
  let s := s.modBank cl n fun b => { b with last := s.cycleOf cl, lost := false }
  if lost then
    let s := s.modCluster cl fun c =>
      { c with lost := c.lost.set! (n / 64) (c.lost[n / 64]! ||| BitVec.ofNat 64 (2 ^ (n % 64))) }
    (s.partsOfCluster cl).foldl (fun s p => s.modPart p fun q => { q with lostBw := true, lostBwWt := s.wt }) s
  else s

/-! ## Who waits -/

/-- The sequencer of a waiter: a waiter is a sequencer, plus 65,536 times the engine's unit number (18 R384). -/
def seqOf (w : Nat) : Nat := w % 65536

/-- The engine of a waiter: 0 for an instruction. -/
def engOf (w : Nat) : Nat := w / 65536

/-- The waiter of an engine of a sequencer. -/
def waiterOf (k eng : Nat) : Nat := k + 65536 * eng

/-! ## Byte budgets (13 R324, R325) -/

/-- Grant waiting units in arrival order while they fit in the interval; a transfer that does not fit holds back those behind
it (13 R325). -/
def grantTransfers (eff : Nat) : Nat → List Transfer → Nat × List Transfer
  | n, [] => (n, [])
  | n, t :: rest =>
    let g := if eff = 0 then t.units else min t.units (eff - n)
    let t' := { t with units := t.units - g, got := t.got + g }
    if g < t.units then (n + g, t' :: rest)
    else
      let (n', r) := grantTransfers eff (n + g) rest
      (n', t' :: r)

/-- Units granted to a waiter and not yet moved. -/
def Cluster.gotBy (c : Cluster) (w : Nat) : Nat :=
  c.transfers.foldl (fun n t => if t.seqr = w then n + t.got else n) 0

/-- May a waiter move u units now (13 R325)? Those not yet granted must fit, and no earlier arrival may wait. -/
def State.budgetReady (s : State) (cl w u : Nat) : Acc Unit :=
  let c := s.cluster cl
  if c.eff = 0 || decide (u ≤ c.gotBy w)
    || (c.transfers.all (fun t => t.units == 0) && decide (c.granted + (u - c.gotBy w) ≤ c.eff)) then .ok ()
  else .error (.wait (.budget cl u))

/-- A waiter's transfer of u units arrives at the arbiter, which grants what fits (13 R325). -/
def Cluster.askUnits (c : Cluster) (w u : Nat) : Cluster :=
  let ts := if c.transfers.any fun t => t.seqr == w then
      c.transfers.map fun t => if t.seqr = w then { t with units := u - t.got } else t
    else c.transfers ++ [⟨w, u, 0⟩]
  let (n, ts) := grantTransfers c.eff c.granted ts
  { c with granted := n, transfers := ts }

/-- 64-byte units have moved between a cluster's L2 slice and its DRAM for a waiter (13 R324): first those granted before, then the
count of the interval rises. -/
def Cluster.charge (c : Cluster) (w u : Nat) : Cluster :=
  let g := min u (c.gotBy w)
  { c with
    granted := c.granted + (u - g),
    transfers := (c.transfers.map fun t => if t.seqr = w then { t with got := t.got - g } else t).filter fun t =>
      t.units != 0 || t.got != 0 }

/-! ## The L2 slices (01 R12, R20; 12 R295) -/

/-- The ways of a cluster's L2 that the partition wholly owning it has carved (01 R20). -/
def State.wspWays (s : State) (cl : Nat) : Nat :=
  match s.parts.find? fun e => e.2.en && (s.lclusters e.1).contains cl with
  | some e => e.2.waysNow
  | none => 0

/-- The ways that can take a line: those not carved whose banks have a class (log 11). -/
def State.cacheWays (s : State) (cl : Nat) : List Nat :=
  (List.range 16).filter fun w => decide (s.wspWays cl ≤ w) && (s.bank cl (256 + w)).cls != 0

/-- The line that stands where a line would go in a way: a way holds one line of each of its 16,384 places (log 11). -/
def Cluster.l2At (c : Cluster) (line w : Nat) : Option (Nat × L2Line) :=
  c.l2.find? fun e => e.1 % 16384 == line % 16384 && e.2.way == w

/-- What an access at a home finds in the L2 slice. -/
inductive L2Plan where
  /-- a hit in a way -/
  | hit (w : Nat)
  /-- a miss that allocates in a way, in the place of a line -/
  | fill (w : Nat) (victim : Option (Nat × L2Line))
  /-- a miss that allocates nothing -/
  | past
  deriving DecidableEq, Repr

/-- What an access of a space at a DRAM address finds (12 R295): spaces 0x0 and 0x1 allocate; the way is the device's choice
but that a line of space 0x1 goes before others. -/
def State.l2Plan (s : State) (sp pa : Nat) : L2Plan :=
  let cl := pa / 2 ^ 32
  let c := s.cluster cl
  let line := pa % 2 ^ 32 / 64
  match SMap.get? c.l2 line with
  | some x => .hit x.way
  | none =>
    let ws := s.cacheWays cl
    if sp = 2 ∨ ws = [] then .past
    else
      let w := ws.getD (s.pick % ws.length) 0
      let early := fun (v : Nat) => ((c.l2At line v).map fun x => x.2.early).getD false
      let w := if (c.l2At line w).isSome && !early w then (ws.find? early).getD w else w
      .fill w (c.l2At line w)

/-- The DRAM bank behind a line of a cluster. -/
def State.lineBank (s : State) (cl line : Nat) : List (Nat × Nat) := (s.bankOfAddr (dramAddr cl (64 * line))).toList

/-- The banks that an access at a DRAM address touches, and the units it moves (12 R295; 13 R324). -/
def State.lineNeeds (s : State) (sp pa : Nat) : List (Nat × Nat) × Nat :=
  let cl := pa / 2 ^ 32
  match s.l2Plan sp pa with
  | .hit w => ([(cl, 256 + w)], 0)
  | .past => (s.lineBank cl (pa % 2 ^ 32 / 64), 1)
  | .fill w v =>
    let out := match v with
      | some x => if x.2.dirty then s.lineBank cl x.1 else []
      | none => []
    (s.lineBank cl (pa % 2 ^ 32 / 64) ++ out ++ [(cl, 256 + w)], 1 + out.length)

/-- An access of the device at a DRAM address: it is never refused, but its banks must be awake and its units granted (13 R311,
R317, R325). -/
def State.lineReady (s : State) (sp pa w : Nat) : Acc Unit := do
  let (banks, u) := s.lineNeeds sp pa
  s.awake banks
  s.budgetReady (pa / 2 ^ 32) w u

/-- An access touches banks. -/
def State.devTouch (s : State) (l : List (Nat × Nat)) : State := l.foldl (fun s b => s.touchBank b.1 b.2) s

/-- A line leaves an L2 slice (12 R295): a dirty one is written back; where the DRAM bank has lost its bytes since, a clean one
leaves zeros behind. -/
def State.l2Evict (s : State) (cl line w : Nat) : State :=
  match SMap.get? (s.cluster cl).l2 line with
  | none => s
  | some x =>
    let a := dramAddr cl (64 * line)
    let s := if x.dirty then
        (s.devTouch (s.lineBank cl line)).modCluster cl fun c => c.charge w 1
      else if x.lost then s.clearRange a 64
      else s
    s.modCluster cl fun c => { c with l2 := SMap.erase c.l2 line }

/-- An access touches the banks behind a home address (13 R316): at a DRAM address those that the L2 slice needs, with the units
it moves charged to a waiter. -/
def State.touchAs (s : State) (sp a w : Nat) (st : Bool) : State :=
  match s.bankOfAddr a with
  | none => s
  | some (cl, n) =>
    if n < 272 then s.touchBank cl n
    else
      let line := a % 2 ^ 32 / 64
      match s.l2Plan sp a with
      | .hit way =>
        (s.touchBank cl (256 + way)).modCluster cl fun c =>
          if st then { c with l2 := c.l2.map fun e => if e.1 = line then (e.1, { e.2 with dirty := true }) else e } else c
      | .fill way v =>
        let s := match v with
          | some x => s.l2Evict cl x.1 w
          | none => s
        ((s.touchBank cl n).touchBank cl (256 + way)).modCluster cl fun c =>
          { c.charge w 1 with l2 := SMap.set c.l2 line ⟨way, st, sp == 1, false⟩ }
      | .past => (s.touchBank cl n).modCluster cl fun c => c.charge w 1

/-- A read of the device, or of an agent without a space, touches the banks behind a home address. -/
def State.touch (s : State) (a : Nat) : State := s.touchAs 0 a 0 false

/-- A store of the device, or of an agent without a space, touches the banks behind a home address. -/
def State.touched (s : State) (a : Nat) : State := s.touchAs 0 a 0 true

/-- A store of the device itself at a home address, whole 64-byte lines or within one: it wakes the banks that sleep and performs
(13 R311). -/
def State.devStore (s : State) (a n v : Nat) : State :=
  (List.range ((n + 63) / 64)).foldl (fun s i => s.touched (a + 64 * i)) (s.homeWrite a n v)

/-- The lines of some ways of a cluster go home before the ways stop serving as cache or lose their contents (12 R295; 13 R313). -/
def State.l2Leave (s : State) (cl : Nat) (out : Nat → Bool) : State :=
  (((s.cluster cl).l2.filter fun e => out e.2.way).map (·.1)).foldl (fun s line => s.l2Evict cl line 0) s

/-- Are the banks awake that those lines are written back to? -/
def State.l2LeaveReady (s : State) (cl : Nat) (out : Nat → Bool) : Acc Unit :=
  s.awake (((s.cluster cl).l2.filter fun e => out e.2.way && e.2.dirty).flatMap fun e => s.lineBank cl e.1 ++ [(cl, 256 + e.2.way)])

/-! ## Crossing clusters (23 R419, R420, R424) -/

/-- May a request leave a cluster (23 R419, R420)? One that is quiescing or forced issues none. -/
def State.leaving (s : State) (src : Nat) : Acc Unit :=
  if s.quiescing src || (s.cluster src).forced then .error (.wait .busy) else .ok ()

/-- May a request cross from one cluster to another (23 R419, R420, R424)? One whose clock is stopped or whose rail is
not ON lets it wait at its door. -/
def State.crossing (s : State) (src dst : Nat) : Acc Unit := do
  if src = dst then return ()
  s.leaving src
  if s.running dst then .ok () else .error (.wait (.knock dst))

/-! ## The arbiter of a core bank (10 R265) -/

/-- The engine access port of an engine of a headgate: stream node 0, stream node 1, chain unit, drain, decoder, tile-step feed. -/
def enginePort (k eng : Nat) : Option Nat :=
  (match eng with | 1 => some 0 | 2 => some 1 | 4 => some 2 | 11 => some 3 | 3 => some 4 | 10 => some 5 | _ => none).map (6 * (k % 4) + ·)

/-- The place of a port in the round of n ports that starts after the last winner. -/
def roundPlace (n last port : Nat) : Nat := (port + (n - 1) - last) % n

/-- Have headgates won three cycles in a row up to now? -/
def Arb.spent (x : Arb) (now : Nat) : Bool :=
  decide (3 ≤ now) && [1, 2, 3].all fun d => x.wins.contains (now - d)

/-- Does a headgate's access have the bank in a cycle: none was granted in it, and headgates have not won the three before? -/
def Arb.hgGets (x : Arb) (now : Nat) : Bool := x.used != some now && !x.spent now

/-- Does an engine's access have the bank in a cycle: it is free, no headgate that may win asks, and no engine asks that comes
first in the round? An engine whose step began in this cycle goes on with its next access. -/
def Arb.engGets (x : Arb) (port now : Nat) : Bool :=
  (x.used == some now && x.last == port)
    || (x.used != some now && decide (x.next ≤ now)
        && x.asks.all fun q => decide (q.2 + 1 < now) || q.1 == port
             || (if 24 ≤ q.1 then x.spent now else decide (roundPlace 24 x.last port < roundPlace 24 x.last q.1)))

/-- The arbiter after a grant of cycle now. -/
def Arb.grant (x : Arb) (port now : Nat) : Arb :=
  let asks := x.asks.filter fun q => q.1 != port
  let next := max x.next now + 1
  if 24 ≤ port then { x with used := some now, next, wins := (now :: x.wins).take 3, asks }
  else { x with used := some now, next, last := port, asks }

/-- An access by a port asks for a core bank (10 R265): granted, or it waits and is known to wait. -/
def State.bankTurn (s : State) (cl n port : Nat) : Acc State :=
  let now := s.cycleOf cl
  let x := (s.bank cl n).arb
  if (if 24 ≤ port then x.hgGets now else x.engGets port now) then .ok (s.modBank cl n fun b => { b with arb := x.grant port now })
  else .error (.held (s.modBank cl n fun b => { b with arb := { x with asks := (x.asks.filter fun q => q.1 != port) ++ [(port, now)] } }) .busy)

end Sys2Proof.Machine
end

