-- ==== Sys2Proof/Machine/Ops.lean ====
section
/-! DEFINITION. The named operations over memory and registers: pointers and the check order of
05 R118, the L1, faults and trap records, the issue of one instruction, TRAP and ERET. -/

namespace Sys2Proof.Machine

/-! ## Pointers (05 R117, R118) -/

/-- The space code of a pointer. -/
def space (p : Word) : Nat := p.toNat / 2 ^ 60

/-- The width of the offset field that PADD advances (06 R138). -/
def offWidth (sp : Nat) : Option Nat :=
  match sp with
  | 0 | 1 | 2 | 8 | 12 | 15 => some 48
  | 4 => some 22
  | 5 => some 25
  | 6 => some 32
  | 7 => some 14
  | _ => none

/-- A pointer poisoned (06 R138). -/
def poisonPtr (p : Word) : Word := BitVec.ofNat 64 (p.toNat % 2 ^ 60 + 0xE * 2 ^ 60)

/-- Advance the low w bits of a pointer by a signed amount; poisoned when the sum leaves the field (06 R138). -/
def advance (p : Word) (w : Nat) (d : Int) : Word :=
  let x : Int := (p.toNat % 2 ^ w : Nat) + d
  if x < 0 ∨ x ≥ 2 ^ w then poisonPtr p
  else BitVec.ofNat 64 (p.toNat - p.toNat % 2 ^ w + x.toNat)

/-- PADD's sum (06 R138). -/
def padd (p : Word) (d : Int) : Word :=
  match offWidth (space p) with
  | some w => advance p w d
  | none => poisonPtr p

/-- What an access does to its bytes. -/
inductive Kind where
  | load | store | amo | fetch
  deriving DecidableEq, Repr

/-- Where an access is performed. -/
inductive Target where
  /-- bytes at a home -/
  | home (a : Nat)
  /-- a cell's window: partition, plot, logical row and column, offset (03 R73) -/
  | window (p id row col off : Nat)
  /-- a remote module (12 R306) -/
  | remote (m va : Nat)
  /-- the management space -/
  | mgmt
  deriving DecidableEq, Repr

/-- The permission an access needs of a leaf (18 R373). -/
def permOk (e : TlbEntry) : Kind → Bool
  | .load => e.r
  | .store => e.w
  | .amo => e.r && e.w
  | .fetch => e.x

/-- Translation by a cluster's unit under a context (18 R373, R374): a miss waits for a walk. -/
def State.translate (s : State) (cl ctx va : Nat) (k : Kind) : Acc Nat :=
  match (s.cluster cl).tlb.find? fun e => e.ctx == ctx && decide (e.va ≤ va) && decide (va < e.va + e.size) with
  | some e => if permOk e k then .ok (e.pa + (va - e.va)) else flt cProt
  | none => .error (.wait (.walk cl ctx va []))

/-- The port of the launch a partition runs: its record's (12 R309). -/
def State.portOf (s : State) (p : Nat) : Nat :=
  match (s.part p).walker with
  | .idle => 0
  | .at_ r _ | .loading r _ _ | .holding r _ _ _ => (s.launch r).via

/-- Is a core bank back since the last context restore (18 R380)? Way w of a cluster stands as bank 32 + w at its first live
core. -/
def State.restored (s : State) (c b : Nat) : Acc Unit :=
  if (s.core c).unrestored.contains b then .error (.wait (.restore c b)) else .ok ()

/-- A byte offset in the banks of one role of a core, laid end to end (01 R18): the home address. -/
def State.inBanks (s : State) (c role off : Nat) : Acc Nat :=
  match ((s.core c).banksOf role)[off / bankBytes]? with
  | some b => do
    s.bankReady (clusterOf c) (32 * cicOf c + b)
    s.restored c b
    .ok (bankAddr c b (off % bankBytes))
  | none => flt cAddr

/-- The size of the banks of one role of a core. -/
def State.roleBytes (s : State) (c role : Nat) : Nat := ((s.core c).banksOf role).length * bankBytes

/-- The logical core a 16-bit index names for an issuing core (01 R8). -/
def State.byLcore (s : State) (p issuer i : Nat) : Acc Nat :=
  if i = 0xFFFF then .ok issuer
  else match (s.part p).cores[i]? with
    | some c => .ok c
    | none => flt cAddr

/-- The logical cluster a 16-bit index names for an issuing core (01 R9). -/
def State.byLclus (s : State) (p issuer i : Nat) : Acc Nat :=
  let l := s.lclusters p
  if i = 0xFFFF then (if l.contains (clusterOf issuer) then .ok (clusterOf issuer) else flt cAddr)
  else match l[i]? with
    | some c => .ok c
    | none => flt cAddr

/-- The bits of a pointer that must be zero, by space (05 R117). -/
def zeroOk (p : Word) : Bool :=
  let x := p.toNat
  match space p with
  | 0 | 1 | 2 => bits x 48 12 == 0
  | 4 => bits x 48 12 == 0 && bits x 22 10 == 0
  | 5 => bits x 48 12 == 0 && bits x 25 7 == 0
  | 6 => bits x 32 28 == 0
  | 7 => bits x 48 12 == 0
  | 8 => bits x 48 8 == 0
  | 12 => bits x 48 12 == 0
  | 15 => true
  | _ => false

/-- Logical rows of the plot, both copies counted (03 R73; 09 R251). -/
def Plot.allRows (q : Plot) : Nat := if q.redun then 2 * q.rows else q.rows

/-- Steps 1 to 6 of 05 R118 for an access of n bytes by a waiter through a pointer. -/
def State.resolve (s : State) (w : Nat) (ptr : Word) (n : Nat) (kind : Kind) : Acc Target := do
  let k := seqOf w
  let sp := space ptr
  let x := ptr.toNat
  -- step 1
  chk (!(sp == 15 && !(s.hg k).sys)) cPriv
  if sp = 15 then .ok .mgmt
  else
    -- step 2
    chk (zeroOk ptr) cAddr
    chk (!((sp == 7 || sp == 12) && decide (kind = .amo))) cAddr
    -- step 3
    chk (x % n == 0) cAlign
    -- step 4
    match s.partOfHg k with
    | none => flt cAddr
    | some p =>
      let me := coreOf k
      let cl := clusterOf me
      match sp with
      | 4 => do
        let c ← s.byLcore p me (bits x 32 16)
        s.crossing cl (clusterOf c)
        let a ← s.inBanks c 2 (bits x 0 22)
        .ok (.home a)
      | 5 => do
        let t ← s.byLclus p me (bits x 32 16)
        let live := s.liveOf t
        let banks := (s.core (live.getD 0 0)).banksOf 4
        let o := bits x 0 25
        chk (decide (o < live.length * banks.length * bankBytes)) cAddr
        s.crossing cl t
        let (c, lo) := interleave live o
        let a ← s.inBanks c 4 lo
        .ok (.home a)
      | 6 => do
        let ways := (s.part p).waysNow
        let l := s.lclusters p
        let o := bits x 0 32
        chk (decide (o < l.length * ways * 2 ^ 20)) cAddr
        let t := l.getD (o / (ways * 2 ^ 20)) 0
        s.crossing cl t
        let lo := o % (ways * 2 ^ 20)
        s.bankReady t (256 + lo / 2 ^ 20)
        s.restored ((s.liveOf t).headD 0) (32 + lo / 2 ^ 20)
        .ok (.home (wspAddr t lo))
      | 7 =>
        match s.plot? p (bits x 32 16) with
        | none => flt cAddr
        | some q => do
          chk (q.st != .unconf && decide (bits x 23 9 < q.allRows) && decide (bits x 14 9 < q.cols)) cAddr
          .ok (.window p (bits x 32 16) (bits x 23 9) (bits x 14 9) (bits x 0 14))
      | 8 => do
        s.leaving cl
        .ok (.remote (bits x 56 4) (bits x 0 48))
      | 12 => do
        s.leaving cl
        .ok (.home (hostAddr (s.portOf p) (bits x 0 48)))
      | _ => do
        let pa ← s.translate cl (s.part p).active (bits x 0 48) kind
        chk (s.isBacked pa n) cAddr
        .ok (.home pa)

/-! ## A home in DRAM (12 R295; 13 R311, R317, R325) -/

/-- A program's access through a space at a DRAM address that reaches its home: the bank behind the address, and on a hit the L2
bank, must be allocated; the banks it touches awake; the units it moves within the budget. A region whose slices are being re-laid
lets accesses wait (25 R440). -/
def State.dramReady (s : State) (src sp pa w : Nat) : Acc Unit := do
  chk (s.isBacked pa 1) cAddr
  s.crossing src (pa / 2 ^ 32)
  waitFor !(s.mod.retOp == 2 && clusterOf s.mod.retCore == pa / 2 ^ 32)
  (s.lineBank (pa / 2 ^ 32) (pa % 2 ^ 32 / 64)).forM fun b => s.classOk b.1 b.2
  match s.l2Plan sp pa with
  | .hit way => s.classOk (pa / 2 ^ 32) (256 + way)
  | .fill _ _ | .past => pure ()
  s.lineReady sp pa w

/-! ## The L1 (12 R293, R294) -/

/-- The bytes of b where a 32-bit mask is 1, of a elsewhere, over n bytes. -/
def mergeBytes (mask a b : Nat) : Nat → Nat
  | 0 => 0
  | n + 1 => (if mask % 2 = 1 then b % 256 else a % 256) + 256 * mergeBytes (mask / 2) (a / 256) (b / 256) n

/-- The CACHE banks of a core that can take a line: those with a class (log 58). -/
def State.l1Banks (s : State) (c : Nat) : List Nat :=
  ((s.core c).banksOf 1).filter fun b => (s.bank (clusterOf c) (coreBank c b)).cls != 0

/-- Does a core hold an L1: has it a CACHE bank that can take a line? -/
def State.hasL1 (s : State) (c : Nat) : Bool := !(s.l1Banks c).isEmpty

/-- The bank that holds a sector of a core's L1, or will take it: that of the line's other sector, or the device's choice. -/
def State.l1Bank (s : State) (c sec : Nat) : Nat :=
  match SMap.get? (s.core c).l1 sec, SMap.get? (s.core c).l1 (if sec % 2 = 0 then sec + 1 else sec - 1) with
  | some x, _ | none, some x => x.bank
  | none, none =>
    let bs := s.l1Banks c
    bs.getD (s.pick % bs.length) 0

/-- Touch the bank that holds a sector of a core's L1. -/
def State.l1Touch (s : State) (c sec : Nat) : State := s.touchBank (clusterOf c) (coreBank c (s.l1Bank c sec))

/-- Is every byte of a sector valid in a core's L1? -/
def State.l1Whole (s : State) (c sec : Nat) : Bool :=
  match SMap.get? (s.core c).l1 sec with
  | some x => x.valid == 2 ^ 32 - 1
  | none => false

/-- Every byte of a sector valid: the invalid ones take the home's (12 R293). -/
def State.l1Fill (s : State) (c sec : Nat) : State :=
  let y : Sector := match SMap.get? (s.core c).l1 sec with
    | some x => { x with data := mergeBytes x.valid (s.readN (32 * sec) 32) x.data 32, valid := 2 ^ 32 - 1 }
    | none => ⟨s.l1Bank c sec, s.readN (32 * sec) 32, 2 ^ 32 - 1, 0, s.wt⟩
  s.modCore c fun k => { k with l1 := SMap.set k.l1 sec y }

/-- The sectors of an access, all of one line, are made whole for a waiter: one transfer from the home if any is not (12 R293). -/
def State.l1FillAll (s : State) (c w : Nat) (secs : List Nat) : State :=
  let s := if secs.all (s.l1Whole c) then s else secs.foldl (fun s sec => s.l1Fill c sec) (s.touchAs 0 (32 * secs.headD 0) w false)
  s.l1Touch c (secs.headD 0)

/-- The bytes an access of n at most 32 takes from a filled sector. -/
def State.l1Get (s : State) (c a n : Nat) : Nat :=
  match SMap.get? (s.core c).l1 (a / 32) with
  | some x => x.data / 256 ^ (a % 32) % 256 ^ n
  | none => 0

/-- Write n bytes, at most 32, into a filled sector. -/
def State.l1Put (s : State) (c a n v : Nat) : State :=
  s.modCore c fun k =>
    match SMap.get? k.l1 (a / 32) with
    | some x =>
      let m := (2 ^ n - 1) * 2 ^ (a % 32)
      let d := mergeBytes m x.data (v * 256 ^ (a % 32)) 32
      let y : Sector := { x with data := d, dirty := x.dirty ||| m, since := if x.dirty = 0 then s.cycleOf (clusterOf c) else x.since }
      { k with l1 := SMap.set k.l1 (a / 32) y }
    | none => k

/-- Write a number's bytes to a home where a mask is 1. -/
def State.writeMasked (s : State) (a mask v : Nat) : Nat → State
  | 0 => s
  | n + 1 =>
    (if mask % 2 = 1 then s.setByte a (BitVec.ofNat 8 (v % 256)) else s).writeMasked (a + 1) (mask / 2) (v / 256) n

/-- The dirty sectors of a core's L1. -/
def State.dirtySectors (s : State) (c : Nat) : List Nat := ((s.core c).l1.filter fun e => e.2.dirty != 0).map (·.1)

/-- A sector's dirty bytes go to the home, and it is clean (12 R294). -/
def State.l1Clean (s : State) (c sec : Nat) : State :=
  match SMap.get? (s.core c).l1 sec with
  | some x => (s.writeMasked (32 * sec) x.dirty x.data 32).modCore c fun k => { k with l1 := SMap.set k.l1 sec { x with dirty := 0 } }
  | none => s

/-- Write back some sectors of one line for a waiter (12 R294): one transfer if any is dirty. -/
def State.l1WriteBack (s : State) (c w : Nat) (secs : List Nat) : State :=
  match secs.filter (s.dirtySectors c).contains with
  | [] => s
  | sec :: rest => ((sec :: rest).foldl (fun s x => s.l1Clean c x) (s.l1Touch c sec)).touchAs 0 (32 * sec) w true

/-- Drop a sector. -/
def State.l1Drop (s : State) (c sec : Nat) : State := s.modCore c fun k => { k with l1 := SMap.erase k.l1 sec }

/-- Write back every dirty byte of a core's L1 for a waiter (12 R294). -/
def State.writeBackAll (s : State) (w c : Nat) : State :=
  (dedup ((s.dirtySectors c).map (· / 2))).foldl (fun s line => s.l1WriteBack c w [2 * line, 2 * line + 1]) s

/-- May write-backs of some sectors of a core go now (13 R311, R317, R325)? They are never refused, but the banks they touch must
be awake, and the units they move granted. -/
def State.sectorsReady (s : State) (w c : Nat) (secs : List Nat) : Acc Unit := do
  s.awake (secs.flatMap fun sec => (clusterOf c, coreBank c (s.l1Bank c sec)) :: (s.lineNeeds 0 (32 * sec)).1)
  (dedup (secs.map fun sec => 32 * sec / 2 ^ 32)).forM fun cl =>
    s.budgetReady cl w ((dedup ((secs.filter fun sec => 32 * sec / 2 ^ 32 == cl).map (· / 2))).foldl
      (fun n line => n + (s.lineNeeds 0 (64 * line)).2) 0)

/-- May every dirty byte of some cores' L1s be written back now? -/
def State.flushReady (s : State) (w : Nat) (cs : List Nat) : Acc Unit := cs.forM fun c => s.sectorsReady w c (s.dirtySectors c)

/-- Drop every clean sector; in dirty ones only the written bytes stay valid (12 R294). -/
def State.selfInval (s : State) (c : Nat) : State :=
  s.modCore c fun k => { k with l1 := (k.l1.filter fun e => e.2.dirty != 0).map fun e => (e.1, { e.2 with valid := e.2.dirty }) }

/-- The sectors of n bytes at an address. -/
def sectors (a n : Nat) : List Nat := (List.range ((n + 31) / 32)).map (a / 32 + ·)

/-- Read n bytes of space 0x0 through the core's L1. -/
def State.l1Read (s : State) (c w a n : Nat) : Acc (State × Nat) :=
  let secs := sectors a n
  if secs.any fun sec => !s.l1Whole c sec && s.poisoned (32 * sec) 32 then flt cEcc
  else
    let s := s.l1FillAll c w secs
    .ok (s, if n ≤ 32 then s.l1Get c a n else s.l1Get c a 32 + 2 ^ 256 * s.l1Get c (a + 32) 32)

/-- Write n bytes of space 0x0 through the core's L1. -/
def State.l1Write (s : State) (c w a n v : Nat) : State :=
  let s := s.l1FillAll c w (sectors a n)
  if n ≤ 32 then s.l1Put c a n v else (s.l1Put c a 32 (v % 2 ^ 256)).l1Put c (a + 32) 32 (v / 2 ^ 256)

/-- An access of a core that performs at the home of a DRAM sector: the L1 copy's dirty bytes go home first, and the
copy is dropped (12 R294). -/
def State.l1Bypass (s : State) (c w a n : Nat) : State :=
  (sectors a n).foldl (fun s sec => s.l1Drop c sec) (s.l1WriteBack c w (sectors a n))

/-- Is a scope cluster or wider (12 R294)? -/
def wideScope : Scope → Bool
  | .port | .core => false
  | .cluster | .partition | .wafer | .domain | .host => true

/-- Is an access of a core through a space served by its L1 (12 R293)? -/
def State.l1Serves (s : State) (c sp a : Nat) (wide : Bool) : Bool := isDram a && sp == 0 && !wide && s.hasL1 c

/-- May a waiter's access at a home go now? One that the L1 serves needs the L1's bank, and its home for a fill; any other
needs the bank of an L1 copy that goes home first (05 R118, step 6; 12 R293 to R295). -/
def State.homeReady (s : State) (w sp a n : Nat) (wide : Bool) : Acc Unit :=
  let c := coreOf (seqOf w)
  let cl := clusterOf c
  if !isDram a then .ok ()
  else if s.l1Serves c sp a wide then do
    (s.lineBank (a / 2 ^ 32) (a % 2 ^ 32 / 64)).forM fun b => s.classOk b.1 b.2
    s.classOk cl (coreBank c (s.l1Bank c (a / 32)))
    if (sectors a n).all fun sec => s.l1Whole c sec then pure () else s.dramReady cl sp a w
    s.awake [(cl, coreBank c (s.l1Bank c (a / 32)))]
  else do
    if isRmc (seqOf w) then pure () else s.sectorsReady w c ((sectors a n).filter (s.dirtySectors c).contains)
    s.dramReady cl sp a w

/-- The core bank whose arbiter an access asks: that of the L1 that serves it, or of its home; none elsewhere. -/
def State.accessBank (s : State) (c sp a : Nat) (wide : Bool) : Option (Nat × Nat) :=
  if s.l1Serves c sp a wide then some (clusterOf c, coreBank c (s.l1Bank c (a / 32)))
  else (s.bankOfAddr a).filter fun b => b.2 < 256

/-- The port that a waiter's access asks with (10 R265): a headgate's for its own LD, ST, LDV, STV and AMO, an engine's for its
engine; other accesses ask none. -/
def portNo (w : Nat) (own : Bool) : Option Nat :=
  if isRmc (seqOf w) then none else if own then some (24 + hgnOf (seqOf w)) else enginePort (seqOf w) (engOf w)

/-- A waiter's access at a home takes its turn at the core bank it touches (10 R265). -/
def State.turnAt (s : State) (w sp a : Nat) (wide own : Bool) : Acc State :=
  match portNo w own, s.accessBank (coreOf (seqOf w)) sp a wide with
  | some port, some (cl, n) => s.bankTurn cl n port
  | _, _ => .ok s

/-- Read n bytes at a home for a waiter, through a space, with acquire semantics at a scope of cluster or wider, or not. -/
def State.loadAt (s : State) (w sp a n : Nat) (wide : Bool) : Acc (State × Nat) :=
  let c := coreOf (seqOf w)
  if s.l1Serves c sp a wide then s.l1Read c w a n
  else do
    let s := if isDram a then s.l1Bypass c w a n else s
    let v ← s.homeRead a n
    .ok (s.touchAs sp a w false, v)

/-- Store n bytes at a home for a waiter, through a space. -/
def State.storeAt (s : State) (w sp a n v : Nat) (wide : Bool) : State :=
  let c := coreOf (seqOf w)
  if s.l1Serves c sp a wide then s.l1Write c w a n v
  else ((if isDram a then s.l1Bypass c w a n else s).homeWrite a n v).touchAs sp a w true

/-! ## Launch records (17 R349) -/

/-- Word k of a launch record. -/
def Launch.word (l : Launch) (k : Nat) : Word := l.words.get (Fin.ofNat 16 k)
def Launch.owner (l : Launch) : Nat := bits (l.word 1).toNat 48 10
def Launch.patchMask (l : Launch) : Nat := bits (l.word 1).toNat 32 16
def Launch.prio (l : Launch) : Nat := bits (l.word 1).toNat 16 3
def Launch.nnodes (l : Launch) : Nat := bits (l.word 1).toNat 0 13
def Launch.graph (l : Launch) : Word := l.word 0
def Launch.notify (l : Launch) : Word := l.word 4

/-! ## Trap records and the halt line (14, 18 R384 to R387) -/

/-- In a list of detail words: a word for which the manual states no value. -/
def unstated : Nat := 2 ^ 64

/-- A detail word of a record (14 R339): the one stated for its cause, else a free value, by the record's core and SEQ (log 12). -/
def TrapRec.dw (r : TrapRec) (i : Nat) : Nat :=
  let x := r.d.getD i unstated
  if x < 2 ^ 64 then x else (Config.freeDetail (4096 * r.seq + coreAt r.x r.y) i).toNat

/-- The 512 bits of a trap record (18 R384). -/
def TrapRec.image (r : TrapRec) : Nat :=
  (r.dw 0 + r.dw 1 * 2 ^ 64 + r.dw 2 * 2 ^ 128 + r.dw 3 * 2 ^ 192) * 2 ^ 256 + r.wt % 2 ^ 64 * 2 ^ 192
    + r.iaddr.toNat * 2 ^ 128 + r.seq % 2 ^ 32 * 2 ^ 96 + r.plot % 2 ^ 16 * 2 ^ 80 + r.lcore % 2 ^ 16 * 2 ^ 64
    + r.ctx % 2 ^ 10 * 2 ^ 54 + r.y % 64 * 2 ^ 42 + r.x % 64 * 2 ^ 36 + r.hg % 4 * 2 ^ 34 + r.unit % 16 * 2 ^ 30
    + (if r.repeat_ then 2 ^ 8 else 0) + r.cause % 256

/-- The 256 bits of a KM-72 record (18 R387). -/
def TrapRec.km72 (r : TrapRec) : Nat :=
  r.dw 0 * 2 ^ 192 + r.iaddr.toNat % 2 ^ 48 * 2 ^ 144 + r.wt % 2 ^ 48 * 2 ^ 96 + r.seq % 2 ^ 32 * 2 ^ 64
    + r.unit % 16 * 2 ^ 60 + r.hg % 4 * 2 ^ 58 + r.y % 64 * 2 ^ 14 + r.x % 64 * 2 ^ 8 + r.cause % 256

/-- The DRAM address of a region-5 pointer (18 R363). -/
def region5 (p : Word) : Nat := bits p.toNat 0 41

/-- Write a record to the ring or the core's FIFO, or keep it pending with OVF set (18 R385, R387, R460). -/
def State.putRecord (s : State) (p : Nat) (r : TrapRec) : State :=
  let q := s.part p
  if q.compat then
    let c := coreAt r.x r.y
    if (s.core c).kmfifo.length < 16 then s.modCore c fun k => { k with kmfifo := k.kmfifo ++ [r.km72] }
    else (s.modCore c fun k => { k with kmovf := true }).modPart p fun q => { q with pending := q.pending ++ [r] }
  else if q.ringbase = 0 ∨ (q.wr + 2 ^ 32 - q.rd) % 2 ^ 32 ≥ 2 ^ q.logsize then
    s.modPart p fun q => { q with ovf := true, pending := q.pending ++ [r] }
  else
    let a := region5 q.ringbase + 64 * (q.wr % 2 ^ q.logsize)
    (s.devStore a 64 r.image).modPart p fun q => { q with wr := (q.wr + 1) % 2 ^ 32 }

/-- A record of a core's unit: it takes the core's next SEQ (18 R384). -/
def State.record (s : State) (p core unit hg cause plot : Nat) (iaddr : Word) (d : List Nat) : State :=
  let r : TrapRec :=
    { cause, repeat_ := false, unit, hg, x := coreX core, y := coreY core, ctx := (s.part p).active,
      lcore := if unit = 7 ∨ unit = 8 then 0xFFFF else s.lcore core, plot, seq := (s.core core).seq, iaddr, wt := s.wt, d }
  (s.modCore core fun k => { k with seq := (k.seq + 1) % 2 ^ 32 }).putRecord p r

/-- Raise a partition's halt line (14 R337); a fault while it is up begins no second halt. -/
def State.haltLine (s : State) (p : Nat) : State :=
  if (s.part p).halted then s
  else s.modPart p fun q => { q with halted := true, done := false, haltWt := s.wt }

/-- An RMC's fault: its record in RMCTRAP, RMCSTAT.FAULT, RMCPC (26 R458). -/
def State.rmcFault (s : State) (k cause : Nat) (iaddr pc : Word) (d : List Nat) : State :=
  let c := rmcCore k
  let r : TrapRec :=
    { cause, repeat_ := false, unit := 11, hg := 0, x := coreX c, y := coreY c, ctx := 0, lcore := 0xFFFF,
      plot := 0xFFFF, seq := (s.core c).seq, iaddr, wt := s.wt, d }
  ((s.modCore c fun q => { q with seq := (q.seq + 1) % 2 ^ 32 }).modReticle (k - rmcBase) fun t =>
    { t with rmc := { t.rmc with fault := true, trap := r.image, pc } }).modHg k fun h => { h with stopped := true }

/-- A precise trap of sequencer k at an address (05 R123, 14 R327): the record, the stop, the halt line. The stop record's
PC is pc. A trap at a word of a loop body leaves its address in EPC (06 R147). -/
def State.trapAt (s : State) (k cause : Nat) (iaddr pc : Word) (info : Nat) (d : List Nat) : State :=
  if isRmc k then s.rmcFault k cause iaddr pc d
  else
    let s := s.modHg k fun h =>
    { h with
      stopped := true, stop := ⟨cause, info, s.wt, pc.toNat, 0⟩,
      epc := if h.loops.any fun l => decide (l.start.toNat ≤ iaddr.toNat ∧ iaddr.toNat ≤ l.stop.toNat) then iaddr else h.epc }
    match s.partOf (coreOf k) with
    | some p => (s.record p (coreOf k) 0 (hgnOf k) cause 0xFFFF iaddr d).haltLine p
    | none => s

/-- The precise trap of the instruction being issued. -/
def State.precise (s : State) (cause : Nat) (d : List Nat) : State := s.trapAt s.cur cause s.me.pc s.me.pc 0 d

/-! ## Waits that the translation unit and the BPC serve -/

/-- The core of a plot's south-west cell. -/
def Plot.swCore (q : Plot) : Nat := coreAt (q.px / 24) (q.py / 24)

/-- Cycles of the plot's island so far (09 R238). -/
def State.plotCycle (s : State) (q : Plot) : Nat := (s.cluster (clusterOf q.swCore)).cycles s.wt

/-- Join or begin a walk (18 R374): a miss waits when all 256 walks are busy. -/
def State.beginWalk (s : State) (cl ctx va waiter : Nat) (d : List Nat) : State :=
  s.modCluster cl fun c =>
    if c.walks.any fun w => w.ctx == ctx && w.va / 65536 == va / 65536 then
      { c with walks := c.walks.map fun w =>
          if w.ctx = ctx ∧ w.va / 65536 = va / 65536 ∧ !(w.joined.any fun j => j.waiter == waiter) then
            { w with joined := w.joined ++ [⟨waiter, va, d⟩] }
          else w }
    else if c.walks.length < 256 then { c with walks := c.walks ++ [⟨ctx, va, [⟨waiter, va, d⟩]⟩] }
    else c

/-- The reticle of a cluster (01 R6). -/
def reticleOfCluster (cl : Nat) : Nat := reticleOf (coreOfCic cl 0)

/-- An event of 23 R430 at a reticle's RMC is latched (24 R433). -/
def State.rmcEvent (s : State) (r : Nat) : State := s.modReticle r fun t => { t with rmc := { t.rmc with wakepend := true } }

/-- KNOCK of a cluster is set (23 R424, R430). -/
def State.setKnock (s : State) (cl : Nat) : State := (s.modCluster cl fun c => { c with knock := true }).rmcEvent (reticleOfCluster cl)

/-- A request arrives at a stopped cluster: it waits there, and its arrival sets KNOCK once (23 R424). -/
def State.knock (s : State) (cl waiter : Nat) : State :=
  if (s.cluster cl).waiters.contains waiter then s else (s.modCluster cl fun c => { c with waiters := c.waiters ++ [waiter] }).setKnock cl

/-- Is a request the same access of the same waiter? -/
def Remote.sameAs (x r : Remote) : Bool :=
  x.seqr == r.seqr && x.module_ == r.module_ && x.kind == r.kind && x.addr == r.addr && x.size == r.size

/-- What a stall of a waiter begins: a walk, a wake, a knock. -/
def State.startWait (s : State) (waiter : Nat) : Wait → State
  | .walk cl ctx va d => s.beginWalk cl ctx va waiter d
  | .wakes l => l.foldl (fun s b => s.beginWake b.1 b.2) s
  | .knock cl => s.knock cl waiter
  | .budget cl u => s.modCluster cl fun c => c.askUnits waiter u
  | .remote r =>
    if s.mod.remotes.any fun x => x.blocking && x.sameAs r then s
    else s.modMod fun m => { m with remotes := m.remotes ++ [r] }
  | .restore _ _ | .busy => s

/-- An access or step of a waiter that did not complete: a wait begins what it waits for, on the state it has left; nothing for
a fault, which each agent handles in its own way. -/
def State.stall (s : State) (waiter : Nat) : Stop → State
  | .fault _ _ => s
  | .wait w => s.startWait waiter w
  | .held t w => t.startWait waiter w

/-! ## Registers of the issuing sequencer -/

/-- s[r]; s0 reads as zero (05 R110). -/
def Hg.getS (h : Hg) (r : SReg) : Word := if r = 0 then 0 else h.s.get r
/-- s[r] := x; a write to s0 is discarded (05 R110). -/
def Hg.setS (h : Hg) (r : SReg) (x : Word) : Hg := if r = 0 then h else { h with s := h.s.set r x }
/-- p[r]; p0 reads as 1 (05 R110). -/
def Hg.getP (h : Hg) (r : PReg) : Bool := if r = 0 then true else h.p.get r
/-- p[r] := x; a write to p0 is discarded (05 R110). -/
def Hg.setP (h : Hg) (r : PReg) (x : Bool) : Hg := if r = 0 then h else { h with p := h.p.set r x }
def Hg.getV (h : Hg) (r : VReg) : VWord := h.v.get r
def Hg.setV (h : Hg) (r : VReg) (x : VWord) : Hg := { h with v := h.v.set r x }
def Hg.getSh (h : Hg) (r : ShReg) : BitVec 256 := h.sh.get r
def Hg.setSh (h : Hg) (r : ShReg) (x : BitVec 256) : Hg := { h with sh := h.sh.set r x }

def State.getS (s : State) (r : SReg) : Word := s.me.getS r
def State.setS (s : State) (r : SReg) (x : Word) : State := s.setMe (s.me.setS r x)
def State.getP (s : State) (r : PReg) : Bool := s.me.getP r
def State.setP (s : State) (r : PReg) (x : Bool) : State := s.setMe (s.me.setP r x)
def State.getV (s : State) (r : VReg) : VWord := s.me.getV r
def State.setV (s : State) (r : VReg) (x : VWord) : State := s.setMe (s.me.setV r x)
def State.setPc (s : State) (x : Word) : State := s.setMe { s.me with pc := x }

/-! ## Completion and the hardware loops (06 R146) -/

/-- The loop stack after a word at address e completed, and where the PC goes when a level repeats (06 R146). -/
def loopEnd (e : Word) : List Loop → List Loop × Option Word
  | [] => ([], none)
  | l :: t =>
    if e = l.stop then
      if l.rem > 1 then ({ l with rem := l.rem - 1 } :: t, some l.start) else loopEnd e t
    else (l :: t, none)

/-- A headgate after its instruction completed without a taken transfer (06 R130, R146). -/
def Hg.retire (h : Hg) : Hg :=
  let (ls, t) := loopEnd h.pc h.loops
  { h with loops := ls, pc := t.getD (h.pc + 4) }

/-- A headgate after its instruction completed and goes on at an address, unless a loop level repeats (06 R146). -/
def Hg.retireTo (h : Hg) (pc : Word) : Hg :=
  let (ls, t) := loopEnd h.pc h.loops
  { h with loops := ls, pc := t.getD pc }

def State.retire (s : State) : State := s.setMe s.me.retire

/-! ## The issue of one instruction (05 R124) -/

/-- What FORKED = 1 does to an instruction (06 R150, R151). -/
inductive Forked where
  /-- it issues and takes effect normally -/
  | normal
  /-- it is held in the issuing bank -/
  | held
  /-- it raises ILLEGAL -/
  | banned
  deriving DecidableEq, Repr

/-- Where the PC goes after an instruction. -/
inductive Next where
  /-- on, by 06 R146 -/
  | seq
  /-- a taken transfer -/
  | jump (pc : Word)
  /-- on to an address, as a completion that 06 R146 counts -/
  | skip (pc : Word)
  /-- nowhere: the instruction issues again -/
  | stay
  deriving DecidableEq, Repr

/-- The result of an instruction's own checks and effect. -/
abbrev Eff := Acc (State × Next)

/-- An effect that ends by going on to the next word. -/
def done (s : State) : Eff := .ok (s, .seq)

/-- Complete an instruction: its effect, its trap, or its stall. -/
def State.finish (s : State) : Eff → State
  | .ok (t, .seq) => t.retire
  | .ok (t, .jump pc) => t.setPc pc
  | .ok (t, .skip pc) => t.setMe (t.me.retireTo pc)
  | .ok (t, .stay) => t
  | .error (.fault c d) => s.precise c d
  | .error x => s.stall s.cur x

/-- Issue an instruction in the order of 05 R124: the encoding check of FORKED, privilege, the guard, then its own
checks and effect. -/
def State.issue (s : State) (fk : Forked) (sysOnly : Bool) (g : PReg) (body : Eff) :
    Host.Outcome State Fault Refusal :=
  if s.me.forked && decide (fk = .banned) then .next (s.precise cIllegal [])
  else if sysOnly && !s.me.sys then .next (s.precise cPriv [])
  else if !s.getP g then .next s.retire
  else .next (s.finish body)

/-- A plain guarded instruction. -/
def State.plain (s : State) (g : PReg) (body : Eff) : Host.Outcome State Fault Refusal := s.issue .normal false g body

/-- A guarded instruction that FORKED forbids (06 R151). -/
def State.unforked (s : State) (g : PReg) (body : Eff) : Host.Outcome State Fault Refusal := s.issue .banned false g body

/-! ## Entering and leaving system mode (06 R157, R158) -/

/-- TRAP: the PC after it into EPC, the code into ECAUSE, system mode, the PC to TVEC. -/
def Hg.takeTrap (h : Hg) (code : Nat) : Hg :=
  { h with epc := h.pc + 4, ecause := BitVec.ofNat 64 (code % 1024 * 256), sys := true, pc := h.tvec }

/-- ERET: the PC from EPC, and user mode except on an RMC. -/
def Hg.takeEret (h : Hg) (rmc : Bool) : Hg := { h with pc := h.epc, sys := rmc }

end Sys2Proof.Machine
end

