-- ==== Sys2Proof/Machine/Operands.lean ====
section
/-! DEFINITION. Operand forms: immediates, sizes, effective addresses, vector lanes, shape records (05 R115 to R121). -/

namespace Sys2Proof.Machine

/-- A 16-bit immediate read as signed (05 R121). -/
def simm (i : BitVec 16) : Word := i.signExtend 64

/-- A 16-bit immediate zero-extended (05 R121). -/
def zimm (i : BitVec 16) : Word := i.setWidth 64

/-- The branch target: the instruction's own address plus 4 x sx(off22, 22) (05 R119). -/
def branchTarget (pc : Word) (o : BitVec 22) : Word := pc + 4 * o.signExtend 64

/-- The bytes of an LD or ST size. -/
def sizeBytes : Size → Nat
  | .b1 => 1
  | .b2 => 2
  | .b4 => 4
  | .b8 => 8

/-- The bytes of an LDV or STV size. -/
def vsizeBytes : VSize → Nat
  | .b16 => 16
  | .b32 => 32
  | .b64 => 64

/-- The effective address of an M-format access of n bytes: the offset field advanced by sx(off8) x n (07 R166). -/
def effAddr (base : Word) (o : BitVec 8) (n : Nat) : Word := padd base (o.toInt * n)

/-- Lane l of width w of a vector. -/
def lane (v : VWord) (w l : Nat) : Nat := elem v.toNat w l

/-- The lanes of a vector, lane 0 first. -/
def lanes (v : VWord) (w : Nat) : List Nat := unpack v.toNat w (512 / w)

/-- The vector of lanes, lane 0 first. -/
def ofLanes (w : Nat) (l : List Nat) : VWord := BitVec.ofNat 512 (pack w l)

/-- The low 32 bits of a scalar (08 R230). -/
def low32 (x : Word) : Nat := x.toNat % 2 ^ 32

/-! Shape records (05 R115, R116). -/

def shFmt (x : BitVec 256) : Nat := bits x.toNat 224 4
def shNdim (x : BitVec 256) : Nat := bits x.toNat 228 2
def shScaled (x : BitVec 256) : Bool := bit x.toNat 231
def shExt (x : BitVec 256) (k : Nat) : Nat := bits x.toNat (64 + 16 * k) 16
def shStr (x : BitVec 256) (k : Nat) : Int := sx (bits x.toNat (128 + 24 * k) 24) 24
def shBase (x : BitVec 256) : Word := BitVec.ofNat 64 (bits x.toNat 0 64)
def shEmpty (x : BitVec 256) : Bool := x == 0
/-- The element format of a record. -/
def shFormat (x : BitVec 256) : Option Fmt := Fmt.ofCode (shFmt x)

/-- Is a format 4 bits wide? -/
def isNibble : Fmt → Bool
  | .e2m1 | .i4 | .cb4 => true
  | .f32 | .bf16 | .f16 | .e4m3 | .e5m2 | .i8 | .i32 | .n8 | .n32 | .e3m5 => false

/-- A valid shape record (05 R116). -/
def shValid (x : BitVec 256) : Bool :=
  match shFormat x with
  | none => false
  | some f =>
    ((List.range 4).all fun k =>
      if k ≤ shNdim x then decide (shExt x k ≥ 1) else decide (shExt x k = 0) && decide (shStr x k = 0))
    && bits x.toNat 232 24 == 0 && bits x.toNat 230 1 == 0
    && (!isNibble f || decide (shStr x 0 = 1))
    && (!shScaled x || f.blockScalable)

/-- The number of elements of a record: the product of its extents. -/
def shCount (x : BitVec 256) : Nat :=
  (List.range 4).foldl (fun n k => if k ≤ shNdim x then n * shExt x k else n) 1

/-- The counters i0 to i3 of the n-th element of a walk, dimension 0 innermost (08 R214). -/
def shIndex (x : BitVec 256) (n : Nat) : Nat × Nat × Nat × Nat :=
  let e0 := max 1 (shExt x 0)
  let e1 := max 1 (shExt x 1)
  let e2 := max 1 (shExt x 2)
  (n % e0, n / e0 % e1, n / (e0 * e1) % e2, n / (e0 * e1 * e2))

/-- The element offset of the n-th element of a walk (05 R115). -/
def shElemOff (x : BitVec 256) (n : Nat) : Int :=
  let (i0, i1, i2, i3) := shIndex x n
  i0 * shStr x 0 + i1 * shStr x 1 + i2 * shStr x 2 + i3 * shStr x 3

/-- The pointer to the byte of the n-th element of a walk, and its nibble (05 R115). -/
def shElemPtr (x : BitVec 256) (f : Fmt) (n : Nat) : Word × Nat :=
  let e := shElemOff x n
  if isNibble f then (padd (shBase x) (e / 2), (e % 2).toNat)
  else (padd (shBase x) (e * (fmtWidth f / 8 : Nat)), 0)

/-- The bytes of n elements of a format, a last half byte counted whole. -/
def fmtBytes (f : Fmt) (n : Nat) : Nat := (n * fmtWidth f + 7) / 8

end Sys2Proof.Machine
end

