-- ==== Sys2Proof/Machine/Flags.lean ====
section
/-! DEFINITION. Conditions and sticky flags: the compare conditions of SETP and SETPI, AMAX and NSEEN, PEV. -/

namespace Sys2Proof.Machine

/-- The conditions of SETP and SETPI (06 R135). -/
inductive Cond where
  | eq | ne | lt | ge | ltn | gen
  deriving DecidableEq, Repr

/-- The outcome of a comparison (06 R135). -/
def Cond.holds (c : Cond) (x y : Word) : Bool :=
  match c with
  | .eq => x == y
  | .ne => x != y
  | .lt => x.slt y
  | .ge => !x.slt y
  | .ltn => x.ult y
  | .gen => !x.ult y

/-- AMAX and NSEEN of a headgate after an update with each of a list of values (02 R48). -/
def Hg.noteAmax (h : Hg) (vs : List FVal) : Hg :=
  let (m, n) := vs.foldl (fun (a : Nat × Bool) v => amaxUpdate a.1 a.2 v) (h.amax, h.nseen)
  { h with amax := m, nseen := n }

/-- AMAX and NSEEN of a headgate after a committed PAMAX (02 R48). -/
def Hg.commitAmax (h : Hg) (mag : Nat) (nan : Bool) : Hg := { h with amax := max h.amax mag, nseen := h.nseen || nan }

/-- Latch an event of PEV (06 R161). -/
def Hg.latch (h : Hg) (b : Nat) : Hg := { h with pev := h.pev ||| BitVec.ofNat 5 (2 ^ b) }

/-- Latch an event of PEV in every headgate of a core (06 R161). -/
def State.latchCore (s : State) (c b : Nat) : State :=
  (List.range 4).foldl (fun s h => s.modHg (4 * c + h) (·.latch b)) s

end Sys2Proof.Machine
end

