-- ==== Sys2Proof/Machine/Alu.lean ====
section
/-! DEFINITION. Integer arithmetic and logic, immediates and constants (06 R131 to R134). -/

namespace Sys2Proof.Machine

/-- The quotient truncated towards zero, signed; by 0 all ones (06 R131, R132). -/
def divS (x y : Word) : Word := if y = 0 then BitVec.allOnes 64 else toWord (x.toInt.tdiv y.toInt)
/-- The unsigned quotient; by 0 all ones (06 R131, R132). -/
def divU (x y : Word) : Word := if y = 0 then BitVec.allOnes 64 else x.udiv y
/-- The signed remainder, with the sign of x; by 0 x itself (06 R131, R132). -/
def remS (x y : Word) : Word := if y = 0 then x else toWord (x.toInt.tmod y.toInt)
/-- The unsigned remainder; by 0 x itself (06 R131, R132). -/
def remU (x y : Word) : Word := if y = 0 then x else x.umod y
/-- Bits [127:64] of the signed product (06 R131). -/
def mulH (x y : Word) : Word := toWord (x.toInt * y.toInt / 2 ^ 64)
/-- Bits [127:64] of the unsigned product (06 R131). -/
def mulHU (x y : Word) : Word := BitVec.ofNat 64 (x.toNat * y.toNat / 2 ^ 64)
/-- A shift count: the low six bits (06 R131). -/
def cnt6 (y : Word) : Nat := y.toNat % 64
/-- Leading zero bits, 64 for 0 (06 R131). -/
def clz (x : Word) : Word := BitVec.ofNat 64 (64 - bitLen x.toNat)
/-- Trailing zero bits, 64 for 0 (06 R131). -/
def ctz (x : Word) : Word := BitVec.ofNat 64 (if x = 0 then 64 else bitLen (x &&& -x).toNat - 1)
/-- The number of 1 bits (06 R131). -/
def popc (x : Word) : Word := BitVec.ofNat 64 ((unpack x.toNat 1 64).foldl (· + ·) 0)
/-- Bit k moved to bit 63 - k (06 R131). -/
def brev (x : Word) : Word := BitVec.ofNat 64 (pack 1 (unpack x.toNat 1 64).reverse)
/-- x[n:0] sign-extended from bit n (06 R131). -/
def sextFrom (x y : Word) : Word := toWord (sx x.toNat (cnt6 y + 1))
/-- x[n:0] zero-extended (06 R131). -/
def zextFrom (x y : Word) : Word := BitVec.ofNat 64 (x.toNat % 2 ^ (cnt6 y + 1))
/-- The smaller, signed. -/
def minS (x y : Word) : Word := if x.slt y then x else y
/-- The larger, signed. -/
def maxS (x y : Word) : Word := if x.slt y then y else x
/-- The smaller, unsigned. -/
def minU (x y : Word) : Word := if x.ult y then x else y
/-- The larger, unsigned. -/
def maxU (x y : Word) : Word := if x.ult y then y else x

/-- s[d] := f(s[a], s[b]) under the guard (06 R131). -/
def State.alu2 (s : State) (d a b : SReg) (g : PReg) (f : Word → Word → Word) : Host.Outcome State Fault Refusal :=
  s.plain g (done (s.setS d (f (s.getS a) (s.getS b))))

/-- s[d] := f(s[a]) under the guard (06 R131). -/
def State.alu1 (s : State) (d a : SReg) (g : PReg) (f : Word → Word) : Host.Outcome State Fault Refusal :=
  s.plain g (done (s.setS d (f (s.getS a))))

/-- ADD: s[d] := x + y (06 R131). -/
def execAdd (d a b : SReg) (g : PReg) (s : State) : Host.Outcome State Fault Refusal := s.alu2 d a b g (fun x y => x + y)

/-- SUB: s[d] := x - y (06 R131). -/
def execSub (d a b : SReg) (g : PReg) (s : State) : Host.Outcome State Fault Refusal := s.alu2 d a b g (fun x y => x - y)

/-- AND: s[d] := x and y (06 R131). -/
def execAnd (d a b : SReg) (g : PReg) (s : State) : Host.Outcome State Fault Refusal := s.alu2 d a b g (fun x y => x &&& y)

/-- OR: s[d] := x or y (06 R131). -/
def execOr (d a b : SReg) (g : PReg) (s : State) : Host.Outcome State Fault Refusal := s.alu2 d a b g (fun x y => x ||| y)

/-- XOR: s[d] := x xor y (06 R131). -/
def execXor (d a b : SReg) (g : PReg) (s : State) : Host.Outcome State Fault Refusal := s.alu2 d a b g (fun x y => x ^^^ y)

/-- ANDN: s[d] := x and not y (06 R131). -/
def execAndn (d a b : SReg) (g : PReg) (s : State) : Host.Outcome State Fault Refusal := s.alu2 d a b g (fun x y => x &&& ~~~y)

/-- SHL: s[d] := x << y[5:0] (06 R131). -/
def execShl (d a b : SReg) (g : PReg) (s : State) : Host.Outcome State Fault Refusal := s.alu2 d a b g (fun x y => x <<< cnt6 y)

/-- SHR: s[d] := x >> y[5:0], zero fill (06 R131). -/
def execShr (d a b : SReg) (g : PReg) (s : State) : Host.Outcome State Fault Refusal := s.alu2 d a b g (fun x y => x >>> cnt6 y)

/-- SRA: s[d] := x >> y[5:0], sign fill (06 R131). -/
def execSra (d a b : SReg) (g : PReg) (s : State) : Host.Outcome State Fault Refusal := s.alu2 d a b g (fun x y => x.sshiftRight (cnt6 y))

/-- ROR: s[d] := x rotated right by y[5:0] (06 R131). -/
def execRor (d a b : SReg) (g : PReg) (s : State) : Host.Outcome State Fault Refusal := s.alu2 d a b g (fun x y => x.rotateRight (cnt6 y))

/-- MIN: s[d] := the smaller, signed (06 R131). -/
def execMin (d a b : SReg) (g : PReg) (s : State) : Host.Outcome State Fault Refusal := s.alu2 d a b g minS

/-- MAX: s[d] := the larger, signed (06 R131). -/
def execMax (d a b : SReg) (g : PReg) (s : State) : Host.Outcome State Fault Refusal := s.alu2 d a b g maxS

/-- MINN: s[d] := the smaller, unsigned (06 R131). -/
def execMinn (d a b : SReg) (g : PReg) (s : State) : Host.Outcome State Fault Refusal := s.alu2 d a b g minU

/-- MAXN: s[d] := the larger, unsigned (06 R131). -/
def execMaxn (d a b : SReg) (g : PReg) (s : State) : Host.Outcome State Fault Refusal := s.alu2 d a b g maxU

/-- MUL: s[d] := x y, low 64 bits (06 R131). -/
def execMul (d a b : SReg) (g : PReg) (s : State) : Host.Outcome State Fault Refusal := s.alu2 d a b g (fun x y => x * y)

/-- MULH: s[d] := the high half, signed (06 R131). -/
def execMulh (d a b : SReg) (g : PReg) (s : State) : Host.Outcome State Fault Refusal := s.alu2 d a b g mulH

/-- MULHN: s[d] := the high half, unsigned (06 R131). -/
def execMulhn (d a b : SReg) (g : PReg) (s : State) : Host.Outcome State Fault Refusal := s.alu2 d a b g mulHU

/-- DIV: s[d] := the signed quotient (06 R131). -/
def execDiv (d a b : SReg) (g : PReg) (s : State) : Host.Outcome State Fault Refusal := s.alu2 d a b g divS

/-- DIVN: s[d] := the unsigned quotient (06 R131). -/
def execDivn (d a b : SReg) (g : PReg) (s : State) : Host.Outcome State Fault Refusal := s.alu2 d a b g divU

/-- REM: s[d] := the signed remainder (06 R131). -/
def execRem (d a b : SReg) (g : PReg) (s : State) : Host.Outcome State Fault Refusal := s.alu2 d a b g remS

/-- REMN: s[d] := the unsigned remainder (06 R131). -/
def execRemn (d a b : SReg) (g : PReg) (s : State) : Host.Outcome State Fault Refusal := s.alu2 d a b g remU

/-- SEXT: s[d] := x[n:0] sign-extended (06 R131). -/
def execSext (d a b : SReg) (g : PReg) (s : State) : Host.Outcome State Fault Refusal := s.alu2 d a b g sextFrom

/-- ZEXT: s[d] := x[n:0] zero-extended (06 R131). -/
def execZext (d a b : SReg) (g : PReg) (s : State) : Host.Outcome State Fault Refusal := s.alu2 d a b g zextFrom

/-- CLZ: s[d] := leading zeros of s[a] (06 R131). -/
def execClz (d a : SReg) (g : PReg) (s : State) : Host.Outcome State Fault Refusal := s.alu1 d a g clz

/-- CTZ: s[d] := trailing zeros of s[a] (06 R131). -/
def execCtz (d a : SReg) (g : PReg) (s : State) : Host.Outcome State Fault Refusal := s.alu1 d a g ctz

/-- POPC: s[d] := 1 bits of s[a] (06 R131). -/
def execPopc (d a : SReg) (g : PReg) (s : State) : Host.Outcome State Fault Refusal := s.alu1 d a g popc

/-- BREV: s[d] := bits reversed of s[a] (06 R131). -/
def execBrev (d a : SReg) (g : PReg) (s : State) : Host.Outcome State Fault Refusal := s.alu1 d a g brev

/-- SEL: s[d] := p[N] ? s[a] : s[b]; it has no guard (06 R133). -/
def execSel (d a b : SReg) (p : PReg) (s : State) : Host.Outcome State Fault Refusal :=
  s.plain 0 (done (s.setS d (if s.getP p then s.getS a else s.getS b)))

/-- ADDI: s[d] := s[a] + i (06 R134). -/
def execAddi (d a : SReg) (i : BitVec 16) (s : State) : Host.Outcome State Fault Refusal := s.alu1 d a 0 (fun x => x + simm i)

/-- ANDI: s[d] := s[a] and z (06 R134). -/
def execAndi (d a : SReg) (i : BitVec 16) (s : State) : Host.Outcome State Fault Refusal := s.alu1 d a 0 (fun x => x &&& zimm i)

/-- ORI: s[d] := s[a] or z (06 R134). -/
def execOri (d a : SReg) (i : BitVec 16) (s : State) : Host.Outcome State Fault Refusal := s.alu1 d a 0 (fun x => x ||| zimm i)

/-- XORI: s[d] := s[a] xor z (06 R134). -/
def execXori (d a : SReg) (i : BitVec 16) (s : State) : Host.Outcome State Fault Refusal := s.alu1 d a 0 (fun x => x ^^^ zimm i)

/-- MULI: s[d] := s[a] x i (06 R134). -/
def execMuli (d a : SReg) (i : BitVec 16) (s : State) : Host.Outcome State Fault Refusal := s.alu1 d a 0 (fun x => x * simm i)

/-- SHFI.SHL: s[d] := s[a] shifted by the count, as SHL (06 R134). -/
def execShfiShl (d a : SReg) (c : BitVec 6) (s : State) : Host.Outcome State Fault Refusal := s.alu1 d a 0 (fun x => x <<< c.toNat)

/-- SHFI.SHR: s[d] := s[a] shifted by the count, as SHR (06 R134). -/
def execShfiShr (d a : SReg) (c : BitVec 6) (s : State) : Host.Outcome State Fault Refusal := s.alu1 d a 0 (fun x => x >>> c.toNat)

/-- SHFI.SRA: s[d] := s[a] shifted by the count, as SRA (06 R134). -/
def execShfiSra (d a : SReg) (c : BitVec 6) (s : State) : Host.Outcome State Fault Refusal := s.alu1 d a 0 (fun x => x.sshiftRight c.toNat)

/-- SHFI.ROR: s[d] := s[a] shifted by the count, as ROR (06 R134). -/
def execShfiRor (d a : SReg) (c : BitVec 6) (s : State) : Host.Outcome State Fault Refusal := s.alu1 d a 0 (fun x => x.rotateRight c.toNat)

/-- LI: s[d] := i (06 R134). -/
def execLi (d : SReg) (i : BitVec 16) (s : State) : Host.Outcome State Fault Refusal := s.plain 0 (done (s.setS d (simm i)))

/-- LIS: s[d] := (s[d] << 16) or z (06 R134). -/
def execLis (d : SReg) (i : BitVec 16) (s : State) : Host.Outcome State Fault Refusal := s.alu1 d d 0 (fun x => x <<< 16 ||| zimm i)

end Sys2Proof.Machine
end

