-- ==== Sys2Proof/Machine/Elem.lean ====
section
/-! DEFINITION. Element operations of VOP, FSC and chain slots (05 R125; 08 R230), and the packed products of the cells
(02 R41 to R44). -/

namespace Sys2Proof.Machine

/-- The element operations that give a lane of their own type (08 R230). -/
inductive EOp where
  | add | sub | mul | fma | fnma | min | max | abs | neg | rsqs | rcps | exp2s | log2s | relu | clamp | sel
  | cmpeq | cmplt | cmple | mov
  deriving DecidableEq, Repr

/-- The layout of a float lane type. -/
def laneSpec : LaneType → FSpec
  | .f32 | .i32 => spec32
  | .bf16 => ⟨8, 7, 127, .ieee, .h⟩
  | .f16 => ⟨5, 10, 15, .ieee, .h⟩

/-- The bits of a lane. -/
def laneWidth : LaneType → Nat
  | .f32 | .i32 => 32
  | .bf16 | .f16 => 16

/-- CLAMP of exact values to plus or minus |b| (04 R100). -/
def clampVal (a b : FVal) : FVal := FVal.min2 (FVal.max2 a b.abs.neg) b.abs

/-- RELU of an exact value (04 R99). -/
def reluVal (a : FVal) : FVal := FVal.max2 a (.fin false 0 0)

/-- All ones of a lane, or zero (08 R230). -/
def ones (w : Nat) (b : Bool) : Nat := if b then 2 ^ w - 1 else 0

/-- An operation on float lanes (08 R230). -/
def floatOp (fm : Word) (sp : FSpec) (op : EOp) (a b c : Nat) : Nat :=
  let x := fread fm sp a
  let y := fread fm sp b
  let z := fread fm sp c
  let rnd := rndOf fm
  let out := encodeVal fm sp false rnd
  let rdn := isRdn rnd
  let w := sp.eb + sp.mb + 1
  match op with
  | .add => out (x.add rdn y)
  | .sub => out (x.add rdn y.neg)
  | .mul => out (x.mul y)
  | .fma => out ((x.mul y).add rdn z)
  | .fnma => out (z.add rdn (x.mul y).neg)
  | .min => out (x.min2 y)
  | .max => out (x.max2 y)
  | .abs => out x.abs
  | .neg => out x.neg
  | .rsqs => seed fm .rsqs x
  | .rcps => seed fm .rcps x
  | .exp2s => seed fm .exp2s x
  | .log2s => seed fm .log2s x
  | .relu => out (reluVal x)
  | .clamp => out (clampVal x y)
  | .sel => if c % 2 ^ w ≠ 0 then a % 2 ^ w else b % 2 ^ w
  | .cmpeq => ones w (x.eq y)
  | .cmplt => ones w (x.lt y)
  | .cmple => ones w (x.lt y || x.eq y)
  | .mov => a % 2 ^ w

/-- |b|, with -2^31 giving 2^31 - 1 (04 R100). -/
def clampMag (b : Int) : Int := min b.natAbs (2 ^ 31 - 1)

/-- An operation on i32 lanes: modulo 2^32, raising nothing (08 R230). Operations the type does not have give a. -/
def intOp (op : EOp) (a b c : Nat) : Nat :=
  let x := sx a 32
  let y := sx b 32
  let z := sx c 32
  match op with
  | .add => keep 32 (x + y)
  | .sub => keep 32 (x - y)
  | .mul => keep 32 (x * y)
  | .fma => keep 32 (x * y + z)
  | .fnma => keep 32 (z - x * y)
  | .min => keep 32 (min x y)
  | .max => keep 32 (max x y)
  | .abs => keep 32 x.natAbs
  | .neg => keep 32 (-x)
  | .relu => keep 32 (max x 0)
  | .clamp => let m := clampMag y; keep 32 (min (max x (-m)) m)
  | .sel => if c % 2 ^ 32 ≠ 0 then a % 2 ^ 32 else b % 2 ^ 32
  | .cmpeq => ones 32 (x == y)
  | .cmplt => ones 32 (decide (x < y))
  | .cmple => ones 32 (decide (x ≤ y))
  | .rsqs | .rcps | .exp2s | .log2s | .mov => a % 2 ^ 32

/-- An element operation on one lane (08 R230). -/
def elemOp (fm : Word) (t : LaneType) (op : EOp) (a b c : Nat) : Nat :=
  match t with
  | .i32 => intOp op a b c
  | .f32 | .bf16 | .f16 => floatOp fm (laneSpec t) op a b c

/-- SACC of an element operation: rnd32(c + (a / 4) x b) (08 R230). -/
def saccElem (fm : Word) (a b c : Nat) : Nat :=
  let x := sx a 32
  let p : FVal := .fin (decide (x < 0)) x.natAbs (-2)
  rnd32 fm (FVal.add (isRdn (rndOf fm)) (fin32 fm c) (p.mul (fin32 fm b)))

/-! Packed products (02 R41 to R44, 04 R87 to R89, R95). -/

/-- An e3m5 block scale read through FTZI_Q4. -/
def scaleVal (fm : Word) (x : Nat) : FVal := fread fm ⟨3, 5, 3, .e3m5, .q4⟩ x

/-- The exact sum of products of two lists (02 R41): a zero sum is +0 unless every product is -0. -/
def dotVals : List FVal → List FVal → FVal
  | x :: xs, y :: ys =>
    match xs, ys with
    | [], _ | _, [] => x.mul y
    | _, _ => FVal.add false (x.mul y) (dotVals xs ys)
  | _, _ => .fin false 0 0

/-- Elements lo to lo + n - 1 of width w as values of a format. -/
def readElems (fm : Word) (f : Fmt) (x lo n : Nat) : List FVal :=
  (List.range n).map fun k => readElem fm f (elem x (fmtWidth f) (lo + k))

/-- The q of BDOT (04 R89): FMT 0 e2m1, 1 e4m3, 2 e5m2. -/
def bdotQ (fm : Word) (fmt a b : Nat) : Nat :=
  if fmt = 0 then
    pack 32 ((List.range 4).map fun k =>
      match dotVals (readElems fm .e2m1 a (8 * k) 8) (readElems fm .e2m1 b (8 * k) 8) with
      | .fin s m e => keep 32 (mantAt s m e (-2))
      | _ => 0)
  else
    let f : Fmt := if fmt = 1 then .e4m3 else .e5m2
    pack 64 ((List.range 2).map fun k =>
      encodeVal 0 spec64 false .rne (dotVals (readElems fm f a (8 * k) 8) (readElems fm f b (8 * k) 8)))

/-- One lane of SACC: acc plus the scaled partials, rounded once (02 R42). Partials as values. -/
def saccVals (fm : Word) (acc : Nat) (terms : List (FVal × FVal × FVal)) : Nat :=
  let rdn := isRdn (rndOf fm)
  rnd32 fm (FVal.sum rdn (fin32 fm acc) (terms.map fun t => (t.1.mul t.2.1).mul t.2.2))

/-- An i32 partial in units of 2^-2 (02 R41). -/
def part32 (x : Nat) : FVal := let v := sx x 32; .fin (decide (v < 0)) v.natAbs (-2)

/-- A binary64 partial (02 R41). -/
def part64 (x : Nat) : FVal := fdecode spec64 x

/-- The terms of a cell's SACC: layout 0 four i32 partials, layout 1 two binary64 (04 R95). -/
def saccTerms (fm : Word) (layout : Bool) (q qs : Nat) : List (FVal × FVal × FVal) :=
  (List.range (if layout then 2 else 4)).map fun b =>
    (if layout then part64 (elem q 64 b) else part32 (elem q 32 b), scaleVal fm (elem qs 8 b), scaleVal fm (elem qs 8 (4 + b)))

/-- FMAC16: a lane plus eight exact products, rounded once (02 R43). -/
def fmac16 (fm : Word) (f : Fmt) (acc a b : Nat) : Nat :=
  let rdn := isRdn (rndOf fm)
  rnd32 fm (FVal.sum rdn (fin32 fm acc) ((List.range 8).map fun k =>
    (readElem fm f (elem a 16 k)).mul (readElem fm f (elem b 16 k))))

/-- One lane of IMAC: the exact sum, and whether it left i32 (02 R44). -/
def imacLane (acc a b w lo n : Nat) (sa sb : Bool) : Nat × Bool :=
  let ev := fun (x : Nat) (s : Bool) (k : Nat) => (if s then sx (elem x w k) w else (elem x w k : Int))
  let t := (List.range n).foldl (fun t k => t + ev a sa (lo + k) * ev b sb (lo + k)) (sx acc 32)
  (keep 32 t, decide (t < -(2 ^ 31)) || decide (t > 2 ^ 31 - 1))

end Sys2Proof.Machine
end

