-- ==== Sys2Proof/Machine/CellOps.lean ====
section
/-! DEFINITION. The cell: its words, what CFG refuses in them, and the execution of one slot (03, 04). -/

namespace Sys2Proof.Machine

/-! ## Words (03 R54 to R66) -/

def slotA (x : Nat) : Nat := bits x 0 32
def slotB (x : Nat) : Nat := bits x 32 32
def slotSw (x : Nat) : Nat := bits x 64 16

def aOp (w : Nat) : Nat := bits w 26 6
def aFmt (w : Nat) : Nat := bits w 24 2
def aDst (w : Nat) : Nat := bits w 20 4
def aSa (w : Nat) : Nat := bits w 15 5
def aSb (w : Nat) : Nat := bits w 10 5
def aImm (w : Nat) : Nat := bits w 0 10

def bOp (w : Nat) : Nat := bits w 26 6
def bDst (w : Nat) : Nat := bits w 22 4
def bSa (w : Nat) : Nat := bits w 17 5
def bSb (w : Nat) : Nat := bits w 12 5
def bImm (w : Nat) : Nat := bits w 8 4
def bG (w : Nat) : Bool := bit w 7
def bHold (w : Nat) : Nat := bits w 4 3
def bMark (w : Nat) : Bool := bit w 3
def bLast (w : Nat) : Bool := bit w 2

def swMode (w : Nat) : Nat := bits w 13 3
/-- The select of an output, 0 N, 1 E, 2 S, 3 W. -/
def swSel (w d : Nat) : Nat := bits w (9 - 3 * d) 3

/-- The slot word the device writes into a cell outside every plot: straight pass-through (03 R456). -/
def passWord : Nat := 0x270A * 2 ^ 64
/-- The slot word of a defective or bypassed cell (03 R456). -/
def isolateWord : Nat := 0x4000 * 2 ^ 64

/-- The slot k of a cell; an unwritten slot 0 is the pass-through word the device writes at reset, any other is zero. -/
def Cell.slot (c : Cell) (k : Nat) : Nat := SMap.getD c.slots k (if k = 0 then passWord else 0)

/-! ## What a word may hold (03 R75, 04 R85, R94) -/

/-- An immediate field used only for code 29: zero unless one of the sources is 29. -/
def immOk (used : Bool) (imm : Nat) : Bool := used || imm == 0

/-- An A-word that R85 accepts; rd says that the word may use code 29 where the table allows it. -/
def aWordOk (w : Nat) : Bool :=
  let f := aFmt w; let d := aDst w; let a := aSa w; let b := aSb w; let i := aImm w
  let no29 := a != 29 && b != 29
  match aOp w with
  | 0 => w == 0
  | 1 => decide (d ≤ 11) && immOk (a == 29 || b == 29) i
  | 2 | 3 => d != 13 && immOk (a == 29 || b == 29) i
  | 4 => decide (f ≤ 1) && decide (d ≤ 11) && no29 && decide (i < 4)
  | 5 | 6 => decide (f ≤ 2) && decide (d ≤ 11) && no29 && i == 0
  | 7 => decide (f ≤ 2) && d == 12 && no29 && i == 0
  | 8 => f == 0 && d == 15 && no29 && (bit i 7 || a == 0)
  | 9 => f == 0 && d == 15 && no29 && decide (i < 256) && (bit i 7 || b == 0)
  | 10 => f == 0 && b == 0 && (if d = 13 then a != 29 && decide (i < 128) else immOk (a == 29) i)
  | _ => false

/-- The destinations 0-12, 14 and 15 of most B operations. -/
def bDstOk (d : Nat) : Bool := d != 13

/-- A B-word that R94 accepts. -/
def bWordOk (w : Nat) : Bool :=
  let d := bDst w; let a := bSa w; let b := bSb w; let i := bImm w
  let no29 := a != 29 && b != 29
  bits w 0 2 == 0 &&
  match bOp w with
  | 0 => d == 0 && a == 0 && b == 0 && i == 0
  | 1 => decide (8 ≤ d) && decide (d ≤ 11) && a == 0 && b == 0 && decide (i < 8)
  | 2 | 3 | 4 => bDstOk d && no29 && i == 0
  | 5 | 6 | 7 | 8 | 0xD | 0xE | 0xF | 0x10 | 0x11 => bDstOk d && immOk (a == 29 || b == 29) i
  | 9 | 0xA | 0x14 => bDstOk d && a != 29 && b == 0 && decide (i < 2)
  | 0xB => bDstOk d && no29 && decide (i < 2) && (i == 0 || (decide (16 ≤ a) && decide (a ≤ 19)) || a == 30)
  | 0xC => bDstOk d && no29 && decide (i < 8)
  | 0x12 => bDstOk d && no29 && decide (i ≤ 13) &&
      (i == 4 || i == 5 || i == 8 || i == 9 || i == 10 || i == 11 || b == 0)
  | 0x13 => bDstOk d && no29 && decide (i < 8)
  | 0x15 => bDstOk d && no29 && decide (i < 2)
  | 0x16 => (decide (d ≤ 7) || d == 14 || d == 15) && a == 0 && b == 0 && decide (i < 8)
  | 0x17 => d == 15 && a == 0 && b == 0 && decide (i ≤ 4)
  | 0x18 => d == 15 && a != 29 && b == 0 && decide (i < 4)
  | 0x19 => d == 15 && a == 0 && b == 0 && decide (1 ≤ i)
  | 0x1A => bDstOk d && no29 && decide (i < 2) && (i == 1 || b == 0)
  | 0x1B => bDstOk d && b == 0 && immOk (a == 29) i
  | 0x1C => bDstOk d && a != 29 && b == 0 && decide (i < 2)
  | _ => false

/-- Does an A-word read a source code? -/
def aReads (w code : Nat) : Bool :=
  match aOp w with
  | 0 => false
  | 8 => (bit (aImm w) 7 && aSa w == code) || aSb w == code
  | 9 => aSa w == code || (bit (aImm w) 7 && aSb w == code)
  | 10 => aSa w == code
  | _ => aSa w == code || aSb w == code

/-- Does a B-word read a source code? -/
def bReads (w code : Nat) : Bool :=
  match bOp w with
  | 0 | 1 | 0x16 | 0x17 | 0x19 => false
  | 9 | 0xA | 0x14 | 0x18 | 0x1B | 0x1C => bSa w == code
  | 0x1A => bSa w == code || (bImm w == 1 && bSb w == code)
  | 0x12 => bSa w == code || ((bImm w == 4 || bImm w == 5 || (decide (8 ≤ bImm w) && decide (bImm w ≤ 11))) && bSb w == code)
  | _ => bSa w == code || bSb w == code

/-- Does a slot read the edge lane (03 R67)? -/
def slotEdge (x : Nat) : Bool := aReads (slotA x) 30 || bReads (slotB x) 30

/-- A switch word that R64, R65, R93 accept for a cell of a plot. -/
def swOk (x : Nat) : Bool :=
  let w := slotSw x
  swMode w == 0 && !bit w 12 && (List.range 4).all fun d =>
    let n := swSel w d
    n != 7 && !(n == 5 && aOp (slotA x) == 0) && !(n == 6 && bOp (slotB x) == 0)

/-- A slot of a cell of a plot that R75 accepts, but for the conditions over several cells. -/
def slotOk (x : Nat) : Bool := aWordOk (slotA x) && bWordOk (slotB x) && swOk x

/-! ## Execution (04) -/

def lane4 (x l : Nat) : Nat := elem x 32 l
def setLane4 (x l v : Nat) : Nat := setBits x (32 * l) 32 v
/-- Four lanes, each a function of its number. -/
def map4 (f : Nat → Nat) : Nat := pack 32 [f 0, f 1, f 2, f 3]

/-- What a slot reads besides its cell: the link inputs N, E, S, W and the edge word. -/
structure CellIn where
  link : Vector LWord 4 := Vector.replicate 4 {}
  edge : LWord := {}
  deriving DecidableEq, Repr

/-- The physical register behind a c code (03 R52). -/
def creg (r : CellRegs) (n : Nat) : Fin 16 := Fin.ofNat 16 (n + r.rb)

/-- A source's word (03 R58); imm is the data code 29 delivers. -/
def srcWord (r : CellRegs) (io : CellIn) (imm code : Nat) : LWord :=
  if code < 16 then { data := r.c.get (creg r code) }
  else if code < 20 then
    let w := io.link.get (Fin.ofNat 4 (code - 16))
    if w.valid then w else {}
  else if code < 24 then { data := r.a.get (Fin.ofNat 4 (code - 20)) }
  else if code = 24 then { data := r.q }
  else if code < 29 then { data := r.w.get (Fin.ofNat 4 (code - 25)), side := r.ws.get (Fin.ofNat 4 (code - 25)) }
  else if code = 29 then { data := imm }
  else if code = 30 then io.edge
  else {}

/-- The 128 bits of a destination register as they stand (03 R59). -/
def dstData (r : CellRegs) (d : Nat) : Nat :=
  if d < 8 then r.c.get (creg r d)
  else if d < 12 then r.a.get (Fin.ofNat 4 (d - 8))
  else if d = 12 then r.q
  else 0

/-- Write a destination register, mapping c codes by the rotation base of old (03 R52, R59). -/
def putDst (old r : CellRegs) (d v : Nat) : CellRegs :=
  if d < 8 then { r with c := r.c.set (creg old d) v }
  else if d < 12 then { r with a := r.a.set (Fin.ofNat 4 (d - 8)) v }
  else if d = 12 then { r with q := v }
  else r

/-- PAMAX after updates (04 R84). -/
def notePamax (r : CellRegs) (vs : List FVal) : CellRegs :=
  let (m, n) := vs.foldl (fun (a : Nat × Bool) v => amaxUpdate a.1 a.2 v) (r.pmag, r.pnseen)
  { r with pmag := m, pnseen := n }

/-- A result offered to the switch word (04 R80): data, side word, and its guard tag. -/
structure CellRes where
  data : Nat := 0
  side : Nat := 0
  valid : Bool := false
  guard : Bool := true
  deriving DecidableEq, Repr

/-- The A side: registers, weight store and result after the A-word, reading old throughout (04 R86 to R93). -/
def execA (fm : Word) (w : Nat) (old : CellRegs) (store : SMap Nat) (io : CellIn) : CellRegs × SMap Nat × CellRes :=
  let i := aImm w
  let d := aDst w
  let immF := i * 2 ^ 22
  let imm := if aOp w = 10 then keep 32 (sx i 10) else immF
  let sa := srcWord old io (map4 fun _ => imm) (aSa w)
  let sb := srcWord old io (map4 fun _ => imm) (aSb w)
  let res := fun (x : Nat) => ({ data := x, valid := d != 15 } : CellRes)
  match aOp w with
  | 1 | 2 | 3 =>
    let l := aFmt w
    let rdn := isRdn (rndOf fm)
    let a := fin32 fm (lane4 sa.data l)
    let b := fin32 fm (lane4 sb.data l)
    let r :=
      if aOp w = 1 then rnd32 fm (FVal.add rdn (fin32 fm (lane4 (dstData old d) l)) (a.mul b))
      else if aOp w = 2 then rnd32 fm (a.mul b)
      else rnd32 fm (FVal.add rdn a b)
    (putDst old old d (setLane4 (dstData old d) l r), store, res (r * 2 ^ (32 * l)))
  | 4 =>
    let l := i % 4
    let r := fmac16 fm (if aFmt w = 0 then .bf16 else .f16) (lane4 (dstData old d) l) sa.data sb.data
    (putDst old old d (setLane4 (dstData old d) l r), store, res (r * 2 ^ (32 * l)))
  | 5 | 6 =>
    let (wd, n) := if aOp w = 5 then (8, 4) else (4, 8)
    let f := aFmt w
    let ls := (List.range 4).map fun l =>
      imacLane (lane4 (dstData old d) l) sa.data sb.data wd (n * l) n (f != 1) (f == 0)
    let v := pack 32 (ls.map (·.1))
    let r := putDst old old d v
    ({ r with ovf := r.ovf || ls.any (·.2) }, store, res v)
  | 7 =>
    let q := bdotQ fm (aFmt w) sa.data sb.data
    ({ old with q := q, qs := sa.side % 2 ^ 32 + sb.side % 2 ^ 32 * 2 ^ 32 }, store, res q)
  | 8 =>
    let row := if bit i 7 then (i % 128 + lane4 sa.data 0 % 128) % 128 else i % 128
    let k : Fin 4 := Fin.ofNat 4 (bits i 8 2)
    ({ old with w := old.w.set k (SMap.getD store row 0), ws := old.ws.set k sb.side }, store, {})
  | 9 =>
    let row := if bit i 7 then (i % 128 + lane4 sb.data 0 % 128) % 128 else i % 128
    (old, SMap.set store row sa.data, {})
  | 10 =>
    let st := if d = 13 then SMap.set store (i % 128) sa.data else store
    (putDst old old d sa.data, st, { data := sa.data, side := sa.side, valid := d != 15 })
  | _ => (old, store, {})

/-- The f32 lanes of B operations: a function of the two read values, encoded with FTZO (04 R96). -/
def lanesF (fm : Word) (f : FVal → FVal → FVal) (a b : Nat) : Nat :=
  map4 fun l => encodeVal fm spec32 false (rndOf fm) (f (fin32 fm (lane4 a l)) (fin32 fm (lane4 b l)))

/-- Exact i32 lanes kept modulo 2^32, and whether one left the range (04 R97). -/
def lanesI (f : Int → Int → Int) (a b : Nat) : Nat × Bool :=
  let l := (List.range 4).map fun k => f (sx (lane4 a k) 32) (sx (lane4 b k) 32)
  (pack 32 (l.map (keep 32)), l.any fun t => decide (t < -(2 ^ 31)) || decide (t > 2 ^ 31 - 1))

/-- The condition of CMPG on one lane (04 R101). -/
def cmpgLane (fm : Word) (c a b : Nat) : Bool :=
  let x := fin32 fm a
  let y := fin32 fm b
  match c with
  | 0 => x.eq y
  | 1 => x.lt y
  | 2 => x.lt y || x.eq y
  | 3 => a == b
  | 4 => decide (sx a 32 < sx b 32)
  | 5 => decide (sx a 32 ≤ sx b 32)
  | 6 => decide (a < b)
  | _ => decide (a ≤ b)

/-- The formats of a CVT code (04 R104): destination, source, result width, number of source elements. -/
def cvtCode : Nat → Fmt × Fmt × Nat × Nat
  | 0 => (.i32, .f32, 32, 4)
  | 1 => (.f32, .i32, 32, 4)
  | 2 => (.n32, .f32, 32, 4)
  | 3 => (.f32, .n32, 32, 4)
  | 4 => (.bf16, .f32, 16, 8)
  | 5 => (.f16, .f32, 16, 8)
  | 6 => (.f32, .bf16, 32, 4)
  | 7 => (.f32, .f16, 32, 4)
  | 8 => (.e4m3, .f32, 8, 8)
  | 9 => (.e5m2, .f32, 8, 8)
  | 10 => (.i8, .i32, 8, 8)
  | 11 => (.n8, .i32, 8, 8)
  | 12 => (.i32, .i8, 32, 4)
  | _ => (.i32, .n8, 32, 4)

/-- The formats of an RQNT code (04 R105): destination, and whether the lanes are i32. -/
def rqntCode : Nat → Fmt × Bool
  | 0 => (.i8, true)
  | 1 => (.n8, true)
  | 2 => (.i4, true)
  | 3 => (.i8, false)
  | 4 => (.e4m3, false)
  | 5 => (.e5m2, false)
  | 6 => (.e2m1, false)
  | _ => (.bf16, false)

/-- Convert a list of elements in order, drawing as they need (02 R38). -/
def convList (fm g : Word) (f : Word → Nat → Nat × Word) : List Nat → List Nat × Word
  | [] => ([], g)
  | x :: t =>
    let (y, g') := f g x
    let (l, g'') := convList fm g' f t
    (y :: l, g'')

/-- Convert a list of exact values in order. -/
def convVals (fm g : Word) (dst : Fmt) : List FVal → List Nat × Word
  | [] => ([], g)
  | v :: t =>
    let (y, g') := conv fm g dst v
    let (l, g'') := convVals fm g' dst t
    (y :: l, g'')

/-- FMODE as a conversion under a zero guard token uses it: RNE (04 R81). -/
def rneMode (fm : Word) : Word := fm &&& ~~~7#64

/-- A B operation's own effect on registers and its result, before the guard is applied: registers reading old and
writing onto r (04 R95 to R108). tok is the guard token of 03 R62, true when the slot is not guarded. -/
def execB (fm : Word) (w : Nat) (old r : CellRegs) (io : CellIn) (tok : Bool) : CellRegs × CellRes :=
  let i := bImm w
  let d := bDst w
  let imm := map4 fun _ => keep 32 (sx i 4)
  let sa := srcWord old io imm (bSa w)
  let sb := srcWord old io imm (bSb w)
  let a := sa.data
  let b := sb.data
  let res := fun (x : Nat) => ({ data := x, valid := d != 15 } : CellRes)
  let put := fun (x : Nat) => (putDst old r d x, res x)
  let cfm := if tok then fm else rneMode fm
  match bOp w with
  | 1 =>
    let l := i % 4
    let v := saccVals fm (lane4 (dstData old d) l) (saccTerms fm (bit i 2) old.q old.qs)
    (putDst old r d (setLane4 (dstData old d) l v), res (v * 2 ^ (32 * l)))
  | 2 => put (lanesF fm (FVal.add (isRdn (rndOf fm))) a b)
  | 3 => put (lanesF fm FVal.min2 a b)
  | 4 => put (lanesF fm FVal.max2 a b)
  | 5 => let (v, o) := lanesI (· + ·) a b; ({ putDst old r d v with ovf := r.ovf || o }, res v)
  | 6 => let (v, o) := lanesI (· - ·) a b; ({ putDst old r d v with ovf := r.ovf || o }, res v)
  | 7 => put (lanesI min a b).1
  | 8 => put (lanesI max a b).1
  | 9 =>
    if i = 0 then put (lanesF fm (fun x _ => x.abs) a 0)
    else let (v, o) := lanesI (fun x _ => x.natAbs) a 0; ({ putDst old r d v with ovf := r.ovf || o }, res v)
  | 0xA =>
    if i = 0 then put (lanesF fm (fun x _ => x.neg) a 0)
    else let (v, o) := lanesI (fun x _ => -x) a 0; ({ putDst old r d v with ovf := r.ovf || o }, res v)
  | 0xB =>
    let s := if i = 0 then old.gf else sa.guard
    let x := if s then sa else sb
    (putDst old r d x.data, { data := x.data, side := x.side, valid := d != 15 })
  | 0xC =>
    let v := map4 fun l => ones 32 (cmpgLane fm i (lane4 a l) (lane4 b l))
    ({ putDst old r d v with gf := cmpgLane fm i (lane4 a 0) (lane4 b 0) }, res v)
  | 0xD => put (a &&& b)
  | 0xE => put (a ||| b)
  | 0xF => put (a ^^^ b)
  | 0x10 => put (map4 fun l => lane4 a l * 2 ^ (lane4 b l % 32))
  | 0x11 => put (map4 fun l => lane4 a l / 2 ^ (lane4 b l % 32))
  | 0x12 =>
    let (dst, src, rw, n) := cvtCode i
    let sw := fmtWidth src
    let es := if n = 8 then unpack a 32 4 ++ unpack b 32 4
      else if sw = 32 then unpack a 32 4 else unpack a sw 4
    let (cs, g) := convList cfm old.g (fun g x => convElem cfm g dst src x) es
    let r := notePamax { r with g := g } (es.map (readElem fm src))
    let v := pack rw cs
    (putDst old r d v, res v)
  | 0x13 =>
    let (dst, int) := rqntCode i
    let vs := (List.range 4).map fun l =>
      (if int then ofInt (sx (lane4 a l) 32) else fin32 fm (lane4 a l)).mul (fin32 fm (lane4 b l))
    let (cs, g) := convVals cfm old.g dst vs
    let v := pack (fmtWidth dst) cs
    (putDst old (notePamax { r with g := g } vs) d v, res v)
  | 0x14 => if i = 0 then put (lanesF fm (fun x _ => reluVal x) a 0) else put (lanesI (fun x _ => max x 0) a 0).1
  | 0x15 =>
    if i = 0 then put (lanesF fm clampVal a b)
    else put (lanesI (fun x y => let m := clampMag y; min (max x (-m)) m) a b).1
  | 0x16 =>
    let k : Fin 4 := Fin.ofNat 4 i
    let v := old.a.get k
    let r := if bit i 2 then { r with a := r.a.set k 0 } else r
    (putDst old r d v, res v)
  | 0x17 =>
    (if bit i 2 then { r with a := Vector.replicate 4 0 } else { r with a := r.a.set (Fin.ofNat 4 i) 0 }, {})
  | 0x18 => ({ r with a := r.a.set (Fin.ofNat 4 i) a }, {})
  | 0x19 => ({ r with rb := (old.rb + i) % 16 }, {})
  | 0x1A =>
    let f := if i = 0 then old.gf else lane4 b 0 != 0
    (putDst old r d a, { data := a, side := if f then 1 else 0, valid := d != 15, guard := f })
  | 0x1B => (putDst old r d a, { data := a, side := sa.side, valid := d != 15 })
  | 0x1C =>
    let vs := if i = 0 then (unpack a 32 4).map (fin32 fm) else (unpack a 16 8).map (readElem fm .bf16)
    (putDst old (notePamax r vs) d a, { data := a, side := sa.side, valid := d != 15 })
  | _ => (r, {})

/-- What an executed slot leaves: registers, weight store, output links N, E, S, W (03 R61, R62, R66; 04 R81, R82). -/
def execSlot (fm : Word) (x : Nat) (old : CellRegs) (store : SMap Nat) (io : CellIn) :
    CellRegs × SMap Nat × Vector LWord 4 :=
  let bw := slotB x
  let sa := srcWord old io 0 (bSa bw)
  let tok := if bG bw then
      (if (16 ≤ bSa bw ∧ bSa bw ≤ 19) ∨ bSa bw = 30 then sa.guard else old.gf)
    else true
  let (r1, st1, ra) := execA fm (slotA x) old store io
  let (r2, rb) := execB fm bw old r1 io tok
  -- a BDOT's qs stands, and a zero token leaves the B-word without effect on the cell
  let r := if tok then { r2 with qs := r1.qs } else r1
  let mark := bMark bw
  let last := bLast bw
  let out := fun (d : Nat) =>
    let n := swSel (slotSw x) d
    if n = 0 then ({} : LWord)
    else if n ≤ 4 then
      let w := io.link.get (Fin.ofNat 4 (n - 1))
      if w.valid then w else {}
    else if n = 5 then { data := ra.data, side := ra.side, valid := ra.valid, guard := true, mark, last }
    else { data := rb.data, side := rb.side, valid := rb.valid, guard := rb.guard && tok, mark, last }
  (r, st1, Vector.ofFn fun d => out d.val)

end Sys2Proof.Machine
end

