-- ==== Sys2Proof/Machine/Walk.lean ====
section
/-! DEFINITION. Address translation: the page walk, its end, and the invalidation of cached translations (18 R371 to
R375). -/

namespace Sys2Proof.Machine

/-- A walk step: the entry's fault, a wait of its read, its next table, or its leaf (18 R372, R373). -/
inductive WalkStep where
  | fail (cause : Nat)
  | wait (w : Wait)
  | next (table : Nat)
  | leaf (e : TlbEntry)
  deriving DecidableEq, Repr

/-- The waiter of a cluster's translation unit. -/
def walkWaiter (cl : Nat) : Nat := 33280 + cl

/-- The lowest index bit of a level, which is the bits of its leaf's page (18 R372). -/
def levelShift : Nat → Nat
  | 0 => 39
  | 1 => 30
  | 2 => 21
  | _ => 16

/-- The size of a level's table in bytes (18 R372). -/
def tableBytes (level : Nat) : Nat := if level = 3 then 256 else 4096

/-- What an entry of a level holds (18 R372, R373). -/
def State.walkEntry (s : State) (ctx va level e : Nat) : WalkStep :=
  let sh := levelShift level
  let isLeaf := bit e 1
  let pa := bits e 8 33 * 256
  if !bit e 0 then .fail cXlate
  else if bits e 41 23 ≠ 0 ∨ bits e 5 3 ≠ 0 then .fail cXlate
  else if isLeaf && decide (level = 0) then .fail cXlate
  else if !isLeaf && decide (level = 3) then .fail cXlate
  else if isLeaf then
    if pa % 2 ^ sh ≠ 0 ∨ !s.isBacked pa (2 ^ sh) then .fail cXlate
    else .leaf ⟨ctx, va / 2 ^ sh * 2 ^ sh, 2 ^ sh, pa, bit e 2, bit e 3, bit e 4⟩
  else if pa % tableBytes (level + 1) ≠ 0 then .fail cXlate
  else .next pa

/-- Read the entry of a level for an address with a plain load of cluster cl at its home, and judge it (18 R372, R373). -/
def State.walkStep (s : State) (cl ctx va level table : Nat) : State × WalkStep :=
  let a := table + 8 * bits va (levelShift level) (if level = 3 then 5 else 9)
  if !s.isBacked a 8 then (s, .fail cXlate)
  else if s.poisoned a 8 then (s, .fail cEcc)
  else
    match (do s.crossing cl (a / 2 ^ 32); s.lineReady 0 a (walkWaiter cl) : Acc Unit) with
    | .error (.wait w) => (s, .wait w)
    | .error (.held t w) => (t, .wait w)
    | .error (.fault c _) => (s, .fail c)
    | .ok _ => (s.touchAs 0 a (walkWaiter cl) false, s.walkEntry ctx va level (s.readN a 8))

/-- The walk from a level on, n levels at most (18 R372). -/
def State.walkFrom (s : State) (cl ctx va : Nat) : Nat → Nat → Nat → State × WalkStep
  | 0, _, _ => (s, .fail cXlate)
  | n + 1, level, table =>
    match s.walkStep cl ctx va level table with
    | (s, .next t) => s.walkFrom cl ctx va n (level + 1) t
    | r => r

/-- The whole walk of an address under a context by cluster cl (18 R372). -/
def State.walk (s : State) (cl ctx va : Nat) : State × WalkStep := s.walkFrom cl ctx va 4 0 (s.ctx ctx).xroot.toNat

/-- An engine of a headgate stops with a cause at an address (14 R327). -/
def Hg.stopEngine (h : Hg) (eng cause : Nat) (a : Word) : Hg :=
  match eng with
  | 1 => { h with node0 := { h.node0 with cause, faddr := a } }
  | 2 => { h with node1 := { h.node1 with cause, faddr := a } }
  | 3 => { h with dec := { h.dec with cause, faddr := a, parked := true } }
  | 4 => { h with chain := { h.chain with cause, faddr := a } }
  | 10 => { h with feed := { h.feed with cause, faddr := a } }
  | 12 => { h with cfg := { h.cfg with cause := if h.cfg.cause = 0 then cause else h.cfg.cause, failed := true } }
  | 13 => { h with splice := h.splice.map fun x => { x with staged := true, cause } }
  | _ => h

/-- Is an address where a waiting launch of the active context of a partition has its NOTIFY store (17 R351)? -/
def State.notifyAt (s : State) (p va : Nat) : Bool :=
  s.launches.any fun e =>
    e.2.owner == (s.part p).active && (e.2.state == 2 || e.2.state == 3) && e.2.notify != 0 && bits e.2.notify.toNat 0 48 == va

/-- The node at which the walker of a partition stands. -/
def Walker.node : Walker → Nat
  | .idle => 0
  | .at_ _ n | .loading _ n _ | .holding _ n _ _ => n

/-- The walk of an access of a partition's walker has failed (17 R351, R354): the dispatcher learns it of a NOTIFY store, and any other
read is a fault at the walker, whose record names the node. -/
def State.walkerFailed (s : State) (p cause va : Nat) : State :=
  if s.notifyAt p va then s.modPart p fun q => { q with walkFault := some (cause, va) }
  else s.record p ((s.part p).cores.headD 0) 7 0 cause 0xFFFF 0 [(s.part p).walker.node, va]

/-- A waiter learns that its walk failed: an instruction traps precisely, an engine stops without a record of its own, the graph
walker and the decoder are told (11 R280; 17 R354; 18 R374; 14 R335). -/
def State.walkFailed (s : State) (cause : Nat) (j : Joined) : State :=
  let k := seqOf j.waiter
  match engOf j.waiter with
  | 0 => if (s.hg k).stopped then s else s.trapAt k cause (s.hg k).pc (s.hg k).pc 0 j.d
  | 7 =>
    match s.partOfHg k with
    | some p => s.walkerFailed p cause j.va
    | none => s
  | 3 => s.modHg k fun h => { h with dec := { h.dec with walkFail := some (cause, j.va) } }
  | e => s.modHg k fun h => { h.stopEngine e cause (BitVec.ofNat 64 j.va) with engWt := SMap.set h.engWt e s.wt }

/-- Cache a leaf; the oldest entry makes room when all 4,096 are taken (18 R374). -/
def Cluster.cacheLeaf (c : Cluster) (e : TlbEntry) : Cluster :=
  let l := c.tlb.filter fun x => !(x.ctx == e.ctx && x.va == e.va)
  { c with tlb := (if l.length < 4096 then l else l.drop 1) ++ [e] }

/-- The walk at position i of a cluster's translation unit finishes (18 R373, R374). A failed walk writes one record of
UNIT 8 at the core whose access began it: D0 the virtual address, D1 the context, D2 how many accesses joined it. -/
def State.walkDone (s : State) (cl i : Nat) : State :=
  match (s.cluster cl).walks[i]? with
  | none => s
  | some w =>
    let drop := fun (t : State) => t.modCluster cl fun c => { c with walks := c.walks.eraseIdx i }
    match s.walk cl w.ctx w.va with
    | (t, .wait x) => t.startWait (walkWaiter cl) x
    | (t, .next _) => t
    | (t, .leaf e) => (drop t).modCluster cl fun c => c.cacheLeaf e
    | (t, .fail cause) =>
      let s := drop t
      let first := coreOf (seqOf ((w.joined.map (·.waiter)).headD 0))
      let s := match s.partOf first with
        | some p =>
          (s.record p first 8 0 cause 0xFFFF 0 [w.va, w.ctx, w.joined.length - 1]).haltLine p
        | none => s
      w.joined.foldl (fun s j => s.walkFailed cause j) s

/-- TRANSLATION_WALK_DONE: inp.unit is the cluster, inp.idx the position of the walk among those in flight (18 R373). -/
def execTranslationWalkDone (s : State) : Host.Outcome State Fault Refusal := .next (s.walkDone s.inp.unit s.inp.idx)

/-- Does an entry match an XINV value (18 R375)? -/
def xinvMatch (v : Word) (e : TlbEntry) : Bool :=
  let ctx := bits v.toNat 48 10
  let va := bits v.toNat 16 32 * 65536
  match bits v.toNat 62 2 with
  | 1 => e.ctx == ctx
  | 2 => e.ctx == ctx && decide (e.va ≤ va) && decide (va < e.va + e.size)
  | 3 => true
  | _ => false

/-- Every cached translation that an XINV value names is dropped (18 R375). -/
def State.dropEntries (s : State) (v : Word) : State :=
  { s with clusters := s.clusters.map fun c => (c.1, { c.2 with tlb := c.2.tlb.filter fun e => !xinvMatch v e }) }

/-- A write to XINV (18 R375): dropped with LOST while BUSY, ignored with OP 0. -/
def State.xinvWrite (s : State) (v : Word) : State :=
  if s.mod.xinvBusy then s.modMod fun m => { m with xinvLost := true }
  else if bits v.toNat 62 2 = 0 then s
  else (s.dropEntries v).modMod fun m => { m with xinvBusy := true, xinv := v }

/-- The end of an invalidation (18 R375): entries that walks cached since the write are dropped again, and what the
old mappings stored performs at its homes. -/
def State.xinvEnd (s : State) : State :=
  if s.mod.xinvBusy then
    let w := walkWaiter 512
    let cs := s.cores.map (·.1)
    match s.flushReady w cs with
    | .error x => s.stall w x
    | .ok _ => (cs.foldl (fun s c => s.writeBackAll w c) (s.dropEntries s.mod.xinv)).modMod fun m => { m with xinvBusy := false }
  else s

/-- XINV_COMPLETE (18 R375). -/
def execXinvComplete (s : State) : Host.Outcome State Fault Refusal := .next s.xinvEnd

end Sys2Proof.Machine
end

