-- ==== Sys2Proof/Machine/Caps.lean ====
section
/-! DEFINITION. The agents of the management space and what they may reach (26 R447, R448). -/

namespace Sys2Proof.Machine

/-- The agents of the management space (26 R447). -/
inductive Agent where
  | portA | portB | rmc | sysHg | i3c | test | root
  deriving DecidableEq, Repr

/-- The bit of an agent in a capability entry's AGENTS; the root monitor has none. -/
def Agent.bit : Agent → Nat
  | .portA => 0
  | .portB => 1
  | .rmc => 2
  | .sysHg => 3
  | .i3c => 4
  | .test => 5
  | .root => 6

/-- The agent an event names by its number; 6 and above the root monitor. -/
def Agent.ofCode : Nat → Agent
  | 0 => .portA
  | 1 => .portB
  | 2 => .rmc
  | 3 => .sysHg
  | 4 => .i3c
  | 5 => .test
  | _ => .root

/-- The agent of a sequencer. -/
def agentOf (k : Nat) : Agent := if isRmc (seqOf k) then .rmc else .sysHg

/-- The owner code of a semaphore's reader (17 R356): port A, port B, system code; none for any other agent. -/
def Agent.semOwner : Agent → Option Nat
  | .portA => some 1
  | .portB => some 2
  | .sysHg | .rmc => some 3
  | .i3c | .test | .root => none

/-! Fields of a management pointer (18 R363; 26 R446). -/

def mRegion (p : Nat) : Nat := bits p 56 4
def mGen (p : Nat) : Nat := bits p 48 8
def mBlock (p : Nat) : Nat := bits p 40 8
def mIndex (p : Nat) : Nat := bits p 28 12
def mOff (p : Nat) : Nat := bits p 0 12

/-- The lowest and highest bits [59:0] of a pointer of region 6, block 0x04. -/
def capBlock (p : Nat) : Bool := mRegion p == 6 && mBlock p == 4

/-- Does an entry's range name block 0x04 of region 6? Such an entry is ignored (26 R447). -/
def namesCapBlock (lo hi : Nat) : Bool :=
  let b := 6 * 2 ^ 56 + 4 * 2 ^ 40
  decide (lo < b + 2 ^ 40) && decide (b ≤ hi)

/-- Does a capability entry allow an agent a load, a store, at pointer bits [59:0] (26 R447)? -/
def entryAllows (e : Nat) (a : Agent) (rd wr : Bool) (x : Nat) : Bool :=
  let lo := bits e 64 60
  let hi := bits e 128 60
  bit e 63 && (!rd || bit e 62) && (!wr || bit e 61) && bit e a.bit && decide (lo ≤ x) && decide (x ≤ hi)
    && !namesCapBlock lo hi

/-- Does region 6 let only the root monitor write a pointer's register (26 R447)? -/
def rootOnly (a : Agent) (x : Nat) : Bool :=
  mRegion x == 6 && (mBlock x == 1 || mBlock x == 4 || (mBlock x == 3 && a == .rmc))

/-- Is an access of an agent allowed (26 R447)? The root monitor is never checked. -/
def State.allowed (s : State) (a : Agent) (rd wr : Bool) (ptr : Nat) : Bool :=
  let x := ptr % 2 ^ 60
  a == .root || (!(wr && rootOnly a x) && s.mod.caps.any fun e => entryAllows e.2 a rd wr x)

/-- Is the context-memory map's bit of a physical address set (26 R448)? -/
def State.mapped (s : State) (pa : Nat) : Bool := s.mod.cmap.contains (pa / 2 ^ 21)

end Sys2Proof.Machine
end

