-- ==== Sys2Proof/Machine/RegPart.lean ====
section
/-! DEFINITION. Partition registers and commands, and trap rings (18 R364, R366 to R368, R385, R387, R460). -/

namespace Sys2Proof.Machine

/-- PLACEGEN advances (18 R364). -/
def State.advancePlace (s : State) : State := s.modMod fun m => { m with placegen := (m.placegen + 1) % 2 ^ 32 }

/-! ## Rectangles and the enable (18 R366) -/

def rectX0 (r : Word) : Nat := bits r.toNat 0 6
def rectY0 (r : Word) : Nat := bits r.toNat 6 6
def rectX1 (r : Word) : Nat := bits r.toNat 12 6
def rectY1 (r : Word) : Nat := bits r.toNat 18 6

/-- The numbers lo to hi. -/
def span (lo hi : Nat) : List Nat := (List.range (hi + 1 - lo)).map (lo + ·)

/-- The cores of a rectangle, row by row from south to north, each from west to east. -/
def rectCores (r : Word) : List Nat :=
  (span (rectY0 r) (rectY1 r)).flatMap fun y => (span (rectX0 r) (rectX1 r)).map fun x => coreAt x y

/-- A rectangle with at least one core. -/
def rectOk (r : Word) : Bool := decide (rectX0 r ≤ rectX1 r) && decide (rectY0 r ≤ rectY1 r)

/-- Do two rectangles share a core? -/
def rectMeet (a b : Word) : Bool :=
  decide (rectX0 a ≤ rectX1 b) && decide (rectX0 b ≤ rectX1 a) && decide (rectY0 a ≤ rectY1 b) && decide (rectY0 b ≤ rectY1 a)

/-- Does a rectangle cover a core? -/
def rectHas (r : Word) (c : Nat) : Bool :=
  decide (rectX0 r ≤ coreX c) && decide (coreX c ≤ rectX1 r) && decide (rectY0 r ≤ coreY c) && decide (coreY c ≤ rectY1 r)

/-- Does a rectangle meet one that follows it? -/
def anyMeet : List Word → Bool
  | [] => false
  | r :: t => t.any (rectMeet r) || anyMeet t

/-- The rectangles of a partition. -/
def Part.rectList (q : Part) : List Word := q.rects.toList.take (q.nrect + 1)

/-- The live cores of rectangles in logical order (18 R366). -/
def State.coresOfRects (s : State) (l : List Word) : List Nat := (l.flatMap rectCores).filter s.live

/-- Is the wafer scratchpad that a partition's next enable carves no larger than 4 GiB (01 R20)? -/
def State.carveOk (s : State) (p : Nat) : Bool :=
  let q := s.part p
  let cores := s.coresOfRects q.rectList
  let clusters := (dedup (cores.map clusterOf)).filter fun cl => (s.liveOf cl).all cores.contains
  decide (clusters.length * q.ways * 2 ^ 20 ≤ 2 ^ 32)

/-- Does a write to a register of a partition enable it with a carve above 4 GiB (01 R20; log 55)? -/
def State.carveRefused (s : State) (p off : Nat) (v : Word) : Bool :=
  decide (off = 0) && !(s.part p).en && bit v.toNat 0
    && !(s.modPart p fun q => { q with nrect := bits v.toNat 1 3 }).carveOk p

/-- May a partition be enabled (18 R366; 25 R441; 01 R20)? -/
def State.enableOk (s : State) (p : Nat) : Bool :=
  let q := s.part p
  let l := q.rectList
  let cores := s.coresOfRects l
  l.all rectOk && !anyMeet l
    && (s.parts.all fun e => !(e.2.en && e.1 != p && e.2.cores.any fun c => l.any fun r => rectHas r c))
    && decide (cores.length ≤ 4032)
    && (s.mod.defects.testing.all fun c => !(l.any fun r => rectHas r c))
    && s.carveOk p

/-- Enable a partition, or set ERR (18 R366): the lines of the ways that it carves leave its clusters' L2 (01 R20). -/
def State.enable (s : State) (p : Nat) : State :=
  if s.enableOk p then
    let s := s.modPart p fun q => { q with en := true, cores := s.coresOfRects q.rectList, waysNow := q.ways }
    ((s.lclusters p).foldl (fun s cl => s.l2Leave cl fun w => decide (w < (s.part p).waysNow)) s).advancePlace
  else s.modPart p fun q => { q with err := true }

/-- A write to PCTL (18 R366). -/
def State.pctlWrite (s : State) (p : Nat) (v : Word) : State :=
  let q := s.part p
  if q.en then
    if bit v.toNat 0 || q.av || q.sv then s
    else (s.modPart p fun q => { q with en := false, cores := [] }).advancePlace
  else
    let s := s.modPart p fun q => { q with nrect := bits v.toNat 1 3 }
    if bit v.toNat 0 then s.enable p else s

/-! ## Trap rings (18 R385, R387, R460) -/

/-- The order in which pending records are written: into the ring ascending (Y, X, UNIT), then SEQ (18 R385, R386); into a core's FIFO by
SEQ (R387). -/
def TrapRec.key (compat : Bool) (r : TrapRec) : Nat := ((r.y * 64 + r.x) * 16 + if compat then 0 else r.unit) * 2 ^ 32 + r.seq

/-- Insert a record behind those that do not come after it. -/
def insertRec (compat : Bool) (r : TrapRec) : List TrapRec → List TrapRec
  | [] => [r]
  | x :: t => if r.key compat < x.key compat then r :: x :: t else x :: insertRec compat r t

/-- Write the records that were pending, with REPEAT = 1, as far as there is room (18 R385). -/
def State.flushPending (s : State) (p : Nat) : State :=
  let l := ((s.part p).pending.foldl (fun l r => insertRec (s.part p).compat r l) []).map fun r => { r with repeat_ := true }
  let ovf := (s.part p).ovf
  (l.foldl (fun s r => s.putRecord p r) (s.modPart p fun q => { q with pending := [] })).modPart p fun q => { q with ovf }

/-- A region-5 pointer to a 64-byte-aligned area of n bytes in backed DRAM, or 0 (18 R460). -/
def State.areaOk (s : State) (v : Word) (n : Nat) : Bool :=
  v == 0 || (v.toNat / 2 ^ 56 == 0xF5 && bits v.toNat 41 15 == 0 && v.toNat % 64 == 0 && s.isBacked (region5 v) n)

/-- A write to PRINGBASE (18 R367, R460). -/
def State.pringbaseWrite (s : State) (p : Nat) (v : Word) : State :=
  if s.areaOk v (64 * 2 ^ (s.part p).logsize) then
    (s.modPart p fun q => { q with ringbase := v, wr := 0, rd := 0, ovf := false }).flushPending p
  else s

/-- A write to PSTOPBASE (18 R460). -/
def State.pstopbaseWrite (s : State) (p : Nat) (v : Word) : State :=
  if s.areaOk v (32768 + 1024 * 4032) then s.modPart p fun q => { q with stopbase := v } else s

/-- A write to PRINGCTL (18 R367, R460): OVF cleared by 1, COMPAT, and LOGSIZE with a new ring. -/
def State.pringctlWrite (s : State) (p : Nat) (v : Word) : State :=
  let n := bits v.toNat 0 5
  let s := s.modPart p fun q => { q with ovf := q.ovf && !bit v.toNat 7, compat := bit v.toNat 6 }
  if 6 ≤ n ∧ n ≤ 16 ∧ s.areaOk (s.part p).ringbase (64 * 2 ^ n) then
    (s.modPart p fun q => { q with logsize := n, wr := 0, rd := 0, ovf := false }).flushPending p
  else s.flushPending p

/-- A write to PRINGRD: forward only, no further than WR (18 R385). -/
def State.pringrdWrite (s : State) (p : Nat) (v : Word) : State :=
  let q := s.part p
  let rd := bits v.toNat 0 32
  if (rd + 2 ^ 32 - q.rd) % 2 ^ 32 ≤ (q.wr + 2 ^ 32 - q.rd) % 2 ^ 32 then
    (s.modPart p fun q => { q with rd }).flushPending p
  else s

/-- A read of KMFIFO: the next word of the oldest record, the fourth read pops it (18 R387). -/
def State.kmRead (s : State) (c : Nat) : State × Word :=
  let k := s.core c
  match k.kmfifo with
  | [] => (s, 0)
  | r :: t =>
    let w := BitVec.ofNat 64 (r / 2 ^ (64 * k.kmpos))
    if k.kmpos < 3 then (s.modCore c fun k => { k with kmpos := k.kmpos + 1 }, w)
    else
      let s := s.modCore c fun k => { k with kmfifo := t, kmpos := 0 }
      (match s.partOf c with | some p => s.flushPending p | none => s, w)

/-! ## Commands (18 R368) -/

/-- A sequencer goes on after the halt line is lowered: it issues again, its engines from their positions; its feed is
released with its plot. -/
def Hg.resume (h : Hg) (feeds : Bool) : Hg :=
  { h with
    stopped := false, stop := {}, engWt := [],
    node0 := { h.node0 with cause := 0, faddr := 0, wrFault := false },
    node1 := { h.node1 with cause := 0, faddr := 0, wrFault := false },
    dec := { h.dec with parked := false, faddr := 0, walkFail := none },
    chain := { h.chain with cause := 0, faddr := 0 },
    feed := { h.feed with cause := 0, faddr := 0, held := h.feed.held && !feeds } }

/-- A plot is released after a partition resume: its first row 4 cycles later, no restarts counted (18 R368; 14 R333). -/
def Plot.resume (q : Plot) (cycle : Nat) : Plot :=
  if q.st = .running ∨ q.st = .stopping then
    { q with next := cycle + 4, held := 0, restarts := 0, waiting := false, stopCause := 0 }
  else { q with stopCause := 0 }

/-- The sequencers of a partition's cores. -/
def State.partHgs (s : State) (p : Nat) : List Nat :=
  (s.part p).cores.flatMap fun c => [4 * c, 4 * c + 1, 4 * c + 2, 4 * c + 3]

/-- Is a headgate's plot RUNNING or STOPPING? -/
def State.plotRuns (s : State) (p : Nat) (h : Hg) : Bool :=
  match h.bound with
  | some b =>
    match s.plot? p b.plot with
    | some q => q.st == .running || q.st == .stopping
    | none => false
  | none => false

/-- RESUME: accepted when HALTED = 1 and DONE = 1 (18 R368). -/
def State.resumePart (s : State) (p : Nat) : State :=
  let q := s.part p
  if q.halted && q.done then
    let s := s.modPart p fun q =>
      { q with halted := false, done := false, plots := q.plots.map fun e => (e.1, e.2.resume (s.plotCycle e.2)) }
    let s := q.cores.foldl (fun s c => s.modCore c fun k => { k with halted := false }) s
    (s.partHgs p).foldl (fun s k => s.modHg k fun h => h.resume (s.plotRuns p h)) s
  else s

/-- Ask the dispatcher for a pre-emption to a context, plus 1,024 for a PCMD SWITCH (18 R376). -/
def State.askSwitch (s : State) (p ctx : Nat) : State := s.modPart p fun q => { q with preq := q.preq ++ [ctx] }

/-- SWITCH: ignored when SV = 0 or when SHADOW is the active context (18 R368). -/
def State.switchCmd (s : State) (p : Nat) : State :=
  let q := s.part p
  if !q.sv || (q.av && q.shadow == q.active) then s else s.askSwitch p (1024 + q.shadow)

/-- A write to PCMD (18 R368). -/
def State.pcmdWrite (s : State) (p : Nat) (v : Word) : State :=
  match bits v.toNat 0 2 with
  | 1 => s.resumePart p
  | 2 => s.haltLine p
  | 3 => s.switchCmd p
  | _ => s

/-! ## The block of registers (18 R367) -/

/-- Is a context switch in progress (18 R381)? -/
def Part.switching (q : Part) : Bool := q.switch || !q.preq.isEmpty

/-- A read of a partition register. -/
def State.partRead (s : State) (p off : Nat) : Nat :=
  let q := s.part p
  let b := fun (x : Bool) (n : Nat) => if x then 2 ^ n else 0
  if off = 0x000 then q.nrect * 2 + b q.en 0
  else if off = 0x008 then q.cores.length * 2 ^ 32 + b q.err 4 + b q.switching 3 + b q.done 2 + b q.halted 1
  else if off = 0x018 then b q.sv 26 + q.shadow * 2 ^ 16 + b q.av 10 + (if q.av then q.active else 0)
  else if off = 0x020 then q.yield_
  else if off = 0x028 then q.slice
  else if off = 0x030 then q.stopbase.toNat
  else if off = 0x038 then q.ringbase.toNat
  else if off = 0x040 then b q.ovf 7 + b q.compat 6 + q.logsize
  else if off = 0x048 then q.wr
  else if off = 0x050 then q.rd
  else if off = 0x058 then q.ways
  else if 0x080 ≤ off ∧ off < 0x0C0 ∧ off % 8 = 0 then (q.rects.get (Fin.ofNat 8 ((off - 0x080) / 8))).toNat
  else 0

/-- A write of a partition register. DESIGN CHOICE (log 55): WSP_WAYS takes 0 to 12 (01 R20); a write of 13 to 15, of which the
manual says nothing, is ignored. -/
def State.partWrite (s : State) (p off : Nat) (v : Word) : State :=
  if off = 0x000 then s.pctlWrite p v
  else if off = 0x008 then (if bit v.toNat 4 then s.modPart p fun q => { q with err := false } else s)
  else if off = 0x010 then s.pcmdWrite p v
  else if off = 0x018 then s.modPart p fun q => { q with sv := bit v.toNat 26, shadow := bits v.toNat 16 10 }
  else if off = 0x020 then s.modPart p fun q => { q with yield_ := bits v.toNat 0 32 }
  else if off = 0x028 then s.modPart p fun q => { q with slice := bits v.toNat 0 32 }
  else if off = 0x030 then s.pstopbaseWrite p v
  else if off = 0x038 then s.pringbaseWrite p v
  else if off = 0x040 then s.pringctlWrite p v
  else if off = 0x050 then s.pringrdWrite p v
  else if off = 0x058 then (if bits v.toNat 0 4 ≤ 12 then s.modPart p fun q => { q with ways := bits v.toNat 0 4 } else s)
  else if 0x080 ≤ off ∧ off < 0x0C0 ∧ off % 8 = 0 then
    (if (s.part p).en then s
     else s.modPart p fun q => { q with rects := q.rects.set! ((off - 0x080) / 8) (v &&& 0xFFFFFF#64) })
  else s

end Sys2Proof.Machine
end

