-- ==== Sys2Proof/Machine/PlotGeo.lean ====
section
/-! DEFINITION. Where a plot lies: logical and physical rows and columns, cells, cores, clusters (01 R6; 03 R73; 08 R198). -/

namespace Sys2Proof.Machine

/-- The physical offset of the n-th offset that is not bypassed, searching from offset o on for at most fuel offsets. -/
def skipOff (byp : List Nat) : Nat → Nat → Nat → Nat
  | 0, o, n => o + n
  | fuel + 1, o, n =>
    if byp.contains o then skipOff byp fuel (o + 1) n
    else match n with
      | 0 => o
      | n + 1 => skipOff byp fuel (o + 1) n

/-- The physical column offset of a logical column. -/
def Plot.physCol (q : Plot) (c : Nat) : Nat := if q.bypCols.isEmpty then c else skipOff q.bypCols (c + 16) 0 c
/-- The physical row offset of a logical row. -/
def Plot.physRow (q : Plot) (r : Nat) : Nat := if q.bypRows.isEmpty then r else skipOff q.bypRows (r + 16) 0 r
/-- The physical width in cells. -/
def Plot.width (q : Plot) : Nat := q.cols + q.bypCols.length
/-- The physical height in cells. -/
def Plot.height (q : Plot) : Nat := q.allRows + q.bypRows.length

/-- The key of the cell at wafer cell coordinates (01 R6). -/
def cellKey (x y : Nat) : Nat := coreAt (x / 24) (y / 24) * 576 + 24 * (y % 24) + x % 24

/-- The key of a logical cell of a plot. -/
def Plot.cellAt (q : Plot) (row col : Nat) : Nat := cellKey (q.px + q.physCol col) (q.py + q.physRow row)

/-- The cores a plot covers. -/
def Plot.cores (q : Plot) : List Nat :=
  (span (q.py / 24) ((q.py + q.height - 1) / 24)).flatMap fun y =>
    (span (q.px / 24) ((q.px + q.width - 1) / 24)).map fun x => coreAt x y

/-- Does a plot cover a wafer cell? -/
def Plot.covers (q : Plot) (x y : Nat) : Bool :=
  decide (q.px ≤ x) && decide (x < q.px + q.width) && decide (q.py ≤ y) && decide (y < q.py + q.height)

/-- Do two plots' footprints meet? -/
def Plot.meets (a b : Plot) : Bool :=
  decide (a.px < b.px + b.width) && decide (b.px < a.px + a.width)
    && decide (a.py < b.py + b.height) && decide (b.py < a.py + a.height)

/-- Is a plot RUNNING or STOPPING? -/
def Plot.active (q : Plot) : Bool := q.st == .running || q.st == .stopping

/-- Every configured plot of every partition: (partition, id, plot). -/
def State.allPlots (s : State) : List (Nat × Nat × Plot) :=
  s.parts.flatMap fun e => (e.2.plots.filter fun x => x.2.st != .unconf).map fun x => (e.1, x.1, x.2)

/-- The clusters a list of cores lies in. -/
def clustersOf (l : List Nat) : List Nat := dedup (l.map clusterOf)

/-- A cluster, and every cluster covered by a configured plot whose south-west cell lies in it (23 R419). -/
def State.concerned (s : State) (cl : Nat) : List Nat :=
  dedup (cl :: s.allPlots.flatMap fun e => if clusterOf e.2.2.swCore = cl then clustersOf e.2.2.cores else [])

/-- The words per lane that the drain of a tile-step row takes (08 R223). -/
def TileCmd.words (c : TileCmd) : Nat := c.n * shExt c.shape 1

/-- Has a drain taken every word of a row (08 R223)? -/
def Drain.taken (d : Drain) (c : TileCmd) : Bool := d.pos.counts.all fun n => decide (c.dbase + c.words ≤ n)

/-- Has it appended the last of them (08 R223)? -/
def Drain.ended (d : Drain) (c : TileCmd) : Bool := d.taken c && d.pos.coming.all fun w => w.serial != c.serial

/-- The rows whose drain has not ended. -/
def Drain.queue (d : Drain) : List TileCmd := d.rows.filter fun c => !d.ended c

/-- Have the reads that a headgate's CFG and SPLARM go on with in the background come in (08 R202, R207)? -/
def Hg.readsDone (h : Hg) : Bool := !h.cfg.busy && h.splice.all (·.staged)

/-- Has a headgate no engine command queued or running? -/
def Hg.enginesIdle (h : Hg) : Bool :=
  h.node0.queue.isEmpty && h.node1.queue.isEmpty && h.dec.queue.isEmpty && h.chain.queue.isEmpty && h.feed.queue.isEmpty
    && h.drain.queue.isEmpty && h.drain.adv.isEmpty

end Sys2Proof.Machine
end

