-- ==== Sys2Proof/Machine/Power.lean ====
section
/-! DEFINITION. The Bank Power Controller, byte budgets, cluster clocks and rails, temperature, ballast and energy
(13; 23 R416 to R429; 24 R431, R432). -/

namespace Sys2Proof.Machine

/-! ## Clock patterns (23 R418) -/

/-- Is level n of a reticle in force (23 R426)? -/
def Reticle.level (r : Reticle) (n : Nat) : Bool := (List.range 8).any fun k => (r.levels.get (Fin.ofNat 24 (3 * k + n - 1))).on

/-- Is level n in force in a cluster's reticle? -/
def State.thermal (s : State) (cl n : Nat) : Bool := (s.reticle (reticleOfCluster cl)).level n

/-- The effective pattern of a cluster (23 R418). -/
def State.effPattern (s : State) (cl : Nat) : Nat :=
  let r := (s.cluster cl).req
  if s.thermal cl 2 then r &&& 0x5555 else r

/-- SWPEND follows whether CUR differs from the effective pattern (23 R417). -/
def State.notePend (s : State) (cl : Nat) : State :=
  let e := s.effPattern cl
  s.modCluster cl fun c =>
    if c.cur = e then { c with swpend := none } else { c with swpend := some (c.swpend.getD s.wt) }

/-- CUR takes a pattern (23 R419); what waited at the door of a stopped cluster is served (23 R424). -/
def State.setCur (s : State) (cl new : Nat) : State :=
  s.modCluster cl fun c =>
    { c with cycBase := c.cycles s.wt, cycWt := s.wt, cur := new, swpend := none, waiters := if new = 0 then c.waiters else [] }

/-- Does a change of a cluster's pattern wait for a quiesce point (23 R419)? While the rail is not ON none takes place (23 R425). -/
def Cluster.changing (c : Cluster) : Bool := c.swpend.isSome && c.rail == 0 && c.railTo.isNone

/-- Has a change waited for 4,096 ticks (23 R419)? -/
def Cluster.overdue (c : Cluster) (wt : Nat) : Bool := c.changing && decide (c.swpend.getD wt + 4096 ≤ wt)

/-- FORCED clears where no overdue change concerns a cluster any more (23 R419). -/
def State.unforce (s : State) : State :=
  if s.clusters.any fun e => e.2.forced then
    let l := s.clusters.flatMap fun e => if e.2.overdue s.wt then s.concerned e.1 else []
    { s with clusters := s.clusters.map fun e => (e.1, { e.2 with forced := e.2.forced && l.contains e.1 }) }
  else s

/-- Is an access or message issued by a unit of a cluster in flight across its boundary (23 R419, R420)? -/
def State.inFlight (s : State) (cl : Nat) : Bool :=
  let mine := fun (w : Nat) => !isRmc (seqOf w) && clusterOf (coreOf (seqOf w)) == cl
  (s.mod.remotes.any fun r => r.reply.isNone && mine r.seqr)
    || (s.mod.packets.any fun p => clusterOf p.src == cl && clusterOf p.dst != cl)
    || s.clusters.any fun e => e.1 != cl && (e.2.waiters.any mine || e.2.transfers.any fun t => mine t.seqr)

/-- QUIET (23 R420). -/
def State.isQuiet (s : State) (cl : Nat) : Bool :=
  s.quiescing cl && !s.inFlight cl
    && ((List.range 8).all fun i => (List.range 4).all fun h => (s.hg (4 * coreOfCic cl i + h)).enginesIdle)
    && s.allPlots.all fun e => !(e.2.2.active && e.2.2.cores.any fun c => clusterOf c == cl)

/-- A refused write sets ERR and ERRCODE (23 R417). -/
def State.clRefuse (s : State) (cl code : Nat) : State := s.modCluster cl fun c => { c with err := true, errcode := code }

/-- A write of CL_SWALLOW.REQ (23 R419, R421). -/
def State.clSwallowWrite (s : State) (cl : Nat) (v : Word) : State :=
  let r := bits v.toNat 0 16
  if r = 0 ∧ !s.isQuiet cl then s.clRefuse cl 1
  else (s.modCluster cl fun c => { c with req := r }).notePend cl

/-- The quiesce point of a cluster (23 R419): CUR takes the effective pattern, and FORCED clears. -/
def State.quiescePoint (s : State) (cl : Nat) : State :=
  let cs := s.concerned cl
  if s.wt % 16 = 0 ∧ (s.cluster cl).changing ∧ !cs.any s.inFlight then
    cs.foldl (fun s c => s.modCluster c fun x => { x with forced := false }) (s.setCur cl (s.effPattern cl))
  else s

/-- QUIESCE_POINT_CHANGE: inp.unit is the cluster. -/
def execQuiescePointChange (s : State) : Host.Outcome State Fault Refusal := .next (s.quiescePoint s.inp.unit)

/-- SWALLOW_FORCE_TIMEOUT: SWPEND has been 1 for 4,096 ticks; inp.unit is the cluster (23 R419). -/
def execSwallowForceTimeout (s : State) : Host.Outcome State Fault Refusal :=
  .next (if (s.cluster s.inp.unit).overdue s.wt then
      (s.concerned s.inp.unit).foldl (fun s c => s.modCluster c fun x => { x with forced := true }) s
    else s)

/-! ## Sleeping and waking banks (13 R310 to R319) -/

/-- The bank of a core that a bank number names. -/
def bankRole (s : State) (cl n : Nat) : Nat :=
  if n < 256 then (s.core (coreOfCic cl (n / 32))).role (n % 32) else 1

/-- A bank's core, for core and DRAM banks. -/
def bankCore (cl n : Nat) : Option Nat :=
  if n < 256 then some (coreOfCic cl (n / 32))
  else if n < 272 then none
  else some (coreOfCic cl ((n - 272) / 16))

/-- Does a bank count as UNALLOC (13 R310, R311)? -/
def State.unalloc (s : State) (cl n : Nat) : Bool :=
  ((s.cluster cl).bank n).cls == 0 || bankRole s cl n == 0
    || (match bankCore cl n with | some c => !s.live c | none => false)

/-- Is a bank named by a HOT set (13 R320)? -/
def hotNames (hot n : Nat) : Bool :=
  if n < 256 then bit hot (n % 32 / 4)
  else if n < 272 then bit hot (8 + (n - 256) / 2)
  else bit hot (16 + (n - 272) % 16)

/-- Does a partition's declaration of a HOT set name a bank (13 R320)? -/
def Part.names (q : Part) (hot cl n : Nat) : Bool :=
  hotNames hot n
    && (match bankCore cl n with
        | some c => q.cores.contains c
        | none => q.cores.any fun c => clusterOf c == cl)

/-- The HOT set of the declaration that stands; none when there is no declaration. -/
def Part.hot (q : Part) : Nat := if q.bwSet.isSome then bits q.bwphase.toNat 0 32 else 0

/-- The HOT set held awake at a tick (13 R321): that of the standing declaration once its time has come, until then an earlier one's. -/
def Part.holds (q : Part) (wt : Nat) : Nat := if q.bwSet.isSome && decide (q.bwphwt.toNat ≤ wt) then q.hot else q.bwHold

/-- Does a phase hold a bank awake now (13 R321)? -/
def State.phaseHolds (s : State) (cl n : Nat) : Bool := s.parts.any fun e => e.2.en && e.2.names (e.2.holds s.wt) cl n

/-- The demand level of a cluster (13 R315). -/
def State.demand (s : State) (cl : Nat) : Nat :=
  (s.partsOfCluster cl).foldl (fun d p => max d (bits (s.part p).bwphase.toNat 48 3)) 0

/-- The lowest state a class allows (13 R311); a bank of class UNALLOC is not lowered. -/
def floorOf : Nat → Nat
  | 1 => 1
  | 2 => 2
  | 3 => 3
  | _ => 0

/-- The deepest state above the present one whose threshold a count of idle cycles has passed (13 R315). -/
def idleTarget (idle : Word) (d floor count : Nat) : Nat :=
  (List.range 3).foldl (fun best k =>
    let t := bits idle.toNat (16 * k) 16
    if t ≠ 0 ∧ count ≥ t * 64 * 2 ^ d ∧ k + 1 ≤ floor then k + 1 else best) 0

/-- The home addresses of an SRAM bank: where it begins, and its size. -/
def sramRange (cl n : Nat) : Nat × Nat :=
  if n < 256 then (bankAddr (coreOfCic cl (n / 32)) (n % 32) 0, bankBytes) else (wspAddr cl ((n - 256) * 2 ^ 20), 2 ^ 20)

/-- A DRAM bank's bytes are gone (13 R312), but for those of lines that the L2 holds, which know it. -/
def State.clearDram (s : State) (cl n : Nat) : State :=
  let gone := fun (a : Nat) => s.bankOfAddr a == some (cl, n) && !(decide (a / 2 ^ 32 = cl) && (SMap.get? (s.cluster cl).l2 (a % 2 ^ 32 / 64)).isSome)
  let mem := s.mem.filter fun c => !gone c.1
  let poison := s.mod.poison.filter fun w => !gone (8 * w)
  let l2 := (s.cluster cl).l2.map fun e =>
    (e.1, if s.bankOfAddr (dramAddr cl (64 * e.1)) = some (cl, n) then { e.2 with lost := true } else e.2)
  let undef := s.mod.undef.flatMap (dropLines gone)
  ({ s with mem, mod := { s.mod with poison, undef } }).modCluster cl fun c => { c with l2 }

/-- The waiter of a cluster's Bank Power Controller. -/
def bpcWaiter (cl : Nat) : Nat := 34816 + cl

/-- The dirty sectors of a core's L1 that a bank holds. -/
def State.dirtyIn (s : State) (c b : Nat) : List Nat :=
  ((s.core c).l1.filter fun e => e.2.bank == b && e.2.dirty != 0).map (·.1)

/-- The sectors that a bank of a core's L1 holds go home and are dropped (01 R16; 13 R313). -/
def State.l1Leave (s : State) (w c b : Nat) : State :=
  let s := (dedup ((s.dirtyIn c b).map (· / 2))).foldl (fun s line => s.l1WriteBack c w [2 * line, 2 * line + 1]) s
  s.modCore c fun k => { k with l1 := k.l1.filter fun e => e.2.bank != b }

/-- May the cached data of a bank go home now (13 R313)? -/
def State.leaveReady (s : State) (cl n : Nat) : Acc Unit :=
  if n < 256 then
    let c := coreOfCic cl (n / 32)
    s.sectorsReady (bpcWaiter cl) c (s.dirtyIn c (n % 32))
  else if n < 272 then s.l2LeaveReady cl fun w => w == n - 256
  else .ok ()

/-- What precedes DEEP: cached data goes home; what the bank then held is lost (13 R313). -/
def State.enterDeep (s : State) (cl n : Nat) : State :=
  if n < 272 then
    let s := if n < 256 then s.l1Leave (bpcWaiter cl) (coreOfCic cl (n / 32)) (n % 32) else s.l2Leave cl fun w => w == n - 256
    s.clearRange (sramRange cl n).1 (sramRange cl n).2
  else s.clearDram cl n

/-- Lower an idle bank (13 R315, R319): before DEEP the banks wake that its cached data goes home to. -/
def State.lowerBank (s : State) (cl n : Nat) : State :=
  let c := s.cluster cl
  let b := c.bank n
  let t := idleTarget c.idle (s.demand cl) (floorOf b.cls) (c.cycles s.wt - b.last)
  if t > b.state ∧ b.wake.isNone ∧ c.cur ≠ 0 ∧ c.rail = 0 ∧ !s.phaseHolds cl n ∧ !s.unalloc cl n then
    match (if t = 3 then s.leaveReady cl n else .ok () : Acc Unit) with
    | .error x => s.stall (bpcWaiter cl) x
    | .ok _ =>
      (if t = 3 then s.enterDeep cl n else s).modBank cl n fun b => { b with state := t, lowered := some (c.cycles s.wt) }
  else s

/-- BANK_IDLE_LOWER: inp.unit is the cluster, inp.idx the bank (13 R315). -/
def execBankIdleLower (s : State) : Host.Outcome State Fault Refusal := .next (s.lowerBank s.inp.unit (s.inp.idx % 400))

/-- A bank becomes ACTIVE; out of DEEP its bytes read as zero, which its first access reports (13 R312, R314). -/
def State.bankUp (s : State) (cl n : Nat) : State :=
  s.modBank cl n fun b =>
    { b with state := 0, wake := none, last := s.cycleOf cl, lost := b.lost || decide (b.state = 3 ∧ b.cls = 3) }

/-- Has the latency of a bank's wake passed (13 R312)? -/
def State.wakeOver (s : State) (cl n : Nat) : Bool :=
  match (s.bank cl n).wake with
  | some t => decide (t ≤ if n < 272 then s.cycleOf cl else s.wt)
  | none => false

/-- A wake's latency ends (13 R312): an SRAM wake makes no progress while the clock is stopped. -/
def State.wakeDone (s : State) (cl n : Nat) : State := if s.wakeOver cl n then s.bankUp cl n else s

/-- BANK_WAKE_COMPLETE: inp.unit is the cluster, inp.idx the bank. -/
def execBankWakeComplete (s : State) : Host.Outcome State Fault Refusal := .next (s.wakeDone s.inp.unit (s.inp.idx % 400))

/-- One entry of BPC_MAP (13 R310): {STATE, CLASS}; a dead core's bank shows DEEP and UNALLOC. -/
def State.bpcEntry (s : State) (cl n : Nat) : Nat :=
  let b := (s.cluster cl).bank n
  match bankCore cl n with
  | some c => if s.live c then b.state * 4 + b.cls else 12
  | none => b.state * 4 + b.cls

/-- A write of one bank's CLASS (13 R319): a floor above the bank's state wakes it. -/
def State.classWrite (s : State) (cl n cls : Nat) : State :=
  let dead := match bankCore cl n with | some c => !s.live c | none => false
  if dead then s
  else
    let b := (s.cluster cl).bank n
    let s := s.modCluster cl fun c => { c with banks := SMap.set c.banks n { b with cls } }
    if cls ≠ 0 ∧ floorOf cls < b.state then s.beginWake cl n else s

/-- A write of BPC_MAPm: the CLASS of sixteen banks. -/
def State.bpcWrite (s : State) (cl m : Nat) (v : Word) : State :=
  (List.range 16).foldl (fun s k => s.classWrite cl (16 * m + k) (bits v.toNat (4 * k) 2)) s

/-! ## Bandwidth phases (07 R191; 13 R320 to R323) -/

/-- The wake latency of a bank in ticks under the pattern in force, none while the clock that counts it is stopped (13 R312,
R321). -/
def State.wakeTicks (s : State) (cl n : Nat) : Option Nat :=
  let l := wakeLatency n (s.bank cl n).state
  if n < 272 then ticksFor (s.cluster cl).cur s.wt l else some l

/-- The banks, as (cluster, number), that the declaration of a partition names and that are not UNALLOC. -/
def State.namedBanks (s : State) (p : Nat) : List (Nat × Nat) :=
  let q := s.part p
  (clustersOf q.cores).flatMap fun cl =>
    ((List.range 400).filter fun n => q.names q.hot cl n && !s.unalloc cl n).map fun n => (cl, n)

/-- A declaration is applied at this WT (13 R321, R323): an earlier one whose time has come goes on holding its banks until this one's time,
SHORT is judged, LOST clears unless an access has set it in this tick, a short one starts its wakes. -/
def State.applyPhase (s : State) (p : Nat) : State :=
  let s := s.modPart p fun q => { q with bwSet := some s.wt, bwDue := false, lostBw := q.lostBw && decide (q.lostBwWt = s.wt) }
  let l := s.namedBanks p
  let late := l.any fun b =>
    match s.wakeTicks b.1 b.2 with
    | some n => decide ((s.part p).bwphwt.toNat < s.wt + n)
    | none => true
  let short := late || decide ((s.part p).bwphwt.toNat < s.wt)
  let s := s.modPart p fun q => { q with short }
  if short then l.foldl (fun s b => s.beginWake b.1 b.2) s else s

/-- BWPH's write of both registers, before it is applied: the set held so far stays held until the new time (07 R191; 13 R321). -/
def State.declare (s : State) (p : Nat) (phase time : Word) : State :=
  (s.modPart p fun q => { q with bwphase := phase, bwphwt := time, bwHold := q.holds s.wt }).applyPhase p

/-- BWPH_APPLY: the declaration of partition inp.unit that a restore left waiting is applied (13 R321, R322). -/
def execBwphApply (s : State) : Host.Outcome State Fault Refusal :=
  .next (if (s.part s.inp.unit).bwDue then s.applyPhase s.inp.unit else s)

/-- BANK_PHASE_WAKE_START: the BPC of cluster inp.unit starts the wake of bank inp.idx that a declaration names
(13 R321). -/
def execBankPhaseWakeStart (s : State) : Host.Outcome State Fault Refusal :=
  let cl := s.inp.unit
  let n := s.inp.idx % 400
  .next (if !s.unalloc cl n && s.parts.any fun e => e.2.en && e.2.names e.2.hot cl n then s.beginWake cl n else s)

/-- BWPH_PHASE_TIME: the time of partition inp.unit's declaration has come: its banks are ACTIVE unless it was short, and
then their wakes go on (13 R321). -/
def execBwphPhaseTime (s : State) : Host.Outcome State Fault Refusal :=
  let p := s.inp.unit
  let q := s.part p
  .next (if q.bwSet.isSome ∧ q.bwphwt.toNat ≤ s.wt then
      (s.namedBanks p).foldl (fun s b =>
        if ((s.cluster b.1).bank b.2).state = 0 then s
        else if q.short then s.beginWake b.1 b.2 else s.bankUp b.1 b.2) s
    else s)

/-! ## Byte budgets (13 R324, R325; 23 R427) -/

/-- The effective budget (13 R324; 23 R427): cut to three quarters while T1 is in force. -/
def effBudget (budget interval : Nat) (t1 : Bool) : Nat :=
  if t1 then (if budget = 0 then 75 * interval / 4 else 3 * budget / 4) else budget

/-- BUDGET_INTERVAL_BOUNDARY: inp.unit is the cluster; once at a multiple of the interval in force the count restarts, a new
interval and budget take effect, and waiting transfers are granted. -/
def execBudgetIntervalBoundary (s : State) : Host.Outcome State Fault Refusal :=
  let cl := s.inp.unit
  let c := s.cluster cl
  .next (if s.wt % c.interval = 0 ∧ c.boundWt ≠ some s.wt then
      let iv := bits c.budget.toNat 32 16
      let eff := effBudget (bits c.budget.toNat 0 32) iv (s.thermal cl 1)
      let (n, ts) := grantTransfers eff 0 c.transfers
      s.setCluster cl { c with interval := iv, eff, granted := n, transfers := ts, boundWt := some s.wt }
    else s)

/-- A write of CL_BUDGET (13 R324): an INTERVAL outside 800 to 12,800 leaves that field. -/
def budgetMerge (old v : Word) : Word :=
  let iv := bits v.toNat 32 16
  let keepIv := if 800 ≤ iv ∧ iv ≤ 12800 then iv else bits old.toNat 32 16
  BitVec.ofNat 64 (keepIv * 2 ^ 32 + bits v.toNat 0 32)

/-! ## Rails (23 R422 to R425; 24 R431, R432) -/

/-- Fields of the retention set, as (width, value): the cluster's BPC registers, and of each of its cores the roles, the
task registers and the routing entries. The layout of the save area is the device's own (24 R432; log 16). -/
def State.retentionFields (s : State) (cl : Nat) : List (Nat × Nat) :=
  let c := s.cluster cl
  ((List.range 400).map fun n => (2, (c.bank n).cls)) ++ [(48, c.idle.toNat)] ++ (c.lost.toList.map fun w => (64, w.toNat))
    ++ (List.range 8).flatMap fun i =>
      let k := s.core (coreOfCic cl i)
      [(64, k.role0.toNat), (64, k.role1.toNat), (24, k.tskctl.toNat), (64, k.ttbase.toNat)]
        ++ k.routes.toList.flatMap fun t => t.toList.map fun e => (36, e.toNat)

/-- Fields packed from bit 0 up. -/
def packFields : List (Nat × Nat) → Nat
  | [] => 0
  | (w, v) :: t => v % 2 ^ w + 2 ^ w * packFields t

/-- Bits of a number from a position on. -/
def fieldAt (x pos w : Nat) : Word := BitVec.ofNat 64 (bits x pos w)

/-- Bits a core's part of the retention set takes. -/
def retCoreBits : Nat := 64 + 64 + 24 + 64 + 64 * 36

/-- Restore the retention set from the number a save area holds (23 R425; 24 R432). -/
def State.restoreRetention (s : State) (cl x : Nat) : State :=
  let s := s.modCluster cl fun c =>
    { c with
      banks := (List.range 400).foldl (fun bs n => SMap.set bs n { c.bank n with cls := bits x (2 * n) 2 }) c.banks,
      idle := fieldAt x 800 48,
      lost := Vector.ofFn fun k => fieldAt x (848 + 64 * k.val) 64 }
  (List.range 8).foldl (fun s i =>
    let o := 1296 + retCoreBits * i
    s.modCore (coreOfCic cl i) fun k =>
      { k with
        role0 := fieldAt x o 64, role1 := fieldAt x (o + 64) 64, tskctl := fieldAt x (o + 128) 24, ttbase := fieldAt x (o + 152) 64,
        routes := Vector.ofFn fun t => Vector.ofFn fun e => fieldAt x (o + 216 + 36 * (16 * t.val + e.val)) 36 }) s

/-- Why a write of CL_RAIL.REQ is refused (23 R423; 24 R432). -/
def State.railRefusal (s : State) (cl v : Nat) : Option Nat :=
  let c := s.cluster cl
  let owned := s.parts.any fun e => e.2.en && e.2.cores.any fun k => clusterOf k == cl
  let a := c.retsave.toNat
  let home := a / 2 ^ 32
  let badSave := bits a 0 12 != 0 || decide (a ≥ 2 ^ 41) || !s.isBacked a 4096 || home == cl || (s.cluster home).rail != 0
    || (s.cluster home).railTo.isSome
  if v = 3 then some 4
  else if v = 0 then (if c.rail ≠ 0 ∨ c.railTo.isSome then some 4 else none)
  else if c.cur ≠ 0 then some 2
  else if v = 2 && owned then some 3
  else if v = 2 && badSave then some 6
  else if c.railTo.isSome then some 7
  else none

/-- A write of CL_RAIL.REQ (23 R423): one equal to the current state has no effect. -/
def State.clRailWrite (s : State) (cl : Nat) (v : Word) : State :=
  let r := bits v.toNat 0 2
  let c := s.cluster cl
  if c.railTo.isNone ∧ r = c.rail then s
  else match s.railRefusal cl r with
    | some e => s.clRefuse cl e
    | none => s.modCluster cl fun c => { c with railReq := r, railTo := some r, railAt := s.wt }

/-- The last steps of a wake (23 R425; 24 R431): QREQ cleared, the pattern delivered at once. -/
def State.wakeFinish (s : State) (cl pat : Nat) : State :=
  let s := s.modCluster cl fun c =>
    { c with
      ctl := c.ctl &&& ~~~1#64, req := pat, rail := 0, railReq := 0, railTo := none, wakePat := none, wakeBy := none }
  s.setCur cl (s.effPattern cl)

/-- A wake once no rail change is in progress (23 R425): refused under T3, else the rail is raised. -/
def State.wakeGo (s : State) (cl pat : Nat) : State :=
  if s.thermal cl 3 then (s.clRefuse cl 5).modCluster cl fun c => { c with wakePat := none, wakeBy := none }
  else if (s.cluster cl).rail = 0 then s.wakeFinish cl pat
  else s.modCluster cl fun c => { c with railReq := 0, railTo := some 0, railAt := s.wt, wakePat := some pat, wakeBy := none }

/-- A write of CL_WAKE (23 R425; 24 R431); by is the sequencer whose store it is. -/
def State.clWakeWrite (s : State) (cl : Nat) (v : Word) (by_ : Option Nat) : State :=
  if !bit v.toNat 16 then s
  else
    let pat := bits v.toNat 0 16
    match (s.cluster cl).railTo with
    | some 0 => s.modCluster cl fun c => { c with wakePat := some pat }
    | some _ => s.modCluster cl fun c => { c with wakePat := some pat, wakeBy := by_ }
    | none => s.wakeGo cl pat

/-- May the cached data of a cluster's banks and ways go home now (23 R422; 13 R313)? -/
def State.offReady (s : State) (cl : Nat) : Acc Unit := do
  s.flushReady (bpcWaiter cl) ((List.range 8).map (coreOfCic cl))
  s.l2LeaveReady cl fun _ => true

/-- Entry to OFF: the retention set saved, cached data written back, SRAM contents and the cached leaves lost (23 R422). -/
def State.enterOff (s : State) (cl : Nat) : State :=
  let s := (List.range 8).foldl (fun s i =>
    let c := coreOfCic cl i
    (s.writeBackAll (bpcWaiter cl) c).modCore c fun k => { k with l1 := [] }) s
  let s := s.l2Leave cl fun _ => true
  let s := s.devStore (s.cluster cl).retsave.toNat 4096 (packFields (s.retentionFields cl))
  let s := (List.range 8).foldl (fun s i => s.clearRange (bankAddr (coreOfCic cl i) 0 0) (2 ^ 22)) s
  (s.clearRange (wspAddr cl 0) (2 ^ 24)).modCluster cl fun c => { c with tlb := [] }

/-- The end of a downward rail transition (23 R422): RETENTION after 320 ticks; before OFF the banks wake that cached data goes home to. A
CL_WAKE that waited goes on. -/
def State.railDown (s : State) (cl : Nat) : State :=
  let c := s.cluster cl
  let done := fun (s : State) (v : Nat) =>
    let s := s.modCluster cl fun c => { c with rail := v, railTo := none }
    match c.wakePat with
    | some p => s.wakeGo cl p
    | none => s
  match c.railTo with
  | some 1 => if s.wt < c.railAt + 320 then s else done s 1
  | some (v + 2) =>
    match s.offReady cl with
    | .error x => s.stall (bpcWaiter cl) x
    | .ok _ => done (s.enterOff cl) (v + 2)
  | _ => s

/-- RAIL_TRANSITION_DONE: inp.unit is the cluster. -/
def execRailTransitionDone (s : State) : Host.Outcome State Fault Refusal := .next (s.railDown s.inp.unit)

/-- The banks that an access of the device to n bytes of DRAM from a home address on touches. -/
def State.areaBanks (s : State) (a n : Nat) : List (Nat × Nat) :=
  ((List.range (n / 64)).flatMap fun i => (s.lineNeeds 0 (a + 64 * i)).1).eraseDups

/-- The retention set comes back from the save area, whose banks wake for the read (13 R311; 23 R425). -/
def State.readRetention (s : State) (cl : Nat) : Acc State := do
  let a := (s.cluster cl).retsave.toNat
  s.awake (s.areaBanks a 4096)
  .ok (((List.range 64).foldl (fun s i => s.touch (a + 64 * i)) s).restoreRetention cl (s.readN a 4096))

/-- The end of a wake (23 R422, R425): 800 ticks from RETENTION; from OFF the retention set is restored. -/
def State.railUp (s : State) (cl : Nat) : State :=
  let c := s.cluster cl
  match c.railTo, c.wakePat with
  | some 0, some pat =>
    if c.rail = 1 ∧ s.wt < c.railAt + 800 then s
    else match (if c.rail = 2 then s.readRetention cl else .ok s : Acc State) with
      | .ok t => t.wakeFinish cl pat
      | .error x => s.stall (bpcWaiter cl) x
  | _, _ => s

/-- CLUSTER_WAKE_DONE: inp.unit is the cluster. -/
def execClusterWakeDone (s : State) : Host.Outcome State Fault Refusal := .next (s.railUp s.inp.unit)

/-! ## Cluster registers (13 R310, R314, R315, R324; 23 R417) -/

/-- CL_STAT (23 R417). -/
def State.clStat (s : State) (cl : Nat) : Nat :=
  let c := s.cluster cl
  let b := fun (x : Bool) (n : Nat) => if x then 2 ^ n else 0
  c.errcode * 2 ^ 12 + (if c.railTo.isSome then 3 else c.rail) * 2 ^ 10 + b c.knock 8 + b (s.thermal cl 3) 7 + b (s.thermal cl 2) 6
    + b (s.thermal cl 1) 5 + b c.forced 4 + b c.swpend.isSome 3 + b (s.isQuiet cl) 2 + b c.err 1

/-- A read of a cluster register. The reserved bits of CL_RETSAVE read as zero (00 R4); what was written there refuses OFF (23 R423). -/
def State.clusterRead (s : State) (cl off : Nat) : Nat :=
  let c := s.cluster cl
  if off = 0x000 then c.ctl.toNat
  else if off = 0x008 then s.clStat cl
  else if off = 0x010 then c.cur * 2 ^ 16 + c.req
  else if off = 0x018 then c.railReq
  else if off = 0x028 then c.budget.toNat
  else if off = 0x030 then bits c.retsave.toNat 12 29 * 2 ^ 12
  else if 0x100 ≤ off ∧ off < 0x1C8 ∧ off % 8 = 0 then
    pack 4 ((List.range 16).map fun k => s.bpcEntry cl (16 * ((off - 0x100) / 8) + k))
  else if off = 0x200 then c.idle.toNat
  else if 0x210 ≤ off ∧ off < 0x248 ∧ off % 8 = 0 then (c.lost.get (Fin.ofNat 7 ((off - 0x210) / 8))).toNat
  else 0

/-- A write of a cluster register. -/
def State.clusterWrite (s : State) (cl off : Nat) (v : Word) (by_ : Option Nat) : State :=
  if off = 0x000 then s.modCluster cl fun c => { c with ctl := v &&& 3 }
  else if off = 0x008 then s.modCluster cl fun c => { c with knock := c.knock && !bit v.toNat 8, err := c.err && !bit v.toNat 1 }
  else if off = 0x010 then s.clSwallowWrite cl v
  else if off = 0x018 then s.clRailWrite cl v
  else if off = 0x020 then s.clWakeWrite cl v by_
  else if off = 0x028 then s.modCluster cl fun c => { c with budget := budgetMerge c.budget v }
  else if off = 0x030 then s.modCluster cl fun c => { c with retsave := v }
  else if 0x100 ≤ off ∧ off < 0x1C8 ∧ off % 8 = 0 then s.bpcWrite cl ((off - 0x100) / 8) v
  else if off = 0x200 then s.modCluster cl fun c => { c with idle := v &&& 0xFFFFFFFFFFFF#64 }
  else if 0x210 ≤ off ∧ off < 0x248 ∧ off % 8 = 0 then
    s.modCluster cl fun c =>
      { c with lost := c.lost.set! ((off - 0x210) / 8) (c.lost[(off - 0x210) / 8]! &&& ~~~v) }
  else s

/-! ## Temperature (23 R426, R427) -/

/-- The threshold of level n (23 R426). -/
def threshold (cfg : Word) (n : Nat) : Nat := bits cfg.toNat (8 * (n - 1)) 8

/-- One level of one sensor after a sample (23 R426): 1,000 low samples in a row and 2 ms since it was entered end it. -/
def SensorLevel.sample (l : SensorLevel) (reading t wt : Nat) : SensorLevel :=
  let low := if reading + 4 ≤ t then l.low + 1 else 0
  if l.on then
    if low ≥ 1000 ∧ l.entered + 3200000 ≤ wt then { l with on := false, low } else { l with low }
  else if reading ≥ t then { on := true, entered := wt, low }
  else { l with low }

/-- T3 in a reticle (23 R427): its clusters' partitions are halted without a record, its clusters' clocks stop and their
rails go to RETENTION at once, contents kept. -/
def State.thermalStop (s : State) (r : Nat) : State :=
  let cls := (List.range 512).filter fun cl => reticleOfCluster cl == r
  let s := cls.foldl (fun s cl => (s.partsOfCluster cl).foldl (fun s p => s.haltLine p) s) s
  cls.foldl (fun s cl =>
    ((s.setCur cl 0).modCluster cl fun c =>
      { c with rail := if c.rail = 2 then 2 else 1, railTo := none, wakePat := none, wakeBy := none, railReq := 1 }).notePend cl) s

/-- A sample of a reticle's sensors (23 R426, R427). -/
def State.thermalSample (s : State) (r : Nat) (xs : List Nat) : State :=
  let t := s.reticle r
  let xs8 := (List.range 8).map fun k => xs.getD k 0 % 256
  let levels := Vector.ofFn fun (i : Fin 24) =>
    (t.levels.get i).sample (xs8.getD (i.val / 3) 0) (threshold s.mod.thcfg (i.val % 3 + 1)) s.wt
  let t' := { t with sensors := Vector.ofFn fun k => xs8.getD k.val 0, levels, top := xs8.foldl max 0 }
  let changed := (List.range 24).any fun i => (t.levels.get (Fin.ofNat 24 i)).on != (t'.levels.get (Fin.ofNat 24 i)).on
  let s := s.setReticle r t'
  let s := if changed then s.rmcEvent r else s
  let s := if t'.level 3 ∧ !t.level 3 then s.thermalStop r else s
  if t'.level 2 = t.level 2 then s
  else ((List.range 512).filter fun cl => reticleOfCluster cl == r).foldl (fun s cl => s.notePend cl) s

/-- THERMAL_SAMPLE: inp.unit is the reticle, inp.data the eight readings; at a multiple of 1,600 ticks (log 13). -/
def execThermalSample (s : State) : Host.Outcome State Fault Refusal :=
  .next (if s.wt % 1600 = 0 then s.thermalSample (s.inp.unit % 64) s.inp.data else s)

/-- TH_STAT of a reticle (23 R426). -/
def Reticle.thstat (r : Reticle) : Nat :=
  let b := fun (n : Nat) => if r.level n then 2 ^ (n - 1) else 0
  r.top * 256 + b 3 + b 2 + b 1

/-- A write of TH_CFG (23 R426): ignored unless T1 < T2 < T3. -/
def State.thcfgWrite (s : State) (v : Word) : State :=
  let c : Word := v &&& 0xFFFFFF#64
  if threshold c 1 < threshold c 2 ∧ threshold c 2 < threshold c 3 then s.modMod fun m => { m with thcfg := c } else s

/-! ## Ballast and energy (23 R428, R429) -/

/-- The level of a cluster's ballast (23 R428): 16 steps of 200 ticks up to the start it leads to, then as many down. -/
def Cluster.ballastLevel (c : Cluster) (wt : Nat) : Nat :=
  match c.ballastAt, c.ballastFall with
  | some t, _ => 16 - (t - wt + 199) / 200
  | none, some (t, l) => l - (wt - t) / 200
  | none, none => 0

/-- A cluster whose ballast changes course has at once the level of its new course. -/
def Cluster.ballastTo (c : Cluster) (wt : Nat) (rise : Option Nat) (fall : Option (Nat × Nat)) : Cluster :=
  let c := { c with ballastAt := rise, ballastFall := fall }
  { c with ballast := c.ballastLevel wt }

/-- Begin the ballast of a timed START at tick t in the clusters a plot covers (23 R428). -/
def State.armBallast (s : State) (q : Plot) (t : Nat) : State :=
  (clustersOf q.cores).foldl (fun s cl => s.modCluster cl fun c => if bit c.ctl.toNat 1 then c.ballastTo s.wt (some t) none else c) s

/-- End the rise towards a START: at the start the ballast stops; cancelled, it falls from its level (23 R428). -/
def State.endBallast (s : State) (q : Plot) (started : Bool) : State :=
  (clustersOf q.cores).foldl (fun s cl => s.modCluster cl fun c =>
    if c.ballastAt.isSome then c.ballastTo s.wt none (if started then none else some (s.wt, c.ballastLevel s.wt)) else c) s

/-- Ballast after a plot stopped by ROWLIM or STOPP: full rate, then falling (23 R428). -/
def State.fallBallast (s : State) (q : Plot) : State :=
  (clustersOf q.cores).foldl (fun s cl => s.modCluster cl fun c => if bit c.ctl.toNat 1 then c.ballastTo s.wt none (some (s.wt, 16)) else c) s

/-- BALLAST_STEP: inp.unit is the cluster, whose ballast takes the level of this tick. -/
def execBallastStep (s : State) : Host.Outcome State Fault Refusal :=
  .next (s.modCluster s.inp.unit fun c => { c with ballast := c.ballastLevel s.wt })

/-- Add energy to an account: of a context, or of SYSTEM (23 R429). -/
def State.chargeEnergy (s : State) (ctx : Option Nat) (nj : Nat) : State :=
  match ctx with
  | some k => s.modMod fun m => { m with enacc := SMap.set m.enacc k (SMap.getD m.enacc k 0 + BitVec.ofNat 64 nj) }
  | none => s.modMod fun m => { m with ensys := m.ensys + BitVec.ofNat 64 nj }

/-- The context active on a core's partition. -/
def State.activeCtx (s : State) (c : Nat) : Option Nat :=
  match s.partOf c with
  | some p => if (s.part p).av then some (s.part p).active else none
  | none => none

/-- ENERGY_INTERVAL: at the end of a 1,600-tick interval, the estimates of a core (log 13): inp.unit is the core;
inp.data holds the nanojoules for SYSTEM (ballast, patrol, tests), of a switch charged to a context, that context plus 1
(0: SYSTEM), and the core's remaining energy with its share of the cluster's units (23 R429; 18 R388). -/
def execEnergyInterval (s : State) : Host.Outcome State Fault Refusal :=
  let d := fun (i : Nat) => s.inp.data.getD i 0
  let c := s.inp.unit
  .next (if s.wt % 1600 = 0 && s.live c then
      let s := s.chargeEnergy none (d 0)
      let s := s.chargeEnergy (if d 2 = 0 then none else some ((d 2 - 1) % 1024)) (d 1)
      s.chargeEnergy (s.activeCtx c) (d 3)
    else s)

end Sys2Proof.Machine
end

