-- ==== Sys2Proof/Machine/Plots.lean ====
section
/-! DEFINITION. What a plot does outside its rows: lags, lanes, bindings, marks, restarts, and being unconfigured
(08 R202, R204; 09 R239 to R250; 12 R300; 14 R328, R329). -/

namespace Sys2Proof.Machine

/-! ## Geometry in time (09 R239, R240) -/

/-- Reticle boundaries between two wafer cell coordinates of one axis (01 R6). -/
def stitches (a b : Nat) : Nat := b / 192 - a / 192

/-- The lag of a logical cell (09 R239). -/
def Plot.lag (q : Plot) (row col : Nat) : Nat :=
  let pc := q.physCol col
  let pr := q.physRow row
  (pc - col) + (pr - row) + 2 * (stitches q.px (q.px + pc) + stitches q.py (q.py + pr))

/-- The largest lag of a plot's cells. -/
def Plot.maxLag (q : Plot) : Nat := q.lag (q.allRows - 1) (q.cols - 1)

/-- Bypassed lines between logical columns c and c + 1, plus twice the stitches (09 R240). -/
def Plot.eCol (q : Plot) (c : Nat) : Nat :=
  let a := q.physCol c
  let b := q.physCol (c + 1)
  b - a - 1 + 2 * stitches (q.px + a) (q.px + b)

/-- Bypassed lines between logical rows r and r + 1, plus twice the stitches (09 R240). -/
def Plot.eRow (q : Plot) (r : Nat) : Nat :=
  let a := q.physRow r
  let b := q.physRow (r + 1)
  b - a - 1 + 2 * stitches (q.py + a) (q.py + b)

/-- The logical cells of a plot, by logical row, then logical column. -/
def Plot.cells (q : Plot) : List (Nat × Nat) :=
  (List.range q.allRows).flatMap fun r => (List.range q.cols).map fun c => (r, c)

/-- The detail word of the first logical cell that meets a test, or 0. -/
def Plot.firstCell (q : Plot) (f : Nat → Nat → Bool) : Option Nat :=
  (q.cells.find? fun e => f e.1 e.2).map fun e => e.1 * 2 ^ 16 + e.2

/-- The number of a logical cell in its plot. -/
def Plot.num (q : Plot) (row col : Nat) : Nat := row * q.cols + col

/-- The lane positions of a side: 0 N, 1 E, 2 S, 3 W (08 R199). -/
def Plot.sideLen (q : Plot) (side : Nat) : Nat := if side = 0 ∨ side = 2 then q.cols else q.allRows

/-- The edge cell of a lane position. -/
def Plot.edgeCell (q : Plot) (side p : Nat) : Nat × Nat :=
  match side with
  | 0 => (q.allRows - 1, p)
  | 1 => (p, q.cols - 1)
  | 2 => (0, p)
  | _ => (p, 0)

/-- The key of a lane. -/
def laneKey (side p : Nat) : Nat := side * 512 + p

/-- The lane positions of a segment within its side; in redundant mode those of copy A. -/
def Plot.segLanes (q : Plot) (side seg : Nat) : List Nat :=
  let n := if side = 0 ∨ side = 2 then q.cols else q.rows
  (List.range 24).filterMap fun l => if 24 * seg + l < n then some (24 * seg + l) else none

/-- Has a binding kind a feed (08 R199)? -/
def feeds (kind : Nat) : Bool := kind == 0 || kind == 2
/-- Has a binding kind a drain? -/
def drains (kind : Nat) : Bool := kind == 1 || kind == 2

/-- The lane of a position in copy A of a redundant plot (09 R251). -/
def Plot.copyA (q : Plot) (side p : Nat) : Nat := if q.redun && (side == 1 || side == 3) && decide (q.rows ≤ p) then p - q.rows else p

/-- The headgate that feeds a lane. -/
def Plot.feeder (q : Plot) (side p : Nat) : Option Nat :=
  (q.binds.find? fun b => b.1 == side && b.2.1 == q.copyA side p / 24 && feeds b.2.2.1).map (·.2.2.2)

/-- The headgate that drains a lane. -/
def Plot.drainer (q : Plot) (side p : Nat) : Option Nat :=
  (q.binds.find? fun b => b.1 == side && b.2.1 == q.copyA side p / 24 && drains b.2.2.1).map (·.2.2.2)

/-- Does a successor of some splice that has not entered RUNNING have a plot's ID (08 R208)? -/
def State.awaited (s : State) (p id : Nat) : Bool := (s.part p).waves.any fun w => w.load.plots.any fun e => e.1 == id

/-- The receiving plot of a furrow: a splice's successor that has not entered RUNNING takes the words of another successor (08 R208). -/
def State.furrowEnd (s : State) (p : Nat) (q : Plot) (f : Furrow) : Option Plot :=
  let next := if q.spliced then none else ((s.part p).waves.flatMap fun w => w.load.plots).find? fun e => e.1 == f.toPlot
  match next with
  | some e => some e.2
  | none => s.plot? p f.toPlot

/-- Change the receiving plot of a furrow. -/
def State.modFurrowEnd (s : State) (p : Nat) (q : Plot) (f : Furrow) (g : Plot → Plot) : State :=
  if !q.spliced && s.awaited p f.toPlot then
    s.modPart p fun x =>
      { x with waves := x.waves.map fun w =>
          { w with load := { w.load with plots := w.load.plots.map fun e => (e.1, if e.1 = f.toPlot then g e.2 else e.2) } } }
  else s.modPlot p f.toPlot g

/-- Is a lane the receiving end of a furrow of some plot of the partition? -/
def State.furrowInto (s : State) (p id side lane : Nat) : Bool :=
  (s.part p).plots.any fun e => (e.2.spliced || !s.awaited p id) && e.2.furrows.any fun f => f.toPlot == id && f.toSide == side && f.toSeg == lane / 24

/-- The sides a cell lies on, with its position. -/
def Plot.sidesOf (q : Plot) (row col : Nat) : List (Nat × Nat) :=
  (if row + 1 = q.allRows then [(0, col)] else []) ++ (if col + 1 = q.cols then [(1, row)] else [])
    ++ (if row = 0 then [(2, col)] else []) ++ (if col = 0 then [(3, row)] else [])

/-- The edge lane a cell reads: of the fed sides it lies on, the first in the order N, E, S, W (03 R67; log 22). -/
def State.edgeLane (s : State) (p id : Nat) (q : Plot) (row col : Nat) : Option (Nat × Nat) :=
  (q.sidesOf row col).find? fun e => (q.feeder e.1 e.2).isSome || s.furrowInto p id e.1 (q.copyA e.1 e.2)

/-- The furrow that leaves a lane. -/
def Plot.furrowFrom (q : Plot) (side lane : Nat) : Option Furrow :=
  q.furrows.find? fun f => f.fromSide == side && f.fromSeg == lane / 24

def Plot.lane (q : Plot) (side p : Nat) : Lane := SMap.getD q.lanes (laneKey side p) {}

/-! ## Drains at a mark (12 R300; 14 R328) -/

/-- 16-byte words in a unit of a sluice (08 R219). -/
def Sluice.unitWords (x : Sluice) : Nat := 2 ^ bits x.desc.toNat 60 4

/-- Was a word driven in a row at or before a mark? mark is the row counter after the mark row, rc the one after the last row. -/
def DrainWord.behind (w : DrainWord) (mark rc : Nat) : Bool :=
  !decide ((w.row + 2 ^ 32 - mark) % 2 ^ 32 < (rc + 2 ^ 32 - mark) % 2 ^ 32)

/-- Of a sluice's uncommitted words, the leading whole units of n words whose rows are at or before a mark; a unit holds words
of one tile-step row only (12 R300). -/
def committedUnits (n mark rc : Nat) : Nat → List DrainWord → Nat
  | 0, _ => 0
  | fuel + 1, l =>
    let u := l.take n
    match u with
    | h :: _ =>
      if u.length = n ∧ u.all (fun w => w.serial == h.serial && w.behind mark rc) then 1 + committedUnits n mark rc fuel (l.drop n) else 0
    | [] => 0

/-- The place of each of a drain's uncommitted words of a sluice, counted in words over the units they fill: each tile-step row begins
a new unit of n words (08 R223). i is the place after the words before, sr the serial of the last of them. -/
def drainPlaces (n : Nat) : Nat → Option Nat → List DrainWord → List (Nat × DrainWord)
  | _, _, [] => []
  | i, sr, w :: t =>
    let j := if sr = some w.serial then i else (i + n - 1) / n * n
    (j, w) :: drainPlaces n (j + 1) (some w.serial) t

/-- The units that a drain's uncommitted words of a sluice fill. -/
def unitsOf (n : Nat) (l : List DrainWord) : Nat :=
  match (drainPlaces n 0 none l).getLast? with
  | some e => e.1 / n + 1
  | none => 0

/-- A drain's words of a sluice, appended and to come. -/
def DrainPos.wordsOf (d : DrainPos) (sl : Nat) : List DrainWord :=
  SMap.getD d.ents sl [] ++ d.coming.filter fun w => w.sl == sl && w.data.isSome

/-- The units of a sluice that the core's drains have filled or will fill and P has not passed, each headgate's at a position. -/
def State.unitsUsed (s : State) (c sl : Nat) (pos : Nat → DrainPos) : Nat :=
  let n := ((s.core c).sluices.get (Fin.ofNat 16 sl)).unitWords
  (List.range 4).foldl (fun m h =>
    m + unitsOf n ((pos (4 * c + h)).wordsOf sl) + ((s.hg (4 * c + h)).drain.adv.filter fun o => o.sl == sl).length) 0

/-- The places of a sluice at which the core's drains have units. -/
def State.placesHeld (s : State) (c sl : Nat) : List Nat :=
  (List.range 4).flatMap fun h =>
    let d := (s.hg (4 * c + h)).drain
    ((SMap.getD d.pos.places sl []) ++ (d.adv.filter fun o => o.sl == sl).map (·.place)).filterMap id

/-- The places of a sluice from P on, up to those that hold data, at which a drain can begin a unit: no drain has one there, and no engine is
filling it. -/
def State.freePlaces (s : State) (c sl : Nat) : List Nat :=
  let x := (s.core c).sluices.get (Fin.ofNat 16 sl)
  let held := s.placesHeld c sl
  let size := 2 ^ bits x.desc.toNat 56 4
  let used := (x.p + 2 ^ 32 - x.c) % 2 ^ 32
  ((List.range (size - used)).drop (if x.parb.owner.isSome then 1 else 0)).filterMap fun i =>
    let a := (x.p + i) % 2 ^ 32
    if held.contains a then none else some a

/-- The home of byte o of unit k of a sluice of a core (08 R219). -/
def State.unitHome (s : State) (c : Nat) (x : Sluice) (k o : Nat) : Acc Nat :=
  let d := x.desc.toNat
  let u := 16 * x.unitWords
  s.inBanks c (if bits d 54 2 = 1 then 3 else 2) (bits d 0 22 + (k % 2 ^ bits d 56 4) * u + o)

/-- The same home when its banks are not ready: a drained word is written in its cycle all the same (12 R300; 13 R311). -/
def State.unitByte (s : State) (c : Nat) (x : Sluice) (k o : Nat) : Option Nat :=
  let d := x.desc.toNat
  let off := bits d 0 22 + (k % 2 ^ bits d 56 4) * (16 * x.unitWords) + o
  (((s.core c).banksOf (if bits d 54 2 = 1 then 3 else 2))[off / bankBytes]?).map fun b => bankAddr c b (off % bankBytes)

/-- A drain's access takes a core bank in its cycle (10 R265). -/
def State.bankTaken (s : State) (k a : Nat) : State :=
  match s.bankOfAddr a, enginePort k 11 with
  | some (cl, n), some port => s.modBank cl n fun b => { b with arb := b.arb.grant port (s.cycleOf cl) }
  | _, _ => s

/-- Write a drained word at place i of unit u of a sluice (08 R223). -/
def State.putUnitWord (s : State) (k sl u i data : Nat) : State :=
  match s.unitByte (coreOf k) ((s.core (coreOf k)).sluices.get (Fin.ofNat 16 sl)) u (16 * i) with
  | some a => ((s.bankTaken k a).homeWrite a 16 data).touched a
  | none => s

def Core.modSluice (k : Core) (i : Nat) (f : Sluice → Sluice) : Core :=
  { k with sluices := k.sluices.set (Fin.ofNat 16 i) (f (k.sluices.get (Fin.ofNat 16 i))) }

/-- A drain without the places of a sluice from a count on that other producers take. -/
def Drain.displace (d : Drain) (sl lo n : Nat) : Drain :=
  let out := fun (a : Option Nat) => a.filter fun a => !decide ((a + 2 ^ 32 - lo) % 2 ^ 32 < n)
  let cut := fun (p : DrainPos) => { p with places := p.places.map fun e => if e.1 = sl then (e.1, e.2.map out) else e }
  { d with pos := cut d.pos, mark := cut d.mark, adv := d.adv.map fun o => if o.sl = sl then { o with place := out o.place } else o }

/-- Other producers take the places of a sluice from a count on: the drains' units there are written when they commit. -/
def State.displace (s : State) (c sl lo n : Nat) : State :=
  if (s.placesHeld c sl).any fun a => decide ((a + 2 ^ 32 - lo) % 2 ^ 32 < n) then
    (List.range 4).foldl (fun s h => s.modHg (4 * c + h) fun x => { x with drain := x.drain.displace sl lo n }) s
  else s

/-- Advance P of a sluice by units: PEV bit 2 of the core's headgates latches (06 R161). -/
def State.advanceP (s : State) (c sl n : Nat) : State :=
  if n = 0 then s
  else
    let p := ((s.core c).sluices.get (Fin.ofNat 16 sl)).p
    ((s.modCore c fun k => k.modSluice sl fun x => { x with p := (x.p + n) % 2 ^ 32 }).displace c sl p n).latchCore c 2

/-- Advance C of a sluice by units. -/
def State.advanceC (s : State) (c sl n : Nat) : State :=
  if n = 0 then s else (s.modCore c fun k => k.modSluice sl fun x => { x with c := (x.c + n) % 2 ^ 32 }).latchCore c 2

/-- A committed unit joins those whose commit waits for its cycle, in the order of the tile-step rows. -/
def insertOut (o : DrainOut) : List DrainOut → List DrainOut
  | [] => [o]
  | x :: t => if x.serial ≤ o.serial then x :: insertOut o t else o :: x :: t

/-- Units of a drain commit one per cycle from a cycle on. -/
def datedFrom : Nat → List DrainOut → List DrainOut
  | _, [] => []
  | n, o :: t => { o with due := n } :: datedFrom (n + 1) t

/-- The leading m units of n words of a drain's uncommitted words of a sluice. -/
def leadingUnits (n m sl : Nat) (places : List (Option Nat)) (l : List DrainWord) : List DrainOut :=
  (List.range m).map fun j =>
    let u := (l.drop (j * n)).take n
    { sl, serial := (u.head?.map (·.serial)).getD 0, place := places.getD j none, words := u.map fun w => w.data.getD 0, due := 0 }

/-- The drain of a headgate at a mark commit (12 R300; 14 R328): whole units at or before the mark row are to advance P, one per
cycle; counts are the words per lane as the mark row left them. rcMark and rc are the row counters after the mark row and after the
last row. -/
def State.commitDrain (s : State) (k rcMark rc : Nat) (counts : List Nat) : State :=
  let c := coreOf k
  let d := (s.hg k).drain
  let go := fun (st : DrainPos × List DrainOut) (e : Nat × List DrainWord) =>
    let n := ((s.core c).sluices.get (Fin.ofNat 16 e.1)).unitWords
    let m := committedUnits n rcMark rc e.2.length e.2
    let places := SMap.getD st.1.places e.1 []
    ({ st.1 with ents := SMap.set st.1.ents e.1 (e.2.drop (m * n)), places := SMap.set st.1.places e.1 (places.drop m) },
      (leadingUnits n m e.1 places e.2).foldl (fun l o => insertOut o l) st.2)
  let (pos, outs) := d.pos.ents.foldl go (d.pos, [])
  let from_ := max (s.cycleOf (clusterOf c)) ((d.adv.getLast?.map fun o => o.due + 1).getD 0)
  let behind := fun (l : List DrainWord) => l.filter fun w => w.behind rcMark rc
  let ents := pos.ents.map fun e => (e.1, behind e.2)
  let mark : DrainPos := {
    counts, coming := behind pos.coming, ents,
    places := pos.places.map fun e =>
      (e.1, e.2.take (unitsOf ((s.core c).sluices.get (Fin.ofNat 16 e.1)).unitWords (SMap.getD ents e.1 []))) }
  s.modHg k fun h =>
    { h with drain := { h.drain with
        pos, mark, adv := d.adv ++ datedFrom from_ outs,
        rows := h.drain.rows.filter fun r => !(counts.all fun n => decide (r.dbase + r.words ≤ n)) } }

/-- Does a drained word at or before a mark wait for its band scale past its emergence? -/
def Drain.late (d : Drain) (now mark rc : Nat) : Bool :=
  match d.pos.coming with
  | w :: _ => decide (w.cycle ≤ now) && w.behind mark rc && (d.rows.all fun r => decide (w.serial ≤ r.serial) || d.taken r)
  | [] => false

/-! ## Feeds and decoders at a mark and at a restart (11 R286; 14 R328, R329) -/

/-- The serial of an origin. -/
def FeedPos.serial : FeedPos → Nat
  | .tile n _ _ | .dec n _ _ _ _ => n

/-- The feed mark position moves to the first lane row that no edge cell had read: what lies before it will not be fed
again. -/
def Hg.commitFeed (h : Hg) (reads : Nat) : Hg :=
  let o := h.feed.origins.filter fun e => decide (reads ≤ e.1)
  let keepFrom := fun (n : Nat) => match o with | e :: _ => decide (e.2.serial ≤ n) | [] => false
  { h with feed := { h.feed with
      origins := o,
      replay := h.feed.replay.filter fun c => keepFrom c.serial,
      decReplay := h.feed.decReplay.filter fun c => keepFrom c.serial } }

/-- The decoder drops what it has buffered: its running command is to go on at its position (11 R286, R287). -/
def Decoder.suspend (d : Decoder) : Decoder :=
  match d.queue with
  | c :: t =>
    if d.started then
      { d with queue := { c with resume := some d.pos } :: t, bufs := [], asm := [], asmLast := false, started := false }
    else d
  | [] => d

/-- A decode command that feeds lanes again from its start. -/
def WdecCmd.anew (c : WdecCmd) : WdecCmd := if c.dest = 0 then { c with resume := none } else c

/-- The decoder goes back to a mark position within commands that fed lanes (11 R286): none of them in front of serial n. -/
def Decoder.rewind (d : Decoder) (done : List WdecCmd) (n : Nat) (o : FeedPos) : Decoder :=
  let d := d.suspend
  let q := (done.filter fun c => decide (n ≤ c.serial)).map WdecCmd.anew ++ d.queue.map fun c => if n ≤ c.serial then c.anew else c
  match o with
  | .tile _ _ _ => { d with queue := q, sub := 0 }
  | .dec _ t g m sub => { d with queue := q.map fun c => if c.serial = n then { c with resume := some (t, g, m) } else c, sub }

/-- The feed of a headgate goes back to its feed mark position (14 R329). -/
def Hg.rewindFeed (h : Hg) : Hg :=
  match h.feed.origins with
  | [] => { h with dec := if (h.dec.queue.head?.map (·.dest)) = some 0 then h.dec.suspend else h.dec }
  | (ord, o) :: _ =>
    let tiles := (h.feed.replay ++ h.feed.queue).filter fun c => decide (o.serial ≤ c.serial)
    let (k, r) := match o with
      | .tile _ k r => (k, r)
      | .dec _ _ _ _ _ => (0, 0)
    { h with
      feed := { h.feed with queue := tiles, k, r, replay := [], decReplay := [], origins := [], presented := ord },
      dec := h.dec.rewind h.feed.decReplay o.serial o }

/-- The drain of a headgate goes back to its drain mark position (12 R300; 14 R329). -/
def Hg.rewindDrain (h : Hg) : Hg := { h with drain := { h.drain with pos := h.drain.mark } }

/-- The words of a partly filled unit stand at their places again where a later row's word stood among them. -/
def State.mendUnits (s : State) (k : Nat) : State :=
  let d := (s.hg k).drain
  d.mark.ents.foldl (fun s e =>
    if e.2 = (SMap.getD d.pos.ents e.1 []).take e.2.length then s
    else
      let n := ((s.core (coreOf k)).sluices.get (Fin.ofNat 16 e.1)).unitWords
      let places := SMap.getD d.mark.places e.1 []
      (drainPlaces n 0 none e.2).foldl (fun s w =>
        match places.getD (w.1 / n) none with
        | some a => s.putUnitWord k e.1 a (w.1 % n) (w.2.data.getD 0)
        | none => s) s) s

/-- The drain of a headgate without the rows from a serial on: what they drained and has not committed goes with them (12 R303). -/
def Drain.dropFrom (d : Drain) (n : Nat) : Drain :=
  let rows := d.rows.filter fun c => decide (c.serial < n)
  let total := match d.rows.find? fun c => decide (n ≤ c.serial) with
    | some c => c.dbase
    | none => d.total
  let cut := fun (p : DrainPos) => { p with
    counts := p.counts.map (min · total), coming := p.coming.filter fun w => decide (w.serial < n),
    ents := p.ents.map fun e => (e.1, e.2.filter fun w => decide (w.serial < n)) }
  { d with rows, total, pos := cut d.pos, mark := cut d.mark }

/-- The decoder without some of its commands. -/
def Decoder.without (d : Decoder) (gone : WdecCmd → Bool) : Decoder :=
  let d := if (d.queue.head?.map gone).getD false then { d.suspend with sub := 0 } else d
  { d with queue := d.queue.filter fun c => !gone c }

/-- What a headgate holds from the feed mark position onward is discarded (08 R204; 12 R303). -/
def Hg.dropFeed (h : Hg) : Hg :=
  let first := match h.feed.replay ++ h.feed.queue with
    | c :: _ => c.serial
    | [] => h.feed.nextSerial
  { h with
    drain := if (h.bound.map (·.kind)) = some 2 then h.drain.dropFrom first else h.drain,
    feed := { h.feed with queue := [], k := 0, r := 0, replay := [], decReplay := [], origins := [] },
    dec := h.dec.without fun c => c.dest == 0 }

/-! ## Commits and restarts (03 R70, R71; 12 R300, R301; 14 R329) -/

/-- A cell's oldest pending snapshot replaces its checkpoint area (03 R71). -/
def Cell.commit (c : Cell) : Cell :=
  match c.pend with
  | (_, r) :: t => { c with ckpt := r, pend := t }
  | [] => c

/-- A cell goes back to its checkpoint area (03 R71). -/
def Cell.restore (c : Cell) : Cell := { c with regs := c.ckpt, pend := [] }

/-- Something done to every cell of a plot. -/
def State.modCells (s : State) (q : Plot) (f : Nat → Nat → Cell → Cell) : State :=
  q.cells.foldl (fun s e => s.modCell (q.cellAt e.1 e.2) (f e.1 e.2)) s

/-- Something done to every headgate bound to a plot. -/
def State.modBound (s : State) (q : Plot) (f : Hg → Hg) : State :=
  (dedup (q.binds.map (·.2.2.2))).foldl (fun s k => s.modHg k f) s

/-- An MFENCE that waits on the plot has what it waits for (07 R175). -/
def Hg.fenceCame (h : Hg) : Hg :=
  match h.wait with
  | .mfence _ => { h with wait := .mfence true }
  | .none | .coll _ | .cfg _ | .halt => h

/-- Must a plot stop at a mark row that leaves a row counter (08 R204, R205; 18 R377)? DESIGN CHOICE (log 61): where a ROWLIM after the
first run ends at no mark row, it stops at the first mark row after it. -/
def Plot.stopsAt (q : Plot) (rc : Nat) : Bool :=
  q.st == .stopping || q.yield == 1 || (q.rowlim != 0 && decide (q.rowlim ≤ (rc + 2 ^ 32 - q.limBase) % 2 ^ 32))

/-- Does a plot become STOPPED at such a row: not only for a cooperative switch (18 R377)? -/
def Plot.ends (q : Plot) (rc : Nat) : Bool := { q with yield := 0 }.stopsAt rc

/-- A cell switches to its staged words. -/
def Cell.switch (c : Cell) : Cell := { c with slots := c.shSlots }

/-- The reading of a furrow lane's first n kept words commits. -/
def Lane.commit (x : Lane) (n : Nat) : Lane :=
  { x with
    kept := x.kept.drop n, last := ((x.kept.take n).getLast?.map (·.ord)).orElse fun _ => x.last,
    lost := x.lost || (x.kept.take n).any (·.stray) }

/-- The oldest pending mark of a plot commits; the cells that switched at its row take their staged words (09 R253). -/
def State.commitMark (s : State) (p id : Nat) (q : Plot) : State :=
  match q.pend with
  | [] => s
  | m :: rest =>
    let s := s.modCells q fun _ _ c => c.commit
    let s := m.drains.foldl (fun s e => s.commitDrain e.1 m.rc q.rc e.2) s
    let s := q.binds.foldl (fun s b =>
      if feeds b.2.2.1 then s.modHg b.2.2.2 fun h => h.commitFeed (SMap.getD m.reads (b.1 * 64 + b.2.1) 0) else s) s
    let s := s.modHg q.starter fun h => h.commitAmax m.amax m.nseen
    let s := s.modBound q fun h => (h.latch 3).fenceCame
    let stop := q.stopsAt m.rc && rest.isEmpty && decide (q.rc = m.rc)
    let lanes := q.lanes.map fun e => (e.1, e.2.commit (SMap.getD m.kept e.1 0))
    let s := (q.cells.filter fun e => m.switched.contains (q.num e.1 e.2) && !q.switchedMark.contains (q.num e.1 e.2)).foldl
      (fun s e => s.modCell (q.cellAt e.1 e.2) Cell.switch) s
    let s := s.modPlot p id fun q =>
      { q with
        pend := rest.map fun x => { x with kept := x.kept.map fun e => (e.1, e.2 - SMap.getD m.kept e.1 0) },
        rcMark := m.rc, readsMark := m.reads, outMark := m.out, switchedMark := m.switched, tokensMark := m.tokens, freshMark := false,
        lanes, restarts := 0,
        st := if stop ∧ q.ends m.rc then .stopped else q.st, yield := if stop ∧ q.yield = 1 then 2 else q.yield }
    if stop && q.ends m.rc then s.fallBallast q else s

/-- Has the cycle of a plot's pending mark come, every drained word of it appended (12 R301)? -/
def State.markReady (s : State) (q : Plot) (m : PendMark) : Bool :=
  decide (m.ready ≤ s.plotCycle q) && m.drains.all fun e => !(s.hg e.1).drain.late (s.plotCycle q) m.rc q.rc

/-- Commit every pending mark whose cycle has come. -/
def State.commitDue (s : State) (p id : Nat) : Nat → State
  | 0 => s
  | fuel + 1 =>
    match s.plot? p id with
    | some q =>
      match q.pend with
      | m :: _ => if s.markReady q m then (s.commitMark p id q).commitDue p id fuel else s
      | [] => s
    | none => s

/-- Did a sender drive a word in a row after its mark? -/
def afterMark (mark rc ord : Nat) : Bool := decide ((ord + 2 ^ 32 - mark) % 2 ^ 32 < (rc + 2 ^ 32 - mark) % 2 ^ 32)

/-- A furrow lane whose sender goes back to its mark (14 R329): the words that it drove after the mark are dropped; where one has been
read, the words that it drives from now on are refused. -/
def Lane.senderBack (x : Lane) (mark rc : Nat) : Lane :=
  let gone := fun (w : LaneWord) => afterMark mark rc w.ord
  let lost := x.lost || (x.last.map (afterMark mark rc)).getD false
  { x with
    fifo := x.fifo.filter fun w => !gone w, kept := x.kept.map fun w => if gone w then { w with stray := true } else w, lost,
    void := x.void || lost || x.kept.any gone }

/-- A furrow lane whose receiver goes back to its mark (14 R329): the words read since are presented again. Where they are all that
made the lane void, those the sender has taken back go, and the lane is sound. -/
def Lane.receiverBack (x : Lane) : Lane :=
  if x.void && !x.lost then
    { x with
      fifo := (x.kept.filter fun w => !w.stray) ++ x.fifo.map fun w => { w with stray := false }, kept := [], void := false }
  else { x with fifo := x.kept ++ x.fifo, kept := [] }

/-- The lanes a furrow carries words into. -/
def Plot.furrowLanes (q : Plot) (f : Furrow) : List Nat := (q.segLanes f.toSide f.toSeg).map (laneKey f.toSide)

/-- A plot restarts from its last committed mark (14 R329; 03 R71); hold keeps its feeds back until it is started or
released again. -/
def State.restart (s : State) (p id : Nat) (hold : Bool) : State :=
  let s := s.commitDue p id 4096
  match s.plot? p id with
  | none => s
  | some q =>
    let s := s.modCells q fun _ _ c => c.restore
    let lanes := q.lanes.map fun e =>
      (e.1, if s.furrowInto p id (e.1 / 512) (q.copyA (e.1 / 512) (e.1 % 512)) then e.2.receiverBack else ({} : Lane))
    let s := s.modPlot p id fun q =>
      { q with
        rc := q.rcMark, out := q.outMark, reads := q.readsMark, pend := [], lanes, lastEmerge := 0, held := 0, waits := [],
        switched := q.switchedMark, tokens := q.tokensMark, fresh := q.freshMark }
    let s := q.furrows.foldl (fun s f => s.modFurrowEnd p q f fun r =>
      { r with lanes := r.lanes.map fun e =>
          (e.1, if (r.furrowLanes f).contains e.1 then e.2.senderBack q.rcMark q.rc else e.2) }) s
    q.binds.foldl (fun s b => (if drains b.2.2.1 then s.mendUnits b.2.2.2 else s).modHg b.2.2.2 fun h =>
      let h := if feeds b.2.2.1 then h.rewindFeed else h
      let h := if drains b.2.2.1 then h.rewindDrain else h
      if hold then { h with feed := { h.feed with held := true } } else h) s

/-! ## TIMING (09 R245, R246; 14 R331 to R334, R339) -/

/-- The wait kind. -/
def HoldWait.kind : HoldWait → Nat
  | .unexplained => 0
  | .bank _ _ => 1
  | .restore _ _ => 2
  | .walk _ _ _ => 3
  | .budget _ _ => 4
  | .scale _ _ => 5

/-- The slot of a cell in the row to be executed (09 R236). DESIGN CHOICE (log 61): once RC has wrapped, the slot goes on by RC, also where II
does not divide 2^32. -/
def State.slotNow (s : State) (q : Plot) (row col : Nat) : Nat := (s.cell (q.cellAt row col)).slot (q.rc % q.ii)

/-- The first cell that still executes. -/
def Plot.firstRunning (q : Plot) : Nat × Nat := (q.cells.find? fun e => !q.switched.contains (q.num e.1 e.2)).getD (0, 0)

/-- Is the row to be executed a mark row (03 R63)? -/
def State.isMark (s : State) (q : Plot) : Bool := let e := q.firstRunning; bMark (slotB (s.slotNow q e.1 e.2))

/-- The hold class of the row to be executed (09 R245). -/
def State.holdClass (s : State) (q : Plot) : Nat := let e := q.firstRunning; bHold (slotB (s.slotNow q e.1 e.2))

/-- The limit of a hold class; none when unbounded (08 R212). -/
def Plot.limit (q : Plot) (cls : Nat) : Option Nat :=
  let x := q.limits.getD cls 0
  if cls = 7 ∧ x = 0xFFFFFFFF then none else some x

/-- Has the held row passed its class limit (09 R245)? -/
def State.pastLimit (s : State) (q : Plot) : Bool :=
  match q.limit (s.holdClass q) with
  | some n => decide (n < q.held)
  | none => false

/-- The detail words of a TIMING record. -/
def Plot.timingDetail (q : Plot) (auto : Bool) (count cls : Nat) (waits : List HoldWait) : List Nat :=
  let kinds := (List.range 6).foldl (fun n k => if waits.any fun w => w.kind == k then n + 2 ^ k else n) 0
  let bank := match waits.find? fun w => w.kind == 1 with
    | some (.bank cl n) => cl * 2 ^ 16 + n
    | _ => 0
  [(if auto then 2 ^ 63 else 0) + count % 16 * 2 ^ 32 + q.rc, cls * 256 + kinds, bank, q.firstHold.1 * 65536 + q.firstHold.2]

/-- The lowest wait kind of a held row. -/
def lowestKind (l : List HoldWait) : Nat := l.foldl (fun m w => min m w.kind) (match l with | w :: _ => w.kind | [] => 0)

/-- Is every wait of a held row one that the device ends by itself (14 R332)? -/
def allDelivered (l : List HoldWait) : Bool := !l.isEmpty && l.all fun w => w.kind != 0

/-- The TIMING of a row that its plot holds past the limit, where the plot is stopped in that cycle (09 R246; 14 R334): it is recorded with
RESTART = 0, and the halt line rises where the TIMING alone would raise it. -/
def State.noteTiming (s : State) (p id : Nat) : State :=
  let t := s.commitDue p id 4096
  match s.plot? p id, t.plot? p id with
  | some old, some q =>
    if old.active && old.stopCause == 0 && !old.waiting && s.pastLimit old then
      let t := t.record p q.swCore 5 0 cTiming id 0 (q.timingDetail false q.restarts (s.holdClass old) old.waits)
      if allDelivered old.waits && decide (q.restarts < 8) then t else t.haltLine p
    else s
  | _, _ => s

/-- STOPP.NOW, and every stop that acts as it does (08 R204; 09 R246). -/
def State.stopNow (s : State) (p id : Nat) : State :=
  match s.plot? p id with
  | some q =>
    if q.active then
      let s := ((s.noteTiming p id).restart p id true).modPlot p id fun q => { q with st := .stopped, waiting := false, stopCause := 0, restarts := 0 }
      (s.modBound q Hg.fenceCame).fallBallast q
    else s
  | none => s

/-! ## Cells outside plots (03 R456) -/

/-- Is a wafer cell defective, or of a dead core (01 R7; 25 R437)? -/
def State.badCell (s : State) (key : Nat) : Bool := !s.live (key / 576) || s.mod.defects.cells.contains (key / 576, key % 576)

/-- The words the device writes into a cell that belongs to no plot. -/
def State.idleCell (s : State) (key : Nat) : State :=
  s.modCell key fun c => { c with slots := if s.badCell key then [(0, isolateWord)] else [], pend := [] }

/-- The keys of all cells of a plot's footprint. -/
def Plot.footprint (q : Plot) : List Nat :=
  (List.range q.height).flatMap fun y => (List.range q.width).map fun x => cellKey (q.px + x) (q.py + y)

/-! ## Unbinding and unconfiguring (07 R175; 08 R202; 12 R303) -/

/-- A headgate loses its binding, and what it held for it. A row that a splice's successor is to have stays (08 R208). -/
def Hg.unbind (h : Hg) : Hg :=
  let h := h.fenceCame
  match h.feed.tokenAt with
  | some n =>
    let later := fun (c : TileCmd) => decide (n ≤ c.serial)
    { h with
      bound := none,
      feed := { h.feed with queue := h.feed.queue.filter later, k := 0, r := 0, replay := [], decReplay := [], origins := [], presented := 0 },
      drain := { h.drain with rows := h.drain.rows.filter later, pos := {}, mark := {} },
      dec := h.dec.without fun c => c.dest == 0 && decide (c.serial < n) }
  | none => { h.dropFeed with bound := none, drain := { adv := h.drain.adv } }

/-- A plot is unconfigured: its headgates are unbound, its furrows go, its cells take the words of a cell outside every
plot. -/
def State.unconfigure (s : State) (p id : Nat) : State :=
  match s.plot? p id with
  | none => s
  | some q =>
    let s := s.modBound q Hg.unbind
    let kept := fun (r : Plot) (f : Furrow) => f.toPlot != id || (!r.spliced && s.awaited p id)
    let s := s.modPart p fun x =>
      { x with plots := (SMap.erase x.plots id).map fun e => (e.1, { e.2 with furrows := e.2.furrows.filter (kept e.2) }) }
    q.footprint.foldl (fun s k => s.idleCell k) s

/-- Unconfigure every plot of every partition that covers a core (25 R440). -/
def State.unconfigureOver (s : State) (c : Nat) : State :=
  s.allPlots.foldl (fun s e => if e.2.2.cores.contains c then s.unconfigure e.1 e.2.1 else s) s

/-! ## The plot-slice window (03 R73, R74) -/

/-- An area of a cell's window: its first offset, its length, and whether programs may store to it. -/
def windowArea (off : Nat) : Option (Nat × Nat × Bool) :=
  [(0x0000, 0x800, true), (0x0800, 0x100, true), (0x0900, 0x40, true), (0x0940, 0x10, true), (0x0950, 8, true),
   (0x0960, 0x40, true), (0x09A0, 0x10, true), (0x09B0, 4, true), (0x09B4, 4, false), (0x09B8, 8, true),
   (0x1000, 0x200, false), (0x1200, 0x200, false), (0x2000, 0x1C0, false)].find?
    fun a => decide (a.1 ≤ off) && decide (off < a.1 + a.2.1)

/-- CFLAGS of a cell's registers (03 R69). -/
def CellRegs.cflags (r : CellRegs) : Nat := r.rb * 2 ^ 16 + (if r.gf then 2 else 0) + (if r.ovf then 1 else 0)

/-- The 448 bytes from 0x0800 on as one number (03 R73). -/
def CellRegs.image (r : CellRegs) : Nat :=
  pack 128 (r.c.toList ++ r.a.toList ++ [r.q]) + 2 ^ (8 * 0x150) * (r.qs % 2 ^ 64)
    + 2 ^ (8 * 0x160) * pack 128 r.w.toList + 2 ^ (8 * 0x1A0) * pack 32 r.ws.toList
    + 2 ^ (8 * 0x1B0) * (r.cflags % 2 ^ 32) + 2 ^ (8 * 0x1B4) * ((r.pmag + if r.pnseen then 2 ^ 31 else 0) % 2 ^ 32)
    + 2 ^ (8 * 0x1B8) * r.g.toNat

/-- The registers that an image of 448 bytes spells; CFLAGS clears OVF where old's write has bit 0 set. -/
def CellRegs.ofImage (old : CellRegs) (x : Nat) (clearOvf : Bool) : CellRegs :=
  let at_ := fun (off w : Nat) => bits x (8 * off) w
  { old with
    c := Vector.ofFn fun k => at_ (16 * k.val) 128, a := Vector.ofFn fun k => at_ (0x100 + 16 * k.val) 128,
    q := at_ 0x140 128, qs := at_ 0x150 64, w := Vector.ofFn fun k => at_ (0x160 + 16 * k.val) 128,
    ws := Vector.ofFn fun k => at_ (0x1A0 + 4 * k.val) 32, ovf := old.ovf && !clearOvf,
    g := BitVec.ofNat 64 (at_ 0x1B8 64) }

/-- A word of 16 bytes of a slot image (03 R55). -/
def slotImage (x : Nat) : Nat := x % 2 ^ 80

/-- n bytes of a cell's window within one area. -/
def Cell.windowRead (c : Cell) (off n : Nat) : Nat :=
  let sub := fun (x o : Nat) => x / 256 ^ o % 256 ^ n
  if off < 0x800 then
    pack 128 ((List.range 5).map fun k => SMap.getD c.store (off / 16 + k) 0) / 256 ^ (off % 16) % 256 ^ n
  else if off < 0x9C0 then sub c.regs.image (off - 0x800)
  else if off < 0x1200 then pack 128 ((List.range 5).map fun k => slotImage (c.slot (off % 0x200 / 16 + k))) / 256 ^ (off % 16) % 256 ^ n
  else if off < 0x1400 then
    pack 128 ((List.range 5).map fun k => slotImage (SMap.getD c.shSlots (off % 0x200 / 16 + k) 0)) / 256 ^ (off % 16) % 256 ^ n
  else sub c.ckpt.image (off - 0x2000)

/-- The bytes [off, off + n) of a 16-byte-row table overwritten. -/
def storeBytes (m : SMap Nat) (off n v : Nat) : SMap Nat :=
  (List.range (n / 16 + 1)).foldl (fun m k =>
    let row := off / 16 + k
    let lo := max off (16 * row)
    let hi := min (off + n) (16 * row + 16)
    if hi ≤ lo then m
    else SMap.set m row (setBits (SMap.getD m row 0) (8 * (lo - 16 * row)) (8 * (hi - lo)) (v / 256 ^ (lo - off)))) m

/-- Store n bytes into a cell's window within one writable area. -/
def Cell.windowWrite (c : Cell) (off n v : Nat) : Cell :=
  if off < 0x800 then { c with store := storeBytes c.store off n v }
  else
    let clear := decide (off = 0x9B0) && bit v 0
    { c with regs := CellRegs.ofImage c.regs (setBits c.regs.image (8 * (off - 0x800)) (8 * n) v) clear }

/-- May a plot's window be accessed: the plot configured and not running, or its partition halted (03 R74)? -/
def State.windowOpen (s : State) (p id : Nat) : Bool :=
  match s.plot? p id with
  | some q => !q.active || ((s.part p).halted && (s.part p).done)
  | none => false

/-- The checks of a window access: within one area, open, and not a store to an RO area (03 R73, R74). -/
def State.windowOk (s : State) (p id off n : Nat) (store : Bool) : Acc Unit :=
  match windowArea off with
  | none => flt cAddr
  | some (lo, len, rw) => do
    chk (decide (off + n ≤ lo + len)) cAddr
    chk (s.windowOpen p id && (rw || !store)) cProt

end Sys2Proof.Machine
end

