-- ==== Sys2Proof/Machine/Health.lean ====
section
/-! DEFINITION. The defect map, retirement, tests, patrol and soft errors (25). -/

namespace Sys2Proof.Machine

/-! ## The defect map and its image (25 R437 to R439) -/

/-- STATE of a core in the defect map (25 R438). -/
def Defects.state (d : Defects) (c : Nat) : Nat :=
  if d.testing.contains c then 3 else if d.retired.contains c then 2 else if d.dead.contains c then 1 else 0

/-- Usable MiB of a core's slice; the spare rows of bank b of a slice, and of all its banks (01 R21). Fused values where nothing has
changed them (log 5). -/
def Defects.mib (d : Defects) (c : Nat) : Nat := SMap.getD d.usable c 480
def Defects.bankSpare (d : Defects) (c b : Nat) : Nat := SMap.getD d.spares (16 * c + b) 0
def Defects.spare (d : Defects) (c : Nat) : Nat := (List.range 16).foldl (fun n b => n + d.bankSpare c b) 0

/-- The 128 bytes of a core's entry (25 R438). -/
def Defects.entry (d : Defects) (c : Nat) : Nat :=
  d.spare c % 2 ^ 16 * 2 ^ 32 + d.mib c % 2 ^ 16 * 2 ^ 16 + d.state c
    + 2 ^ 64 * d.cells.foldl (fun n e => if e.1 = c ∧ !bit n e.2 then n + 2 ^ e.2 else n) 0

/-- The header of the image for a generation (25 R438). -/
def defectHeader (gen live : Nat) : Nat := 0x50464544 + gen % 2 ^ 32 * 2 ^ 32 + live % 2 ^ 16 * 2 ^ 64

/-- Write a core's entry of the image. -/
def State.writeEntry (s : State) (c : Nat) : State :=
  s.devStore (region5 s.mod.defbase + 64 + 128 * c) 128 (s.mod.defects.entry c)

/-- Write the header of the image for a generation. -/
def State.writeHeader (s : State) (gen : Nat) : State :=
  s.devStore (region5 s.mod.defbase) 64 (defectHeader gen s.mod.live)

/-- Write the whole image (25 R438). -/
def State.writeImage (s : State) : State :=
  (List.range 4096).foldl (fun s c => s.writeEntry c) (s.writeHeader s.mod.mapgen)

/-- The map generation advances, with PLACEGEN; the image of the changed core is rewritten first (25 R438, R439). -/
def State.advanceMap (s : State) (c : Nat) : State :=
  ((s.writeEntry c).writeHeader ((s.mod.mapgen + 1) % 2 ^ 32)).advancePlace.modMod fun m =>
    { m with
      mapgen := (m.mapgen + 1) % 2 ^ 32, replaceReq := m.replaceReq || decide (m.live < 4032),
      sweepAt := if bits m.bootstat.toNat 0 8 = 5 then some (s.wt + 16000) else m.sweepAt }

/-- The smallest usable capacity among the slices of live cores (25 R437). -/
def State.minSlice (s : State) : Nat := ((List.range 4096).filter s.live).foldl (fun m c => min m (s.mod.defects.mib c)) 480

/-! ## RETCMD (25 R440, R441) -/

/-- The partition of a core, if its commands would meet an enabled one that is not halted. -/
def State.unhalted (s : State) (c : Nat) : Bool :=
  match s.partOf c with
  | some p => !((s.part p).halted && (s.part p).done)
  | none => false

/-- Why a command is refused (25 R440). -/
def State.retRefusal (s : State) (v : Word) : Option Nat :=
  let x := v.toNat
  let op := bits x 62 2
  let c := bits x 0 12
  if bits x 26 36 ≠ 0 ∨ bits x 12 4 ≠ 0 ∨ (op = 3 ∧ bits x 16 10 > 575) then some 1
  else if !s.live c then some 3
  else if op = 1 ∧ (s.partOf c).isSome then some 2
  else if op ≠ 1 ∧ s.unhalted c then some 2
  else none

/-- The plots over a core become UNCONF, each with its record of condition 11 and the first cell that is bad now (25 R440 step 2; 18
R383; 14 R457). -/
def State.evictPlots (s : State) (c : Nat) (bad : Nat → Bool) : State :=
  (s.allPlots.filter fun e => e.2.2.cores.contains c).foldl (fun s e =>
    ((s.unconfigure e.1 e.2.1).record e.1 e.2.2.swCore 9 0 cCfgBad e.2.1 0 [11, e.2.1, (e.2.2.firstCell fun r c => bad (e.2.2.cellAt r c)).getD 0, 0]).haltLine e.1) s

/-- Bank bytes of a core read as zero, its cells and units are as after reset (25 R440 step 1, R441). -/
def State.blankCore (s : State) (c : Nat) : State :=
  let s := (s.clearRange (bankAddr c 0 0) (2 ^ 22)).clearRange (cellAddr (576 * c) 0) (576 * 2 ^ 14)
  { s with cells := s.cells.filter fun e => e.1 / 576 != c }

/-- A retired core's units hold nothing more, and nothing of its banks is written back (25 R440 step 1). -/
def State.dropUnits (s : State) (c : Nat) : State :=
  let s := (s.blankCore c).modMod fun m =>
    { m with packets := m.packets.filter fun p => !(p.src == c && p.place == .source) }
  { s with
    hgs := s.hgs.filter fun e => isRmc e.1 || coreOf e.1 != c,
    cores := SMap.set s.cores c { (s.core c) with
      queues := Vector.replicate 8 [], arrivals := Vector.replicate 8 [], table := [],
      sluices := Vector.replicate 16 {}, l1 := [] } }

/-- The neighbour of a core towards a port 0 N, 1 E, 2 S, 3 W. -/
def neighbour (c port : Nat) : Option Nat :=
  let x := coreX c
  let y := coreY c
  match port with
  | 0 => if y + 1 < 64 then some (coreAt x (y + 1)) else none
  | 1 => if x + 1 < 64 then some (coreAt (x + 1) y) else none
  | 2 => if 0 < y then some (coreAt x (y - 1)) else none
  | 3 => if 0 < x then some (coreAt (x - 1) y) else none
  | _ => none

/-- Routing entries of neighbours that lead to a core lose V (25 R440 step 3). -/
def State.closeRoutes (s : State) (c : Nat) : State :=
  (List.range 4).foldl (fun s port =>
    match neighbour c port with
    | some n =>
      s.modCore n fun k =>
        { k with routes := k.routes.map fun t => t.map fun e =>
            if neighbour n (bits e.toNat 27 3) = some c then e &&& ~~~(1#64 <<< 35) else e }
    | none => s) s

/-- RETIRE accepted: steps 1 to 3; the re-lay runs (25 R440). -/
def State.beginRetire (s : State) (c : Nat) : State :=
  let s := ((s.evictPlots c fun key => key / 576 == c).dropUnits c).closeRoutes c
  s.modMod fun m => { m with retstat := 1, retCore := c, retOp := 2 }

/-- Bytes of a cluster's region at or beyond a bound are lost, in its L2 slice too (25 R440 step 4). -/
def State.dropBeyond (s : State) (cl bound : Nat) : State :=
  (s.clearRange (dramAddr cl bound) (2 ^ 32 - bound)).modCluster cl fun c => { c with l2 := c.l2.filter fun e => decide (64 * e.1 < bound) }

/-- The cluster memory of a cluster is undefined from here on (25 R440 step 5; log 12). -/
def State.undefineCluster (s : State) (cl : Nat) : State :=
  let areas := (s.liveOf cl).flatMap fun c => ((s.core c).banksOf 4).map fun b => bankAddr c b 0
  areas.foldl (fun s a => s.undefine a bankBytes) s

/-- A partition's live cores are counted again (25 R440 step 6; 18 R366). -/
def State.recount (s : State) (c : Nat) : State :=
  { s with parts := s.parts.map fun e => (e.1, { e.2 with cores := e.2.cores.filter (· != c) }) }

/-- The tokens of a core leave every key ring (19 R403). -/
def State.dropTokens (s : State) (c : Nat) : State :=
  { s with ctxs := s.ctxs.map fun e => (e.1, { e.2 with tokens := SMap.erase e.2.tokens c }) }

/-- The end of a RETIRE: steps 4 to 7 (25 R440). -/
def State.endRetire (s : State) (c : Nat) : State :=
  let cl := clusterOf c
  let l := (s.liveOf cl).length
  let s := s.dropBeyond cl ((l - 1) * sliceBytes)
  let s := s.modMod fun m => { m with defects := { m.defects with retired := c :: m.defects.retired }, live := m.live - 1 }
  let s := (s.undefineCluster cl).recount c
  let s := ((s.modMod fun m => { m with minslice := s.minSlice }).dropTokens c).advanceMap c
  s.modMod fun m => { m with retOp := 0, retstat := m.retstat &&& ~~~1#64 }

/-- RETIRE_COMPLETE: the re-lay of the retirement in progress ends (25 R440). -/
def execRetireComplete (s : State) : Host.Outcome State Fault Refusal :=
  .next (if s.mod.retOp = 2 then s.endRetire s.mod.retCore else s)

/-- CELLBAD accepted: steps 2, 6 and 7 at once (25 R440). -/
def State.cellBad (s : State) (c cell : Nat) : State :=
  let s := s.evictPlots c fun key => key == c * 576 + cell
  let s := s.modMod fun m => { m with retstat := 0, defects := { m.defects with cells := (c, cell) :: m.defects.cells } }
  (s.idleCell (c * 576 + cell)).advanceMap c

/-- TEST accepted: the core's STATE reads 3 while it runs, and its L1 holds nothing (25 R441). -/
def State.beginTest (s : State) (c : Nat) : State :=
  (((s.writeBackAll (bpcWaiter (clusterOf c)) c).modCore c fun k => { k with l1 := [] }).modMod fun m =>
    { m with retstat := 1, retCore := c, retOp := 1, defects := { m.defects with testing := [c] } }).writeEntry c

/-- The end of a TEST with a result (25 R441). -/
def State.endTest (s : State) (result : Nat) : State :=
  let c := s.mod.retCore
  let code := if result = 0x10 ∨ result = 0x11 ∨ result = 0x12 ∨ result = 0x13 then result else 0
  let s := (s.blankCore c).modMod fun m =>
    { m with retOp := 0, retstat := BitVec.ofNat 64 (code * 256) ||| (m.retstat &&& 4#64), defects := { m.defects with testing := [] } }
  s.writeEntry c

/-- TEST_COMPLETE: inp.val is the result the test found (log 13). -/
def execTestComplete (s : State) : Host.Outcome State Fault Refusal :=
  .next (if s.mod.retOp = 1 then s.endTest s.inp.val.toNat else s)

/-- A write to RETCMD (25 R437, R440). -/
def State.retcmdWrite (s : State) (v : Word) : State :=
  let c := bits v.toNat 0 12
  if bits v.toNat 62 2 = 0 then s
  else if bit s.mod.retstat.toNat 0 then s.modMod fun m => { m with retstat := m.retstat ||| 4#64 }
  else
    let lost := s.mod.retstat &&& 4#64
    match s.retRefusal v with
    | some e => s.modMod fun m => { m with retstat := BitVec.ofNat 64 (e * 256 + 2) ||| lost }
    | none =>
      let t := match bits v.toNat 62 2 with
        | 1 => s.beginTest c
        | 2 => s.beginRetire c
        | _ => s.cellBad c (bits v.toNat 16 10)
      t.modMod fun m => { m with retstat := m.retstat ||| lost }

/-! ## Soft errors and patrol (25 R442 to R444) -/

/-- Where an error at a home address lies, as ECCLOG's {KIND, CORE, LOC}; none for host memory (25 R437). -/
def State.eccPlace (s : State) (a : Nat) : Option (Nat × Nat × Nat) :=
  if a < 2 ^ 41 then some (2, (interleave (s.liveOf (a / 2 ^ 32)) (a % 2 ^ 32)).1, a)
  else if 2 ^ 42 ≤ a ∧ a < 2 ^ 43 then some (0, (a - 2 ^ 42) / 2 ^ 22, a % 2 ^ 22)
  else if 2 ^ 43 ≤ a ∧ a < 2 ^ 44 then some (1, coreOfCic ((a - 2 ^ 43) / 2 ^ 24) 0, a % 2 ^ 24)
  else if cellAddr 0 0 ≤ a ∧ a < cellAddr (576 * 4096) 0 then some (3, (a - cellAddr 0 0) / 2 ^ 14 / 576, a % 2 ^ 14)
  else none

/-- Log an event when none is logged (25 R442). -/
def State.eccLog (s : State) (unc : Bool) (a : Nat) : State :=
  match s.eccPlace a with
  | some (kind, core, loc) =>
    if bit s.mod.ecclog.toNat 63 then s
    else s.modMod fun m =>
      { m with ecclog := BitVec.ofNat 64 (2 ^ 63 + (if unc then 2 ^ 62 else 0) + kind * 2 ^ 60 + core * 2 ^ 48 + loc % 2 ^ 41) }
  | none => s

/-- An uncorrectable error is found in the 8-byte word of a home address (25 R442, R443). -/
def State.poisonWord (s : State) (a : Nat) : State :=
  (s.eccLog true a).modMod fun m =>
    { m with eccu := min 0xFFFF (m.eccu + 1), poison := if m.poison.contains (a / 8) then m.poison else a / 8 :: m.poison }

/-- A read of the device finds an error at a home address or in a cell's window (25 R442; log 13). -/
def State.eccError (s : State) (unc : Bool) (a : Nat) : State :=
  if (s.eccPlace a).isNone then s else if unc then s.poisonWord a else s.eccLog false a

/-- PATROL_SCRUB: patrol reads the 64-byte unit of the home address inp.addr, where it finds nothing (inp.idx 0), a
correctable error (1) or an uncorrectable one (2) (log 13; 25 R443). -/
def execPatrolScrub (s : State) : Host.Outcome State Fault Refusal :=
  let a := s.inp.addr.toNat
  .next (match s.bankOfAddr a with
    | some (cl, n) =>
      if s.mod.scrubctl = 0 ∨ ((s.cluster cl).bank n).state ≥ 2 then s
      else
        let s := s.touchBank cl n
        match s.inp.idx with
        | 0 => s
        | 1 => s.eccLog false a
        | _ => s.poisonWord a
    | none => s)

/-- SLICE_ROW_REMAP: bank inp.idx of the slice of core inp.unit remaps a row to a spare of that bank; with none left its usable MiB falls
instead, to inp.val at most (01 R21; 25 R444). -/
def execSliceRowRemap (s : State) : Host.Outcome State Fault Refusal :=
  let c := s.inp.unit % 4096
  let b := s.inp.idx % 16
  let d := s.mod.defects
  .next (if !s.live c then s
    else if d.bankSpare c b > 0 then
      (s.modMod fun m => { m with defects := { d with spares := SMap.set d.spares (16 * c + b) (d.bankSpare c b - 1) } }).writeEntry c
    else
      let mib := min s.inp.val.toNat (min 479 (d.mib c - 1))
      let s := s.modMod fun m => { m with defects := { d with usable := SMap.set d.usable c mib } }
      (s.modMod fun m => { m with minslice := s.minSlice, replaceReq := true }).writeEntry c)

/-- HEALTH (25 R437). -/
def State.health (s : State) : Nat :=
  s.mod.live % 2 ^ 16 * 2 ^ 48 + s.mod.minslice % 2 ^ 16 * 2 ^ 32 + s.mod.eccu % 2 ^ 16 * 2 ^ 16 + (if s.mod.replaceReq then 1 else 0)

end Sys2Proof.Machine
end

