-- ==== Sys2Proof/Machine/RegModule.lean ====
section
/-! DEFINITION. The module block and the core blocks of the management space (18 R365, R369, R375; 17 R356; 10 R255,
R256; 01 R15; 19 R392, R393). -/

namespace Sys2Proof.Machine

/-! ## Semaphores (17 R356) -/

/-- The place of an agent's read of a semaphore among those of one cycle: port A, port B, system code. -/
def Agent.semRank (a : Agent) : Nat := a.semOwner.getD 3

/-- A read of a semaphore by an agent: a free one is taken by a reader that can own it (log 23). -/
def State.semRead (s : State) (k : Nat) (a : Agent) : State × Word :=
  let v := s.mod.sems.get (Fin.ofNat 64 k)
  let s := s.noteTurn (.sem k) a.semRank
  match a.semOwner with
  | some o => if bit v.toNat 0 then (s, v) else (s.modMod fun m => { m with sems := m.sems.set (Fin.ofNat 64 k) (BitVec.ofNat 64 (o * 256 + 1)) }, v)
  | none => (s, v)

/-- A write of a semaphore: a write of 0 by its owner frees it. -/
def State.semWrite (s : State) (k : Nat) (a : Agent) (v : Word) : State :=
  let old := s.mod.sems.get (Fin.ofNat 64 k)
  if v = 0 ∧ bit old.toNat 0 ∧ a.semOwner = some (bits old.toNat 8 2) then
    s.modMod fun m => { m with sems := m.sems.set (Fin.ofNat 64 k) 0 }
  else s

/-! ## Context descriptors (18 R369) -/

/-- The bit-reversal of a 32-bit number (19 R403). -/
def brev32 (x : Nat) : Nat := (List.range 32).foldl (fun n i => if bit x i then n + 2 ^ (31 - i) else n) 0

/-- Word w of a context descriptor. -/
def Ctx.word (c : Ctx) (w : Nat) : Word :=
  match w with
  | 0 => BitVec.ofNat 64 (c.part % 128 * 2 ^ 34 + (if c.sys then 2 ^ 33 else 0) + c.state % 8)
  | 1 => BitVec.ofNat 64 (bits c.tvec.toNat 0 32 * 2 ^ 32)
  | 2 => BitVec.ofNat 64 (c.shbase % 2 ^ 32 * 2 ^ 32 + bits c.tvec.toNat 32 32)
  | _ => c.xroot

/-- The key ring of a new context: the core of each logical index k holds BREV32(k) (19 R403). -/
def newTokens (cores : List Nat) : SMap Nat :=
  ((List.range cores.length).zip cores).foldl (fun m e => SMap.set m e.2 (brev32 e.1)) []

/-- The fields that word w of a descriptor sets. -/
def Ctx.setWord (c : Ctx) (w : Nat) (v : Word) : Ctx :=
  let x := v.toNat
  match w with
  | 0 => { c with part := bits x 34 7, sys := bit x 33 }
  | 1 => { c with tvec := BitVec.ofNat 64 (setBits c.tvec.toNat 0 32 (bits x 34 30 * 4)) }
  | 2 => { c with shbase := bits x 54 10 * 2 ^ 22, tvec := BitVec.ofNat 64 (setBits c.tvec.toNat 32 32 (bits x 0 32)) }
  | _ => { c with xroot := BitVec.ofNat 64 (bits x 12 52 * 4096) }

/-- A write of word w of a context descriptor: it acts only while the context is FREE or SAVED; FREE to SAVED creates the
context with reset values, SAVED to FREE destroys it (18 R369). -/
def State.ctxWrite (s : State) (k w : Nat) (v : Word) : State :=
  let c := s.ctx k
  if c.state > 1 then s
  else
    let d := c.setWord w v
    if w = 0 ∧ c.state = 0 ∧ bits v.toNat 0 3 = 1 then
      let cores := (s.part d.part).cores
      s.setCtx k { d with state := 1, saved := { placement := cores }, parked := false, tokens := newTokens cores }
    else if w = 0 ∧ c.state = 1 ∧ bits v.toNat 0 3 = 0 then s.setCtx k { d with state := 0, saved := {}, parked := false, tokens := [] }
    else s.setCtx k d

/-! ## The module block (18 R365) -/

/-- A read of a module register. -/
def State.moduleRead (s : State) (off : Nat) (a : Agent) : State × Word :=
  let m := s.mod
  let r := fun (x : Nat) => (s, BitVec.ofNat 64 x)
  if off % 8 ≠ 0 then r 0
  else if off = 0x00 then r m.placegen
  else if off = 0x08 then r m.mapgen
  else if off = 0x18 then r ((if m.xinvLost then 2 else 0) + if m.xinvBusy then 1 else 0)
  else if off = 0x20 then r s.health
  else if off = 0x30 then (s, m.retstat)
  else if off = 0x38 then (s, m.defbase)
  else if off = 0x40 then (s, m.scrubctl)
  else if off = 0x48 then (s, m.ecclog)
  else if 0x100 ≤ off ∧ off < 0x300 then s.semRead ((off - 0x100) / 8) a
  else if off = 0x300 then (s, m.thcfg)
  else if 0x400 ≤ off ∧ off < 0x600 then r (s.reticle ((off - 0x400) / 8)).thstat
  else if 0x800 ≤ off ∧ off < 0xA00 then r (pack 8 (s.reticle ((off - 0x800) / 8)).sensors.toList)
  else if 0x10000 ≤ off ∧ off < 0x18000 then (s, (s.ctx ((off - 0x10000) / 32)).word (off % 32 / 8))
  else if 0x20000 ≤ off ∧ off < 0x22000 then (s, SMap.getD m.enacc ((off - 0x20000) / 8) 0)
  else if off = 0x22000 then (s, m.ensys)
  else r 0

/-- A write of a module register. -/
def State.moduleWrite (s : State) (off : Nat) (a : Agent) (v : Word) : State :=
  if off % 8 ≠ 0 then s
  else if off = 0x10 then s.xinvWrite v
  else if off = 0x18 then s.modMod fun m => { m with xinvLost := m.xinvLost && !bit v.toNat 1 }
  else if off = 0x28 then s.retcmdWrite v
  else if off = 0x30 then s.modMod fun m => { m with retstat := m.retstat &&& ~~~(v &&& 6#64) }
  else if off = 0x40 then s.modMod fun m => { m with scrubctl := v &&& 0xFF#64 }
  else if off = 0x48 then s.modMod fun m => { m with ecclog := m.ecclog &&& ~~~(v &&& 0x8000000000000000#64) }
  else if 0x100 ≤ off ∧ off < 0x300 then s.semWrite ((off - 0x100) / 8) a v
  else if off = 0x300 then s.thcfgWrite v
  else if 0x10000 ≤ off ∧ off < 0x18000 then s.ctxWrite ((off - 0x10000) / 32) (off % 32 / 8) v
  else if 0x20000 ≤ off ∧ off < 0x22000 then s.modMod fun m => { m with enacc := SMap.set m.enacc ((off - 0x20000) / 8) v }
  else if off = 0x22000 then s.modMod fun m => { m with ensys := v }
  else s

/-! ## Task registers and the copied table (10 R255, R256) -/

def Core.ttcount (k : Core) : Nat := bits k.tskctl.toNat 16 8
def Core.tqmask (k : Core) : Nat := bits k.tskctl.toNat 0 8

/-- A pointer of the form TTBASE takes (10 R255). -/
def ttbaseOk (v : Word) : Bool :=
  space v == 4 && bits v.toNat 48 12 == 0 && bits v.toNat 22 10 == 0 && bits v.toNat 32 16 == 0xFFFF && v.toNat % 32 == 0

/-- Where an entry of a core's task table stands: the bank and the home address, by the steps of 05 R118. The table's pointer is a
launch record's too, which nothing has checked (17 R349). -/
def State.taskHome (s : State) (c : Nat) (p : Word) : Acc (Nat × Nat) := do
  chk (zeroOk p && space p == 4) cAddr
  chk (p.toNat % 32 == 0) cAlign
  match ((s.core c).banksOf 2)[bits p.toNat 0 22 / bankBytes]? with
  | none => flt cAddr
  | some b => do
    s.classOk (clusterOf c) (coreBank c b)
    .ok (b, bankAddr c b (bits p.toNat 0 22 % bankBytes))

/-- Read one entry of a core's task table (10 R256). An entry that is not aligned is unreadable too, as ADDR, the one code R261 has for an
address that fails 05 R118. -/
def State.readTask (s : State) (c : Nat) (p : Word) : TaskEntry :=
  match (do let (_, a) ← s.taskHome c p; s.homeRead a 32 : Acc Nat) with
  | .ok v => .entry (BitVec.ofNat 256 v)
  | .error (.fault x _) => .unreadable (if x = cAlign then cAddr else x)
  | .error _ => .unreadable cAddr

/-- The pointers to the entries of a core's task table. -/
def Core.taskPtrs (k : Core) : List Word := (List.range k.ttcount).map fun i => padd k.ttbase ((32 * i : Nat) : Int)

/-- The banks that hold a core's task table. -/
def State.taskBanks (s : State) (c : Nat) : List Nat :=
  dedup ((s.core c).taskPtrs.filterMap fun p => (s.taskHome c p).toOption.map (·.1))

/-- The copy of a core's task table waits for its banks: those that are not restored yet (18 R380), then those that sleep (13 R317). -/
def State.tasksReady (s : State) (c : Nat) : Acc Unit := do
  (s.taskBanks c).forM (s.restored c)
  s.awake ((s.taskBanks c).map fun b => (clusterOf c, coreBank c b))

/-- The scheduler copies the task table of a core (10 R256). -/
def State.copyTasks (s : State) (c : Nat) : State :=
  let s := (s.taskBanks c).foldl (fun s b => s.touchBank (clusterOf c) (coreBank c b)) s
  s.modCore c fun k => { k with table := k.taskPtrs.map (s.readTask c) }

/-- The scheduler copies the task table of a core when its banks are there. -/
def State.copyTasksNow (s : State) (c : Nat) : Acc State := do
  s.tasksReady c
  .ok (s.copyTasks c)

/-- A write to TSKCTL (10 R255, R256). -/
def State.tskctlWrite (s : State) (c : Nat) (v : Word) : Acc State :=
  (s.modCore c fun k => { k with tskctl := v &&& 0xFF00FF#64 }).copyTasksNow c

/-- A write to TTBASE (10 R255, R256): any other pointer form raises ADDR. -/
def State.ttbaseWrite (s : State) (c : Nat) (v : Word) : Acc State := do
  chk (ttbaseOk v) cAddr
  (s.modCore c fun k => { k with ttbase := v }).copyTasksNow c

/-- Is a headgate free to the scheduler (10 R258)? -/
def State.isFree (s : State) (k : Nat) : Bool := decide ((s.hg k).run = .idle) && (s.hg k).pendStart.isNone

/-- TSKSTAT (10 R255). -/
def State.tskstat (s : State) (c : Nat) : Nat :=
  (List.range 4).foldl (fun n h => if s.isFree (4 * c + h) then n else n + 2 ^ (12 + h)) 0
    + (s.core c).lastq % 8 * 256 + (s.core c).taskReady % 256

/-! ## Bank roles (01 R14 to R17) -/

/-- Has a role image only codes 0 to 4? -/
def rolesOk (v : Word) : Bool := (List.range 16).all fun k => decide (bits v.toNat (4 * k) 4 ≤ 4)

/-- A system-code write to a role register: it waits for the core's next fabric-load boundary (01 R15). -/
def State.roleWrite (s : State) (c which : Nat) (v : Word) : Acc State := do
  chk (rolesOk v) cIllegal
  .ok (s.modCore c fun k => if which = 0 then { k with pendRole0 := some v } else { k with pendRole1 := some v })

/-- A role register as it reads: the pending value at once (01 R15). -/
def Core.roleRead (k : Core) (which : Nat) : Word := if which = 0 then k.pendRole0.getD k.role0 else k.pendRole1.getD k.role1

/-- The waiter that stands for a core's own controllers. -/
def coreWaiter (c : Nat) : Nat := 4 * c

/-- The roles of a core become two images (01 R16): the lines of a bank leaving CACHE are written back and it reads as zero, one entering
CACHE holds no line; sluices in a bank whose role changed are unset (08 R219). DESIGN CHOICE (log 55): R16 names no other change than
those to and from CACHE and those among SCRATCH, OPERAND and CLUSTER. Here a bank keeps its bytes through role 0 too; and the raw bytes
(18 R363) of a bank that enters CACHE become zero and stay so, whatever lines it holds. -/
def State.setRoles (s : State) (c : Nat) (r0 r1 : Word) : State :=
  let old := s.core c
  let new := { old with role0 := r0, role1 := r1 }
  if r0 = old.role0 ∧ r1 = old.role1 then s
  else
    let changed := (List.range 32).filter fun b => old.role b != new.role b
    let s := (changed.filter fun b => old.role b == 1).foldl (fun s b => s.l1Leave (coreWaiter c) c b) s
    let s := (changed.filter fun b => old.role b == 1 || new.role b == 1).foldl (fun s b => s.clearRange (bankAddr c b 0) bankBytes) s
    let lies := fun (x : Sluice) =>
      let d := x.desc.toNat
      let u := 16 * 2 ^ bits d 60 4
      let banks := old.banksOf (if bits d 54 2 = 1 then 3 else 2)
      let first := bits d 0 22 / bankBytes
      let last := (bits d 0 22 + 2 ^ bits d 56 4 * u - 1) / bankBytes
      (List.range (last + 1 - first)).any fun i => (banks[first + i]?.map changed.contains).getD false
    s.modCore c fun k =>
      { k with role0 := r0, role1 := r1, sluices := k.sluices.map fun x => if x.set && lies x then { x with set := false } else x }

/-- A fabric-load boundary at a core: a CFG's roles first, then what system code wrote (01 R15). -/
def State.roleBoundary (s : State) (c : Nat) (cfg : Option (Word × Word)) : State :=
  let s := match cfg with
    | some (a, b) => s.setRoles c a b
    | none => s
  let k := s.core c
  let s := s.modCore c fun k => { k with pendRole0 := none, pendRole1 := none }
  s.setRoles c (k.pendRole0.getD k.role0) (k.pendRole1.getD k.role1)

/-! ## The core block (18 R365) -/

/-- A read of a core register. -/
def State.coreRead (s : State) (c off : Nat) : State × Word :=
  let k := s.core c
  if off = 0x00 then (s, s.coreid (4 * c))
  else if off = 0x10 then (s, k.roleRead 0)
  else if off = 0x18 then (s, k.roleRead 1)
  else if off = 0x20 then (s, k.tskctl)
  else if off = 0x28 then (s, k.ttbase)
  else if off = 0x30 then (s, BitVec.ofNat 64 (s.tskstat c))
  else if off = 0x40 then s.kmRead c
  else if off = 0x48 then (s, BitVec.ofNat 64 ((if k.kmovf then 256 else 0) + k.kmfifo.length))
  else (s, 0)

/-- A write of a core register. -/
def State.coreWrite (s : State) (c off : Nat) (v : Word) : Acc State :=
  if off = 0x10 then s.roleWrite c 0 v
  else if off = 0x18 then s.roleWrite c 1 v
  else if off = 0x20 then s.tskctlWrite c v
  else if off = 0x28 then s.ttbaseWrite c v
  else if off = 0x48 then .ok (if bit v.toNat 8 then s.modCore c fun k => { k with kmovf := false } else s)
  else .ok s

/-! ## Routers (19 R392, R393) -/

def rteOut (e : Nat) : Nat := bits e 27 3
def rteIn (e : Nat) : Nat := bits e 30 5

/-- Does a rectangle of an entry hold a core? -/
def rteHas (e x y : Nat) : Bool :=
  decide (bits e 0 6 ≤ x) && decide (x ≤ bits e 12 6) && decide (bits e 6 6 ≤ y) && decide (y ≤ bits e 18 6)

/-- Why an entry with V = 1 is refused at the router of a core, by the checks in their order but for ownership (19
R393). -/
def State.rteRefusal (s : State) (c e : Nat) : Option Nat :=
  let out := rteOut e
  let im := rteIn e
  if bits e 36 28 ≠ 0 ∨ bits e 24 3 ≠ 0 ∨ out ≥ 5 ∨ im = 0 ∨ bits e 0 6 > bits e 12 6 ∨ bits e 6 6 > bits e 18 6 then some 4
  else if out = 3 ∧ (bit im 0 ∨ bit im 2 ∨ bit im 3) then some 1
  else if out < 4 ∧ bit im out then some 2
  else if out < 4 ∧ !((neighbour c out).map s.live).getD false then some 3
  else if (out = 4 ∧ bits e 0 24 ≠ coreX c + coreY c * 2 ^ 6 + coreX c * 2 ^ 12 + coreY c * 2 ^ 18)
      ∨ (out ≠ 4 ∧ rteHas e (coreX c) (coreY c)) then some 5
  else none

/-- A routing entry. -/
def Core.rte (k : Core) (cls e : Nat) : Word := (k.routes.get (Fin.ofNat 4 cls)).get (Fin.ofNat 16 e)

/-- Record the refusal of a routing entry. -/
def State.routeRefused (s : State) (c cls e reason : Nat) : State :=
  s.modCore c fun k => { k with rtstat := BitVec.ofNat 64 (cls * 2 ^ 12 + e * 2 ^ 8 + reason * 2 + 1) }

/-- The output that a router takes for a packet of a class for a core, by its input (0 N, 1 E, 2 S, 3 W, 4 local): 4 for local.
None where the default would turn west after an input that forbids it (19 R394). -/
def State.routeOut (s : State) (c cls input dst : Nat) : Option Nat :=
  match (List.range 16).find? fun e =>
      let v := ((s.core c).rte cls e).toNat
      bit v 35 && bit (rteIn v) input && rteHas v (coreX dst) (coreY dst) with
  | some e => some (rteOut ((s.core c).rte cls e).toNat)
  | none =>
    if coreX dst < coreX c then (if input = 1 ∨ input = 4 then some 3 else none)
    else if coreX c < coreX dst then some 1
    else if coreY dst < coreY c then some 2
    else if coreY c < coreY dst then some 0
    else some 4

/-- Does an output of a router lead somewhere? -/
def State.openOut (s : State) (c o : Nat) : Bool := o == 4 || ((neighbour c o).map s.live).getD false

/-- The input of a router by which a packet stands there. -/
def Packet.standsAt (x : Packet) (c : Nat) : Option Nat :=
  match x.place with
  | .source => if x.src = c then some 4 else none
  | .router d i => if d = c then some i else none
  | .leaving | .arrived => none

/-- The output that a packet takes at a router; none while it must wait (19 R394). -/
def State.takesOut (s : State) (c input : Nat) (x : Packet) : Option Nat :=
  match x.out.filter (s.openOut c) with
  | some o => some o
  | none => (s.routeOut c x.cls input x.dst).filter (s.openOut c)

/-- A packet that stands at a router, with the output it has there. -/
def State.pinned (s : State) (c : Nat) (x : Packet) : Packet :=
  match x.standsAt c with
  | some i => if x.ready ≤ s.wt then { x with out := s.takesOut c i x } else x
  | none => x

/-- The packets that stand at a router keep the outputs they have, whatever is written into its tables next (19 R394). -/
def State.pinOuts (s : State) (c : Nat) : State :=
  s.modMod fun m => { m with packets := m.packets.map (s.pinned c) }

/-- A write of a routing entry (19 R393); its reserved bits keep nothing (R392; 00 R4). -/
def State.routeWrite (s : State) (c cls e : Nat) (v : Word) : State :=
  let put := (s.pinOuts c).modCore c fun k =>
    { k with routes := k.routes.set (Fin.ofNat 4 cls) ((k.routes.get (Fin.ofNat 4 cls)).set (Fin.ofNat 16 e) (v &&& 0xFF8FFFFFF#64)) }
  if !bit v.toNat 35 then put
  else match s.rteRefusal c v.toNat with
    | some r => s.routeRefused c cls e r
    | none => put

/-- Does a packet wait at a router for a legal output? -/
def State.blocks (s : State) (c : Nat) (x : Packet) : Bool :=
  match x.standsAt c with
  | some i => (s.takesOut c i x).isNone
  | none => false

/-- RTSTAT: BLOCKED shows the classes in which a packet waits here (19 R392). -/
def State.rtstat (s : State) (c : Nat) : Word :=
  let b := (List.range 4).foldl (fun n k =>
    if s.mod.packets.any fun p => p.cls == k && decide (p.ready ≤ s.wt) && s.blocks c p then n + 2 ^ (20 + k) else n) 0
  (s.core c).rtstat ||| BitVec.ofNat 64 b

/-- The class and entry that an offset of the router block names. -/
def routeSlot (off : Nat) : Option (Nat × Nat) :=
  if 0x100 ≤ off ∧ off < 0x300 ∧ off % 8 = 0 then some ((off - 0x100) / 128, (off - 0x100) % 128 / 8) else none

/-- A read of a router register. -/
def State.routerRead (s : State) (c off : Nat) : Word :=
  if off = 0 then s.rtstat c
  else match routeSlot off with
    | some (cls, e) => (s.core c).rte cls e
    | none => 0

/-- A write of a router register. -/
def State.routerWrite (s : State) (c off : Nat) (v : Word) : State :=
  if off = 0 then (if bit v.toNat 0 then s.modCore c fun k => { k with rtstat := k.rtstat &&& ~~~1#64 } else s)
  else match routeSlot off with
    | some (cls, e) => s.routeWrite c cls e v
    | none => s

end Sys2Proof.Machine
end

