-- ==== Sys2Proof/Machine/Reg6.lean ====
section
/-! DEFINITION. Region 6 of the management space: host ports, boot, RMCs, mailbox, capabilities, domain table, Ethernet,
debug, routers, domain time (26 R446, R447, R450 to R458; 17 R355; 19 R392, R398). -/

namespace Sys2Proof.Machine

/-! ## Host ports (17 R355; 26 R446, R449) -/

def Module.port (m : Module) (i : Nat) : HostPort := if i = 0 then m.portA else m.portB
def Module.modPort (m : Module) (i : Nat) (f : HostPort → HostPort) : Module :=
  if i = 0 then { m with portA := f m.portA } else { m with portB := f m.portB }

/-- A write to DCMD (17 R355): dropped with LOST while BUSY. -/
def HostPort.command (h : HostPort) (v : Word) : HostPort :=
  if h.dcmd.isSome then { h with dstat := h.dstat ||| 2#64 } else { h with dcmd := some v, dstat := h.dstat ||| 1#64 }

/-- A read of a host port register. -/
def HostPort.read (h : HostPort) (off : Nat) : Word :=
  if off = 0x008 then h.dstat
  else if off = 0x010 then h.mods
  else if 0x100 ≤ off ∧ off < 0x180 ∧ off % 8 = 0 then h.lstage.get (Fin.ofNat 16 ((off - 0x100) / 8))
  else 0

/-- A write of a host port register. -/
def HostPort.write (h : HostPort) (off : Nat) (v : Word) : HostPort :=
  if off = 0x000 then h.command v
  else if off = 0x008 then { h with dstat := h.dstat &&& ~~~(v &&& 2#64) }
  else if 0x100 ≤ off ∧ off < 0x180 ∧ off % 8 = 0 then { h with lstage := h.lstage.set (Fin.ofNat 16 ((off - 0x100) / 8)) v }
  else h

/-! ## Boot (26 R446, R452) -/

def Module.stage (m : Module) : Nat := bits m.bootstat.toNat 0 8

/-- Set STAGE and ERR of BOOTSTAT. -/
def Module.setStage (m : Module) (stage err : Nat) : Module :=
  { m with bootstat := BitVec.ofNat 64 (setBits (setBits m.bootstat.toNat 0 8 stage) 8 8 err) }

/-- A read of block 0x01. -/
def Module.bootRead (m : Module) (off : Nat) : Word :=
  if off = 0x000 then m.bootstat
  else if off = 0x008 then m.latbase
  else if off = 0x010 then m.fwbase
  else if off = 0x018 then m.fwsize
  else 0

/-- A write of block 0x01; setting LATBASE in stage 4 completes the boot, with the matrix of the body's sweep there (19 R395; logs 24,
61). -/
def Module.bootWrite (m : Module) (off : Nat) (v : Word) : Module :=
  if off = 0x008 then
    let m := { m with latbase := v }
    if m.stage = 4 then { m.setStage 5 0 with sweepAt := some 0 } else m
  else if off = 0x010 then { m with fwbase := v }
  else if off = 0x018 then { m with fwsize := v }
  else m

/-! ## RMCs (26 R458; 24 R430, R433) -/

/-- Is an RMC stopped by HALT? -/
def Hg.rmcHalted (h : Hg) : Bool := decide (h.run = .idle) && decide (h.wait = .halt)

/-- A halted RMC goes on at the instruction after its HALT. -/
def Hg.rmcResume (h : Hg) : Hg := { h with run := .program, wait := .none }

def Module.dbgHalted (m : Module) : Bool := bit m.dbgstat.toNat 0
def Module.rmch (m : Module) : Bool := bit m.dbgctl.toNat 2

/-- The doorbell of a reticle's RMC (26 R458): with FAULT set the RMC restarts at RMCPC, else a halted one resumes and a
running one latches the event. -/
def State.doorbell (s : State) (r : Nat) : State :=
  let m := (s.reticle r).rmc
  if m.fault then
    (s.modReticle r fun t => { t with rmc := { t.rmc with fault := false } }).modHg (rmcBase + r) fun h =>
      { h with pc := m.pc &&& 0xFFFFFFFFFFFFFFFC#64, stopped := s.mod.dbgHalted && s.mod.rmch, run := .program, wait := .none }
  else if (s.hg (rmcBase + r)).rmcHalted then s.modHg (rmcBase + r) Hg.rmcResume
  else s.rmcEvent r

/-- A read of block 0x02. -/
def Rmc.read (m : Rmc) (off : Nat) : Word :=
  if off = 0x008 then BitVec.ofNat 64 ((if m.wakepend then 2 else 0) + if m.fault then 1 else 0)
  else if off = 0x010 then m.pc
  else if 0x040 ≤ off ∧ off < 0x080 ∧ off % 8 = 0 then BitVec.ofNat 64 (m.trap / 2 ^ (8 * (off - 0x040)))
  else 0

/-- A write of block 0x02. -/
def State.rmcWrite (s : State) (r off : Nat) (v : Word) : State :=
  if off = 0x000 then s.doorbell r
  else if off = 0x010 then s.modReticle r fun t => { t with rmc := { t.rmc with pc := v } }
  else s

/-! ## The mailbox (26 R453) -/

def Module.mbBusy (m : Module) : Bool := bit m.mbstat.toNat 0

/-- A read of block 0x03. -/
def Module.mailRead (m : Module) (off : Nat) : Word :=
  if off = 0x008 then m.mbstat
  else if 0x400 ≤ off ∧ off < 0x800 ∧ off % 8 = 0 then m.mbdata.getD ((off - 0x400) / 8) 0
  else 0

/-- A list of words with entry i written, padded with zeros. -/
def setWordAt : List Word → Nat → Word → List Word
  | [], 0, v => [v]
  | [], i + 1, v => 0 :: setWordAt [] i v
  | _ :: t, 0, v => v :: t
  | x :: t, i + 1, v => x :: setWordAt t i v

/-- A write of block 0x03. -/
def Module.mailWrite (m : Module) (off : Nat) (v : Word) : Module :=
  if off = 0x000 then
    (if m.mbBusy then { m with mbstat := m.mbstat ||| 2#64 }
     else { m with mbcmd := v, mbstat := (m.mbstat &&& 2#64) ||| 1#64 })
  else if off = 0x008 then { m with mbstat := m.mbstat &&& ~~~(v &&& 2#64) }
  else if 0x400 ≤ off ∧ off < 0x800 ∧ off % 8 = 0 then { m with mbdata := setWordAt m.mbdata ((off - 0x400) / 8) v }
  else m

/-! ## Capability and domain tables (26 R447, R451) -/

/-- The writable bits of word w of a capability entry. -/
def capMask (w : Nat) : Word :=
  match w with
  | 0 => 0xE00000000000003F#64
  | 1 | 2 => 0x0FFFFFFFFFFFFFFF#64
  | _ => 0

/-- A read of the capability table. -/
def Module.capRead (m : Module) (off : Nat) : Word := BitVec.ofNat 64 (bits (SMap.getD m.caps (off / 32) 0) (64 * (off % 32 / 8)) 64)

/-- A write of the capability table. -/
def Module.capWrite (m : Module) (off : Nat) (v : Word) : Module :=
  let w := off % 32 / 8
  { m with caps := SMap.set m.caps (off / 32) (setBits (SMap.getD m.caps (off / 32) 0) (64 * w) 64 (v &&& capMask w).toNat) }

/-- The key of a domain-table entry. -/
def domKey (part module_ : Nat) : Nat := part * 16 + module_

/-! ## Debug (26 R454, R455) -/

/-- DBGSTAT.DONE: every enabled partition shows DONE. -/
def State.dbgDone (s : State) : Bool := s.mod.dbgHalted && s.parts.all fun e => !e.2.en || (e.2.halted && e.2.done)

/-- A whole-wafer halt request with its origin code (26 R454, R455): of two in one tick the lower code stands; one made
while HALTED = 1 changes nothing. -/
def State.waferHalt (s : State) (origin : Nat) : State :=
  if s.mod.dbgHalted then
    if s.mod.dbgWt = s.wt ∧ origin < bits s.mod.dbgstat.toNat 8 4 then
      s.modMod fun m => { m with dbgstat := BitVec.ofNat 64 (origin * 256 + 1) }
    else s
  else
    let s := s.modMod fun m => { m with dbgstat := BitVec.ofNat 64 (origin * 256 + 1), dbgWt := s.wt }
    let s := s.parts.foldl (fun s e => if e.2.en then s.haltLine e.1 else s) s
    if s.mod.rmch then (List.range 64).foldl (fun s r => s.modHg (rmcBase + r) fun h => { h with stopped := true }) s else s

/-- RESUMEALL (26 R454): only while DONE = 1. An RMC that the halt stopped goes on (log 25). -/
def State.resumeAll (s : State) : State :=
  if s.dbgDone then
    let s := s.parts.foldl (fun s e => if e.2.en then s.resumePart e.1 else s) s
    let s := (List.range 64).foldl (fun s r =>
      if (s.reticle r).rmc.fault then s else s.modHg (rmcBase + r) fun h => { h with stopped := false }) s
    s.modMod fun m => { m with dbgstat := 0 }
  else s

/-- A write to DBGCTL. -/
def State.dbgctlWrite (s : State) (v : Word) : State :=
  let s := s.modMod fun m => { m with dbgctl := v &&& 4#64 }
  let s := if bit v.toNat 1 then s.resumeAll else s
  if bit v.toNat 0 then s.waferHalt 2 else s

/-- DBGSTAT as it reads. -/
def State.dbgstatRead (s : State) : Word := if s.dbgDone then s.mod.dbgstat ||| 2#64 else s.mod.dbgstat

/-! ## Domain time (19 R398) -/

def Module.dtEn (m : Module) : Bool := bit m.dtctl.toNat 16
def Module.window (m : Module) : Nat := bits m.dtctl.toNat 0 14
def Module.members (m : Module) : Nat := bits m.dtctl.toNat 48 16
def Module.modid (m : Module) : Nat := bits m.dtctl.toNat 32 4
def Module.offb (m : Module) : Nat := bits m.dtstat.toNat 32 32
def Module.locked (m : Module) : Bool := bit m.dtstat.toNat 0

/-- DTSTAT.SYNC: EN = 1, LOCKED = 1 and OFFB below MINLAT. -/
def Module.syncNow (m : Module) : Bool := m.dtEn && m.locked && decide (m.offb < m.dtlat.toNat)

/-- A write to DTCTL: only EN changes while EN = 1; a W outside 800 to 12,800 is ignored. -/
def Module.dtctlWrite (m : Module) (v : Word) : Module :=
  let en := if bit v.toNat 16 then 2 ^ 16 else 0
  let w := if 800 ≤ bits v.toNat 0 14 ∧ bits v.toNat 0 14 ≤ 12800 then bits v.toNat 0 14 else m.window
  if m.dtEn then { m with dtctl := BitVec.ofNat 64 (m.members * 2 ^ 48 + m.modid * 2 ^ 32 + en + m.window) }
  else { m with dtctl := BitVec.ofNat 64 (bits v.toNat 48 16 * 2 ^ 48 + bits v.toNat 32 4 * 2 ^ 32 + en + w) }

/-- A read of block 0x11. -/
def Module.timeRead (m : Module) (off : Nat) : Word :=
  if off = 0x000 then m.dtctl
  else if off = 0x008 then BitVec.ofNat 64 (m.offb * 2 ^ 32 + (if m.syncNow then 2 else 0) + if m.locked then 1 else 0)
  else if off = 0x010 then m.dtlat
  else 0

/-- A write of block 0x11. -/
def Module.timeWrite (m : Module) (off : Nat) (v : Word) : Module :=
  if off = 0x000 then m.dtctlWrite v
  else if off = 0x010 then { m with dtlat := v &&& 0xFFFFFFFF#64 }
  else m

/-! ## The region as a whole (26 R446) -/

/-- A read of the register of region 6 that pointer bits x name. -/
def State.reg6Read (s : State) (x : Nat) : Word :=
  let i := mIndex x
  let off := mOff x
  match mBlock x with
  | 0x00 => if i < 2 then (s.mod.port i).read off else 0
  | 0x01 => if i = 0 then s.mod.bootRead off else 0
  | 0x02 => if i < 64 then (s.reticle i).rmc.read off else 0
  | 0x03 => if i = 0 then s.mod.mailRead off else 0
  | 0x04 => if i = 0 then s.mod.capRead off else 0
  | 0x05 => if i < 128 ∧ off < 128 then SMap.getD s.mod.domtab (domKey i (off / 8)) 0 else 0
  | 0x06 => if i < 32 ∧ off = 0 then SMap.getD s.mod.eth i 0 else 0
  | 0x07 => if i = 0 then (if off = 0 then s.mod.dbgctl else if off = 8 then s.dbgstatRead else 0) else 0
  | 0x10 => s.routerRead i off
  | 0x11 => if i = 0 then s.mod.timeRead off else 0
  | _ => 0

/-- A write of the register of region 6 that pointer bits x name. -/
def State.reg6Write (s : State) (x : Nat) (v : Word) : State :=
  let i := mIndex x
  let off := mOff x
  match mBlock x with
  | 0x00 => if i < 2 then s.modMod fun m => m.modPort i fun h => h.write off v else s
  | 0x01 => if i = 0 then s.modMod fun m => m.bootWrite off v else s
  | 0x02 => if i < 64 then s.rmcWrite i off v else s
  | 0x03 => if i = 0 then s.modMod fun m => m.mailWrite off v else s
  | 0x04 => if i = 0 then s.modMod fun m => m.capWrite off v else s
  | 0x05 => if i < 128 ∧ off < 128 then s.modMod fun m => { m with domtab := SMap.set m.domtab (domKey i (off / 8)) (v &&& 0x80000000000003FF#64) } else s
  | 0x07 => if i = 0 ∧ off = 0 then s.dbgctlWrite v else s
  | 0x10 => s.routerWrite i off v
  | 0x11 => if i = 0 then s.modMod fun m => m.timeWrite off v else s
  | _ => s

end Sys2Proof.Machine
end

