-- ==== Sys2Proof/Machine/Mgmt.lean ====
section
/-! DEFINITION. An access through the management space: its checks in their order, and what it reads or writes (18 R363,
R364; 26 R446 to R449). -/

namespace Sys2Proof.Machine

/-- Where a management access is performed. -/
inductive MgmtTarget where
  /-- a register -/
  | reg
  /-- bytes at a home -/
  | mem (a : Nat)
  deriving DecidableEq, Repr

/-- The source cluster of a waiter: none for an RMC or an agent outside the wafer. -/
def clusterOfWaiter (w : Nat) : Option Nat := if isRmc (seqOf w) then none else some (clusterOf (coreOf (seqOf w)))

/-- The zero fields of each region (18 R363; 26 R446). -/
def mgmtZeroOk (x : Nat) : Bool :=
  let gen0 := mGen x == 0
  match mRegion x with
  | 0 => gen0 && bits x 24 24 == 0
  | 1 => gen0 && bits x 47 1 == 0 && bits x 12 28 == 0
  | 2 => gen0 && bits x 41 7 == 0 && bits x 12 20 == 0
  | 3 => bits x 44 4 == 0 && bits x 12 20 == 0
  | 4 => bits x 44 4 == 0 && bits x 22 10 == 0
  | 5 => gen0 && bits x 41 7 == 0
  | 6 => gen0 && bits x 12 16 == 0
  | _ => false

/-- Does a region hold memory? -/
def mgmtMemory (x : Nat) : Bool := mRegion x == 4 || mRegion x == 5

/-- The physical core a pointer of region 3 or 4, or of the router block, names. -/
def mgmtCore (x : Nat) : Option Nat :=
  if mRegion x = 3 ∨ mRegion x = 4 then some (bits x 32 12)
  else if mRegion x = 6 ∧ mBlock x = 0x10 then some (mIndex x)
  else none

/-- Steps 2 to 4 of 05 R118 with the checks of 18 R363, R364: the zero fields, a vector access, AMO or fetch of registers,
the generation, the alignment, a dead core, the range. -/
def State.mgmtShape (s : State) (x n : Nat) (kind : Kind) : Acc Unit := do
  chk (mgmtZeroOk x) cAddr
  chk (mgmtMemory x || (decide (n ≤ 8) && (kind == .load || kind == .store))) cAddr
  chk (!((mRegion x == 3 || mRegion x == 4) && mGen x != s.mod.placegen % 256)) cStale
  chk (x % n == 0 && (mgmtMemory x || n == 8)) cAlign
  chk (((mgmtCore x).map s.live).getD true) cAddr
  chk (!(mRegion x == 4 && decide (bits x 0 22 ≥ 32 * bankBytes))) cAddr
  chk (!(mRegion x == 5 && !s.isBacked (bits x 0 41) n)) cAddr

/-- The capability check and the context-memory map (26 R447, R448). -/
def State.mgmtAllowed (s : State) (a : Agent) (x : Nat) (kind : Kind) : Bool :=
  s.allowed a (kind != .store) (kind == .store || kind == .amo) x
    && !(a == .rmc && mRegion x == 5 && kind != .store && s.mapped (bits x 0 41))
    && !(a == .rmc && mRegion x == 4 && (s.partOf (bits x 32 12)).isSome)

/-- The cluster at whose door a pointer's access waits while it sleeps (23 R416, R424, R431), and the cluster it lies in. -/
def mgmtCluster (x : Nat) : Option Nat × Option Nat :=
  match mRegion x with
  | 2 => (if bits x 0 12 < 0x100 then none else some (bits x 32 9), some (bits x 32 9))
  | 3 | 4 => (some (clusterOf (bits x 32 12)), some (clusterOf (bits x 32 12)))
  | 5 => (some (bits x 32 9), some (bits x 32 9))
  | 6 => (none, if mBlock x = 0x10 then some (clusterOf (mIndex x)) else none)
  | _ => (none, none)

/-- May a waiter's request reach what a pointer names now? -/
def State.mgmtCrossing (s : State) (w x : Nat) : Acc Unit := do
  let (door, place) := mgmtCluster x
  match clusterOfWaiter w with
  | some c => if place = some c then return () else s.leaving c
  | none => pure ()
  match door with
  | some d => if s.running d then .ok () else .error (.wait (.knock d))
  | none => .ok ()

/-- The semaphore that a pointer names. -/
def mgmtSem (x : Nat) : Option Nat :=
  let off := bits x 0 24
  if mRegion x = 0 ∧ 0x100 ≤ off ∧ off < 0x300 then some ((off - 0x100) / 8) else none

/-- A read of a semaphore comes in its turn among the reads of its cycle (17 R356). -/
def State.semTurn (s : State) (a : Agent) (x : Nat) (kind : Kind) : Acc Unit :=
  match kind, mgmtSem x with
  | .load, some k => waitFor (s.inTurn (.sem k) a.semRank)
  | .load, none | .store, _ | .amo, _ | .fetch, _ => .ok ()

/-- Where a management access goes, past its checks; an access of memory waits for its bank. -/
def State.mgmtTarget (s : State) (a : Agent) (w : Nat) (p : Word) (n : Nat) (kind : Kind) : Acc MgmtTarget := do
  let x := p.toNat
  s.mgmtShape x n kind
  chk (s.mgmtAllowed a x kind) cProt
  s.mgmtCrossing w x
  s.semTurn a x kind
  match mRegion x with
  | 4 => do
    let c := bits x 32 12
    let b := bits x 0 22 / bankBytes
    chk ((s.core c).role b != 0) cBank
    s.restored c b
    s.bankReady (clusterOf c) (32 * cicOf c + b)
    .ok (.mem (bankAddr c b (bits x 0 22 % bankBytes)))
  | 5 => do
    s.dramReady (bits x 32 9) 2 (bits x 0 41) w
    .ok (.mem (bits x 0 41))
  | _ => .ok .reg

/-- A read of a register by an agent (18 R365). -/
def State.regRead (s : State) (a : Agent) (x : Nat) : State × Nat :=
  match mRegion x with
  | 0 => let r := s.moduleRead (bits x 0 24) a; (r.1, r.2.toNat)
  | 1 => (s, s.partRead (bits x 40 7) (bits x 0 12))
  | 2 => (s, s.clusterRead (bits x 32 9) (bits x 0 12))
  | 3 => let r := s.coreRead (bits x 32 12) (bits x 0 12); (r.1, r.2.toNat)
  | 6 => (s, (s.reg6Read x).toNat)
  | _ => (s, 0)

/-- A write of a register by an agent (18 R365); by_ is the sequencer whose store it is: one that enables a partition with a
carve above 4 GiB raises CFG_BAD (01 R20). -/
def State.regWrite (s : State) (a : Agent) (by_ : Option Nat) (x : Nat) (v : Word) : Acc State :=
  match mRegion x with
  | 0 => .ok (s.moduleWrite (bits x 0 24) a v)
  | 1 => do
    if by_.isSome && s.carveRefused (bits x 40 7) (bits x 0 12) v then .error (.fault cCfgBad [unstated, 0xFFFF, 0, 0]) else pure ()
    .ok (s.partWrite (bits x 40 7) (bits x 0 12) v)
  | 2 => .ok (s.clusterWrite (bits x 32 9) (bits x 0 12) v by_)
  | 3 => s.coreWrite (bits x 32 12) (bits x 0 12) v
  | 6 => .ok (s.reg6Write x v)
  | _ => .ok s

/-- An access of a device's core to physical DRAM performs at the home: the core's L1 copy goes home first (12 R294). -/
def State.mgmtBypass (s : State) (w a n : Nat) : State :=
  if isRmc (seqOf w) || !isDram a then s else s.l1Bypass (coreOf (seqOf w)) w a n

/-- A management load of n bytes. -/
def State.mgmtRead (s : State) (a : Agent) (w : Nat) (p : Word) (n : Nat) (kind : Kind) : Acc (State × Nat) := do
  match ← s.mgmtTarget a w p n kind with
  | .reg => .ok (s.regRead a p.toNat)
  | .mem h => do
    let s := s.mgmtBypass w h n
    let v ← s.homeRead h n
    .ok (s.touchAs 2 h w false, v)

/-- Is a refused store of an agent the refusal of a routing entry (19 R393; 26 R447; log 26)? -/
def routeStore (a : Agent) (x : Nat) : Option (Nat × Nat) :=
  if (a == .rmc || a == .sysHg) && mRegion x == 6 && mBlock x == 0x10 then routeSlot (mOff x) else none

/-- A management store of n bytes. -/
def State.mgmtWrite (s : State) (a : Agent) (w : Nat) (p : Word) (n v : Nat) : Acc State := do
  let x := p.toNat
  s.mgmtShape x n .store
  match routeStore a x, s.mgmtAllowed a x .store with
  | some (cls, e), false => .ok (s.routeRefused (mIndex x) cls e 6)
  | _, _ => do
    match ← s.mgmtTarget a w p n .store with
    | .reg => s.regWrite a (if engOf w = 0 ∧ (a = .rmc ∨ a = .sysHg) then some (seqOf w) else none) x (BitVec.ofNat 64 v)
    | .mem h => .ok (((s.mgmtBypass w h n).homeWrite h n v).touchAs 2 h w true)

end Sys2Proof.Machine
end

