-- ==== Sys2Proof/Machine/Access.lean ====
section
/-! DEFINITION. Loads, stores and atomic operations through any pointer, for an instruction or an engine; releases and
acquires; the overlay of held stores (05 R118; 06 R152; 07 R166 to R172; 12 R293, R294, R306, R307). -/

namespace Sys2Proof.Machine

/-! ## Space 0x8 (12 R306, R307) -/

/-- The space-0x8 access that a waiter makes: the record of its request. -/
def State.remoteReq (s : State) (w m kind va n data : Nat) (blocking : Bool) : Remote :=
  { seqr := w, module_ := m, kind, addr := va, size := n, data, sent := s.wt, iaddr := (s.hg (seqOf w)).pc, blocking, reply := none }

/-- A space-0x8 access that waits for its reply: sent once, and then its data and the WT at which it was sent. Kind 0 load, 1
store, 16 + op an atomic operation. -/
def State.remoteCall (s : State) (w m kind va n data : Nat) : Acc (State × Nat × Nat) :=
  let q := s.remoteReq w m kind va n data true
  match s.mod.remotes.find? fun r => r.blocking && r.sameAs q with
  | some r =>
    match r.reply with
    | some v => .ok (s.modMod fun d => { d with remotes := d.remotes.filter fun x => !(x.blocking && x.sameAs q) }, v, r.sent)
    | none => .error (.wait .busy)
  | none => .error (.wait (.remote q))

/-- The window in which a headgate's latest space-0x8 store or AMO was sent (07 R174). -/
def State.noteWindow (s : State) (w sent : Nat) : State := s.modHg (seqOf w) fun h => { h with lastWin := some (sent / s.mod.window) }

/-- A store to space 0x8 (12 R306, R307). While the domain is synchronised it is posted: an engine's at once, an instruction's when the
other module has translated it, so that its fault is precise (05 R123; 18 R373; log 29). -/
def State.remoteStore (s : State) (w m va n v : Nat) : Acc State :=
  let q := s.remoteReq w m 1 va n v false
  if s.mod.sync ∧ engOf w ≠ 0 then
    .ok ((s.modMod fun d => { d with remotes := d.remotes ++ [q] }).noteWindow w s.wt)
  else
    match s.mod.remotes.find? fun r => r.blocking && r.sameAs q && r.passed && r.reply.isNone with
    | some r =>
      if s.mod.sync then
        .ok ((s.modMod fun d => { d with remotes := d.remotes.map fun x => if x.blocking && x.sameAs q then { x with blocking := false } else x })
          |>.noteWindow w r.sent)
      else .error (.wait .busy)
    | none => do
      let (s, _, sent) ← s.remoteCall w m 1 va n v
      .ok (s.noteWindow w sent)

/-- Are a headgate's space-0x8 stores visible, other than one that a waiter itself waits for (07 R174; 12 R306, R307): by the window, or
acknowledged while the domain is unsynchronised? -/
def State.remoteClearBut (s : State) (k w : Nat) : Bool :=
  if s.mod.sync then
    match (s.hg k).lastWin with
    | some m => decide ((m + 2) * s.mod.window ≤ s.wt)
    | none => true
  else s.mod.remotes.all fun r => seqOf r.seqr != k || r.kind == 0 || (r.blocking && r.seqr == w)

/-- Are the space-0x8 stores before a headgate's instruction visible? -/
def State.remoteClear (s : State) (k : Nat) : Bool := s.remoteClearBut k k

/-- Is a scope domain or wider? -/
def domainScope : Scope → Bool
  | .domain | .host => true
  | .port | .core | .cluster | .partition | .wafer => false

/-- Has every store of a sequencer to a cluster register performed (24 R431)? -/
def State.wakesDone (s : State) (k : Nat) : Bool := s.clusters.all fun e => e.2.wakeBy != some k

/-- Have a sequencer's earlier stores performed at a scope? -/
def State.storesDone (s : State) (k : Nat) (sc : Scope) : Bool := s.wakesDone k && (!domainScope sc || s.remoteClear k)

/-- The release part of an access or fence of a sequencer at a scope (07 R169; 12 R294, R306, R307): its earlier stores have performed, and
at a scope of cluster or wider the L1 is written back. -/
def State.release (s : State) (k : Nat) (sc : Scope) : Acc State := do
  waitFor (s.storesDone k sc)
  if wideScope sc && !isRmc k then do
    s.flushReady k [coreOf k]
    .ok (s.writeBackAll k (coreOf k))
  else .ok s

/-- What waits after the state has moved on keeps what was done (12 R294: a release's write-back comes before the access itself). -/
def Stop.keeping (t : State) : Stop → Stop
  | .fault c d => .fault c d
  | .wait w => .held t w
  | .held t w => .held t w

/-- An access after something that it keeps when it waits. -/
def keeping {α : Type} (t : State) (x : Acc α) : Acc α :=
  match x with
  | .ok v => .ok v
  | .error e => .error (e.keeping t)

/-- The acquire part (12 R294). -/
def State.acquire (s : State) (k : Nat) (sc : Scope) : State :=
  if wideScope sc && !isRmc k then s.selfInval (coreOf k) else s

/-! ## Any pointer -/

/-- The key of a window target's cell, and its checks (03 R73, R74; 23 R424). -/
def State.windowCell (s : State) (w p id row col off n : Nat) (store : Bool) : Acc Nat := do
  s.windowOk p id off n store
  match s.plot? p id with
  | some q =>
    let key := q.cellAt row col
    s.crossing (clusterOf (coreOf (seqOf w))) (clusterOf (key / 576))
    .ok key
  | none => flt cAddr

/-- A load of n bytes by a waiter; wide: it has acquire semantics at a scope of cluster or wider; own: it is a headgate's own LD or
LDV (10 R265). -/
def State.loadVia (s : State) (w : Nat) (p : Word) (n : Nat) (wide : Bool) (own : Bool := false) : Acc (State × Nat) := do
  match ← s.resolve w p n .load with
  | .home a => do
    s.homeReady w (space p) a n wide
    let s ← s.turnAt w (space p) a wide own
    s.loadAt w (space p) a n wide
  | .window q id row col off => do
    let key ← s.windowCell w q id row col off n false
    chk (!s.poisoned (cellAddr key off) n) cEcc
    .ok (s, (s.cell key).windowRead off n)
  | .remote m va => do
    let (s, v, _) ← s.remoteCall w m 0 va n 0
    .ok (s, v)
  | .mgmt => s.mgmtRead (agentOf w) w p n .load

/-- A store of n bytes by a waiter; wide: it has release semantics at a scope of cluster or wider; own: it is a headgate's own ST or
STV. -/
def State.storeVia (s : State) (w : Nat) (p : Word) (n v : Nat) (wide : Bool) (own : Bool := false) : Acc State := do
  match ← s.resolve w p n .store with
  | .home a => do
    s.homeReady w (space p) a n wide
    let s ← s.turnAt w (space p) a wide own
    .ok (s.storeAt w (space p) a n v wide)
  | .window q id row col off => do
    let key ← s.windowCell w q id row col off n true
    .ok ((s.modCell key fun c => c.windowWrite off n v).unpoison (cellAddr key off) n)
  | .remote m va => s.remoteStore w m va n v
  | .mgmt => s.mgmtWrite (agentOf w) w p n v

/-- Read and write n bytes at a home in one step, for a waiter through a space; a core's L1 copy goes home first (07 R170, R171). -/
def State.swapAt (s : State) (w sp a n : Nat) (f : Nat → Nat) : Acc (State × Nat) := do
  let s := if isRmc (seqOf w) || !isDram a then s else s.l1Bypass (coreOf (seqOf w)) w a n
  let old ← s.homeRead a n
  .ok ((if f old = old then s else s.homeWrite a n (f old)).touchAs sp a w (f old != old), old)

/-- An atomic operation of n bytes: the old value; code and data name it to a remote module (07 R170, R171). It performs at the home,
whatever its scope (log 9). -/
def State.amoVia (s : State) (w : Nat) (p : Word) (n : Nat) (f : Nat → Nat) (code data : Nat) : Acc (State × Nat) := do
  match ← s.resolve w p n .amo with
  | .home a => do
    s.homeReady w (space p) a n true
    let s ← s.turnAt w (space p) a true true
    s.swapAt w (space p) a n f
  | .remote m va => do
    let (s, v, sent) ← s.remoteCall w m (16 + code) va n data
    .ok (s.noteWindow w sent, v)
  | .mgmt => do
    match ← s.mgmtTarget (agentOf w) w p n .amo with
    | .mem a => s.swapAt w 2 a n f
    | .reg => flt cAddr
  | .window _ _ _ _ _ => flt cAddr

/-! ## Held stores seen by later loads (06 R152) -/

/-- The address by which overlap of held stores is judged: pointers as issued, before translation (06 R152). -/
def State.overlapKey (s : State) (p : Word) : Nat :=
  let x := p.toNat
  let own := fun (i self : Nat) => if i = 0xFFFF then self else i
  match space p with
  | 0 | 1 | 2 => bits x 0 48
  | 4 => 4 * 2 ^ 60 + own (bits x 32 16) (s.lcore (coreOf s.cur)) * 2 ^ 32 + bits x 0 22
  | 5 => 5 * 2 ^ 60 + own (bits x 32 16) (s.lclusOf (coreOf s.cur)) * 2 ^ 32 + bits x 0 25
  | _ => x

/-- The pointer, size and value of a held store. -/
def Held.store (h : Held) : Option (Word × Nat × Nat) :=
  match h.instr with
  | .st _ _ o z _ _ => some (effAddr h.ops.va o (sizeBytes z), sizeBytes z, h.ops.vd.toNat)
  | .stv _ _ o z _ _ => some (effAddr h.ops.va o (vsizeBytes z), vsizeBytes z, h.ops.vec.toNat)
  | _ => none

/-- The bank in which instructions are now held. -/
def Hg.bank (h : Hg) : List Held := if h.qb then h.bank1 else h.bank0

/-- The value of byte i of a load at a pointer after the held stores of a bank, in their order. -/
def State.overlayByte (s : State) (l : List Held) (p : Word) (i b : Nat) : Nat :=
  let k := s.overlapKey p + i
  l.foldl (fun b h =>
    match h.store with
    | some (q, n, v) =>
      let o := s.overlapKey q
      if o ≤ k ∧ k < o + n then v / 256 ^ (k - o) % 256 else b
    | none => b) b

/-- What a load of n bytes returns while instructions are held (06 R152). -/
def State.overlay (s : State) (p : Word) (n v : Nat) : Nat :=
  if s.me.forked then
    ofBytes ((List.range n).map fun i => BitVec.ofNat 8 (s.overlayByte s.me.bank p i (v / 256 ^ i % 256)))
  else v

end Sys2Proof.Machine
end

