-- ==== Sys2Proof/Machine/LdSt.lean ====
section
/-! DEFINITION. Loads and stores, the jump table, and the holding of instructions while FORKED = 1 (06 R144, R150; 07 R166
to R169). -/

namespace Sys2Proof.Machine

/-! ## Holding (06 R150) -/

/-- Put an instruction with its operands into the issuing bank; the 33rd raises ILLEGAL. -/
def Hg.hold (h : Hg) (x : Held) : Acc Hg :=
  if h.bank.length ≥ 32 then flt cIllegal
  else .ok (if h.qb then { h with bank1 := h.bank1 ++ [x] } else { h with bank0 := h.bank0 ++ [x] })

/-- An instruction of a kind that is held while FORKED = 1: its operand checks run at once; it is then held, or performs; what
the issue itself does to the headgate comes after. -/
def State.holdable (s : State) (g : PReg) (i : Instr) (o : Operands) (checks : Acc Unit)
    (perform : State → Acc State) (after : State → State := id) : Host.Outcome State Fault Refusal :=
  s.plain g (do
    checks
    if s.me.forked then done (after (s.setMe (← s.me.hold ⟨i, o, s.me.pc⟩)))
    else done (after (← perform s)))

/-! ## Loads and stores -/

/-- The effect of a load: the value at ea with what the issuing bank holds over it, and the acquire (07 R166, R169). -/
def State.loadEa (s : State) (ea : Word) (n : Nat) (sc : Scope) (acq : Bool) : Acc (State × Nat) := do
  let (t, v) ← s.loadVia s.cur ea n (acq && wideScope sc) true
  .ok (if acq then t.acquire t.cur sc else t, s.overlay ea n v)

/-- The effect of a store: the release, then the store (07 R166, R169). -/
def State.storeEa (s : State) (ea : Word) (n v : Nat) (sc : Scope) (rel : Bool) : Acc State := do
  let s ← if rel then s.release s.cur sc else pure s
  keeping s (s.storeVia s.cur ea n v (rel && wideScope sc) true)

/-- LD: s[d] := the n bytes at the effective address, zero-extended (07 R166). -/
def execLd (d a : SReg) (o : BitVec 8) (z : Size) (sc : Scope) (m : Bool) (s : State) : Host.Outcome State Fault Refusal :=
  s.plain 0 (do
    let n := sizeBytes z
    let (t, v) ← s.loadEa (effAddr (s.getS a) o n) n sc m
    done (t.setS d (BitVec.ofNat 64 v)))

/-- LDV: the low n bytes of v[d], the rest zero (07 R166). -/
def execLdv (d : VReg) (a : SReg) (o : BitVec 8) (z : VSize) (sc : Scope) (m : Bool) (s : State) :
    Host.Outcome State Fault Refusal :=
  s.plain 0 (do
    let n := vsizeBytes z
    let (t, v) ← s.loadEa (effAddr (s.getS a) o n) n sc m
    done (t.setV d (BitVec.ofNat 512 v)))

/-- ST when it performs, on the operands it issued with. -/
def State.performSt (s : State) (x : Operands) (o : BitVec 8) (z : Size) (sc : Scope) (m : Bool) : Acc State :=
  s.storeEa (effAddr x.va o (sizeBytes z)) (sizeBytes z) (x.vd.toNat % 256 ^ sizeBytes z) sc m

/-- STV when it performs, on the operands it issued with. -/
def State.performStv (s : State) (x : Operands) (o : BitVec 8) (z : VSize) (sc : Scope) (m : Bool) : Acc State :=
  s.storeEa (effAddr x.va o (vsizeBytes z)) (vsizeBytes z) (x.vec.toNat % 256 ^ vsizeBytes z) sc m

/-- ST: the low n bytes of s[d] at the effective address; held while FORKED = 1 (07 R166; 06 R150). -/
def execSt (d a : SReg) (o : BitVec 8) (z : Size) (sc : Scope) (m : Bool) (s : State) : Host.Outcome State Fault Refusal :=
  let x : Operands := { va := s.getS a, vd := s.getS d }
  s.holdable 0 (.st d a o z sc m) x (.ok ()) fun s => s.performSt x o z sc m

/-- STV: the low n bytes of v[d] at the effective address; held while FORKED = 1 (07 R166; 06 R150). -/
def execStv (d : VReg) (a : SReg) (o : BitVec 8) (z : VSize) (sc : Scope) (m : Bool) (s : State) :
    Host.Outcome State Fault Refusal :=
  let x : Operands := { va := s.getS a, vec := s.getV d }
  s.holdable 0 (.stv d a o z sc m) x (.ok ()) fun s => s.performStv x o z sc m

/-! ## JTAB (06 R144) -/

/-- The entry that an index takes of a table of n entries and a default. -/
def jtabIndex (i : Word) (n : BitVec 16) : Nat := min i.toNat n.toNat

/-- JTAB: the PC from the table's entry (06 R144). -/
def execJtab (d a : SReg) (n : BitVec 16) (s : State) : Host.Outcome State Fault Refusal :=
  s.plain 0 (do
    let p := s.getS a + BitVec.ofNat 64 (4 * jtabIndex (s.getS d) n)
    let (t, e) ← s.loadVia s.cur p 4 false
    .ok (t, .jump (s.getS a + toWord (4 * sx (s.overlay p 4 e) 32))))

end Sys2Proof.Machine
end

