-- ==== Sys2Proof/Machine/Amo.lean ====
section
/-! DEFINITION. Atomic operations (07 R170 to R172). -/

namespace Sys2Proof.Machine

/-- The bytes of an AMO: 8 with the size bit, else 4 (07 R170). -/
def amoBytes (z : Bool) : Nat := if z then 8 else 4

/-- The body of an AMO: the release and acquire of FN[7], the indivisible read and write, the old value into s[d] (07
R170, R172). data is what a remote module needs beside the code. -/
def State.amo (s : State) (d a : SReg) (sc : Scope) (r z : Bool) (code data : Nat) (f : Nat → Nat) :
    Host.Outcome State Fault Refusal :=
  s.unforked 0 (do
    let n := amoBytes z
    let t ← if r then s.release s.cur sc else pure s
    let (t, old) ← keeping t (t.amoVia s.cur (s.getS a) n (fun old => f old % 256 ^ n) code data)
    done ((if r then t.acquire s.cur sc else t).setS d (BitVec.ofNat 64 old)))

/-- s[b][8n-1:0] (07 R170). -/
def State.amoOperand (s : State) (b : SReg) (z : Bool) : Nat := (s.getS b).toNat % 256 ^ amoBytes z

/-- The signed value of an operand of an AMO. -/
def amoSigned (z : Bool) (x : Nat) : Int := sx x (8 * amoBytes z)

/-- AMO AADD: old + x (07 R170). -/
def execAmoAadd (d a b : SReg) (sc : Scope) (r z : Bool) (s : State) : Host.Outcome State Fault Refusal :=
  let x := s.amoOperand b z
  s.amo d a sc r z 0 x fun old => old + x

/-- AMO AMIN: the signed minimum (07 R170). -/
def execAmoAmin (d a b : SReg) (sc : Scope) (r z : Bool) (s : State) : Host.Outcome State Fault Refusal :=
  let x := s.amoOperand b z
  s.amo d a sc r z 1 x fun old => if amoSigned z x < amoSigned z old then x else old

/-- AMO AMAX: the signed maximum (07 R170). -/
def execAmoAmax (d a b : SReg) (sc : Scope) (r z : Bool) (s : State) : Host.Outcome State Fault Refusal :=
  let x := s.amoOperand b z
  s.amo d a sc r z 2 x fun old => if amoSigned z old < amoSigned z x then x else old

/-- AMO AMINN: the unsigned minimum (07 R170). -/
def execAmoAminn (d a b : SReg) (sc : Scope) (r z : Bool) (s : State) : Host.Outcome State Fault Refusal :=
  let x := s.amoOperand b z
  s.amo d a sc r z 3 x fun old => min old x

/-- AMO AMAXN: the unsigned maximum (07 R170). -/
def execAmoAmaxn (d a b : SReg) (sc : Scope) (r z : Bool) (s : State) : Host.Outcome State Fault Refusal :=
  let x := s.amoOperand b z
  s.amo d a sc r z 4 x fun old => max old x

/-- AMO AAND: old and x (07 R170). -/
def execAmoAand (d a b : SReg) (sc : Scope) (r z : Bool) (s : State) : Host.Outcome State Fault Refusal :=
  let x := s.amoOperand b z
  s.amo d a sc r z 5 x fun old => old &&& x

/-- AMO AOR: old or x (07 R170). -/
def execAmoAor (d a b : SReg) (sc : Scope) (r z : Bool) (s : State) : Host.Outcome State Fault Refusal :=
  let x := s.amoOperand b z
  s.amo d a sc r z 6 x fun old => old ||| x

/-- AMO AXOR: old xor x (07 R170). -/
def execAmoAxor (d a b : SReg) (sc : Scope) (r z : Bool) (s : State) : Host.Outcome State Fault Refusal :=
  let x := s.amoOperand b z
  s.amo d a sc r z 7 x fun old => old ^^^ x

/-- AMO ASWAP: x (07 R170). -/
def execAmoAswap (d a b : SReg) (sc : Scope) (r z : Bool) (s : State) : Host.Outcome State Fault Refusal :=
  let x := s.amoOperand b z
  s.amo d a sc r z 8 x fun _old => x

/-- AMO ACAS: s[b+1] when old equals x, else nothing written (07 R170). -/
def execAmoAcas (d a b : SReg) (sc : Scope) (r z : Bool) (s : State) : Host.Outcome State Fault Refusal :=
  let x := s.amoOperand b z
  let y := s.amoOperand (b + 1) z
  s.amo d a sc r z 9 (x + y * 2 ^ 64) fun old => if old = x then y else old

/-- AMO AFADD: the f32 sum, RNE, subnormals kept (07 R170). -/
def execAmoAfadd (d a b : SReg) (sc : Scope) (r z : Bool) (s : State) : Host.Outcome State Fault Refusal :=
  let x := s.amoOperand b z
  s.amo d a sc r z 10 x fun old => elemOp 0 .f32 .add old x 0

end Sys2Proof.Machine
end

