-- ==== Sys2Proof/Machine/Branch.lean ====
section
/-! DEFINITION. Branches, calls and jumps (06 R141 to R143). -/

namespace Sys2Proof.Machine

/-- A taken transfer to a target; one with bits [1:0] set raises ALIGN (06 R143). -/
def jumpTo (s : State) (t : Word) : Eff := if t.toNat % 4 = 0 then .ok (s, .jump t) else flt cAlign

/-- Is a B-format transfer taken: p[g] xor inv (05 R119)? -/
def State.taken (s : State) (g : PReg) (v : Bool) : Bool := s.getP g != v

/-- BR: PC := A + 4 x off when taken (06 R141). -/
def execBr (g : PReg) (v : Bool) (o : BitVec 22) (s : State) : Host.Outcome State Fault Refusal :=
  s.plain 0 (if s.taken g v then .ok (s, .jump (branchTarget s.me.pc o)) else done s)

/-- CALL: as BR, with s31 := A + 4 when taken (06 R141). -/
def execCall (g : PReg) (v : Bool) (o : BitVec 22) (s : State) : Host.Outcome State Fault Refusal :=
  s.plain 0 (if s.taken g v then .ok (s.setS 31 (s.me.pc + 4), .jump (branchTarget s.me.pc o)) else done s)

/-- JR: PC := s[a] (06 R142). -/
def execJr (a : SReg) (g : PReg) (s : State) : Host.Outcome State Fault Refusal := s.plain g (jumpTo s (s.getS a))

/-- JALR: s[d] := A + 4 and PC := s[a], read first (06 R142). -/
def execJalr (d a : SReg) (g : PReg) (s : State) : Host.Outcome State Fault Refusal :=
  s.plain g (jumpTo (s.setS d (s.me.pc + 4)) (s.getS a))

/-- RET: PC := s31 (06 R142). -/
def execRet (g : PReg) (s : State) : Host.Outcome State Fault Refusal := s.plain g (jumpTo s (s.getS 31))

end Sys2Proof.Machine
end

