-- ==== Sys2Proof/Machine/Image.lean ====
section
/-! DEFINITION. Records and configuration images in memory: reading them, and the checks of a fabric load
(01 R15, R17; 03 R54 to R67, R75; 08 R194, R197 to R202, R210; 09 R251; 14 R457). -/

namespace Sys2Proof.Machine

/-! ## Reading records (08 R194) -/

/-- The bytes of the next load of a record: the largest aligned access of 64, 16 or 1 bytes. -/
def chunkOf (p : Word) (n : Nat) : Nat :=
  if p.toNat % 64 = 0 ∧ 64 ≤ n then 64 else if p.toNat % 16 = 0 ∧ 16 ≤ n then 16 else 1

/-- The loads that read n bytes at a pointer, in at most fuel: (pointer, bytes). -/
def chunks : Nat → Word → Nat → List (Word × Nat)
  | 0, _, _ => []
  | fuel + 1, p, n =>
    if n = 0 then []
    else
      let c := chunkOf p n
      (p, c) :: chunks fuel (padd p c) (n - c)

/-- The loads of a block by a waiter, one after the other, as one number. -/
def State.readChunks (s : State) (w : Nat) : List (Word × Nat) → Acc (State × Nat)
  | [] => .ok (s, 0)
  | (p, c) :: t => do
    let (s, lo) ← s.loadVia w p c false
    let (s, hi) ← s.readChunks w t
    .ok (s, lo + 256 ^ c * hi)

/-- A waiter's transfers of a block count as granted, in every cluster. -/
def State.credited (s : State) (w : Nat) : State :=
  { s with clusters := s.clusters.map fun e => (e.1, { e.2 with transfers := ⟨w, 0, 2 ^ 32⟩ :: e.2.transfers.filter fun t => t.seqr != w }) }

/-- The units that a block's loads move in each cluster: its transfers, all granted, before and after. -/
def blockUnits (w : Nat) (a b : State) : List (Nat × Nat) :=
  a.clusters.filterMap fun e =>
    let u := e.2.gotBy w - (b.cluster e.1).gotBy w
    if u = 0 then none else some (e.1, u)

/-- The banks that any load of a block waits for. -/
def State.blockWakes (s : State) (w : Nat) (l : List (Word × Nat)) : List (Nat × Nat) :=
  l.flatMap fun e =>
    match s.loadVia w e.1 e.2 false with
    | .error (.wait (.wakes b)) => b
    | _ => []

/-- A block's loads go when every bank is awake and all their units are granted (13 R317, R325; log 31). -/
def State.blockReady (s : State) (w : Nat) (l : List (Word × Nat)) : Acc Unit :=
  if s.clusters.all fun e => e.2.eff == 0 then .ok ()
  else
    let rich := s.credited w
    match rich.readChunks w l with
    | .ok (t, _) => (blockUnits w rich t).forM fun e => s.budgetReady e.1 w e.2
    | .error (.fault _ _) | .error (.held _ _) => .ok ()
    | .error (.wait x) => .error (.wait x)

/-- A record of n bytes at a pointer, read with plain loads of a waiter (08 R194). -/
def State.readRec (s : State) (w : Nat) (p : Word) (n : Nat) : Acc (State × Nat) := do
  let l := chunks n p n
  s.blockReady w l
  match s.readChunks w l with
  | .error (.wait (.wakes _)) => .error (.wait (.wakes (s.blockWakes w l)))
  | r => r

/-- Does a stop raise a cause? -/
def Stop.isFault : Stop → Bool
  | .fault _ _ => true
  | .wait _ | .held _ _ => false

/-- Of the loads of a block, the address of the first that faults. -/
def State.faultAt (s : State) (w : Nat) (p : Word) (n : Nat) : Word :=
  (((chunks n p n).find? fun e => match s.loadVia w e.1 e.2 false with | .error x => x.isFault | .ok _ => false).map (·.1)).getD p

/-- n records of size bytes each. -/
def State.readTable (s : State) (w : Nat) (p : Word) (n size : Nat) : Acc (State × List Nat) :=
  if n = 0 then .ok (s, [])
  else do
    let (s, x) ← s.readRec w p (n * size)
    .ok (s, unpack x (8 * size) n)

/-! ## Refusals (14 R457) -/

/-- A refusal: the condition number, the plot, the cell {row, column}, the slot. -/
structure Refused where
  cond : Nat
  plot : Nat := 0xFFFF
  cell : Nat := 0
  slot : Nat := 0
  deriving DecidableEq, Repr

/-- The detail words of CFG_BAD. -/
def Refused.detail (r : Refused) : List Nat := [r.cond, r.plot, r.cell, r.slot]

/-- CFG_BAD. -/
def refuse {α : Type} (r : Refused) : Acc α := .error (.fault cCfgBad r.detail)

/-- An uncorrectable error of an image is CFG_ECC. -/
def imageEcc {α : Type} (plot cell : Nat) (r : Acc α) : Acc α :=
  match r with
  | .error (.fault c d) => .error (if c = cEcc then .fault cCfgEcc [0, plot, cell, 0] else .fault c d)
  | r => r

/-- The refusal of the lowest condition number, the first of its number. -/
def firstRefusal : List Refused → Option Refused
  | [] => none
  | r :: t =>
    match firstRefusal t with
    | some x => some (if x.cond < r.cond then x else r)
    | none => some r

/-! ## The tables of an image (08 R197 to R200) -/

/-- Is a header within its limits (08 R197; 01 R15)? -/
def headerOk (h : Nat) : Bool :=
  bits h 0 32 == 0x46435A4B && bits h 32 16 == 1 && decide (1 ≤ bits h 48 16) && decide (bits h 48 16 ≤ 256)
    && decide (bits h 64 16 ≤ 1024) && decide (bits h 80 16 ≤ 4096) && bits h 97 31 == 0 && bits h 448 64 == 0
    && bits h 256 64 % 64 == 0 && bits h 320 64 % 64 == 0 && bits h 384 64 % 64 == 0
    && (!bit h 96 || (rolesOk (BitVec.ofNat 64 (bits h 128 64)) && rolesOk (BitVec.ofNat 64 (bits h 192 64))))

/-- The role images of a header (08 R197). -/
def headerRoles (h : Nat) : Option (Word × Word) :=
  if bit h 96 then some (BitVec.ofNat 64 (bits h 128 64), BitVec.ofNat 64 (bits h 192 64)) else none

/-- Is a plot descriptor within its limits (08 R198)? -/
def descOk (x : Nat) : Bool :=
  bits x 16 48 == 0 && bits x 105 7 == 0 && bits x 128 8 == 0 && bits x 152 8 == 0 && bits x 384 128 == 0
    && decide (bits x 0 16 ≤ 1023) && decide (1 ≤ bits x 64 16) && decide (bits x 64 16 ≤ 384)
    && decide (1 ≤ bits x 80 16) && decide (bits x 80 16 ≤ 384) && decide (1 ≤ bits x 96 8) && decide (bits x 96 8 ≤ 32)
    && decide (bits x 136 8 ≤ 23) && decide (bits x 144 8 ≤ 23)

/-- The plot of a descriptor, not yet placed (08 R198). -/
def descPlot (image : Word) (x : Nat) : Nat × Plot :=
  (bits x 0 16,
    { st := .ready, startable := false, image, rows := bits x 64 16, cols := bits x 80 16, ii := bits x 96 8,
      redun := bit x 104, origin := bits x 112 16, i0 := bits x 136 8, j0 := bits x 144 8, rowlim := bits x 160 32,
      bypass := bits x 192 64, slotImg := BitVec.ofNat 64 (bits x 256 64), wsImg := BitVec.ofNat 64 (bits x 320 64) })

/-- Is a furrow record within its limits (08 R200)? -/
def furrowOk (x : Nat) : Bool :=
  bits x 18 14 == 0 && bits x 64 8 == 0 && bits x 74 6 == 0 && bits x 104 24 == 0
    && decide (3 ≤ bits x 96 8) && decide (bits x 96 8 ≤ 8)

/-- A furrow record (08 R200). -/
def furrowOf (x : Nat) : Furrow :=
  ⟨bits x 0 16, bits x 16 2, bits x 32 16, bits x 48 16, bits x 72 2, bits x 80 16, bits x 96 8⟩

/-- Is a binding record within its limits (08 R199)? -/
def bindOk (x : Nat) : Bool := bits x 34 2 == 0 && bits x 56 72 == 0 && bits x 36 2 != 3

/-- A binding record: logical core, headgate number, binding (08 R199). -/
def bindOf (x : Nat) : Nat × Nat × Binding := (bits x 40 16, bits x 38 2, ⟨bits x 0 16, bits x 32 2, bits x 16 16, bits x 36 2⟩)

/-- A configuration image: its plots in table order, furrows, bindings and role images. -/
structure Image where
  plots : List (Nat × Plot)
  furrows : List Furrow
  binds : List (Nat × Nat × Binding)
  roles : Option (Word × Word)
  deriving DecidableEq, Repr

/-! ## Placement (08 R198, R209, R210) -/

/-- The plot at its place, when its ORIGIN is a logical core of the partition. -/
def State.placed (s : State) (p : Nat) (q : Plot) : Option Plot :=
  ((s.part p).cores[q.origin]?).map fun c => { q with px := 24 * coreX c + q.i0, py := 24 * coreY c + q.j0 }

/-- The first n 16-bit offsets of a bypass record from a bit on. -/
def bypOffsets (x lo n : Nat) : List Nat := (List.range n).map fun k => bits x (lo + 16 * k) 16

/-- Are offsets ascending? -/
def ascending : List Nat → Bool
  | a :: b :: t => decide (a < b) && ascending (b :: t)
  | [_] | [] => true

/-- The plot with the lines that a bypass record names (08 R209). -/
def Plot.withBypass (q : Plot) (x : Nat) : Plot :=
  { q with bypRows := bypOffsets x 128 (min 8 (bits x 64 8)), bypCols := bypOffsets x 256 (min 8 (bits x 72 8)), gen := bits x 96 32 }

/-- Is a bypass record current, and does it agree with its plot's ROWS and COLS (08 R201, R210)? -/
def State.bypassOk (s : State) (q : Plot) (x : Nat) : Bool :=
  let r := q.withBypass x
  bits x 96 32 == s.mod.mapgen % 2 ^ 32 && bits x 80 8 == 0 && decide (bits x 64 8 ≤ 8) && decide (bits x 72 8 ≤ 8)
    && bits x 0 16 == q.rows && bits x 16 16 == q.cols
    && ascending r.bypRows && ascending r.bypCols
    && r.bypRows.all (fun o => decide (o < r.height)) && r.bypCols.all fun o => decide (o < r.width)

/-- Does a wafer cell lie on a live core of the partition? -/
def State.cellOwned (s : State) (p x y : Nat) : Bool :=
  decide (x < 1536) && decide (y < 1536) && (s.part p).cores.contains (coreAt (x / 24) (y / 24)) && s.live (coreAt (x / 24) (y / 24))

/-- Do all cores of a footprint lie in the partition and live? -/
def State.footprintOwned (s : State) (p : Nat) (q : Plot) : Bool :=
  decide (q.px + q.width ≤ 1536) && decide (q.py + q.height ≤ 1536)
    && q.cores.all fun c => (s.part p).cores.contains c && s.live c

/-- What is wrong with a plot's place (08 R201, conditions 3 and 5). -/
def State.placeRefusals (s : State) (p : Nat) (e : Nat × Plot) : List Refused :=
  let q := e.2
  let out := q.firstCell fun r c => !s.cellOwned p (q.px + q.physCol c) (q.py + q.physRow r)
  (if (s.placed p q).isNone then [{ cond := 3, plot := e.1 }]
   else if !s.footprintOwned p q then [{ cond := 3, plot := e.1, cell := out.getD 0 }]
   else
     match q.firstCell fun r c => s.mod.defects.cells.contains (q.cellAt r c / 576, q.cellAt r c % 576) with
     | some d => [{ cond := if q.bypass = 0 then 3 else 5, plot := e.1, cell := d }]
     | none => [])

/-! ## The conditions over the tables (08 R201) -/

/-- Repeated IDs and overlaps of a load's plots with those before them (conditions 2 and 3). -/
def selfRefusals : List (Nat × Plot) → List (Nat × Plot) → List Refused
  | _, [] => []
  | seen, e :: t =>
    (if seen.any fun x => x.1 == e.1 then [{ cond := 2, plot := e.1 }] else [])
      ++ (if seen.any fun x => x.2.meets e.2 then [{ cond := 3, plot := e.1 }] else []) ++ selfRefusals (seen ++ [e]) t

/-- The configured plots of a partition that a load overlaps or whose ID it lists. -/
def State.overlapped (s : State) (p : Nat) (l : List (Nat × Plot)) : List (Nat × Plot) :=
  (s.part p).plots.filter fun e => e.2.st != .unconf && l.any fun x => x.1 == e.1 || x.2.meets e.2

/-- Is a configured plot allowed under a load: idle, or a predecessor of a splice? -/
def underOk (splice : Bool) (l : List (Nat × Plot)) (q : Plot) : Bool :=
  !q.active || (splice && q.st == .running && l.any fun x => x.2.meets q)

/-- Conditions 2 and 4: an ID held by, or a footprint over, a plot that runs. -/
def State.runRefusals (s : State) (p : Nat) (splice : Bool) (l : List (Nat × Plot)) : List Refused :=
  l.flatMap fun e =>
    (if ((s.plot? p e.1).map (underOk splice l)).getD true then [] else [{ cond := 2, plot := e.1 }])
      ++ (if (s.part p).plots.any fun x => e.2.meets x.2 && !underOk splice l x.2 then [{ cond := 4, plot := e.1 }] else [])

/-- Conditions 6 and 10 of one segment end. -/
def endRefusals (l : List (Nat × Plot)) (id side seg : Nat) : List Refused :=
  match l.find? fun e => e.1 == id with
  | none => [{ cond := 6, plot := id }]
  | some (_, q) =>
    (if 24 * seg < q.sideLen side then [] else [{ cond := 6, plot := id }])
      ++ (if q.redun && (side == 0 || side == 2 || decide (q.rows < 24 * seg + 24)) then [{ cond := 10, plot := id }] else [])

/-- A segment end: plot, side, segment. -/
def Binding.end_ (b : Binding) : Nat × Nat × Nat := (b.plot, b.side, b.seg)
def Furrow.from_ (f : Furrow) : Nat × Nat × Nat := (f.fromPlot, f.fromSide, f.fromSeg)
def Furrow.to_ (f : Furrow) : Nat × Nat × Nat := (f.toPlot, f.toSide, f.toSeg)

/-- The ends that occur again later in a list (condition 7). -/
def repeats : List (Nat × Nat × Nat) → List Refused
  | [] => []
  | e :: t => (if t.contains e then [{ cond := 7, plot := e.1 }] else []) ++ repeats t

/-- Condition 7. -/
def endsTwice (im : Image) : List Refused :=
  let bs := im.binds.map (·.2.2)
  repeats (bs.map (·.end_)) ++ repeats (im.furrows.map (·.to_)) ++ repeats (im.furrows.map (·.from_))
    ++ (im.furrows.filter fun f => bs.any fun b => feeds b.kind && b.end_ == f.to_).map (fun f => { cond := 7, plot := f.toPlot })
    ++ (im.furrows.filter fun f => bs.any fun b => drains b.kind && b.end_ == f.from_).map fun f => { cond := 7, plot := f.fromPlot }

/-- The headgate a binding names. -/
def State.bindHg (s : State) (p : Nat) (b : Nat × Nat × Binding) : Option Nat := ((s.part p).cores[b.1]?).map fun c => 4 * c + b.2.1

/-- Condition 8: a headgate bound twice, or bound to a plot that stays. -/
def State.boundRefusals (s : State) (p : Nat) (im : Image) : List Refused :=
  let ks := im.binds.filterMap (s.bindHg p)
  let gone := (s.overlapped p im.plots).map (·.1)
  if (dedup ks).length < ks.length || ks.any fun k =>
      match (s.hg k).bound with
      | some b => (s.plot? p b.plot).isSome && !gone.contains b.plot
      | none => false
  then [{ cond := 8 }] else []

/-- Conditions 2 to 8 and 10. -/
def State.loadRefusals (s : State) (p : Nat) (splice : Bool) (im : Image) (bad5 : List Nat) : List Refused :=
  let l := im.plots
  selfRefusals [] l ++ s.runRefusals p splice l ++ bad5.map (fun id => { cond := 5, plot := id })
    ++ l.flatMap (s.placeRefusals p)
    ++ (im.binds.flatMap fun b =>
        (if (s.bindHg p b).isNone then [{ cond := 6, plot := b.2.2.plot }] else []) ++ endRefusals l b.2.2.plot b.2.2.side b.2.2.seg)
    ++ (im.furrows.flatMap fun f => endRefusals l f.fromPlot f.fromSide f.fromSeg ++ endRefusals l f.toPlot f.toSide f.toSeg)
    ++ endsTwice im ++ s.boundRefusals p im
    ++ (l.filter fun e => e.2.redun && decide (192 < e.2.rows)).map fun e => { cond := 10, plot := e.1 }

/-! ## Slot images (03 R54, R55, R63, R67, R75) -/

/-- Does a feed of the load reach an edge cell? -/
def Image.fed (im : Image) (id : Nat) (q : Plot) (row col : Nat) : Bool :=
  (q.sidesOf row col).any fun e =>
    (im.binds.any fun b => feeds b.2.2.kind && b.2.2.end_ == (id, e.1, e.2 / 24))
      || im.furrows.any fun f => f.to_ == (id, e.1, e.2 / 24)

/-- The first slot of a cell that R75 refuses, when first holds the slots of the plot's first cell. -/
def badSlot (fed : Bool) : Nat → List Nat → List Nat → Option Nat
  | k, x :: t, f :: ft =>
    if decide (x < 2 ^ 80) && slotOk x && (fed || !slotEdge x)
        && bHold (slotB x) == bHold (slotB f) && bMark (slotB x) == bMark (slotB f)
    then badSlot fed (k + 1) t ft else some k
  | _, _, _ => none

/-- Read and check the slots of a plot's cells: (row, column, slots). -/
def State.readSlots (s : State) (w : Nat) (im : Image) (id : Nat) (q : Plot) :
    Acc (State × List ((Nat × Nat) × List Nat)) :=
  let cells := (List.range q.rows).flatMap fun r => (List.range q.cols).map fun c => (r, c)
  cells.foldlM (fun (st : State × List ((Nat × Nat) × List Nat)) (e : Nat × Nat) => do
    let cell := e.1 * 2 ^ 16 + e.2
    let (t, l) ← imageEcc id cell (st.1.readTable w (padd q.slotImg (16 * ((e.1 * q.cols + e.2) * q.ii))) q.ii 16)
    match badSlot (im.fed id q e.1 e.2) 0 l ((st.2.head?.map (·.2)).getD l) with
    | some k => refuse { cond := 0, plot := id, cell, slot := k }
    | none => .ok (t, st.2 ++ [(e, l)])) (s, [])

/-- Is the slot of the last row of a ROWLIM a mark row (condition 9)? -/
def Plot.limitOk (q : Plot) (first : List Nat) : Bool :=
  q.rowlim == 0 || bMark (slotB (first.getD ((q.rowlim - 1) % q.ii) 0))

/-- The CLUSTER banks that role images give. -/
def clusterBanks (r : Word × Word) : Nat :=
  ((List.range 16).filter fun k => bits r.1.toNat (4 * k) 4 == 4).length
    + ((List.range 16).filter fun k => bits r.2.toNat (4 * k) 4 == 4).length

/-- May a load's CLUSTER roles stand (01 R17): none in a cluster that is not wholly owned, and in any other as many at each live core? -/
def State.clusterRolesOk (s : State) (p : Nat) (cores : List Nat) (r : Word × Word) : Bool :=
  (clustersOf cores).all fun cl =>
    let n := fun c => if cores.contains c then clusterBanks r else ((s.core c).banksOf 4).length
    let ns := (s.liveOf cl).map n
    if (s.liveOf cl).all (s.part p).cores.contains then ns.all (· == ns.headD 0) else clusterBanks r == 0

/-! ## Checking and staging (08 R202, R207) -/

/-- Read the header and the tables of an image, with condition 1. -/
def State.readImage (s : State) (w : Nat) (img : Word) : Acc (State × Image) := do
  let (s, h) ← imageEcc 0xFFFF 0 (s.readRec w img 64)
  if !headerOk h then refuse { cond := 1 }
  let (s, ds) ← imageEcc 0xFFFF 0 (s.readTable w (padd img (bits h 256 64)) (bits h 48 16) 64)
  let (s, fs) ← imageEcc 0xFFFF 0 (s.readTable w (padd img (bits h 320 64)) (bits h 64 16) 16)
  let (s, bs) ← imageEcc 0xFFFF 0 (s.readTable w (padd img (bits h 384 64)) (bits h 80 16) 16)
  match ds.find? fun d => !descOk d with
  | some d => refuse { cond := 1, plot := bits d 0 16 }
  | none =>
    if fs.all furrowOk && bs.all bindOk then .ok (s, ⟨ds.map (descPlot img), fs.map furrowOf, bs.map bindOf, headerRoles h⟩)
    else refuse { cond := 1 }

/-- Place the plots of an image, reading their bypass records: the plots, and those whose record is not current. -/
def State.placeAll (s : State) (p w : Nat) (l : List (Nat × Plot)) : Acc (State × List (Nat × Plot) × List Nat) :=
  l.foldlM (fun (st : State × List (Nat × Plot) × List Nat) (e : Nat × Plot) => do
    let q := (st.1.placed p e.2).getD e.2
    if q.bypass = 0 then .ok (st.1, st.2.1 ++ [(e.1, q)], st.2.2)
    else do
      let (t, x) ← imageEcc e.1 0 (st.1.readRec w (BitVec.ofNat 64 q.bypass) 64)
      .ok (t, st.2.1 ++ [(e.1, q.withBypass x)], if t.bypassOk q x then st.2.2 else st.2.2 ++ [e.1])) (s, [], [])

/-- The cells that a logical cell of copy A configures: itself, and its fellow in copy B (09 R251). -/
def Plot.copies (q : Plot) (row col : Nat) : List Nat :=
  q.cellAt row col :: (if q.redun then [q.cellAt (row + q.rows) col] else [])

/-- Put staged slots into the shadow banks of a plot's cells. -/
def State.stageSlots (s : State) (q : Plot) (l : List ((Nat × Nat) × List Nat)) : State :=
  l.foldl (fun s e => (q.copies e.1.1 e.1.2).foldl (fun s key =>
    s.modCell key fun c => { c with shSlots := (List.range q.ii).zip e.2 }) s) s

/-- The weight-store images of a plot: cell to its 128 rows (08 R198). -/
def State.readStores (s : State) (w id : Nat) (q : Plot) : Acc (State × SMap (SMap Nat)) :=
  if q.wsImg = 0 then .ok (s, [])
  else
    let cells := (List.range q.rows).flatMap fun r => (List.range q.cols).map fun c => (r, c)
    cells.foldlM (fun (st : State × SMap (SMap Nat)) (e : Nat × Nat) => do
      let (t, l) ← imageEcc id (e.1 * 2 ^ 16 + e.2) (st.1.readTable w (padd q.wsImg (2048 * (e.1 * q.cols + e.2))) 128 16)
      .ok (t, (q.copies e.1 e.2).foldl (fun m key => SMap.set m key ((List.range 128).zip l)) st.2)) (s, [])

/-- Are a partition's shadow banks free for a configuration: no pre-emption has been accepted that has not flipped (18 R376)? -/
def State.shadowsFree (s : State) (p : Nat) : Bool :=
  match (s.part p).sw with
  | .requested _ _ _ _ | .flip _ _ => false
  | .none => true

/-- Read, check and stage a fabric load for a waiter of a partition (08 R201, R202, R207): what the image describes, its
slot words in the shadow banks of the cells it covers. -/
def State.stage (s : State) (p w : Nat) (img : Word) (splice : Bool) : Acc (State × Load) := do
  waitFor (s.shadowsFree p)
  let (s, im) ← s.readImage w img
  let (s, l, bad5) ← s.placeAll p w im.plots
  let im := { im with plots := l }
  match firstRefusal (s.loadRefusals p splice im bad5) with
  | some r => refuse r
  | none => do
    let (s, slots) ← l.foldlM (fun (st : State × List (List ((Nat × Nat) × List Nat))) (e : Nat × Plot) => do
      let (t, x) ← st.1.readSlots w im e.1 e.2
      if !e.2.limitOk ((x.head?.map (·.2)).getD []) then refuse { cond := 9, plot := e.1 }
      .ok (t, st.2 ++ [x])) (s, [])
    match im.roles with
    | some r => if !s.clusterRolesOk p (dedup (l.flatMap fun e => e.2.cores)) r then refuse { cond := 0 }
    | none => pure ()
    let s := (l.zip slots).foldl (fun s e => s.stageSlots e.1.2 e.2) s
    let ks := im.binds.filterMap fun b => (s.bindHg p b).map fun k => (k, b.2.2)
    let plots := l.map fun e => (e.1, { e.2 with
      furrows := im.furrows.filter fun f => f.fromPlot == e.1,
      binds := (ks.filter fun b => b.2.plot == e.1).map fun b => (b.2.side, b.2.seg, b.2.kind, b.1) })
    .ok (s, { plots := plots.foldl (fun m e => SMap.set m e.1 e.2) [], binds := ks, roles := im.roles })

end Sys2Proof.Machine
end

