-- ==== Sys2Proof/Machine/Sync.lean ====
section
/-! DEFINITION. Fences and barriers (07 R173 to R179). -/

namespace Sys2Proof.Machine

/-! ## Fences -/

/-- Has every STRM, WDEC and CHAIN command of a headgate finished or stopped at an engine fault (07 R173)? -/
def Hg.commandsDone (h : Hg) : Bool :=
  (h.node0.queue.isEmpty || h.node0.cause != 0) && (h.node1.queue.isEmpty || h.node1.cause != 0)
    && (h.dec.queue.isEmpty || h.dec.parked) && (h.chain.queue.isEmpty || h.chain.cause != 0)

/-- What a fence of a scope does to the core's L1 (12 R294). -/
def State.fenceL1 (s : State) (k : Nat) (sc : Scope) (wb inv : Bool) : Acc State :=
  if wideScope sc && !isRmc k then do
    if wb then s.flushReady k [coreOf k] else pure ()
    let s := if wb then s.writeBackAll k (coreOf k) else s
    .ok (if inv then s.selfInval (coreOf k) else s)
  else .ok s

/-- A whole FENCE at a scope (07 R173). -/
def State.fullFence (s : State) (sc : Scope) : Acc State := do
  waitFor (s.me.commandsDone && s.storesDone s.cur sc)
  s.fenceL1 s.cur sc true true

/-- FENCE (07 R173). -/
def execFence (sc : Scope) (g : PReg) (s : State) : Host.Outcome State Fault Refusal :=
  s.unforked g (do done (← s.fullFence sc))

/-- FENCE.LD: every load has performed when it returned its value (07 R173). -/
def execFenceLd (sc : Scope) (g : PReg) (s : State) : Host.Outcome State Fault Refusal :=
  s.unforked g (do done (← s.fenceL1 s.cur sc false true))

/-- FENCE.ST (07 R173). -/
def execFenceSt (sc : Scope) (g : PReg) (s : State) : Host.Outcome State Fault Refusal :=
  s.unforked g (do
    waitFor (s.storesDone s.cur sc)
    done (← s.fenceL1 s.cur sc true false))

/-- WFENCE: until the window of the latest space-0x8 store or AMO is two windows old, or its stores are acknowledged
(07 R174; 12 R307). -/
def execWfence (g : PReg) (s : State) : Host.Outcome State Fault Refusal :=
  s.unforked g (do
    waitFor (s.remoteClear s.cur)
    done (s.setMe { s.me with lastWin := none }))

/-- Is the plot a headgate is bound to RUNNING or STOPPING? -/
def State.boundActive (s : State) (k : Nat) : Bool :=
  match (s.hg k).bound, s.partOfHg k with
  | some b, some p => ((s.plot? p b.plot).map (·.active)).getD false
  | _, _ => false

/-- MFENCE: until the next mark commit, STOPP or unbinding of the plot, and then a FENCE at partition scope (07 R175). -/
def execMfence (g : PReg) (s : State) : Host.Outcome State Fault Refusal :=
  s.unforked g (
    match s.me.wait with
    | .mfence false => waitFor false >>= fun _ => done s
    | .mfence true => do
      let s ← s.fullFence .partition
      done (s.setMe { s.me with wait := .none })
    | .none | .coll _ | .cfg _ | .halt =>
      if s.boundActive s.cur then .ok (s.setMe { s.me with wait := .mfence false }, .stay)
      else do done (← s.fullFence .partition))

/-- IFENCE: the core's L1 self-invalidates, and the instruction cache is emptied (07 R176). -/
def execIfence (g : PReg) (s : State) : Host.Outcome State Fault Refusal :=
  s.unforked g (do
    waitFor (s.wakesDone s.cur)
    let s ← s.fenceL1 s.cur .cluster false true
    done (s.setMe { s.me with icache := [] }))

/-! ## Barriers (07 R177 to R179) -/

/-- The fields of a barrier record. -/
structure BarRec where
  exp : Word
  arr : Word
  gen : Nat
  deriving DecidableEq, Repr

/-- The record a 256-bit number spells, and back; reserved bits are kept apart. -/
def BarRec.of (x : Nat) : BarRec := ⟨BitVec.ofNat 64 x, BitVec.ofNat 64 (x / 2 ^ 64), bits x 128 32⟩
def BarRec.image (r : BarRec) (high : Nat) : Nat := r.exp.toNat + r.arr.toNat * 2 ^ 64 + r.gen % 2 ^ 32 * 2 ^ 128 + high * 2 ^ 160

/-- complete(): when every expected slot has arrived the generation advances (07 R178). -/
def BarRec.complete (r : BarRec) : BarRec := if r.arr = r.exp then { r with arr := 0, gen := (r.gen + 1) % 2 ^ 32 } else r

/-- The mask of a slot. -/
def slotMask (k : Word) : Word := 1#64 <<< (k.toNat % 64)

/-- The arrival of a slot: the record after it; ILLEGAL unless it is expected and has not arrived. -/
def BarRec.arrive (r : BarRec) (k : Word) : Acc BarRec :=
  let m := slotMask k
  if r.exp &&& m = 0 ∨ r.arr &&& m ≠ 0 then flt cIllegal else .ok { r with arr := r.arr ||| m }.complete

/-- The leave of a slot. -/
def BarRec.leave (r : BarRec) (k : Word) : BarRec :=
  let m := slotMask k
  if r.exp &&& m ≠ 0 then { r with exp := r.exp &&& ~~~m, arr := r.arr &&& ~~~m }.complete else r

/-- The home of a barrier record (07 R177): space 0x4, 0x5 or 0x6, 32-byte aligned. -/
def State.barHome (s : State) (p : Word) : Acc Nat := do
  chk (!(space p == 15 && !s.me.sys)) cPriv
  chk (space p == 4 || space p == 5 || space p == 6) cAddr
  match ← s.resolve s.cur p 32 .amo with
  | .home a => .ok a
  | .window _ _ _ _ _ | .remote _ _ | .mgmt => flt cAddr

/-- Read a barrier record: its home and its 256 bits. -/
def State.barRead (s : State) (p : Word) : Acc (Nat × Nat) := do
  let a ← s.barHome p
  let x ← s.homeRead a 32
  .ok (a, x)

/-- Write a barrier record back. -/
def State.barWrite (s : State) (a x : Nat) : State := (s.homeWrite a 32 x).touched a

/-- A slot number; ILLEGAL beyond 63 (07 R178). -/
def barSlotOk (k : Word) : Acc Unit := chk (k.toNat < 64) cIllegal

/-- BINIT: EXP := s[b], ARR and the reserved bits 0, GEN unchanged (07 R178). -/
def execBinit (a b : SReg) (g : PReg) (s : State) : Host.Outcome State Fault Refusal :=
  s.unforked g (do
    let (h, x) ← s.barRead (s.getS a)
    done (s.barWrite h (BarRec.image { BarRec.of x with exp := s.getS b, arr := 0 } 0)))

/-- BARR: a release at partition scope; the slot arrives, and s[d] is the generation before (07 R178, R179). -/
def execBarr (d a b : SReg) (g : PReg) (s : State) : Host.Outcome State Fault Refusal :=
  s.unforked g (do
    barSlotOk (s.getS b)
    let t ← s.release s.cur .partition
    let (h, x) ← keeping t (t.barRead (s.getS a))
    let r ← (BarRec.of x).arrive (s.getS b)
    done ((t.barWrite h (r.image (x / 2 ^ 160))).setS d (BitVec.ofNat 64 (BarRec.of x).gen)))

/-- BWAIT: until the generation differs from s[b]; then an acquire at partition scope (07 R178, R179). -/
def execBwait (a b : SReg) (g : PReg) (s : State) : Host.Outcome State Fault Refusal :=
  s.unforked g (do
    let (h, x) ← s.barRead (s.getS a)
    waitFor ((BarRec.of x).gen != low32 (s.getS b))
    done ((s.touch h).acquire s.cur .partition))

/-- BLEAVE: the slot leaves; one that is not expected changes nothing (07 R178). -/
def execBleave (a b : SReg) (g : PReg) (s : State) : Host.Outcome State Fault Refusal :=
  s.unforked g (do
    barSlotOk (s.getS b)
    let (h, x) ← s.barRead (s.getS a)
    done (s.barWrite h (((BarRec.of x).leave (s.getS b)).image (x / 2 ^ 160))))

/-- BQRY: EXP, ARR or GEN (07 R178). -/
def execBqry (d a b : SReg) (g : PReg) (s : State) : Host.Outcome State Fault Refusal :=
  s.unforked g (do
    chk ((s.getS b).toNat < 3) cIllegal
    let (h, x) ← s.barRead (s.getS a)
    let r := BarRec.of x
    done ((s.touch h).setS d (if s.getS b = 0 then r.exp else if s.getS b = 1 then r.arr else BitVec.ofNat 64 r.gen)))

end Sys2Proof.Machine
end

