-- ==== Sys2Proof/Machine/Fab.lean ====
section
/-! DEFINITION. The FAB group and its background work: fabric loads, starting and stopping plots, splices, bypass, delay
and hold records (03 R53, R71, R456; 08 R202 to R212; 09 R253, R254; 12 R304). -/

namespace Sys2Proof.Machine

/-- The partition of a headgate; a sequencer of no partition has one without cores or plots (log 27). -/
def State.hgPart (s : State) (k : Nat) : Nat := (s.partOfHg k).getD 4096

/-! ## Cells at a switch (03 R53, R456) -/

/-- Is a wafer cell of a plot's footprint on a bypassed line? -/
def Plot.onBypass (q : Plot) (x y : Nat) : Bool := q.bypCols.contains (x - q.px) || q.bypRows.contains (y - q.py)

/-- The cells of the lines that a plot's bypass record names take the isolate word (03 R456). -/
def State.isolateLines (s : State) (q : Plot) : State :=
  (List.range q.height).foldl (fun s y => (List.range q.width).foldl (fun s x =>
    if q.onBypass (q.px + x) (q.py + y) then s.modCell (cellKey (q.px + x) (q.py + y)) fun c => { c with slots := [(0, isolateWord)] }
    else s) s) s

/-- What a CFG clears in a cell (03 R53): G_cell and the weight store stay. -/
def Cell.clear (c : Cell) : Cell := { c with regs := { g := c.regs.g }, ckpt := { g := 0 }, pend := [] }

/-! ## Bindings -/

/-- A headgate's binding takes effect on a segment of n lanes (08 R202). -/
def Hg.bind (h : Hg) (b : Binding) (n : Nat) : Hg :=
  let d : DrainPos := { counts := List.replicate n 0 }
  let base := (h.drain.rows.head?.map (·.dbase)).getD h.drain.total
  { h with
    bound := some b, nextBound := none, feed := { h.feed with tokenAt := none },
    drain := { h.drain with
      rows := h.drain.rows.map fun c => { c with dbase := c.dbase - base }, total := h.drain.total - base, pos := d, mark := d } }

/-- The bindings of a load take effect. -/
def State.bindAll (s : State) (l : Load) : State :=
  l.binds.foldl (fun s b =>
    match SMap.get? l.plots b.2.plot with
    | some q => s.modHg b.1 fun h => h.bind b.2 (q.segLanes b.2.side b.2.seg).length
    | none => s) s

/-- A headgate's staged splice over cells of a load is discarded: its staging begins again (03 R72). -/
def Hg.discardStaging (h : Hg) (l : SMap Plot) : Hg :=
  { h with splice := h.splice.map fun x =>
      if x.staged && x.load.plots.any (fun e => l.any fun y => y.2.meets e.2) then { image := x.image } else x }

/-- The staged splices of every headgate of a partition but one that lie over cells of a load are discarded. -/
def State.discardStaging (s : State) (p k : Nat) (l : SMap Plot) : State :=
  (s.partHgs p).foldl (fun s j => if j = k then s else s.modHg j fun h => h.discardStaging l) s

/-! ## CFG (08 R202) -/

/-- CFG: checking and staging; CFG_SWITCHING does the rest, and the CFG then retires (08 R202). -/
def execCfg (a : SReg) (s : State) : Host.Outcome State Fault Refusal :=
  s.unforked 0 (
    match s.me.wait with
    | .cfg _ => waitFor false >>= fun _ => done s
    | .none | .mfence _ | .coll _ | .halt => do
      let p := s.hgPart s.cur
      let (t, l) ← s.stage p s.cur (s.getS a) false
      let t := t.discardStaging p 0x10000 l.plots
      .ok (t.setMe { t.me with staged := some l, wait := .cfg false }, .stay))

/-- Have the engines of a headgate finished what they can finish? Decodes that feed a plot's lanes go with it (12 R304). -/
def Hg.enginesDone (h : Hg) : Bool :=
  (h.node0.queue.isEmpty || h.node0.cause != 0) && (h.node1.queue.isEmpty || h.node1.cause != 0)
    && (h.chain.queue.isEmpty || h.chain.cause != 0) && (h.dec.parked || h.dec.queue.all fun c => c.dest == 0)

/-- The headgates bound to plots. -/
def boundHgs (l : List (Nat × Plot)) : List Nat := dedup (l.flatMap fun e => e.2.binds.map (·.2.2.2))

/-- Plots are deconfigured with their output committed or discarded as R204 does (12 R304). -/
def State.deconfigure (s : State) (p : Nat) (ids : List Nat) : State :=
  ids.foldl (fun s id => (s.stopNow p id).unconfigure p id) s

/-- The roles of a load, and what system code wrote, at the cores it covers (01 R15); they and the core of the headgate that issued it copy
their task tables (10 R256). -/
def State.loadBoundary (s : State) (k : Nat) (l : Load) : State :=
  let cores := dedup (l.plots.flatMap fun e => e.2.cores)
  (dedup (cores ++ (if isRmc k then [] else [coreOf k]))).foldl (fun s c => s.copyTasks c)
    (cores.foldl (fun s c => s.roleBoundary c l.roles) s)

/-- The one step of a switching phase (08 R202): what the load covers is deconfigured, its cells switch, its plots are READY, and
its roles and bindings take effect. -/
def State.switchLoad (s : State) (k p : Nat) (l : Load) : State :=
  let s := s.deconfigure p ((s.overlapped p l.plots).map (·.1))
  let s := l.plots.foldl (fun s e =>
    let s := s.modCells e.2 fun _ _ c => c.switch.clear
    (s.isolateLines e.2).setPlot p e.1 e.2) s
  (s.loadBoundary k l).bindAll l

/-- The switching phase of a headgate's CFG (08 R202; 12 R304), which ends in the CFG's retirement. -/
def State.cfgSwitch (s : State) (k p : Nat) (l : Load) : Acc State := do
  waitFor (s.storesDone k .partition)
  let plots := l.plots
  waitFor ((k :: boundHgs (s.overlapped p plots)).all fun j => (s.hg j).enginesDone)
  (dedup (plots.flatMap fun e => e.2.cores)).forM s.tasksReady
  let s := (← s.fenceL1 k .partition true false).switchLoad k p l
  .ok (s.modHg k fun h =>
    Hg.retire { h with staged := none, wait := .none, icache := [], cfg := { plots := plots.map fun e => e.1, busy := true } })

/-- CFG_SWITCHING: inp.unit is the headgate (08 R202). -/
def execCfgSwitching (s : State) : Host.Outcome State Fault Refusal :=
  let k := s.inp.unit
  .next (
    match (s.hg k).wait, (s.hg k).staged with
    | .cfg false, some l =>
      if (s.hg k).stopped then s
      else match s.cfgSwitch k (s.hgPart k) l with
        | .ok t => t
        | .error x => s.stall k x
    | _, _ => s)

/-- The weight stores of a load's cells take their images. -/
def State.putStores (s : State) (l : SMap (SMap Nat)) : State :=
  l.foldl (fun s e => (s.modCell e.1 fun c => { c with store := e.2 }).unpoison (cellAddr e.1 0) 2048) s

/-- The background work of a headgate's CFG, plot by plot (08 R202): its weight-store images. -/
def State.cfgBackground (s : State) (k p : Nat) : Nat → State
  | 0 => s
  | fuel + 1 =>
    let w := (s.hg k).cfg
    match w.plots with
    | [] => s.modHg k fun h => { h with cfg := { h.cfg with busy := false } }
    | id :: rest =>
      let bad := fun (t : State) (c : Nat) =>
        (t.modPlot p id fun q => { q with err := true }).modHg k fun h =>
          { h with cfg := { h.cfg with plots := rest, cause := if h.cfg.cause = 0 then c else h.cfg.cause, failed := false } }
      let good := fun (t : State) =>
        (t.modPlot p id fun q => { q with startable := true }).modHg k fun h => { h with cfg := { h.cfg with plots := rest } }
      if w.failed then (bad s w.cause).cfgBackground k p fuel
      else match s.plot? p id with
        | none => (good s).cfgBackground k p fuel
        | some q =>
          match s.readStores (waiterOf k 12) id q with
          | .ok (t, m) => (good (t.putStores m)).cfgBackground k p fuel
          | .error (.fault c _) => (bad s c).cfgBackground k p fuel
          | .error x => s.stall (waiterOf k 12) x

/-! ## Queries (08 R203) -/

/-- The state codes of R204. -/
def PlotState.code : PlotState → Nat
  | .unconf => 0
  | .ready => 1
  | .running => 2
  | .stopping => 3
  | .stopped => 4

/-- CFGWAIT: the cause of the first failure of the last CFG's background work (08 R203). -/
def execCfgwait (a : SReg) (s : State) : Host.Outcome State Fault Refusal :=
  s.unforked 0 (do
    waitFor !s.me.cfg.busy
    done (s.setS a (BitVec.ofNat 64 s.me.cfg.cause)))

/-- The status word of a plot (08 R203). -/
def State.plotStatus (s : State) (p id : Nat) : Nat :=
  match s.plot? p id with
  | some q => q.rcMark % 2 ^ 32 * 2 ^ 32 + (if q.err then 8 else 0) + q.st.code
  | none => 0

/-- A plot id in a register whose other bits must be zero. -/
def plotId (x : Word) : Acc Nat := do
  chk (decide (x.toNat < 65536)) cIllegal
  .ok x.toNat

/-- CFGWAIT.Q: the status of a plot (08 R203). -/
def execCfgwaitQ (a : SReg) (s : State) : Host.Outcome State Fault Refusal :=
  s.unforked 0 (do
    let id ← plotId (s.getS a)
    done (s.setS a (BitVec.ofNat 64 (s.plotStatus (s.hgPart s.cur) id))))

/-! ## Starting and stopping (08 R204 to R206) -/

/-- The generator of a cell at a START (02 R39). -/
def cellSeed (g : Word) (row col : Nat) : Word :=
  seedG (g ^^^ BitVec.ofNat 64 (0x9E3779B97F4A7C15 * (256 * row + col + 1)))

/-- Has a partition a cooperative switch pending (18 R377)? -/
def Part.coop (q : Part) : Bool :=
  match q.sw with
  | .requested _ _ _ c => c
  | .none | .flip _ _ => false

/-- A plot enters RUNNING from READY or STOPPED for headgate k, with what was sampled of FMODE and G (08 R204; 02 R36, R39;
03 R71; 09 R237). -/
def State.startPlot (s : State) (p id k : Nat) (fm g : Word) : State :=
  match s.plot? p id with
  | none => s
  | some q =>
    let new := q.st == .ready
    let s := s.modCells q fun r c x =>
      let x := { x with regs := { x.regs with g := cellSeed g r c } }
      if new then { x with ckpt := x.regs, pend := [] } else x
    let limit := q.rowlim != 0 && decide (q.rowlim ≤ (q.rc + 2 ^ 32 - q.limBase) % 2 ^ 32)
    let t := s.plotCycle q + 4
    let s := s.modPlot p id fun q =>
      { q with
        st := .running, fmode := fm, starter := k, next := t, held := 0, waits := [], waiting := false, stopCause := 0,
        rc := if new then 0 else q.rc, rcMark := if new then 0 else q.rcMark, restarts := 0,
        fresh := new || q.fresh, freshMark := new || q.freshMark,
        limBase := if new then 0 else if limit then q.rc else q.limBase,
        yield := if (s.part p).coop then 1 else 0 }
    (s.modBound q fun h => { h with feed := { h.feed with held := false } }).endBallast q true

/-- What a START finds: none, an ILLEGAL one, or a plot that may start (08 R204, R206). -/
def State.startable (s : State) (p id : Nat) : Acc Unit :=
  match s.plot? p id with
  | some q => do
    chk (q.st == .ready || q.st == .stopped) cIllegal
    waitFor q.startable
  | none => flt cIllegal

/-- START (08 R204). -/
def execStart (a : SReg) (s : State) : Host.Outcome State Fault Refusal :=
  s.unforked 0 (do
    let id ← plotId (s.getS a)
    let p := s.hgPart s.cur
    s.startable p id
    done (s.startPlot p id s.cur s.me.fmode s.me.g))

/-- STOPP: a RUNNING plot becomes STOPPING (08 R204). -/
def execStopp (a : SReg) (s : State) : Host.Outcome State Fault Refusal :=
  s.unforked 0 (do
    let id ← plotId (s.getS a)
    let p := s.hgPart s.cur
    match s.plot? p id with
    | none => flt cIllegal
    | some q => do
      chk (q.st != .unconf) cIllegal
      done (if q.st = .running then s.setPlot p id { q with st := .stopping } else s))

/-- STOPP.NOW: a RUNNING or STOPPING plot goes back to its last mark and stops (08 R204). -/
def execStoppNow (a : SReg) (s : State) : Host.Outcome State Fault Refusal :=
  s.unforked 0 (do
    let id ← plotId (s.getS a)
    let p := s.hgPart s.cur
    chk ((s.plot? p id).any fun q => q.st != .unconf) cIllegal
    done (s.stopNow p id))

/-! ## Splices (08 R207, R208; 09 R253, R254; 12 R304) -/

/-- SPLARM: reads the header, and leaves the rest to SPLICE_STAGING_DONE (08 R207). -/
def execSplarm (a : SReg) (s : State) : Host.Outcome State Fault Refusal :=
  s.unforked 0 (do
    chk s.me.splice.isNone cIllegal
    let (t, _) ← s.readRec s.cur (s.getS a) 64
    done (t.setMe { t.me with splice := some { image := s.getS a } }))

/-- The staging of a headgate's armed splice, with its weight-store images. -/
def State.stageSplice (s : State) (k : Nat) : State :=
  match (s.hg k).splice with
  | none => s
  | some x =>
    if x.staged then s
    else
      let p := s.hgPart k
      let r : Acc (State × Load) := do
        let (t, l) ← s.stage p (waiterOf k 13) x.image true
        let (t, m) ← l.plots.foldlM (fun (st : State × SMap (SMap Nat)) (e : Nat × Plot) => do
          let (t, y) ← st.1.readStores (waiterOf k 13) e.1 e.2
          .ok (t, y.foldl (fun m z => SMap.set m z.1 z.2) st.2)) (t, [])
        .ok (t, { l with stores := m })
      match r with
      | .ok (t, l) =>
        let preds := (t.overlapped p l.plots).map (·.1)
        (t.discardStaging p k l.plots).modHg k fun h => { h with splice := some { x with staged := true, load := l, preds } }
      | .error (.fault c d) => s.modHg k fun h => { h with splice := some { x with staged := true, cause := c, detail := d } }
      | .error w => s.stall (waiterOf k 13) w

/-- A successor enters RUNNING (08 R208; 02 R36, R39; 03 R71). -/
def State.enterWave (s : State) (p : Nat) (w : Wave) : State :=
  let s := (s.putStores w.load.stores).loadBoundary w.starter w.load
  let s := w.load.plots.foldl (fun s e =>
    (s.isolateLines e.2).setPlot p e.1 { e.2 with startable := true }) s
  let s := s.bindAll w.load
  w.load.plots.foldl (fun s e => s.startPlot p e.1 w.starter w.fmode w.g) s

/-- May a successor enter RUNNING: every predecessor gone, the engines of its headgates finished, its ID free, and the starter's accesses
performed? -/
def State.waveReady (s : State) (p : Nat) (w : Wave) : Bool :=
  w.preds.all (fun id => (s.plot? p id).isNone) && w.load.plots.all (fun e => (s.plot? p e.1).isNone)
    && ((w.starter :: w.hgs).all fun k => (s.hg k).enginesDone) && s.storesDone w.starter .partition

/-- Every successor of a partition that may enter RUNNING does, once the starter's L1 is written back (12 R304). -/
def State.enterWaves (s : State) (p : Nat) : State :=
  (s.part p).waves.foldl (fun s w =>
    if s.waveReady p w then
      match s.fenceL1 w.starter .partition true false with
      | .ok t => (t.modPart p fun q => { q with waves := q.waves.filter (· != w) }).enterWave p w
      | .error x => s.stall (waiterOf w.starter 13) x
    else s) s

/-- SPLICE_STAGING_DONE: inp.unit is the headgate whose armed splice is staged (08 R207). A successor that waited for its
predecessors' engines enters RUNNING. -/
def execSpliceStagingDone (s : State) : Host.Outcome State Fault Refusal :=
  .next ((s.stageSplice s.inp.unit).enterWaves (s.hgPart s.inp.unit))

/-- CFG_BACKGROUND_DONE: inp.unit is the headgate whose CFG's weight-store images have come in (08 R202). -/
def execCfgBackgroundDone (s : State) : Host.Outcome State Fault Refusal :=
  let k := s.inp.unit
  .next ((if (s.hg k).cfg.busy then s.cfgBackground k (s.hgPart k) 257 else s).enterWaves (s.hgPart k))

/-- Tokens are placed behind what a predecessor's headgates have queued (08 R208). -/
def State.placeTokens (s : State) (p id : Nat) (q : Plot) : State :=
  (s.modBound q fun h => { h with feed := { h.feed with tokenAt := some h.feed.nextSerial } }).modPlot p id fun q =>
    { q with spliced := true, switched := [], tokens := [], switchedMark := [], tokensMark := [] }

/-- A load for one of its plots: its bindings and the weight stores of its cells with it. -/
def Load.only (l : Load) (e : Nat × Plot) : Load :=
  { l with
    plots := [e], binds := l.binds.filter fun b => b.2.plot == e.1, stores := l.stores.filter fun c => e.2.footprint.contains c.1 }

/-- The effect of a SPLICE whose staging is complete (08 R208): predecessors that run get their tokens, the others switch at
once, and so do the successor's cells that no running predecessor covers. Each of its plots enters RUNNING by itself. -/
def State.splice (s : State) (k p : Nat) (x : Splice) : State :=
  let ids := dedup (x.preds ++ (s.overlapped p x.load.plots).map (·.1))
  let runs := ids.filter fun id => ((s.plot? p id).map fun q => decide (q.st = .running)).getD false
  let covering := runs.filterMap (s.plot? p)
  let under := fun (e : Nat × Plot) => ids.filterMap fun id =>
    match s.plot? p id with
    | some q => if id = e.1 ∨ e.2.meets q then some (id, q) else none
    | none => none
  let waves := x.load.plots.map fun e =>
    (⟨x.load.only e, ((under e).map (·.1)).filter runs.contains, boundHgs (under e), k, (s.hg k).fmode, (s.hg k).g⟩ : Wave)
  let s := s.deconfigure p (ids.filter fun id => !runs.contains id)
  let s := x.load.plots.foldl (fun s e => e.2.footprint.foldl (fun s key =>
    if covering.any fun q => q.footprint.contains key then s else s.modCell key Cell.switch) s) s
  let s := runs.foldl (fun s id => match s.plot? p id with | some q => s.placeTokens p id q | none => s) s
  let s := x.load.binds.foldl (fun s b => s.modHg b.1 fun h => { h with nextBound := some b.2 }) s
  let s := s.modPart p fun q => { q with waves := q.waves ++ waves }
  (s.modHg k fun h => { h with splice := none }).enterWaves p

/-- SPLICE (08 R208): the recorded cause of a failed staging is raised precisely, and the staging discarded. -/
def execSplice (s : State) : Host.Outcome State Fault Refusal :=
  match s.me.splice with
  | some x =>
    if !s.me.forked && x.staged && x.cause != 0 then .next ((s.setMe { s.me with splice := none }).precise x.cause x.detail)
    else s.unforked 0 (do
      waitFor x.staged
      done (s.splice s.cur (s.hgPart s.cur) x))
  | none => s.unforked 0 (flt cIllegal)

/-! ## Bypass, delay and hold records (08 R209 to R212) -/

/-- Walk lines from number y on until n good ones are found: the status and the bypassed lines. out and bad judge a line. -/
def bypWalk (out bad : Nat → Bool) : Nat → Nat → Nat → List Nat → Nat × List Nat
  | 0, _, _, l => (0, l)
  | fuel + 1, y, n, l =>
    if n = 0 then (0, l)
    else if out y then (2, l)
    else if bad y then (if l.length ≥ 8 then (1, l) else bypWalk out bad fuel (y + 1) n (l ++ [y]))
    else bypWalk out bad fuel (y + 1) (n - 1) l

/-- The record BYPMAP leaves of a record it read (08 R209). DESIGN CHOICE (log 61): with STATUS 1 or 2 the count and the offsets name the lines
found up to there. -/
def State.bypRecord (s : State) (p x : Nat) (cols : Bool) : Nat :=
  let q : Plot := { rows := bits x 0 16, cols := bits x 16 16, origin := bits x 32 16, i0 := bits x 48 8, j0 := bits x 56 8 }
  let (st, l) := match s.placed p q with
    | none => (2, [])
    | some q =>
      if 23 < q.i0 ∨ 23 < q.j0 then (2, [])
      else
        let (span, n) := if cols then (q.rows, q.cols) else (q.cols, q.rows)
        let at_ := fun (y k : Nat) => if cols then (q.px + y, q.py + k) else (q.px + k, q.py + y)
        let out := fun y => (List.range span).any fun k => !s.cellOwned p (at_ y k).1 (at_ y k).2
        let bad := fun y => (List.range span).any fun k =>
          let key := cellKey (at_ y k).1 (at_ y k).2
          s.mod.defects.cells.contains (key / 576, key % 576)
        bypWalk out bad (n + 9) 0 n []
  let x := setBits x 64 8 (if cols then 0 else l.length)
  let x := setBits x 72 8 (if cols then l.length else 0)
  let x := setBits (setBits x 80 8 st) 96 32 s.mod.mapgen
  setBits x (if cols then 256 else 128) 128 (pack 16 (l ++ List.replicate (8 - l.length) 0))

/-- BYPMAP over rows or columns (08 R209). -/
def State.bypmap (s : State) (a : SReg) (cols : Bool) : Eff := do
  let (t, x) ← s.loadVia s.cur (s.getS a) 64 false
  done (← t.storeVia s.cur (s.getS a) 64 (s.bypRecord (s.hgPart s.cur) x cols) false)

/-- BYPMAP: bypassed rows (08 R209). -/
def execBypmap (a : SReg) (s : State) : Host.Outcome State Fault Refusal := s.unforked 0 (s.bypmap a false)

/-- BYPMAP.COL: bypassed columns (08 R209). -/
def execBypmapCol (a : SReg) (s : State) : Host.Outcome State Fault Refusal := s.unforked 0 (s.bypmap a true)

/-- The configured plot of a record that does not run; ILLEGAL otherwise (08 R211, R212). -/
def State.idlePlot (s : State) (p id : Nat) : Acc Plot :=
  match s.plot? p id with
  | some q => do
    chk (!q.active && q.st != .unconf) cIllegal
    .ok q
  | none => flt cIllegal

/-- DLYSET: the delay counters of one segment (08 R211). -/
def execDlyset (a : SReg) (s : State) : Host.Outcome State Fault Refusal :=
  s.unforked 0 (do
    let p := s.hgPart s.cur
    let (t, x) ← s.loadVia s.cur (s.getS a) 32 false
    let id := bits x 0 16
    let side := bits x 24 2
    let q ← s.idlePlot p id
    chk (bits x 16 8 == 0 && bits x 26 6 == 0 && bits x 48 16 == 0) cIllegal
    let lanes := (List.range 24).filter fun k => decide (24 * bits x 32 16 + k < q.sideLen side)
    chk (lanes.all fun k => decide (bits x (64 + 8 * k) 8 ≤ 63)) cIllegal
    let dly := lanes.foldl (fun m k => SMap.set m (laneKey side (24 * bits x 32 16 + k)) (bits x (64 + 8 * k) 8)) q.dly
    done (t.setPlot p id { q with dly }))

/-- Is a hold limit within its range (08 R212)? -/
def limitOk (k x : Nat) : Bool := (decide (1 ≤ x) && decide (x < 2 ^ 24)) || (k == 7 && x == 0xFFFFFFFF)

/-- HOLDTAB: the limits of hold classes 1 to 7 (08 R212). -/
def execHoldtab (a : SReg) (s : State) : Host.Outcome State Fault Refusal :=
  s.unforked 0 (do
    let p := s.hgPart s.cur
    let (t, x) ← s.loadVia s.cur (s.getS a) 32 false
    let q ← s.idlePlot p (bits x 0 16)
    chk (bits x 16 16 == 0) cIllegal
    chk ((List.range 7).all fun k => limitOk (k + 1) (bits x (32 * (k + 1)) 32)) cIllegal
    done (t.setPlot p (bits x 0 16) { q with limits := 0 :: (List.range 7).map fun k => bits x (32 * (k + 1)) 32 }))

end Sys2Proof.Machine
end

