-- ==== Sys2Proof/Machine/Msg.lean ====
section
/-! DEFINITION. Messages and route counters, launch records from the device, bandwidth phases (07 R180 to R188, R191,
R192; 17 R349 to R352). -/

namespace Sys2Proof.Machine

/-! ## Messages (07 R180 to R182) -/

/-- Messages of a core that its network interface has accepted and not sent on. -/
def State.niCount (s : State) (c : Nat) : Nat := (s.mod.packets.filter fun p => p.src == c && p.place == .source).length

/-- QSEND: a release at partition scope, and the message into the network interface, which holds eight (07 R180, R182); it stands at the
router 6 ticks later (20 R406). -/
def execQsend (d : VReg) (a b : SReg) (g : PReg) (s : State) : Host.Outcome State Fault Refusal :=
  s.unforked g (do
    let x := (s.getS a).toNat
    chk (bits x 48 16 == 0 && bits x 3 29 == 0) cIllegal
    match s.partOfHg s.cur with
    | none => flt cAddr
    | some p => do
      let me := coreOf s.cur
      let dst ← s.byLcore p me (bits x 32 16)
      if clusterOf dst = clusterOf me then pure () else s.leaving (clusterOf me)
      waitFor (s.niCount me < 8)
      let t ← s.release s.cur .partition
      let header := BitVec.ofNat 64 (s.lcore me * 2 ^ 48 + bits (s.getS b).toNat 0 48)
      let m : Msg := { payload := (s.getV d).toNat, header, sent := s.wt, arrived := 0 }
      done (t.modMod fun q => { q with packets := q.packets ++ [{ cls := 2, src := me, seqr := s.cur, dst, queue := x % 8, msg := m, ready := s.wt + 6 }] }))

/-- A queue number; ILLEGAL beyond 7. A queue that the task scheduler consumes raises PROT (07 R181). -/
def State.queueOk (s : State) (x : Word) : Acc Unit := do
  chk (x.toNat < 8) cIllegal
  chk (!bit (s.core (unitCore s.cur)).tqmask x.toNat) cProt

/-- A queue of a core. -/
def Core.queue (k : Core) (q : Nat) : List Msg := k.queues.get (Fin.ofNat 8 q)
def Core.setQueue (k : Core) (q : Nat) (l : List Msg) : Core := { k with queues := k.queues.set (Fin.ofNat 8 q) l }

/-- QRECV: the oldest entry, its header and stamps; an acquire at partition scope (07 R181, R182). -/
def execQrecv (d : VReg) (a b : SReg) (g : PReg) (s : State) : Host.Outcome State Fault Refusal :=
  s.unforked g (do
    let c := unitCore s.cur
    let q := (s.getS a).toNat
    s.queueOk (s.getS a)
    match (s.core c).queue q with
    | [] => .error (.wait .busy)
    | m :: rest =>
      let t := (s.modCore c fun k => k.setQueue q rest).acquire s.cur .partition
      let stamps := BitVec.ofNat 64 (m.sent % 2 ^ 32 * 2 ^ 32 + m.arrived % 2 ^ 32)
      done (((t.setV d (BitVec.ofNat 512 m.payload)).setS b m.header).setS (b + 1) stamps))

/-- QPOLL: the number of entries (07 R181). -/
def execQpoll (d a : SReg) (g : PReg) (s : State) : Host.Outcome State Fault Refusal :=
  s.unforked g (do
    s.queueOk (s.getS a)
    done (s.setS d (BitVec.ofNat 64 ((s.core (unitCore s.cur)).queue (s.getS a).toNat).length)))

/-! ## Route counters (07 R187, R188) -/

/-- Add to a counter; a carry out sets its bit of CNTOVF. -/
def Core.count (k : Core) (i n : Nat) : Core :=
  let x := k.counters.get (Fin.ofNat 64 i) + n
  { k with
    counters := k.counters.set (Fin.ofNat 64 i) (x % 2 ^ 32),
    cntovf := if x ≥ 2 ^ 32 ∧ !bit k.cntovf i then k.cntovf + 2 ^ i else k.cntovf }

/-- CNTADD (07 R187). -/
def execCntadd (a b : SReg) (g : PReg) (s : State) : Host.Outcome State Fault Refusal :=
  s.unforked g (do
    chk ((s.getS a).toNat < 64) cIllegal
    done (s.modCore (unitCore s.cur) fun k => k.count (s.getS a).toNat (low32 (s.getS b))))

/-- VCNT: once for each lane that names a counter (07 R187). -/
def execVcnt (a : VReg) (b : SReg) (g : PReg) (s : State) : Host.Outcome State Fault Refusal :=
  s.unforked g (
    let n := low32 (s.getS b)
    done (s.modCore (unitCore s.cur) fun k => ((lanes (s.getV a) 32).filter (· < 64)).foldl (fun k i => k.count i n) k))

/-- CNTRD (07 R187). -/
def execCntrd (d a : SReg) (g : PReg) (s : State) : Host.Outcome State Fault Refusal :=
  s.unforked g (do
    chk ((s.getS a).toNat < 64) cIllegal
    done (s.setS d (BitVec.ofNat 64 ((s.core (unitCore s.cur)).counters.get (Fin.ofNat 64 (s.getS a).toNat)))))

/-- Store k pieces of 64 bytes from a 64-byte-aligned pointer on, all or none; to space 0x8 as one access. -/
def State.storePieces (s : State) (w : Nat) (p : Word) (k v : Nat) : Acc State :=
  if space p = 8 then do
    match ← s.resolve w p 64 .store with
    | .remote m va => s.remoteStore w m va (64 * k) v
    | .home _ | .window _ _ _ _ _ | .mgmt => flt cAddr
  else (List.range k).foldlM (fun s i => s.storeVia w (padd p ((64 * i : Nat) : Int)) 64 (v / 2 ^ (512 * i) % 2 ^ 512) false) s

/-- CNTSNAP: the counters to memory, CNTOVF into s[d], and both cleared (07 R188). -/
def execCntsnap (d a : SReg) (g : PReg) (s : State) : Host.Outcome State Fault Refusal :=
  s.unforked g (do
    let k := s.core (unitCore s.cur)
    let t ← s.storePieces s.cur (s.getS a) 4 (pack 32 k.counters.toList)
    done ((t.modCore (unitCore s.cur) fun k => { k with counters := Vector.replicate 64 0, cntovf := 0 }).setS d
      (BitVec.ofNat 64 k.cntovf)))

/-! ## Launch records (07 R185, R186; 17 R349, R351) -/

/-- May a record be patched or armed: READY, DONE or CANCELLED (07 R185)? -/
def Launch.idle (l : Launch) : Bool := l.state == 1 || l.state == 4 || l.state == 5

/-- The status word of LRQRY (07 R185). -/
def Launch.status (l : Launch) : Nat := l.count % 2 ^ 32 * 2 ^ 32 + l.code % 256 * 256 + l.state % 16

/-- The context active on a sequencer's partition. -/
def State.ctxOf (s : State) (k : Nat) : Option Nat :=
  match s.partOfHg k with
  | some p => if (s.part p).av then some (s.part p).active else none
  | none => none

/-- Arm a record from the device for a context: PROT for another owner's, LAUNCH_STATE in a state that forbids it
(07 R185, R186; 12 R309). -/
def State.armRecord (s : State) (r : Nat) (ctx : Option Nat) : Acc State := do
  let l := s.launch r
  chk (ctx == some l.owner) cProt
  chk l.idle cLaunch
  .ok ((s.modLaunch r fun l =>
    { l with state := 2, via := l.port, order := s.mod.armSeq, accepted := false, armedWt := s.wt }).modMod fun m =>
    { m with armSeq := m.armSeq + 1, dcmds := m.dcmds ++ [(r, 0)] })

/-- LRPATCH (07 R185). -/
def execLrpatch (a b : SReg) (g : PReg) (s : State) : Host.Outcome State Fault Refusal :=
  s.unforked g (do
    let x := (s.getS a).toNat
    chk (bits x 20 44 == 0 && bits x 12 4 == 0) cIllegal
    let l := s.launch (bits x 0 12)
    let w := bits x 16 4
    chk (s.ctxOf s.cur == some l.owner) cProt
    chk l.idle cLaunch
    chk (bit l.patchMask w) cProt
    done (s.modLaunch (bits x 0 12) fun l => { l with words := l.words.set (Fin.ofNat 16 w) (s.getS b) }))

/-- LRARM: a release at partition scope, and the record goes to the dispatcher (07 R185). -/
def execLrarm (a : SReg) (g : PReg) (s : State) : Host.Outcome State Fault Refusal :=
  s.unforked g (do
    chk ((s.getS a).toNat < 4096) cIllegal
    let t ← s.release s.cur .partition
    done (← t.armRecord (s.getS a).toNat (s.ctxOf s.cur)))

/-- LRQRY (07 R185). -/
def execLrqry (d a : SReg) (g : PReg) (s : State) : Host.Outcome State Fault Refusal :=
  s.unforked g (do
    chk ((s.getS a).toNat < 4096) cIllegal
    let l := s.launch (s.getS a).toNat
    chk (s.ctxOf s.cur == some l.owner) cProt
    done (s.setS d (BitVec.ofNat 64 l.status)))

/-! ## Bandwidth phases (07 R191, R192; 13 R321, R323) -/

/-- BWPH: the declaration and its time; applied at once. An issuer without a partition declares nothing (log 27). -/
def execBwph (a b : SReg) (g : PReg) (s : State) : Host.Outcome State Fault Refusal :=
  s.unforked g (do
    let x := s.getS a
    chk (bits x.toNat 51 5 == 0 && bits x.toNat 32 16 == 0) cIllegal
    match s.partOfHg s.cur with
    | some p => done (s.declare p x (s.getS b))
    | none => done s)

/-- The status word of BWQRY (13 R323). -/
def State.phaseStatus (s : State) (p : Nat) : Nat :=
  let q := s.part p
  (if q.lostBw then 4 else 0) + (if q.short then 2 else 0) + if s.wt < q.bwphwt.toNat then 1 else 0

/-- BWQRY: an issuer without a partition gets a value the manual does not state (log 12). -/
def execBwqry (d a : SReg) (g : PReg) (s : State) : Host.Outcome State Fault Refusal :=
  s.unforked g (do
    let x := s.getS a
    chk (x.toNat < 3) cIllegal
    match s.partOfHg s.cur with
    | some p =>
      done (s.setS d (if x = 0 then (s.part p).bwphase else if x = 1 then (s.part p).bwphwt else BitVec.ofNat 64 (s.phaseStatus p)))
    | none => done { s.setS d (Config.freeWord s.fresh) with fresh := s.fresh + 1 })

end Sys2Proof.Machine
end

