-- ==== Sys2Proof/Machine/Coll.lean ====
section
/-! DEFINITION. Collectives (07 R183, R184; 19 R400, R401). -/

namespace Sys2Proof.Machine

/-! ## Groups and ranks (19 R400) -/

/-- The number of set bits of a mask of n bits. -/
def popCount (x n : Nat) : Nat := ((List.range n).filter (bit x)).length

/-- The current load's CORELO, CORECNT and HGMASK. -/
def State.loadOf (s : State) (k : Nat) : Option (Nat × Nat × Nat) :=
  match s.partOfHg k with
  | some p => (s.part p).load
  | none => none

/-- The size of a group and the rank of a headgate in it; none when it is no participant (19 R400). -/
def State.rankIn (s : State) (k group : Nat) : Option (Nat × Nat) :=
  match s.loadOf k with
  | none => none
  | some (lo, cnt, mask) =>
    let c := s.lcore (coreOf k)
    let h := hgnOf k
    if (s.hg k).run ≠ .program ∨ !bit mask h ∨ c < lo ∨ lo + cnt ≤ c then none
    else if group = 0 then
      let p := popCount mask 4
      some (cnt * p, (c - lo) * p + popCount mask h)
    else if group ≤ 4 then (if h + 1 = group then some (cnt, c - lo) else none)
    else if 0x80 ≤ group ∧ group ≤ 0x83 then
      let me := s.mod.modid
      if h + 0x80 = group ∧ c = lo ∧ s.mod.dtEn ∧ bit s.mod.members me then
        some (popCount s.mod.members 16, popCount s.mod.members me)
      else none
    else none

/-! ## Elements of a shape in memory -/

/-- The bytes an element access takes. -/
def elemBytes (f : Fmt) : Nat := if isNibble f then 1 else fmtWidth f / 8

/-- The pointers of a shape's elements, and for a 4-bit format the half of the byte. -/
def elemPtrs (x : BitVec 256) (f : Fmt) : List (Word × Nat) := (List.range (shCount x)).map fun n => shElemPtr x f n

/-- The pointers of a shape's elements, each once. -/
def bytePtrs (x : BitVec 256) (f : Fmt) : List Word := (dedup ((elemPtrs x f).map fun e => e.1.toNat)).map (BitVec.ofNat 64)

/-- All elements of a shape, packed: each pointer is read once by a waiter. -/
def State.loadAll (s : State) (w : Nat) (x : BitVec 256) (f : Fmt) : Acc (State × Nat) := do
  let (s, m) ← (bytePtrs x f).foldlM (fun (a : State × SMap Nat) p => do
    let (s, v) ← a.1.loadVia w p (elemBytes f) false
    .ok (s, SMap.set a.2 p.toNat v)) (s, [])
  .ok (s, pack (fmtWidth f) ((elemPtrs x f).map fun e =>
    let v := SMap.getD m e.1.toNat 0
    if isNibble f then bits v (4 * e.2) 4 else v))

/-- Store the elements that a list gives at one pointer, the later over the earlier: a 4-bit element keeps the other half of its byte. -/
def State.storeAt1 (s : State) (w : Nat) (f : Fmt) (p : Word) (l : List (Nat × Nat)) : Acc State := do
  if isNibble f then
    if (l.any fun e => e.1 == 0) && (l.any fun e => e.1 == 1) then
      s.storeVia w p 1 (l.foldl (fun b e => setBits b (4 * e.1) 4 e.2) 0) false
    else do
      let (s, old) ← s.loadVia w p 1 false
      s.storeVia w p 1 (l.foldl (fun b e => setBits b (4 * e.1) 4 e.2) old) false
  else s.storeVia w p (elemBytes f) (l.foldl (fun _ e => e.2) 0) false

/-- All elements of a shape, stored by a waiter: each pointer is written once. -/
def State.storeAll (s : State) (w : Nat) (x : BitVec 256) (f : Fmt) (vals : List Nat) : Acc State :=
  let l := (elemPtrs x f).zip vals
  (bytePtrs x f).foldlM (fun s p => s.storeAt1 w f p ((l.filter fun e => e.1.1 == p).map fun e => (e.1.2, e.2))) s

/-- Could every element of a shape be stored now (05 R118)? -/
def State.storable (s : State) (w : Nat) (x : BitVec 256) (f : Fmt) : Acc Unit :=
  if space (shBase x) = 8 then .ok ()
  else do
    let _ ← s.storeAll w x f (List.replicate (shCount x) 0)
    .ok ()

/-- The lowest byte of a shape and the byte after its highest, as pointers are judged for overlap. -/
def State.extent (s : State) (x : BitVec 256) (f : Fmt) : Nat × Nat :=
  (List.range (shCount x)).foldl (fun (a : Nat × Nat) n =>
    let k := s.overlapKey (shElemPtr x f n).1
    if n = 0 then (k, k + elemBytes f) else (min a.1 k, max a.2 (k + elemBytes f))) (0, 0)

/-! ## The results (07 R183; 19 R401) -/

/-- The lane type of a reducible float format. -/
def redType : Fmt → LaneType
  | .bf16 => .bf16
  | .f16 => .f16
  | .i32 | .n32 => .i32
  | .f32 | .e4m3 | .e5m2 | .e2m1 | .i8 | .i4 | .n8 | .e3m5 | .cb4 => .f32

/-- The tree of a sum over the sources lo to hi, of which n bounds the depth (19 R401). -/
def sumTree (f : Nat → Nat → Nat) (src : List Nat) : Nat → Nat → Nat → Nat
  | 0, lo, _ => src.getD lo 0
  | n + 1, lo, hi =>
    if hi ≤ lo then src.getD lo 0
    else
      let mid := lo + 2 ^ (bitLen (hi - lo) - 1) - 1
      f (sumTree f src n lo mid) (sumTree f src n (mid + 1) hi)

/-- One element reduced over the ranks (07 R183). -/
def reduceElem (red : Nat) (f : Fmt) (src : List Nat) : Nat :=
  let fold := fun (g : Nat → Nat → Nat) => match src with
    | [] => 0
    | x :: t => t.foldl g x
  let t := redType f
  match red, f with
  | 0, .i32 | 0, .n32 => fold fun a b => (a + b) % 2 ^ 32
  | 0, _ =>
    let up := src.map fun x => (conv 0 0 .f32 (readElem 0 f x)).1
    let y := sumTree (fun a b => elemOp 0 .f32 .add a b 0) up 17 0 (src.length - 1)
    (conv 0 0 f (fin32 0 y)).1
  | 1, .n32 => fold max
  | 2, .n32 => fold min
  | 1, _ => fold fun a b => elemOp 0 t .max a b 0
  | _, _ => fold fun a b => elemOp 0 t .min a b 0

/-- The elements a rank receives (07 R183): from the sources of ranks 0 to n - 1, as lists. -/
def collResult (c : Collective) (srcs : List (List Nat)) (rank : Nat) : List Nat :=
  let at_ := fun (j i : Nat) => (srcs.getD j []).getD i 0
  let overRanks := fun (i : Nat) => reduceElem c.red c.fmt ((List.range c.size).map fun j => at_ j i)
  match c.kind with
  | 0 => (List.range c.ey).map overRanks
  | 1 => (List.range c.ey).map fun i => overRanks (rank * c.ey + i)
  | 2 => (List.range c.size).flatMap fun j => srcs.getD j []
  | 3 => srcs.getD c.root []
  | _ =>
    let b := c.ex / c.size
    (List.range c.size).flatMap fun j => (List.range b).map fun i => at_ j (rank * b + i)

/-! ## COLL (07 R183, R184) -/

/-- The element counts a kind requires. -/
def collCounts (kind n ex ey : Nat) : Bool :=
  match kind with
  | 0 | 3 => ex == ey
  | 1 => ex == n * ey
  | 2 => ey == n * ex
  | _ => ex == ey && n != 0 && ex % n == 0

/-- May a collective's buffer lie in a space (07 R184)? -/
def collSpace (x : BitVec 256) : Bool := let sp := space (shBase x); sp != 7 && sp != 12 && sp != 15

/-- The logical headgate of a sequencer. -/
def State.lhgOf (s : State) (k : Nat) : Nat := 4 * s.lcore (coreOf k) + hgnOf k

/-- The scope at which a collective of a group releases and acquires (07 R184; 19 R400). -/
def collScope (g : Nat) : Scope := if g ≥ 0x80 then .domain else .partition

/-- The sequencer of a logical headgate of a partition. -/
def State.ofLhg (s : State) (p l : Nat) : Option Nat := ((s.part p).cores[l / 4]?).map fun c => 4 * c + l % 4

/-- A number no collective of a partition has as its key. -/
def freshKey (m : SMap Collective) : Nat := m.foldl (fun n e => max n (e.1 + 1)) 0

/-- The arrival of the issuing headgate (07 R183, R184): the checks, the release, the source's elements, the place in the
group's collective. DESIGN CHOICE (log 28): R184's signature has no root, so a broadcast's root is that of its first arrival. -/
def State.collArrive (s : State) (kind red : Nat) (f : Fmt) (x y : BitVec 256) (a : Word) : Acc State := do
  let v := a.toNat
  let root := bits v 16 8
  chk (bits v 24 40 == 0 && bits v 8 8 == 0 && (kind == 3 || root == 0)) cIllegal
  match s.rankIn s.cur (v % 256), s.partOfHg s.cur with
  | some (n, rank), some p => do
    chk (decide (root < n)) cIllegal
    chk (!shEmpty x && !shEmpty y && shFmt x == f.code && shFmt y == f.code) cIllegal
    let ex := shCount x
    let ey := shCount y
    chk (!isNibble f || (ex % 2 == 0 && ey % 2 == 0)) cIllegal
    chk (collCounts kind n ex ey) cIllegal
    let u := s.extent x f
    let w := s.extent y f
    chk (decide (u.2 ≤ w.1) || decide (w.2 ≤ u.1) || (u == w && (kind == 0 || kind == 3))) cIllegal
    chk (collSpace x && collSpace y) cAddr
    s.storable s.cur y f
    let t ← s.release s.cur (collScope (v % 256))
    let (t, src) ← keeping t (t.loadAll t.cur x f)
    let me : CollArrival := { rank, lhg := s.lhgOf s.cur, src, dst := y }
    match (s.part p).colls.find? fun e => !e.2.done && e.2.group == v % 256 with
    | some (key, c) => do
      chk (c.kind == kind && c.red == red && c.fmt == f && c.ex == ex && c.ey == ey) cIllegal
      .ok ((t.modPart p fun q => { q with colls := SMap.set q.colls key { c with arrived := c.arrived ++ [me] } }).modMe fun h =>
        { h with wait := .coll key })
    | none =>
      let key := freshKey (s.part p).colls
      let c : Collective := { group := v % 256, size := n, kind, red, fmt := f, ex, ey, root, arrived := [me], done := false }
      .ok ((t.modPart p fun q => { q with colls := SMap.set q.colls key c }).modMe fun h => { h with wait := .coll key })
  | _, _ => flt cIllegal

/-- The end of a completed COLL at a headgate: an acquire at its scope, and its place is given up. -/
def State.collRetire (s : State) (p key : Nat) (c : Collective) : State :=
  let rest := c.arrived.filter fun a => a.lhg != s.lhgOf s.cur
  let s := s.modPart p fun q =>
    { q with colls := if rest.isEmpty then SMap.erase q.colls key else SMap.set q.colls key { c with arrived := rest } }
  (s.modMe fun h => { h with wait := .none }).acquire s.cur (collScope c.group)

/-- COLL of a kind (07 R183, R184): it arrives, stalls until the collective is complete, and retires. -/
def State.coll (s : State) (x y : ShReg) (a : SReg) (kind red : Nat) (f : Fmt) : Host.Outcome State Fault Refusal :=
  s.unforked 0 (
    match s.me.wait, s.partOfHg s.cur with
    | .coll key, some p =>
      match SMap.get? (s.part p).colls key with
      | some c => if c.done then done (s.collRetire p key c) else .error (.wait .busy)
      | none => done (s.modMe fun h => { h with wait := .none })
    | _, _ => do .ok (← s.collArrive kind red f (s.me.getSh x) (s.me.getSh y) (s.getS a), .stay))

/-- COLL all-reduce (07 R183). -/
def execCollAllred (x y : ShReg) (a : SReg) (r : CollRed) (f : Fmt) (s : State) : Host.Outcome State Fault Refusal :=
  s.coll x y a 0 r.code f

/-- COLL reduce-scatter (07 R183). -/
def execCollRedscat (x y : ShReg) (a : SReg) (r : CollRed) (f : Fmt) (s : State) : Host.Outcome State Fault Refusal :=
  s.coll x y a 1 r.code f

/-- COLL all-gather (07 R183). -/
def execCollAllgath (x y : ShReg) (a : SReg) (f : Fmt) (s : State) : Host.Outcome State Fault Refusal := s.coll x y a 2 0 f

/-- COLL broadcast (07 R183). -/
def execCollBcast (x y : ShReg) (a : SReg) (f : Fmt) (s : State) : Host.Outcome State Fault Refusal := s.coll x y a 3 0 f

/-- COLL all-to-all (07 R183). -/
def execCollA2a (x y : ShReg) (a : SReg) (f : Fmt) (s : State) : Host.Outcome State Fault Refusal := s.coll x y a 4 0 f

/-- The sources of every rank: from the arrivals here, and, for a domain group, those of other modules in rank order from
outside, packed (log 13). -/
def Collective.sources (c : Collective) (outside : List Nat) : List (List Nat) :=
  let un := fun (v : Nat) => unpack v (fmtWidth c.fmt) c.ex
  let (l, _) := (List.range c.size).foldl (fun (acc : List (List Nat) × List Nat) r =>
    match c.arrived.find? fun a => a.rank == r, acc.2 with
    | some a, o => (un a.src :: acc.1, o)
    | none, o :: t => (un o :: acc.1, t)
    | none, [] => ([] :: acc.1, [])) ([], outside)
  l.reverse

/-- Write the destinations of ranks in turn; a store that fails or waits names its headgate. -/
def State.collWrite (s : State) (p : Nat) (c : Collective) (srcs : List (List Nat)) : List CollArrival → Except (Nat × Stop) State
  | [] => .ok s
  | a :: t =>
    match s.ofLhg p a.lhg with
    | none => s.collWrite p c srcs t
    | some k =>
      let l := collResult c srcs a.rank
      match s.storeAll k a.dst c.fmt l with
      | .ok s => s.collWrite p c srcs t
      | .error e => .error (k, e)

/-- A collective completes once its last participant has arrived: every destination is written (07 R184). A write that
must wait leaves it incomplete. -/
def State.collComplete (s : State) (p key : Nat) (outside : List Nat) : State :=
  match SMap.get? (s.part p).colls key with
  | none => s
  | some c =>
    if c.done || decide (c.arrived.length + (if c.group ≥ 0x80 then outside.length else 0) < c.size) then s
    else
      let srcs := c.sources outside
      match s.collWrite p c srcs c.arrived with
      | .ok t => t.modPart p fun q => { q with colls := SMap.set q.colls key { c with done := true } }
      | .error (k, .wait w) | .error (k, .held _ w) => s.startWait k w
      | .error (k, .fault cause d) => if (s.hg k).stopped then s else s.trapAt k cause (s.hg k).pc (s.hg k).pc 0 d

/-- COLL_COMPLETE: inp.unit is the partition, inp.idx the collective's key, inp.data the packed sources of the domain
group's ranks on other modules (log 13). -/
def execCollComplete (s : State) : Host.Outcome State Fault Refusal :=
  .next (s.collComplete s.inp.unit s.inp.idx s.inp.data)

end Sys2Proof.Machine
end

