-- ==== Sys2Proof/Machine/Slu.lean ====
section
/-! DEFINITION. The SLU group, and what an engine asks of a sluice (08 R219, R220; 10 R260, R263). -/

namespace Sys2Proof.Machine

/-- A sluice of a core. -/
def Core.sluice (k : Core) (i : Nat) : Sluice := k.sluices.get (Fin.ofNat 16 i)

def Sluice.unit (x : Sluice) : Nat := bits x.desc.toNat 60 4
def Sluice.logn (x : Sluice) : Nat := bits x.desc.toNat 56 4
def Sluice.kind (x : Sluice) : Nat := bits x.desc.toNat 54 2
def Sluice.offset (x : Sluice) : Nat := bits x.desc.toNat 0 22
/-- Bytes of a unit. -/
def Sluice.unitBytes (x : Sluice) : Nat := 16 * 2 ^ x.unit
/-- Units between the pointers. -/
def Sluice.occupancy (x : Sluice) : Nat := (x.p + 2 ^ 32 - x.c) % 2 ^ 32
/-- The occupancy that consumers see: none while the gate is closed. -/
def Sluice.seen (x : Sluice) : Nat := if x.open_ then x.occupancy else 0
def Sluice.room (x : Sluice) : Nat := 2 ^ x.logn - x.occupancy
/-- The role of the banks of a sluice's region: SCRATCH or OPERAND. -/
def Sluice.role (x : Sluice) : Nat := if x.kind = 1 then 3 else 2
/-- The descriptor with OPEN current. -/
def Sluice.read (x : Sluice) : Word := BitVec.ofNat 64 (setBits x.desc.toNat 52 1 (if x.open_ then 1 else 0))

/-- The region of a sequencer's core in bytes; an RMC has none (log 27). -/
def State.regionBytes (s : State) (k role : Nat) : Nat := if isRmc k then 0 else s.roleBytes (unitCore k) role

/-- The sluices that a stream command names. -/
def StreamCmd.names (c : StreamCmd) (sl : Nat) : Bool :=
  (bit c.desc.toNat 1 && bits c.desc.toNat 8 4 == sl) || (bit c.desc.toNat 2 && bits c.desc.toNat 12 4 == sl)

/-- The sluices that a chain command names. -/
def ChainCmd.names (c : ChainCmd) (sl : Nat) : Bool :=
  bits c.desc.toNat 0 4 == sl || bits c.desc.toNat 12 4 == sl || (bit c.desc.toNat 8 && bits c.desc.toNat 4 4 == sl)

/-- Does an engine command or drain of a headgate name a sluice? -/
def Hg.namesSluice (h : Hg) (sl : Nat) : Bool :=
  h.node0.queue.any (·.names sl) || h.node1.queue.any (·.names sl) || h.chain.queue.any (·.names sl)
    || h.drain.queue.any fun c => c.sl == sl

/-- Is a sluice descriptor well formed (08 R219)? -/
def slDescOk (x : Sluice) : Bool :=
  decide (x.unit ≤ 9) && decide (x.kind ≤ 1) && bits x.desc.toNat 22 31 == 0 && x.offset % x.unitBytes == 0

/-- The sluice that a sequencer names. -/
def State.sluice (s : State) (i : SlReg) : Sluice := (s.core (unitCore s.cur)).sluice i.val

def State.setSluice (s : State) (i : SlReg) (x : Sluice) : State :=
  s.modCore (unitCore s.cur) fun k => { k with sluices := k.sluices.set i x }

/-- A sluice that has been set; SLUICE_MISUSE otherwise (08 R220). -/
def State.sluiceSet (s : State) (i : SlReg) : Acc Sluice := do
  chk (s.sluice i).set cSluice
  .ok (s.sluice i)

/-- SLSET (08 R219). -/
def execSlset (x : SlReg) (a : SReg) (s : State) : Host.Outcome State Fault Refusal :=
  s.unforked 0 (do
    let y : Sluice := { set := true, desc := s.getS a, open_ := !bit (s.getS a).toNat 53, claim := (s.sluice x).claim }
    chk (slDescOk y) cIllegal
    chk (decide (y.offset + 2 ^ y.logn * y.unitBytes ≤ s.regionBytes s.cur y.role)) cAddr
    chk ((List.range 4).all fun h => !(s.hg (4 * unitCore s.cur + h)).namesSluice x.val) cSluice
    done (s.setSluice x y))

/-- SLPUT: P advances by s[a] units (08 R220). -/
def execSlput (x : SlReg) (a : SReg) (s : State) : Host.Outcome State Fault Refusal :=
  s.unforked 0 (do
    let y ← s.sluiceSet x
    chk (y.kind != 1 && decide ((s.getS a).toNat ≤ y.room)) cSluice
    done (s.advanceP (unitCore s.cur) x.val (s.getS a).toNat))

/-- What is left of a task's claims when it takes n units of a sluice (10 R260): the claims and the units given up. -/
def takeClaim (sl n : Nat) : List (Nat × Nat) → List (Nat × Nat) × Nat
  | [] => ([], 0)
  | (i, m) :: t =>
    if i = sl then
      let d := min n m
      let (t', e) := takeClaim sl (n - d) t
      ((i, m - d) :: t', d + e)
    else
      let (t', e) := takeClaim sl n t
      ((i, m) :: t', e)

/-- An SLTAKE by a task lowers its claim on the sluice (10 R260). -/
def State.lowerClaim (s : State) (sl n : Nat) : State :=
  match s.me.run with
  | .task l =>
    let (l', d) := takeClaim sl n l
    (s.setMe { s.me with run := .task l' }).modCore (unitCore s.cur) fun k => k.modSluice sl fun x => { x with claim := x.claim - d }
  | .idle | .program => s

/-- SLTAKE: C advances by s[a] units (08 R220; 10 R260). -/
def execSltake (x : SlReg) (a : SReg) (s : State) : Host.Outcome State Fault Refusal :=
  s.unforked 0 (do
    let y ← s.sluiceSet x
    chk (y.kind != 1 && decide ((s.getS a).toNat ≤ y.seen)) cSluice
    done ((s.lowerClaim x.val (s.getS a).toNat).advanceC (unitCore s.cur) x.val (s.getS a).toNat))

/-- SLQRY: {P, C} (08 R220). -/
def execSlqry (x : SlReg) (a : SReg) (s : State) : Host.Outcome State Fault Refusal :=
  s.unforked 0 (do
    let y ← s.sluiceSet x
    done (s.setS a (BitVec.ofNat 64 (y.p % 2 ^ 32 * 2 ^ 32 + y.c % 2 ^ 32))))

/-- SLQRY.D: the descriptor with OPEN current (08 R220). -/
def execSlqryD (x : SlReg) (a : SReg) (s : State) : Host.Outcome State Fault Refusal :=
  s.unforked 0 (do
    let y ← s.sluiceSet x
    done (s.setS a y.read))

/-- SLWAIT.DATA: until the occupancy seen is at least s[a] units (08 R220). -/
def execSlwaitData (x : SlReg) (a : SReg) (s : State) : Host.Outcome State Fault Refusal :=
  s.unforked 0 (do
    let y ← s.sluiceSet x
    chk (decide ((s.getS a).toNat ≤ 2 ^ y.logn)) cSluice
    waitFor (decide ((s.getS a).toNat ≤ y.seen))
    done s)

/-- SLWAIT.ROOM: until the room is at least s[a] units (08 R220). -/
def execSlwaitRoom (x : SlReg) (a : SReg) (s : State) : Host.Outcome State Fault Refusal :=
  s.unforked 0 (do
    let y ← s.sluiceSet x
    chk (decide ((s.getS a).toNat ≤ 2 ^ y.logn)) cSluice
    waitFor (decide ((s.getS a).toNat ≤ y.room))
    done s)

/-- Byte o of unit n of a sluice of a core: its home, when the bank is ready (08 R220). -/
def State.unitAt (s : State) (c : Nat) (x : Sluice) (n o : Nat) : Acc Nat :=
  s.inBanks c x.role (x.offset + n % 2 ^ x.logn * x.unitBytes + o)

end Sys2Proof.Machine
end

