-- ==== Sys2Proof/Machine/Engine.lean ====
section
/-! DEFINITION. What the engines of a headgate share: faults, the scale cache, elements in sluice units
(08 R226, R227; 10 R263, R269; 14 R327, R339). -/

namespace Sys2Proof.Machine

/-! ## Engine faults (14 R327, R339; 18 R384) -/

/-- Elements left of a node's running command. -/
def Node.left (n : Node) : Nat :=
  match n.queue with
  | c :: _ => shCount c.dst - c.wr
  | [] => 0

/-- Elements left of the chain's running command. -/
def Chain.leftNow (c : Chain) : Nat :=
  match c.queue with
  | x :: _ => x.left
  | [] => 0

/-- The position word of the decoder, in the layout of R225. -/
def Decoder.posWord (d : Decoder) : Nat := d.pos.1 % 2 ^ 32 * 2 ^ 32 + d.pos.2.1 % 2 ^ 16 * 2 ^ 16 + d.pos.2.2 % 2 ^ 16

def Decoder.slot (d : Decoder) (n : Nat) : TableSlot := if n = 0 then d.t0 else d.t1

/-- The TABID of a decode fault: of the slot of the tile it was found in (11 R273, R275); none stated where no entry was read. -/
def Decoder.faultTabid (d : Decoder) : Nat :=
  match d.queue, d.fentry with
  | c :: _, some e => (d.slot (if bit e 0 then 1 - c.slot else c.slot)).tabid
  | _, _ => unstated

/-- The engine code of a record (14 R339), by unit number. -/
def engineCode : Nat → Nat
  | 1 | 2 => 2
  | 3 => 3
  | 4 => 4
  | _ => 6

/-- The detail words of an engine fault (14 R339). -/
def Hg.engineDetail (h : Hg) (eng : Nat) (a : Word) : List Nat :=
  [engineCode eng, a.toNat] ++
    match eng with
    | 1 => [h.node0.left, 0]
    | 2 => [h.node1.left, 0]
    | 3 => [h.dec.posWord, h.dec.faultTabid]
    | 4 => [h.chain.leftNow, 0]
    | _ => [h.feed.k * 2 ^ 32 + h.feed.r, 0]

/-- An engine of a headgate faults: it stops, with a record and the halt line (14 R327). -/
def State.engineFault (s : State) (k eng cause : Nat) (a : Word) : State :=
  let d := (s.hg k).engineDetail eng a
  let s := s.modHg k fun h => { h.stopEngine eng cause a with engWt := SMap.set h.engWt eng s.wt }
  match s.partOfHg k with
  | some p => (s.record p (coreOf k) eng (hgnOf k) cause 0xFFFF 0 d).haltLine p
  | none => s

/-- An access of an engine that did not complete: a fault stops the engine, anything else waits. -/
def State.engineStop (s : State) (k eng : Nat) (a : Word) : Stop → State
  | .fault c _ => s.engineFault k eng c a
  | x => s.stall (waiterOf k eng) x

/-- The cycle in which a sequencer's engines stand: of its cluster's clock; an RMC's clock is the module's (log 27). -/
def State.hgCycle (s : State) (k : Nat) : Nat := if isRmc k then s.wt else s.cycleOf (clusterOf (coreOf k))

/-! ## Elements of a shape (08 R214) -/

/-- Element n of a shape, read by a waiter. -/
def State.loadElem (s : State) (w : Nat) (x : BitVec 256) (f : Fmt) (n : Nat) : Acc (State × Nat) := do
  let (p, nib) := shElemPtr x f n
  let (s, v) ← s.loadVia w p (elemBytes f) false
  .ok (s, if isNibble f then bits v (4 * nib) 4 else v)

/-- Element n of a shape, stored by a waiter. -/
def State.storeElem (s : State) (w : Nat) (x : BitVec 256) (f : Fmt) (n v : Nat) : Acc State :=
  let (p, nib) := shElemPtr x f n
  s.storeAt1 w f p [(nib, v)]

/-! ## The scale cache (08 R227; 10 R269) -/

/-- The address of the scale byte of the block at an element address. -/
def ScaleCache.addr (c : ScaleCache) (e : Word) : Word := padd c.scbase ((e - c.elbase).toInt / (2 ^ c.shift : Nat))

/-- The aligned run of a scale byte's address. -/
def runOf (a : Word) : Word := BitVec.ofNat 64 (a.toNat - a.toNat % 16)

/-- What a lookup finds: the byte, a miss of a run, or a poisoned address. -/
inductive ScaleLook where
  | hit (b : Nat)
  | miss (run : Word)
  | poisoned (a : Word)
  deriving DecidableEq, Repr

/-- Look up the scale byte of the block at an element address. -/
def ScaleCache.look (c : ScaleCache) (e : Word) : ScaleLook :=
  let a := c.addr e
  if space a = 14 then .poisoned a
  else match SMap.get? c.runs (bits a.toNat 4 8) with
    | some (r, v) => if r = runOf a then .hit (v / 256 ^ (a.toNat % 16) % 256) else .miss (runOf a)
    | none => .miss (runOf a)

/-- The first lookup of several that does not hit, and the bytes when all hit. -/
def ScaleCache.lookAll (c : ScaleCache) : List Word → ScaleLook ⊕ List Nat
  | [] => .inr []
  | e :: t =>
    match c.look e with
    | .hit b =>
      match c.lookAll t with
      | .inr l => .inr (b :: l)
      | x => x
    | x => .inl x

/-- A miss joins those outstanding, of which there are at most 4. -/
def ScaleCache.want (c : ScaleCache) (run : Word) (eng : Nat) : ScaleCache :=
  if c.misses.any (fun m => m.1 == run) ∨ c.misses.length ≥ 4 then c else { c with misses := c.misses ++ [(run, eng)] }

/-- An engine's lookup did not hit: the miss goes out, or the engine faults with ADDR. -/
def State.scaleWait (s : State) (k eng : Nat) : ScaleLook → State
  | .hit _ => s
  | .miss r => s.modHg k fun h => { h with scale := h.scale.want r eng }
  | .poisoned a => s.engineFault k eng cAddr a

/-- SCALE_CACHE_FILL: inp.unit is the headgate, inp.idx the miss among those outstanding; its run is read with a plain load
at port scope (10 R269). -/
def execScaleCacheFill (s : State) : Host.Outcome State Fault Refusal :=
  let k := s.inp.unit
  .next (
    match (s.hg k).scale.misses[s.inp.idx]? with
    | none => s
    | some (run, eng) =>
      if !s.engineOn k then s
      else
        let drop := fun (t : State) => t.modHg k fun h =>
          { h with scale := { h.scale with misses := h.scale.misses.filter fun m => m.1 != run } }
        match s.loadVia (waiterOf k eng) run 16 false with
        | .ok (t, v) => (drop t).modHg k fun h => { h with scale := { h.scale with runs := SMap.set h.scale.runs (bits run.toNat 4 8) (run, v) } }
        | .error (.fault c _) => (drop s).engineFault k eng c run
        | .error x => s.stall (waiterOf k eng) x)

/-! ## Elements in sluice units (08 R214; 10 R263) -/

/-- Elements of a format that a unit holds. -/
def Sluice.perUnit (x : Sluice) (f : Fmt) : Nat := 8 * x.unitBytes / fmtWidth f

/-- An engine's waiter reads m bytes from byte o of unit n of a sluice on; they lie within one bank line. -/
def State.unitRead (s : State) (w c : Nat) (x : Sluice) (n o m : Nat) : Acc (State × Nat) := do
  let a ← s.unitAt c x n o
  let s ← s.turnAt w 4 a false false
  let v ← s.homeRead a m
  .ok (s.touch a, v)

/-- An engine's waiter writes m bytes from byte o of unit n of a sluice on; they lie within one bank line. -/
def State.unitWrite (s : State) (w c : Nat) (x : Sluice) (n o m v : Nat) : Acc State := do
  let a ← s.unitAt c x n o
  let s ← s.turnAt w 4 a false false
  .ok ((s.homeWrite a m v).touch a)

/-- Element i of unit n of a sluice, read by an engine's waiter. -/
def State.unitElem (s : State) (w c : Nat) (x : Sluice) (n : Nat) (f : Fmt) (i : Nat) : Acc (State × Nat) := do
  let (s, v) ← s.unitRead w c x n (fmtWidth f * i / 8) (elemBytes f)
  .ok (s, if isNibble f then bits v (4 * (i % 2)) 4 else v)

/-- Element i of unit n of a sluice, written by an engine's waiter; a nibble keeps the other half of its byte. -/
def State.unitPut (s : State) (w c : Nat) (x : Sluice) (n : Nat) (f : Fmt) (i v : Nat) : Acc State := do
  let o := fmtWidth f * i / 8
  if isNibble f then do
    let (s, old) ← s.unitRead w c x n o 1
    s.unitWrite w c x n o 1 (setBits old (4 * (i % 2)) 4 v)
  else s.unitWrite w c x n o (elemBytes f) v

/-! ## Pointers of a sluice (10 R264) -/

/-- The port of an engine of a headgate at the sluice pointers: node 0, node 1, chain unit, drain. -/
def pointerPort (k eng : Nat) : Nat := 4 * (k % 4) + (match eng with | 1 => 0 | 2 => 1 | 4 => 2 | _ => 3)

/-- May a port begin a unit at the pointer, or go on with it: no other has begun it, and none that lost lately comes first in the round? -/
def PointerArb.opens (x : PointerArb) (port now : Nat) : Bool :=
  match x.owner with
  | some o => o == port
  | none => x.asks.all fun q => decide (q.2 + 1 < now) || q.1 == port || decide (roundPlace 16 x.last port < roundPlace 16 x.last q.1)

/-- A port's part in the pointer in cycle now: whether it advances it, and whether it stays within the unit then at the pointer. -/
def PointerArb.grant (x : PointerArb) (port now : Nat) (adv stays : Bool) : PointerArb :=
  { last := port, used := if adv then some now else x.used, owner := if stays then some port else none, asks := x.asks.filter fun q => q.1 != port }

/-- A port's ready step has lost in a cycle. -/
def PointerArb.ask (x : PointerArb) (port now : Nat) : PointerArb := { x with asks := (x.asks.filter fun q => q.1 != port) ++ [(port, now)] }

/-- What a step of an engine does at a sluice's P (isP) or C: does it advance it, and does it stay within the unit then there? -/
structure PointerUse where
  sl : Nat
  isP : Bool
  adv : Bool
  stays : Bool
  deriving DecidableEq, Repr

/-- Change the arbiter of a sluice's P or C. -/
def Core.modPointer (k : Core) (e : PointerUse) (f : PointerArb → PointerArb) : Core :=
  k.modSluice e.sl fun x => if e.isP then { x with parb := f x.parb } else { x with carb := f x.carb }

/-- A sluice's arbiter of P or C. -/
def Core.pointer (k : Core) (e : PointerUse) : PointerArb := let x := k.sluice e.sl; if e.isP then x.parb else x.carb

/-- May an engine's step, ready, go at the pointers that it names in a cycle, each of which makes one step in a cycle? Otherwise it waits,
and is known to wait. -/
def State.pointersFreeAt (s : State) (c k eng now : Nat) (l : List PointerUse) : Acc Unit :=
  let port := pointerPort k eng
  if l.all fun e => ((s.core c).pointer e).opens port now && !(e.adv && ((s.core c).pointer e).used == some now) then .ok ()
  else .error (.held (s.modCore c fun x => l.foldl (fun x e => x.modPointer e fun y => y.ask port now) x) .busy)

/-- May it go in this cycle? -/
def State.pointersFree (s : State) (c k eng : Nat) (l : List PointerUse) : Acc Unit := s.pointersFreeAt c k eng (s.hgCycle k) l

/-- The step of an engine goes at the pointers that it names in a cycle. A producer's place is no drain's. -/
def State.takePointersAt (s : State) (c k eng now : Nat) (l : List PointerUse) : State :=
  let s := s.modCore c fun x => l.foldl (fun x e => x.modPointer e fun y => y.grant (pointerPort k eng) now e.adv e.stays) x
  l.foldl (fun s e => if e.isP && e.stays then s.displace c e.sl ((s.core c).sluice e.sl).p 1 else s) s

/-- The step of an engine goes in this cycle. -/
def State.takePointers (s : State) (c k eng : Nat) (l : List PointerUse) : State := s.takePointersAt c k eng (s.hgCycle k) l

/-- An engine begins the unit at a sluice's P or C, or goes on with it. -/
def State.openUnit (s : State) (c k eng sl : Nat) (isP : Bool) : Acc State := do
  let u : List PointerUse := [⟨sl, isP, false, true⟩]
  s.pointersFree c k eng u
  .ok (s.takePointers c k eng u)

/-- The pointer to byte o of unit n of a sluice, as the scale cache sees an element there (log 32). -/
def Sluice.ptr (x : Sluice) (n o : Nat) : Word :=
  BitVec.ofNat 64 ((if x.kind = 1 then 3 * 2 ^ 60 else 4 * 2 ^ 60 + 0xFFFF * 2 ^ 32) + (x.offset + n % 2 ^ x.logn * x.unitBytes + o) % 2 ^ 22)

/-- A command of an engine has finished: PEV bit 4 (06 R161; 08 R195). -/
def State.engineDone (s : State) (k : Nat) : State := s.modHg k (·.latch 4)

end Sys2Proof.Machine
end

