-- ==== Sys2Proof/Machine/Strm.lean ====
section
/-! DEFINITION. The STRM group and the stream nodes (08 R213 to R218; 10 R263, R266 to R268). -/

namespace Sys2Proof.Machine

/-! ## Shape slots (08 R213) -/

/-- SHLD when it performs: the slot takes a valid record, or becomes empty. -/
def State.performShld (s : State) (o : Operands) (x : ShReg) : Acc State := do
  let (t, v) ← s.loadVia s.cur o.va 32 false
  let r := BitVec.ofNat 256 v
  chk (shEmpty r || shValid r) cIllegal
  .ok (t.setMe (t.me.setSh x r))

/-- SHLD (08 R213). -/
def execShld (x : ShReg) (a : SReg) (s : State) : Host.Outcome State Fault Refusal :=
  let o : Operands := { va := s.getS a }
  s.holdable 0 (.shld x a) o (.ok ()) fun s => s.performShld o x

/-- SHST when it performs: the slot it issued with is stored. -/
def State.performShst (s : State) (o : Operands) : Acc State := s.storeVia s.cur o.va 32 o.sx.toNat false

/-- SHST (08 R213). -/
def execShst (x : ShReg) (a : SReg) (s : State) : Host.Outcome State Fault Refusal :=
  let o : Operands := { va := s.getS a, sx := s.me.getSh x }
  s.holdable 0 (.shst x a) o (.ok ()) fun s => s.performShst o

/-! ## Transforms (08 R215) -/

/-- The source format of a transform. -/
def xfFrom (x : Word) : Option Fmt :=
  match bits x.toNat 0 4 with
  | 0 => some .f32
  | 1 => some .bf16
  | _ => none

/-- The destination format of a transform. -/
def xfTo (x : Word) : Option Fmt :=
  match bits x.toNat 4 4 with
  | 0 => some .f32
  | 1 => some .bf16
  | 2 => some .f16
  | 3 => some .e4m3
  | 4 => some .e5m2
  | 5 => some .e2m1
  | 12 => some .cb4
  | _ => none

/-- The exact factor PRE. -/
def xfPre (x : Word) : FVal :=
  let b := bits x.toNat 16 16
  if b = 0 then .fin false 1 0 else fdecode (laneSpec .bf16) b

/-- Is a transform word legal? -/
def xfOk (x : Word) : Bool :=
  (xfFrom x).isSome && (xfTo x).isSome && bits x.toNat 8 8 == 0 && bits x.toNat 32 32 == 0

/-- A node of a headgate. -/
def Hg.node (h : Hg) (n : Nat) : Node := if n = 0 then h.node0 else h.node1
def Hg.setNode (h : Hg) (n : Nat) (x : Node) : Hg := if n = 0 then { h with node0 := x } else { h with node1 := x }
def Hg.modNode (h : Hg) (n : Nat) (f : Node → Node) : Hg := h.setNode n (f (h.node n))

/-- The number of a node. -/
def nodeNum (n : NodeIx) : Nat := n.val

/-- XFORM when it performs. -/
def State.performXform (s : State) (o : Operands) (n : NodeIx) : Acc State :=
  .ok (s.modMe fun h => h.modNode (nodeNum n) fun x => { x with xform := o.va })

/-- XFORM (08 R215). -/
def execXform (n : NodeIx) (a : SReg) (s : State) : Host.Outcome State Fault Refusal :=
  let o : Operands := { va := s.getS a }
  s.holdable 0 (.xform n a) o (chk (xfOk o.va) cIllegal) fun s => s.performXform o n

/-- The transform that a node's next command takes: what the issuing bank holds, or the node's own. -/
def Hg.xformNow (h : Hg) (n : Nat) : Word :=
  let own := (h.node n).xform
  if h.forked then
    h.bank.foldl (fun x y => match y.instr with | .xform m _ => if nodeNum m = n then y.ops.va else x | _ => x) own
  else own

/-! ## STRM (08 R214, R215; 10 R268) -/

def strmXf (d : Word) : Bool := bit d.toNat 0
def strmIn (d : Word) : Bool := bit d.toNat 1
def strmOut (d : Word) : Bool := bit d.toNat 2
def strmSli (d : Word) : Nat := bits d.toNat 8 4
def strmSlo (d : Word) : Nat := bits d.toNat 12 4

/-- The operand checks of STRM under a transform. -/
def State.strmOk (s : State) (o : Operands) (xf : Word) : Bool :=
  let x := o.sx
  let y := o.sy
  let d := o.va
  let sl := fun (i : Nat) => ((s.core (unitCore s.cur)).sluice i).set
  !shEmpty x && !shEmpty y && shCount x == shCount y
    && bits d.toNat 3 5 == 0 && bits d.toNat 16 48 == 0
    && (!strmIn d || sl (strmSli d)) && (!strmOut d || sl (strmSlo d))
    && (if strmXf d then
          (match xfFrom xf, xfTo xf with
           | some f, some t =>
             shFormat x == some f && shFormat y == some t && (!t.blockScalable || (shScaled y && shExt y 0 % 8 == 0))
           | _, _ => false)
        else shFmt x == shFmt y)

/-- STRM when it performs: the command is queued, when the node's queue has room (08 R195). -/
def State.performStrm (s : State) (o : Operands) (n : NodeIx) : Acc State := do
  waitFor (decide ((s.me.node (nodeNum n)).queue.length < 4))
  .ok (s.modMe fun h => h.modNode (nodeNum n) fun x =>
    { x with queue := x.queue ++ [{ src := o.sx, dst := o.sy, desc := o.va, xform := x.xform, fmode := o.fmode, g := o.g }] })

/-- The headgate's own G steps by one draw (02 R39). -/
def Hg.stepG (h : Hg) : Hg := { h with g := (drawG h.g).1 }

/-- STRM (08 R214). -/
def execStrm (x y : ShReg) (n : NodeIx) (a : SReg) (s : State) : Host.Outcome State Fault Refusal :=
  let o : Operands := { va := s.getS a, sx := s.me.getSh x, sy := s.me.getSh y, fmode := s.me.fmode, g := s.me.g }
  s.holdable 0 (.strm x y n a) o (chk (s.strmOk o (s.me.xformNow (nodeNum n))) cIllegal)
    (fun s => s.performStrm o n) fun t => t.modMe Hg.stepG

/-- The status of a node (08 R217). DESIGN CHOICE (log 61): the queued commands include the running one. -/
def Node.status (n : Node) : Nat :=
  n.left % 2 ^ 32 * 2 ^ 16 + n.cause % 256 * 256 + n.queue.length % 8 * 2 + (if n.queue.isEmpty then 0 else 1)

/-- STRMQ when it performs. -/
def State.performStrmq (s : State) (n : NodeIx) (a : SReg) : Acc State :=
  .ok (s.setS a (BitVec.ofNat 64 (s.me.node (nodeNum n)).status))

/-- STRMQ (08 R217). -/
def execStrmq (n : NodeIx) (a : SReg) (s : State) : Host.Outcome State Fault Refusal :=
  s.holdable 0 (.strmq n a) {} (.ok ()) fun s => s.performStrmq n a

/-! ## CBLOAD (08 R218) -/

/-- Does a node have a transformed command to cb4? -/
def Node.usesCodebook (n : Node) : Bool := n.queue.any fun c => strmXf c.desc && xfTo c.xform == some .cb4

/-- Has every earlier user of the codebook finished reading it? -/
def Hg.codebookFree (h : Hg) : Bool :=
  !h.node0.usesCodebook && !h.node1.usesCodebook && !(h.dec.queue.any fun c => c.fmt == .cb4)
    && !(h.feed.queue.any fun c => shFmt c.shape == 12) && !h.chain.queue.any fun c => bits c.desc.toNat 24 4 == 12

/-- Is an f16 code NaN or infinite? -/
def f16Special (x : Nat) : Bool := bits x 10 5 == 31

/-- CBLOAD when it performs. -/
def State.performCbload (s : State) (o : Operands) : Acc State := do
  waitFor s.me.codebookFree
  let (t, v) ← s.loadVia s.cur o.va 32 false
  let l := unpack v 16 16
  chk (!l.any f16Special) cIllegal
  .ok (t.setMe { t.me with codebook := Vector.ofFn fun k => l.getD k.val 0 })

/-- CBLOAD (08 R218). -/
def execCbload (a : SReg) (s : State) : Host.Outcome State Fault Refusal :=
  let o : Operands := { va := s.getS a }
  s.holdable 0 (.cbload a) o (.ok ()) fun s => s.performCbload o

/-! ## The read walk (10 R266 to R268) -/

/-- Is a command's output converted by blocks of 8? -/
def StreamCmd.blocks (c : StreamCmd) : Bool :=
  strmXf c.desc && match xfTo c.xform with | some t => t.blockScalable | none => false

/-- A command after its node has read elements: converted when transformed, block by block where the destination is
block-scaled. Gives the values AMAX takes. -/
def StreamCmd.take (c : StreamCmd) (cb : List Nat) : List Nat → StreamCmd × List FVal
  | [] => (c, [])
  | e :: t =>
    if strmXf c.desc then
      let v := (readElem c.fmode ((xfFrom c.xform).getD .f32) e).mul (xfPre c.xform)
      let to_ := (xfTo c.xform).getD .f32
      let c := { c with rd := c.rd + 1 }
      let c :=
        if c.blocks then
          let b := c.block ++ [e]
          if b.length = 8 then
            let vs := b.map fun x => (readElem c.fmode ((xfFrom c.xform).getD .f32) x).mul (xfPre c.xform)
            let (sc, cs, g) := blockConv c.fmode c.g cb to_ vs
            { c with block := [], staged := c.staged ++ cs, scales := c.scales ++ [(c.rd - 8, sc)], g }
          else { c with block := b }
        else
          let (y, g) := conv c.fmode c.g to_ v
          { c with staged := c.staged ++ [y], g }
      let (c', vs) := c.take cb t
      (c', v :: vs)
    else ({ c with rd := c.rd + 1, staged := c.staged ++ [e] } : StreamCmd).take cb t

/-- May a walk move w bits more in a cycle: at most 64 bytes (10 R266)? -/
def WalkRate.room (r : WalkRate) (now w : Nat) : Bool := r.cycle != now || decide (r.moved + w ≤ 512)

/-- A walk has moved w bits in a cycle. -/
def WalkRate.move (r : WalkRate) (now w : Nat) : WalkRate := if r.cycle = now then { r with moved := r.moved + w } else ⟨now, w⟩

/-- Does the staging buffer of a command take one more element: at most 2 KiB run ahead (10 R266)? -/
def StreamCmd.stages (c : StreamCmd) : Bool := decide ((c.rd - c.wr + 1) * fmtWidth ((shFormat c.src).getD .f32) ≤ 16384)

/-- The running command of a node takes elements. -/
def State.nodeTake (s : State) (k n : Nat) (l : List Nat) : State :=
  s.modHg k fun h =>
    match (h.node n).queue with
    | c :: t =>
      let (c', vs) := c.take h.codebook.toList l
      (h.modNode n fun x => { x with queue := c' :: t }).noteAmax vs
    | [] => h

/-- Change the running command of a node. -/
def Node.modCmd (x : Node) (f : StreamCmd → StreamCmd) : Node :=
  match x.queue with
  | c :: t => { x with queue := f c :: t }
  | [] => x

/-- A walk of a node did not go on. -/
def State.nodeStop (s : State) (k n : Nat) (a : Word) (wr : Bool) (x : Stop) : State :=
  match x with
  | .fault c _ => (s.engineFault k (n + 1) c a).modHg k fun h => h.modNode n fun y => { y with wrFault := wr }
  | x => s.stall (waiterOf k (n + 1)) x

/-- One element of the read walk of a node's running command, from memory or from the open unit of its input sluice. -/
def State.nodeRead (s : State) (k n : Nat) : State :=
  let node := (s.hg k).node n
  let now := s.hgCycle k
  match node.queue with
  | [] => s
  | c :: _ =>
    let f := (shFormat c.src).getD .f32
    let x := (s.core (unitCore k)).sluice (strmSli c.desc)
    if !s.engineOn k || node.cause != 0 || shCount c.src ≤ c.rd || !c.stages || !node.rdRate.room now (fmtWidth f) then s
    else if strmIn c.desc && (x.seen == 0 || x.perUnit f ≤ c.xoff) then s
    else
      let got : Acc (State × Nat) := if strmIn c.desc then do
          let s ← s.openUnit (unitCore k) k (n + 1) (strmSli c.desc) false
          keeping s (s.unitElem (waiterOf k (n + 1)) (unitCore k) x x.c f c.xoff)
        else s.loadElem (waiterOf k (n + 1)) c.src f c.rd
      match got with
      | .ok (t, v) =>
        (t.nodeTake k n [v]).modHg k fun h => h.modNode n fun y =>
          { y.modCmd fun c => if strmIn c.desc then { c with xoff := c.xoff + 1 } else c with rdRate := y.rdRate.move now (fmtWidth f) }
      | .error e => s.nodeStop k n (if strmIn c.desc then x.ptr x.c (fmtWidth f * c.xoff / 8) else (shElemPtr c.src f c.rd).1) false e

/-- STREAM_NODE_READ: inp.unit is the headgate, inp.sub the node: its read walk reads one element (10 R266). -/
def execStreamNodeRead (s : State) : Host.Outcome State Fault Refusal := .next (s.nodeRead s.inp.unit (s.inp.sub % 2))

/-! ## The write walk (10 R266, R268) -/

/-- The running command of a node ends when its last element is written and the units that it opened are left behind. -/
def State.nodeEnd (s : State) (k n : Nat) : State :=
  match ((s.hg k).node n).queue with
  | [] => s
  | c :: t =>
    if shCount c.dst ≤ c.wr ∧ c.xoff = 0 ∧ c.ooff = 0 then (s.modHg k fun h => h.modNode n fun x => { x with queue := t }).engineDone k
    else s

/-- A command after its oldest staged code is written. -/
def StreamCmd.wrote (c : StreamCmd) : StreamCmd :=
  { c with
    wr := min (c.wr + 1) (shCount c.dst), staged := c.staged.drop 1, ooff := if strmOut c.desc then c.ooff + 1 else 0,
    scales := c.scales.filter fun e => decide (c.wr + 1 < e.1 + 8) }

/-- Store the scale of the block that ends with a command's oldest staged code; a is the address of the block's first element. -/
def State.storeScale (s : State) (k n : Nat) (c : StreamCmd) (a : Word) : Acc State :=
  (c.scales.filter fun e => decide (e.1 + 8 ≤ c.wr + 1)).foldlM
    (fun (t : State) e => t.storeVia (waiterOf k (n + 1)) ((t.hg k).scale.addr a) 1 e.2 false) s

/-- What the write walk of a command writes next: a staged code; where the last unit of an output sluice is not full, zero. -/
def StreamCmd.next (c : StreamCmd) : Option Nat :=
  match c.staged with
  | v :: _ => some v
  | [] => if strmOut c.desc && decide (shCount c.dst ≤ c.wr) then some 0 else none

/-- One element of the write walk of a node's running command, to memory or into the open unit of its output sluice; the scale of a
block follows its last code. -/
def State.nodeWrite (s : State) (k n : Nat) : State :=
  let node := (s.hg k).node n
  let now := s.hgCycle k
  match node.queue with
  | [] => s
  | c :: _ =>
    let f := (shFormat c.dst).getD .f32
    let x := (s.core (unitCore k)).sluice (strmSlo c.desc)
    match c.next with
    | none => s
    | some v =>
      if !s.engineOn k || (node.cause != 0 && node.wrFault) || !node.wrRate.room now (fmtWidth f) then s
      else if strmOut c.desc && (x.room == 0 || x.perUnit f ≤ c.ooff) then s
      else
        let at_ := fun (back : Nat) =>
          if strmOut c.desc then x.ptr x.p (fmtWidth f * (c.ooff - back) / 8) else (shElemPtr c.dst f (c.wr - back)).1
        let put : Acc State := if strmOut c.desc then do
            let s ← s.openUnit (unitCore k) k (n + 1) (strmSlo c.desc) true
            keeping s (s.unitPut (waiterOf k (n + 1)) (unitCore k) x x.p f c.ooff v)
          else s.storeElem (waiterOf k (n + 1)) c.dst f c.wr v
        match put with
        | .error e => s.nodeStop k n (at_ 0) true e
        | .ok t =>
          match t.storeScale k n c (at_ 7) with
          | .ok t =>
            (t.modHg k fun h => h.modNode n fun y => { y.modCmd StreamCmd.wrote with wrRate := y.wrRate.move now (fmtWidth f) }).nodeEnd k n
          | .error e => s.nodeStop k n ((s.hg k).scale.addr (at_ 7)) true e

/-- STREAM_NODE_WRITE_WALK: inp.unit is the headgate, inp.sub the node: its write walk writes one element (10 R266). -/
def execStreamNodeWriteWalk (s : State) : Host.Outcome State Fault Refusal := .next (s.nodeWrite s.inp.unit (s.inp.sub % 2))

/-! ## Firings on sluices (10 R263, R264) -/

/-- The step of a node that leaves an open unit of a sluice behind: P (true) or C advances. -/
def State.nodeAdvance (s : State) (k n sl : Nat) (out : Bool) : State :=
  let core := unitCore k
  let u : List PointerUse := [⟨sl, out, true, false⟩]
  match s.pointersFree core k (n + 1) u with
  | .error e => s.stall (waiterOf k (n + 1)) e
  | .ok _ =>
    let s := s.takePointers core k (n + 1) u
    let s := if out then s.advanceP core sl 1 else s.advanceC core sl 1
    (s.modHg k fun h => h.modNode n fun y => y.modCmd fun c => if out then { c with ooff := 0 } else { c with xoff := 0 }).nodeEnd k n

/-- A node takes the open unit of its input sluice: its elements, or as many as the command still needed, have been read. -/
def State.nodeFireIn (s : State) (k n : Nat) (c : StreamCmd) : State :=
  let x := (s.core (unitCore k)).sluice (strmSli c.desc)
  if x.seen = 0 || c.xoff = 0 || (c.xoff < x.perUnit ((shFormat c.src).getD .f32) && c.rd < shCount c.src) then s
  else s.nodeAdvance k n (strmSli c.desc) false

/-- A node has filled the open unit of its output sluice. -/
def State.nodeFireOut (s : State) (k n : Nat) (c : StreamCmd) : State :=
  let x := (s.core (unitCore k)).sluice (strmSlo c.desc)
  if x.room = 0 || c.ooff < x.perUnit ((shFormat c.dst).getD .f32) then s
  else s.nodeAdvance k n (strmSlo c.desc) true

/-- STREAM_NODE_FIRE: inp.unit is the headgate, inp.sub the node, inp.idx 0 for its input sluice, else its output sluice:
one unit (10 R263). -/
def execStreamNodeFire (s : State) : Host.Outcome State Fault Refusal :=
  let k := s.inp.unit
  let n := s.inp.sub % 2
  .next (
    match ((s.hg k).node n).queue with
    | [] => s
    | c :: _ =>
      if !s.engineOn k then s
      else if s.inp.idx = 0 then (if strmIn c.desc then s.nodeFireIn k n c else s)
      else if strmOut c.desc then s.nodeFireOut k n c else s)

end Sys2Proof.Machine
end

