-- ==== Sys2Proof/Machine/Feed.lean ====
section
/-! DEFINITION. Lane rows: presenting them, the expansion of cb4, tile-step rows and the TSTEP group (02 R32; 08 R221 to
R223; 09 R247; 14 R328). -/

namespace Sys2Proof.Machine

/-! ## Presenting a lane row (09 R247, R251) -/

/-- The segment a headgate feeds: its partition, its plot's id, the plot, the binding. -/
def State.fedSegment (s : State) (k : Nat) : Option (Nat × Nat × Plot × Binding) :=
  match (s.hg k).bound, s.partOfHg k with
  | some b, some p =>
    match s.plot? p b.plot with
    | some q => if feeds b.kind then some (p, b.plot, q, b) else none
    | none => none
  | _, _ => none

/-- The lane positions that lane i of a segment stands for: in redundant mode those of both copies. -/
def Plot.lanesOf (q : Plot) (b : Binding) (i : Nat) : List Nat :=
  (24 * b.seg + i) :: (if q.redun then [24 * b.seg + i + q.rows] else [])

/-- Has every lane of a segment room for a word? -/
def Plot.lanesFree (q : Plot) (b : Binding) : Bool :=
  (q.segLanes b.side b.seg).all fun p => (q.lanesOf b (p - 24 * b.seg)).all fun l => decide ((q.lane b.side l).fifo.length < 8)

/-- May a headgate present a lane row now? -/
def State.mayPresent (s : State) (k : Nat) (q : Plot) (b : Binding) : Bool :=
  s.engineOn k && !(s.hg k).feed.held && (s.hg k).feed.cause == 0 && decide ((s.hg k).feed.nextCycle ≤ s.plotCycle q)
    && q.lanesFree b

/-- The words of a lane row enter their lanes: (lane of the segment, data, side word). A fed word is valid, with guard 1
(log 33). -/
def State.presentRow (s : State) (k p id : Nat) (q : Plot) (b : Binding) (o : FeedPos) (l : List (Nat × Nat × Nat)) : State :=
  let f := s.plotCycle q
  let ord := (s.hg k).feed.presented
  let put := fun (m : SMap Lane) (e : Nat × Nat × Nat) => (q.lanesOf b e.1).foldl (fun m pos =>
    let key := laneKey b.side pos
    let x : Lane := SMap.getD m key {}
    let w : LaneWord := ⟨{ data := e.2.1, side := e.2.2, valid := true, guard := true }, f + 2 + SMap.getD q.dly key 0, ord, false⟩
    SMap.set m key { x with fifo := x.fifo ++ [w] }) m
  (s.modPlot p id fun q => { q with lanes := l.foldl put q.lanes }).modHg k fun h =>
    { h with feed := { h.feed with
        presented := ord + 1, origins := h.feed.origins ++ [(ord, o)], nextCycle := f + (if q.redun then 2 else 1) } }

/-! ## cb4 (02 R32) -/

/-- The layout of f16. -/
def specF16 : FSpec := ⟨5, 10, 15, .ieee, .h⟩

/-- Element n of expanded word m of a coded word with its side word, as an f16 code. -/
def cb4Elem (cb : List Nat) (fm : Word) (data side m n : Nat) : Nat :=
  encodeVal 0 specF16 false .rne ((fdecode specF16 (cb.getD (elem data 4 (8 * m + n)) 0)).mul (scaleVal fm (elem side 8 m)))

/-- Expanded word m of a coded word. -/
def cb4Word (cb : List Nat) (fm : Word) (data side m : Nat) : Nat := pack 16 ((List.range 8).map (cb4Elem cb fm data side m))

/-- Expanded lane row m of a coded lane row. -/
def cb4Row (cb : List Nat) (fm : Word) (m : Nat) (l : List (Nat × Nat × Nat)) : List (Nat × Nat × Nat) :=
  l.map fun e => (e.1, cb4Word cb fm e.2.1 e.2.2 m, 0)

/-! ## The operand of a tile-step row (08 R222) -/

/-- Why a lane row cannot be read: an access that did not complete, or a lookup that did not hit. -/
inductive FeedStop where
  | acc (a : Word) (x : Stop)
  | scale (l : ScaleLook)
  deriving DecidableEq, Repr

/-- The element width of a tile. -/
def TileCmd.width (c : TileCmd) : Nat := fmtWidth ((shFormat c.shape).getD .f32)
/-- The lanes a tile uses. -/
def TileCmd.lanes (c : TileCmd) : Nat := shExt c.shape 0 * c.width / 128
/-- Is a tile of cb4 elements? -/
def TileCmd.cb4 (c : TileCmd) : Bool := shFmt c.shape == 12
/-- Lane rows per repeat. -/
def TileCmd.rows (c : TileCmd) : Nat := shExt c.shape 1 * if c.cb4 then 4 else 1

/-- The advance of an operand address, in space 0x3 as in space 0x4. -/
def operandAdvance (p : Word) (d : Nat) : Word := if space p = 3 then advance p 22 d else padd p d

/-- The address of row r of repeat k. -/
def TileCmd.rowAddr (c : TileCmd) (k r : Nat) : Word :=
  let st := c.step.toNat
  operandAdvance (operandAdvance c.base (k * bits st 20 24 + k % 2 ^ bits st 0 4 * 64)) (r * bits st 44 20)

/-- n bytes of the OPERAND region of a headgate's core, line by line. -/
def State.readOperand (s : State) (k : Nat) : Nat → Nat → Nat → Acc (State × Nat)
  | 0, _, _ => .ok (s, 0)
  | fuel + 1, off, n => do
    let c := min n (64 - off % 64)
    if c = 0 then .ok (s, 0)
    else do
      chk (!isRmc k) cAddr
      let a ← s.inBanks (coreOf k) 3 off
      let s ← s.turnAt (waiterOf k 10) 4 a false false
      let lo ← s.homeRead a c
      let (t, hi) ← (s.touch a).readOperand k fuel (off + c) (n - c)
      .ok (t, lo + 256 ^ c * hi)

/-- n bytes at an operand address. -/
def State.readTile (s : State) (k : Nat) (p : Word) (n : Nat) : Acc (State × Nat) :=
  if space p = 3 then (if bits p.toNat 22 38 = 0 then s.readOperand k 8 (bits p.toNat 0 22) n else flt cAddr)
  else s.readRec (waiterOf k 10) p n

/-- The element addresses of the blocks of word l, where a says the element address at a byte of the lane row. -/
def blockAddrs (a : Nat → Word) (w l : Nat) : List Word := (List.range (16 / w)).map fun m => a (16 * l + w * m)

/-- The side words of lanes 0 to n - 1, when every lookup hits. -/
def sideWords (c : ScaleCache) (a : Nat → Word) (w n : Nat) : ScaleLook ⊕ List Nat :=
  match c.lookAll ((List.range n).flatMap (blockAddrs a w)) with
  | .inl x => .inl x
  | .inr bs => .inr ((List.range n).map fun l => pack 8 ((List.range (16 / w)).map fun m => bs.getD (l * (16 / w) + m) 0))

/-- Lane row r of repeat k of a tile-step row: (lane, data, side word), in lane rows as presented. -/
def State.tileRow (s : State) (k : Nat) (c : TileCmd) (rep r : Nat) : Except FeedStop (State × List (Nat × Nat × Nat)) :=
  let coded := if c.cb4 then r / 4 else r
  let a := c.rowAddr rep coded
  let n := c.lanes
  let read : Acc (State × Nat) := match c.vec with
    | some v => .ok (s, v.toNat)
    | none => s.readTile k a (16 * n)
  match read with
  | .error x => .error (.acc (if space a != 3 && x.isFault then s.faultAt (waiterOf k 10) a (16 * n) else a) x)
  | .ok (t, x) =>
    let sides := if shScaled c.shape then
        let sc := (s.hg k).scale
        sideWords sc (fun b => if c.vec.isSome then sc.elbase + BitVec.ofNat 64 b else operandAdvance a b) c.width n
      else .inr (List.replicate n 0)
    match sides with
    | .inl l => .error (.scale l)
    | .inr sd =>
      let row := (List.range n).map fun l => (l, elem x 128 l, sd.getD l 0)
      .ok (t, if c.cb4 then cb4Row (s.hg k).codebook.toList c.fmode (r % 4) row else row)

/-! ## TSTEP_FEED_PRESENT -/

/-- Is a tile-step row next, ahead of every decode command that feeds lanes (08 R222)? -/
def Hg.tileFirst (h : Hg) (c : TileCmd) : Bool := !h.dec.queue.any fun d => d.dest == 0 && decide (d.serial < c.serial)

/-- Does a binding's drain still wait for words of a row? -/
def Hg.drainOpen (h : Hg) (serial : Nat) : Bool := h.drain.queue.any fun c => c.serial == serial

/-- The feed of a headgate has presented a lane row of its oldest row. -/
def Hg.feedStep (h : Hg) : Hg :=
  match h.feed.queue with
  | [] => h
  | c :: t =>
    if h.feed.r + 1 < c.rows then { h with feed := { h.feed with r := h.feed.r + 1 } }
    else if h.feed.k + 1 < c.n then { h with feed := { h.feed with r := 0, k := h.feed.k + 1 } }
    else
      let h := { h with feed := { h.feed with r := 0, k := 0, queue := t, replay := h.feed.replay ++ [c] } }
      if h.drainOpen c.serial then h else h.latch 4

/-- Does the replay list leave room for what the next lane row of a headgate's oldest row brings: that row itself, with its last lane row
(14 R328)? -/
def Hg.replayFree (h : Hg) (c : TileCmd) : Bool :=
  !(decide (c.rows ≤ h.feed.r + 1) && decide (c.n ≤ h.feed.k + 1)) || decide (h.feed.replay.length < 16)

/-- A feed did not go on. -/
def State.feedStop (s : State) (k eng : Nat) : FeedStop → State
  | .acc a x => s.engineStop k eng a x
  | .scale l => s.scaleWait k eng l

/-- A row from which a splice's successor feeds waits for the successor (08 R208). -/
def Hg.tileHere (h : Hg) (c : TileCmd) : Bool :=
  match h.feed.tokenAt with
  | some n => decide (c.serial < n)
  | none => true

/-- The feed of a headgate presents one lane row. -/
def State.feedPresent (s : State) (k : Nat) : State :=
  let h := s.hg k
  match s.fedSegment k, h.feed.queue with
  | some (p, id, q, b), c :: _ =>
    if s.mayPresent k q b && h.tileFirst c && h.tileHere c && h.replayFree c then
      match s.tileRow k c h.feed.k h.feed.r with
      | .ok (t, l) => (t.presentRow k p id q b (.tile c.serial h.feed.k h.feed.r) l).modHg k Hg.feedStep
      | .error x => s.feedStop k 10 x
    else s
  | _, _ => s

/-- TSTEP_FEED_PRESENT: inp.unit is the headgate (09 R247). -/
def execTstepFeedPresent (s : State) : Host.Outcome State Fault Refusal := .next (s.feedPresent s.inp.unit)

/-! ## TSTEP (08 R221 to R223) -/

/-- The binding that a row issued now belongs to: behind a switch token the successor's (08 R208). ILLEGAL when the headgate
is not bound. -/
def State.tstepBinding (s : State) : Acc Binding :=
  match s.me.bound with
  | some b => .ok (if s.me.feed.tokenAt.isSome then s.me.nextBound.getD b else b)
  | none => flt cIllegal

/-- Is the tile shape of a row legal; one row of at most 4 lanes for a vector operand (08 R221)? -/
def tileOk (x : BitVec 256) (vector : Bool) : Bool :=
  let w := fmtWidth ((shFormat x).getD .f32)
  let bitsRow := shExt x 0 * w
  !shEmpty x && shNdim x == 1 && bitsRow % 128 == 0 && decide (1 ≤ bitsRow / 128) && decide (bitsRow / 128 ≤ 24)
    && (!vector || (shExt x 1 == 1 && decide (bitsRow / 128 ≤ 4)))

/-- Is the address of a memory operand of a space that TSTEP accepts (08 R222)? -/
def tileSpaceOk (p : Word) : Bool := space p ≤ 6

/-- The checks of a tile-step row: its shape, its binding's kind, its step word. -/
def State.tstepOk (s : State) (o : Operands) (y : SlReg) (a z : Nat) : Acc Unit := do
  let b ← s.tstepBinding
  if b.kind = 1 then
    chk (decide (a = 0) && decide (z = 0)) cIllegal
    chk (tileOk o.sx false) cIllegal
  else
    chk (tileOk o.sx (decide (a = 0))) cIllegal
    chk (b.kind == 2 || y.val == 0) cIllegal
    if a = 0 then .ok ()
    else do
      chk (bits o.va1.toNat 4 16 == 0 && decide (bits o.va1.toNat 0 4 ≤ 7)) cIllegal
      chk (tileSpaceOk o.va) cAddr
  if drains b.kind then chk ((s.core (unitCore s.cur)).sluice y.val).set cSluice

/-- A tile-step row is queued on the feed, the drain, or both, when there is room (08 R195, R223; 14 R328). -/
def State.performTstep (s : State) (o : Operands) (y : SlReg) (n : BitVec 9) (vec : Option VWord) : Acc State := do
  let b ← s.tstepBinding
  let h := s.me
  waitFor (decide (h.feed.queue.length < 8) && decide (h.feed.replay.length < 16)
    && (feeds b.kind || decide (h.drain.queue.length < 8)))
  let c : TileCmd :=
    { serial := h.feed.nextSerial, shape := o.sx, sl := y.val, vec, base := o.va, step := o.va1, n := n.toNat, fmode := o.fmode,
      dbase := h.drain.total }
  .ok (s.setMe { h with
    feed := { h.feed with nextSerial := h.feed.nextSerial + 1, queue := if feeds b.kind then h.feed.queue ++ [c] else h.feed.queue },
    drain := if drains b.kind then { h.drain with rows := h.drain.rows ++ [c], total := h.drain.total + c.words } else h.drain })

/-- TSTEP with a memory operand (08 R221, R222). -/
def execTstep (x : ShReg) (y : SlReg) (a : SReg) (n : BitVec 9) (s : State) : Host.Outcome State Fault Refusal :=
  let o : Operands := { va := s.getS a, va1 := s.getS (a + 1), sx := s.me.getSh x, fmode := s.me.fmode }
  s.holdable 0 (.tstep x y a n) o (s.tstepOk o y a.val 0) fun s => s.performTstep o y n none

/-- TSTEP with a vector operand, or on a drain-only binding (08 R221, R223). -/
def execTstepV (x : ShReg) (y : SlReg) (z : VReg) (n : BitVec 9) (s : State) : Host.Outcome State Fault Refusal :=
  let o : Operands := { vec := s.getV z, sx := s.me.getSh x, fmode := s.me.fmode }
  s.holdable 0 (.tstepV x y z n) o (s.tstepOk o y 0 z.val) fun s => s.performTstep o y n (some o.vec)

end Sys2Proof.Machine
end

