-- ==== Sys2Proof/Machine/Wd.lean ====
section
/-! DEFINITION. The weight decoder: the WD group, decoding a segment, delivery (08 R224, R225; 11). -/

namespace Sys2Proof.Machine

/-! ## CRC-32C (11 R271) -/

/-- Eight steps of the bit-reflected polynomial. -/
def crcShift : Nat → Nat → Nat
  | 0, c => c
  | n + 1, c => crcShift n (if c % 2 = 1 then c / 2 ^^^ 0x82F63B78 else c / 2)

/-- The register after bytes, before the final exclusive-or. -/
def crcBytes (c : Nat) (l : List Nat) : Nat := l.foldl (fun c b => crcShift 8 (c ^^^ b)) c

/-- CRC-32C of bytes. -/
def crc32c (l : List Nat) : Nat := crcBytes 0xFFFFFFFF l ^^^ 0xFFFFFFFF

/-! ## Decode tables (11 R272 to R275) -/

/-- Is a table entry within its limits? -/
def tableEntryOk (logAlpha e : Nat) : Bool :=
  decide (bits e 20 4 ≤ 12) && decide (bits e 8 12 + 2 ^ bits e 20 4 ≤ 4096) && decide (bits e 24 8 < 2 ^ logAlpha) && bits e 0 8 == 0

/-- The slot that a table image gives, valid when WTBL accepts it (11 R273). -/
def tableSlot (x : Nat) : TableSlot :=
  let la := bits x 8 8
  let body := x / 2 ^ 512
  let entries := unpack body 32 4096
  let ok := bits x 0 8 == 12 && (la == 4 || la == 8) && bits x 64 448 == 0 && crc32c (unpack body 8 16384) == bits x 32 32
    && entries.all (tableEntryOk la)
  if ok then { valid := true, tabid := bits x 16 16, logAlpha := la, entries }
  else { valid := false, tabid := bits x 16 16 }

def Decoder.setSlot (d : Decoder) (n : Nat) (t : TableSlot) : Decoder := if n = 0 then { d with t0 := t } else { d with t1 := t }

/-- Does a table's alphabet suit a format (08 R224)? -/
def alphaOk (t : TableSlot) (f : Fmt) : Bool := t.logAlpha == (if isNibble f then 4 else 8)

/-- May a pointer of a coded part be of its space (11 R270)? -/
def codedSpace (p : Word) : Bool := decide (space p ≤ 2) || space p == 4 || space p == 5 || space p == 6 || space p == 8

/-- WTBL when it performs: once every earlier WDEC has finished, the slot takes the table image; a refused image raises
WDEC_TABLE and invalidates the slot (08 R224; 11 R270, R273, R274). -/
def State.readTableImage (s : State) (o : Operands) : Acc (State × TableSlot) := do
  waitFor s.me.dec.queue.isEmpty
  chk (!(space o.va == 15 && !s.me.sys)) cPriv
  chk (codedSpace o.va) cAddr
  let (t, x) ← s.readRec s.cur o.va 16448
  .ok (t, tableSlot x)

/-- WTBL when it performs, unless its image is refused. -/
def State.performWtbl (s : State) (o : Operands) : Acc State := do
  let (t, x) ← s.readTableImage o
  if x.valid then .ok (t.setMe { t.me with dec := t.me.dec.setSlot (bits o.vb.toNat 0 1) x })
  else .error (.fault cWdecTable [unstated, unstated, unstated, x.tabid])

/-- The slot that a refused image leaves (11 R273). -/
def State.wtblRefused (s : State) (o : Operands) (x : TableSlot) : State :=
  (s.setMe { s.me with dec := s.me.dec.setSlot (bits o.vb.toNat 0 1) x }).precise cWdecTable [unstated, unstated, unstated, x.tabid]

/-- WTBL (08 R224). -/
def execWtbl (a b : SReg) (g : PReg) (s : State) : Host.Outcome State Fault Refusal :=
  let o : Operands := { va := s.getS a, vb := s.getS b }
  let checks := chk (decide (o.vb.toNat ≤ 1)) cIllegal
  let plain := s.holdable g (.wtbl a b g) o checks fun s => s.performWtbl o
  if s.me.forked || !s.getP g then plain
  else match checks, s.readTableImage o with
    | .ok (), .ok (t, x) => if x.valid then plain else .next (t.wtblRefused o x)
    | _, _ => plain

/-! ## WDEC, WSEEK, WDQRY (08 R224, R225; 11 R270, R285) -/

/-- The command of a decode descriptor. -/
def wdecCmd (x : Nat) (serial : Nat) (o : Operands) (seek : Option (Nat × Nat × Nat)) (f : Fmt) : WdecCmd :=
  { serial, image := BitVec.ofNat 64 (bits x 0 64), index := BitVec.ofNat 64 (bits x 64 64), tile0 := bits x 128 32,
    ntiles := bits x 160 32, slot := bits x 192 8, fmt := f, dest := bits x 216 8, darg := bits x 224 8, seek, fmode := o.fmode, g := o.g }

/-- Is a decode descriptor within its limits (08 R224)? -/
def wdecOk (x : Nat) : Bool :=
  bits x 232 24 == 0 && bits x 212 4 == 0 && bits x 200 8 == 0 && decide (bits x 192 8 ≤ 1) && decide (1 ≤ bits x 160 32)
    && decide (bits x 216 8 ≤ 1) && (if bits x 216 8 = 1 then decide (bits x 224 8 ≤ 127) else bits x 224 8 == 0)
    && [3, 4, 5, 6, 7, 9, 11, 12].contains (bits x 208 4)

/-- Symbols per 128-bit word. -/
def symsPerWord (f : Fmt) : Nat := 128 / fmtWidth f

/-- Does a seek suit a command (08 R225; 11 R285)? -/
def seekOk (c : WdecCmd) : Bool :=
  match c.seek with
  | none => true
  | some (t, _, n) => decide (c.tile0 ≤ t) && decide (t < c.tile0 + c.ntiles) && n % symsPerWord c.fmt == 0

/-- WDEC when it performs: the record is read and checked, and the command queued. DESIGN CHOICE (log 61): a headgate bound only to drain has no
edge lanes to deliver to, and a DEST 0 command raises ILLEGAL there. -/
def State.performWdec (s : State) (o : Operands) : Acc State := do
  let (t, x) ← s.loadVia s.cur o.va 32 false
  let h := t.me
  chk (wdecOk x) cIllegal
  match Fmt.ofCode (bits x 208 4) with
  | none => flt cIllegal
  | some f => do
    let c := wdecCmd x h.feed.nextSerial o h.dec.seek f
    let b ← t.tstepBinding
    let sl := h.dec.slot c.slot
    chk (sl.valid && alphaOk sl f && seekOk c) cIllegal
    chk (c.dest != 1 || !(((t.plot? (t.hgPart t.cur) b.plot).map (·.active)).getD false)) cIllegal
    chk (c.dest == 1 || feeds b.kind) cIllegal
    chk (codedSpace c.index && codedSpace c.image) cAddr
    chk (c.index.toNat % 8 == 0 && c.image.toNat % 64 == 0) cAlign
    waitFor (decide (h.dec.queue.length < 2))
    .ok (t.setMe { h with
      feed := { h.feed with nextSerial := h.feed.nextSerial + 1 }, dec := { h.dec with queue := h.dec.queue ++ [c], seek := none } })

/-- WDEC (08 R224). -/
def execWdec (a : SReg) (g : PReg) (s : State) : Host.Outcome State Fault Refusal :=
  let o : Operands := { va := s.getS a, fmode := s.me.fmode, g := s.me.g }
  s.holdable g (.wdec a g) o (.ok ()) fun s => s.performWdec o

/-- WSEEK when it performs. -/
def State.performWseek (s : State) (o : Operands) : Acc State :=
  let x := o.va.toNat
  .ok (s.setMe { s.me with dec := { s.me.dec with seek := some (bits x 32 32, bits x 16 16, bits x 0 16) } })

/-- WSEEK (08 R225). -/
def execWseek (a : SReg) (g : PReg) (s : State) : Host.Outcome State Fault Refusal :=
  let o : Operands := { va := s.getS a }
  s.holdable g (.wseek a g) o (chk (decide (bits o.va.toNat 0 16 ≤ 8191)) cIllegal) fun s => s.performWseek o

/-- The status word of WDQRY selector 1. -/
def Decoder.status (d : Decoder) : Nat :=
  (if d.seek.isSome then 2048 else 0) + (if d.t1.valid then 1024 else 0) + (if d.t0.valid then 512 else 0)
    + (if d.queue.isEmpty then 0 else 256) + d.cause % 256

/-- The decoder's position as the cycle before a cycle left it (11 R284). -/
def Decoder.posBefore (d : Decoder) (now : Nat) : Decoder := if d.posCycle = now then { d with pos := d.posPrev } else d

/-- The decoder's position moves in a cycle. -/
def Decoder.moveTo (d : Decoder) (now : Nat) (pos : Nat × Nat × Nat) : Decoder :=
  { d with pos, posCycle := now, posPrev := (d.posBefore now).pos }

/-- WDQRY when it performs. -/
def State.performWdqry (s : State) (o : Operands) (d : SReg) : Acc State :=
  .ok (s.setS d (BitVec.ofNat 64 (if o.va = 0 then (s.me.dec.posBefore (s.hgCycle s.cur)).posWord else s.me.dec.status)))

/-- WDQRY (08 R225). -/
def execWdqry (d a : SReg) (g : PReg) (s : State) : Host.Outcome State Fault Refusal :=
  let o : Operands := { va := s.getS a }
  s.holdable g (.wdqry d a g) o (chk (decide (o.va.toNat ≤ 1)) cIllegal) fun s => s.performWdqry o d

/-! ## Decoding a segment (11 R275 to R280) -/

/-- The state of the lanes after a symbol, the position and the symbols, newest first. -/
structure Lanes where
  states : List Nat
  pos : Nat
  syms : List Nat
  deriving DecidableEq, Repr

/-- Decode n symbols from number j on; none when the payload ends too soon (11 R279). -/
def decodeSyms (entries : List Nat) (payload len : Nat) : Nat → Nat → Lanes → Option Lanes
  | 0, _, l => some l
  | n + 1, j, l =>
    let e := entries.getD (l.states.getD (j % 32) 0) 0
    let nb := bits e 20 4
    if len < l.pos + nb then none
    else decodeSyms entries payload len n (j + 1)
      ⟨setAt l.states (j % 32) (bits e 8 12 + bits payload l.pos nb), l.pos + nb, bits e 24 8 :: l.syms⟩

/-- The bytes that symbols pack into (11 R281). -/
def packSyms (w : Nat) (l : List Nat) : List Nat := unpack (pack w l) 8 ((l.length * w + 7) / 8)

/-- The span of a segment with a number of coded bytes (11 R276). -/
def spanOf (clen : Nat) : Nat := 64 + (clen + 63) / 64 * 64

/-- Judge a marker at byte off of a tile of length bytes, for segment seg, with syms symbols of w bits before it in the
tile: a cause, or CLEN, NSYM and whether it is the tile's last (11 R276, R278). -/
def judgeMarker (m seg off length syms w : Nat) : Except Nat (Nat × Nat × Bool) :=
  let clen := bits m 48 32
  let nsym := bits m 32 16
  if bits m 0 16 ≠ 0x5EC7 ∨ bits m 16 16 ≠ seg ∨ nsym = 0 ∨ 8192 < nsym ∨ bits m 496 16 ≠ 0 then .error cWdecMark
  else if length < off + spanOf clen then .error cWdecOver
  else
    let last := off + spanOf clen == length
    if (!last && nsym % 32 != 0) || decide (2 ^ 24 < ((syms + nsym) * w + 7) / 8) then .error cWdecMark
    else .ok (clen, nsym, last)

/-- Decode and check the payload of a segment: a cause, or the symbols (11 R279). -/
def decodePayload (t : TableSlot) (w m payload clen nsym span : Nat) : Except Nat (List Nat) :=
  match decodeSyms t.entries payload (8 * clen) nsym 0 ⟨unpack (bits m 80 384) 12 32, 0, []⟩ with
  | none => .error cWdecOver
  | some l =>
    if (l.pos + 7) / 8 ≠ clen ∨ bits payload l.pos (8 * (span - 64) - l.pos) ≠ 0 then .error cWdecTail
    else if crc32c (packSyms w l.syms.reverse) ≠ bits m 464 32 then .error cWdecCrc
    else .ok l.syms.reverse

/-- Why the decoder has no next segment: an access that does not complete, with the index entry of the tile where it is known,
or a fault at an address. -/
inductive SegStop where
  | acc (a : Word) (x : Stop) (entry : Option Nat)
  | bad (a : Word) (cause entry : Nat)
  deriving DecidableEq, Repr

/-- An access of the decoder, within a tile whose index entry is known or not. -/
def State.decRead (s : State) (k : Nat) (p : Word) (n : Nat) (entry : Option Nat) : Except SegStop (State × Nat) :=
  match s.readRec (waiterOf k 3) p n with
  | .ok r => .ok r
  | .error x => .error (.acc (if x.isFault then s.faultAt (waiterOf k 3) p n else p) x entry)

/-- The table slot of a tile (11 R275). -/
def Decoder.tileSlot (d : Decoder) (c : WdecCmd) (entry : Nat) : TableSlot :=
  d.slot (if bit entry 0 then 1 - c.slot else c.slot)

/-- The index entry of a tile, judged (11 R275). -/
def State.readEntry (s : State) (k : Nat) (c : WdecCmd) (t : Nat) : Except SegStop (State × Nat) := do
  let p := padd c.index (8 * t)
  let (s, e) ← s.decRead k p 8 none
  if bits e 24 40 % 64 ≠ 0 ∨ bits e 4 20 = 0 ∨ bits e 4 20 % 4 ≠ 0 ∨ bits e 1 3 ≠ 0 then .error (.bad p cWdecMark e)
  let sl := (s.hg k).dec.tileSlot c e
  if bit e 0 && !(sl.valid && alphaOk sl c.fmt) then .error (.bad p cWdecTable e)
  .ok (s, e)

/-- The pointer to byte o of a tile. -/
def tilePtr (c : WdecCmd) (entry o : Nat) : Word := padd c.image (bits entry 24 40 + o)

/-- Walk the markers of a tile over n segments from segment seg at byte off, syms symbols in: the place then reached. -/
def State.walkMarkers (s : State) (k : Nat) (c : WdecCmd) (entry : Nat) : Nat → Nat → Nat → Nat → Except SegStop (State × Nat × Nat)
  | 0, _, off, syms => .ok (s, off, syms)
  | n + 1, seg, off, syms => do
    let p := tilePtr c entry off
    if 16 * bits entry 4 20 ≤ off then .error (.bad p cWdecMark entry)
    let (s, m) ← s.decRead k p 64 (some entry)
    match judgeMarker m seg off (16 * bits entry 4 20) syms (fmtWidth c.fmt) with
    | .error cause => .error (.bad p cause entry)
    | .ok (clen, nsym, _) => s.walkMarkers k c entry n (seg + 1) (off + spanOf clen) (syms + nsym)

/-- The command at the head of the queue starts in a cycle: where it is to go on, from its seek, or from its first tile. The last fault
cause goes when the command begins, not when it starts again (11 R284). -/
def Decoder.begin (d : Decoder) (now : Nat) (c : WdecCmd) : Decoder :=
  let (t, g, n) := (c.resume.orElse fun _ => c.seek).getD (c.tile0, 0, 0)
  { d.moveTo now (t, g, n) with
    queue := { c with begun := true } :: d.queue.drop 1, started := true, cause := if c.begun then d.cause else 0, parked := false,
    nextTile := t, nextSeg := g, nextOff := 0, nextSyms := 0, skip := n, bufs := [], asm := [], asmLast := false, entry := 0 }

/-- Does the decoder know where the next segment lies, or must it read the tile's index entry first? -/
def Decoder.atTile (d : Decoder) : Bool := d.nextOff != 0

/-- Read, decode and check the next segment of the running command: the decoder after it (11 R279, R280, R285). Two cycles parse each marker
it reads, 32 symbols are decoded in a cycle, and the check takes four (R283). -/
def State.nextSegment (s : State) (k : Nat) (c : WdecCmd) (d : Decoder) : Except SegStop (State × Decoder) := do
  let w := fmtWidth c.fmt
  let begin_ := max (s.hgCycle k) d.busy + (if d.atTile then 0 else 2 * d.nextSeg)
  let (s, entry, off, syms) ←
    if d.atTile then .ok (s, d.entry, d.nextOff, d.nextSyms)
    else do
      let (s, e) ← s.readEntry k c d.nextTile
      let (s, off, syms) ← s.walkMarkers k c e d.nextSeg 0 0 0
      .ok (s, e, off, syms)
  let p := tilePtr c entry off
  let length := 16 * bits entry 4 20
  if length ≤ off then .error (.bad p cWdecMark entry)
  let (s, m) ← s.decRead k p 64 (some entry)
  match judgeMarker m d.nextSeg off length syms w with
  | .error cause => .error (.bad p cause entry)
  | .ok (clen, nsym, last) => do
    let span := spanOf clen
    let (s, payload) ← if span = 64 then .ok (s, 0) else s.decRead k (padd p 64) (span - 64) (some entry)
    match decodePayload (d.tileSlot c entry) w m payload clen nsym span with
    | .error cause => .error (.bad p cause entry)
    | .ok l =>
      if nsym < d.skip then .error (.bad p cWdecOver entry)
      let busy := begin_ + 2 + (nsym + 31) / 32
      let b : SegBuf := ⟨d.nextTile, d.nextSeg, d.skip, l, last, syms / symsPerWord c.fmt, entry, busy + 4⟩
      let bufs := if d.skip = nsym then d.bufs else d.bufs ++ [b]
      let d := { d with bufs, skip := 0, entry, busy }
      .ok (s, if last then { d with nextTile := d.nextTile + 1, nextSeg := 0, nextOff := 0, nextSyms := 0 }
        else { d with nextSeg := d.nextSeg + 1, nextOff := off + span, nextSyms := syms + nsym })

/-- Has every segment of the running command been decoded? -/
def Decoder.allDecoded (d : Decoder) (c : WdecCmd) : Bool := decide (c.tile0 + c.ntiles ≤ d.nextTile)

/-- The lanes of the segment that a headgate's decodes feed. -/
def State.decLanes (s : State) (k : Nat) : Nat :=
  match s.fedSegment k with
  | some (_, _, q, b) => max 1 (q.segLanes b.side b.seg).length
  | none => 1

/-- Is the lane row that is being put together whole: full, or its tile at its end? -/
def Decoder.rowWhole (d : Decoder) (lanes : Nat) : Bool :=
  !d.asm.isEmpty && (d.asmLast || decide (lanes - d.asmWord % lanes ≤ d.asm.length))

/-- The decoder at a faulting segment: at its start, at the skip of its seek, or at the first word of the lane row that it was to
complete (11 R280, R288). -/
def Decoder.atFault (d : Decoder) (now : Nat) (fentry : Option Nat) : Decoder :=
  { d.moveTo now (if d.asm.isEmpty then (d.nextTile, d.nextSeg, d.skip) else d.asmPos) with fentry }

/-- Can the decoder still deliver what it has decoded (11 R280)? -/
def State.decHolds (s : State) (k : Nat) : Bool := !(s.hg k).dec.bufs.isEmpty || (s.hg k).dec.rowWhole (s.decLanes k)

/-- The decoder stops at a faulting segment, once nothing before it can be delivered (11 R280, R288). -/
def State.decFault (s : State) (k cause : Nat) (entry : Option Nat) (a : Word) : State :=
  if s.decHolds k then s
  else (s.modHg k fun h => { h with dec := h.dec.atFault (s.hgCycle k) entry }).engineFault k 3 cause a

/-- The decoder stops where the page walk of its read has failed, which has written its own record (14 R335; 18 R374). -/
def State.decWalkStop (s : State) (k cause va : Nat) : State :=
  if s.decHolds k then s
  else s.modHg k fun h =>
    { { h with dec := { h.dec.atFault (s.hgCycle k) none with walkFail := none } }.stopEngine 3 cause (BitVec.ofNat 64 va) with
      engWt := SMap.set h.engWt 3 s.wt }

/-- Is the plot that a headgate is bound to RUNNING or STOPPING? A DEST 1 command then does not run (11 R286). -/
def State.decBlocked (s : State) (k : Nat) (c : WdecCmd) : Bool := c.dest == 1 && s.boundActive k

/-- The decoder of a headgate reads, decodes and checks its next segment, when one of its two buffers is free. -/
def State.decodeNext (s : State) (k : Nat) : State :=
  match (s.hg k).dec.queue with
  | [] => s
  | c :: _ =>
    let d := (s.hg k).dec
    if !s.engineOn k || d.parked || s.decBlocked k c then s
    else
      let s := if d.started then s else s.modHg k fun h => { h with dec := d.begin (s.hgCycle k) c }
      let d := (s.hg k).dec
      match d.walkFail with
      | some (cause, va) => s.decWalkStop k cause va
      | none =>
        if 2 ≤ d.bufs.length || d.allDecoded c then s
        else match s.nextSegment k c d with
          | .ok (t, d) => t.modHg k fun h => { h with dec := d }
          | .error (.acc a (.fault cause _) entry) => s.decFault k cause entry a
          | .error (.acc _ x _) => s.stall (waiterOf k 3) x
          | .error (.bad a cause entry) => s.decFault k cause (some entry) a

/-- DECODER_SEGMENT_DECODE: inp.unit is the headgate (11 R279). -/
def execDecoderSegmentDecode (s : State) : Host.Outcome State Fault Refusal := .next (s.decodeNext s.inp.unit)

/-! ## Delivery (11 R281, R282, R284) -/

/-- The decoder without the next word of its first buffer; the word, completed with zero symbols, its index within the tile,
and whether the tile ends with it. -/
def Decoder.popWord (d : Decoder) (f : Fmt) : Option (Decoder × Nat × Nat × Bool × SegBuf) :=
  match d.bufs with
  | [] => none
  | b :: t =>
    let n := symsPerWord f
    let done := min (b.done + n) b.syms.length
    let whole := decide (b.syms.length ≤ done)
    let data := pack (fmtWidth f) ((b.syms.drop b.done).take n)
    some ({ d with bufs := if whole then t else { b with done } :: t }, data, b.word0 + b.done / n, whole && b.last, { b with done })

/-- May the decoder deliver a word in a cycle: its segment checked for long enough, and one word of 4-bit symbols a cycle, two of others
(11 R283)? -/
def Decoder.mayDeliver (d : Decoder) (now : Nat) (f : Fmt) : Bool :=
  (match d.bufs with | b :: _ => decide (b.ready ≤ now) | [] => false)
    && (d.rate.cycle != now || decide (d.rate.moved + 1 ≤ if isNibble f then 1 else 2))

/-- The decoder has delivered a word in a cycle. -/
def Decoder.delivered (d : Decoder) (now : Nat) : Decoder :=
  { d with rate := if d.rate.cycle = now then { d.rate with moved := d.rate.moved + 1 } else ⟨now, 1⟩ }

/-- Words move from the buffers into the lane row being put together, until it is whole, as many as a cycle allows. -/
def Decoder.fillRow (f : Fmt) (lanes now : Nat) : Nat → Decoder → Decoder
  | 0, d => d
  | n + 1, d =>
    if d.rowWhole lanes || !d.mayDeliver now f then d
    else match d.bufs, d.popWord f with
      | b :: _, some (d', data, word, last, b') =>
        let d' := if d.asm.isEmpty then { d' with asmPos := (b.tile, b.seg, b.done), asmWord := word } else d'
        Decoder.fillRow f lanes now n
          { d'.delivered now with asm := d.asm ++ [data], asmLast := last, asmEnd := (b'.tile, b'.seg, b'.done) }
      | _, _ => d

/-- The lane row that is whole: (lane, data, side word); a tile's last row is completed with zero words. -/
def Decoder.rowWords (d : Decoder) (sc : ScaleCache) (c : WdecCmd) (lanes : Nat) : ScaleLook ⊕ List (Nat × Nat × Nat) :=
  let i0 := d.asmWord % lanes
  let n := d.asm.length
  let zeros := (List.range (lanes - i0 - n)).map fun j => (i0 + n + j, 0, 0)
  let at_ := fun (j : Nat) => sc.elbase + BitVec.ofNat 64 (2 ^ 24 * d.asmPos.1 + 16 * (d.asmWord + j))
  let sides : ScaleLook ⊕ List Nat := if c.fmt.blockScalable then
      match sc.lookAll ((List.range n).flatMap fun j => (List.range (16 / fmtWidth c.fmt)).map fun m => at_ j + BitVec.ofNat 64 (fmtWidth c.fmt * m)) with
      | .inl x => .inl x
      | .inr bs => .inr ((List.range n).map fun j => pack 8 ((List.range (16 / fmtWidth c.fmt)).map fun m => bs.getD (j * (16 / fmtWidth c.fmt) + m) 0))
    else .inr (List.replicate n 0)
  match sides with
  | .inl x => .inl x
  | .inr sd => .inr (((List.range n).map fun j => (i0 + j, d.asm.getD j 0, sd.getD j 0)) ++ zeros)

/-- The decoder after the lane row it put together has been presented. -/
def Decoder.rowDone (d : Decoder) (now : Nat) (cb4 : Bool) : Decoder :=
  if cb4 && d.sub < 3 then { d with sub := d.sub + 1 }
  else { d.moveTo now d.asmEnd with sub := 0, asm := [], asmLast := false }

/-- A command whose last word is delivered finishes. -/
def State.decFinish (s : State) (k : Nat) : State :=
  let h := s.hg k
  match h.dec.queue with
  | [] => s
  | c :: t =>
    if h.dec.started && h.dec.allDecoded c && h.dec.bufs.isEmpty && h.dec.asm.isEmpty then
      (s.modHg k fun h =>
        { h with
          dec := { h.dec with queue := t, started := false, wsWords := if c.dest = 1 then 0 else h.dec.wsWords },
          feed := { h.feed with decReplay := if c.dest = 0 then h.feed.decReplay ++ [c] else h.feed.decReplay } }).engineDone k
    else s

/-- Is a decode that feeds lanes next, ahead of every tile-step row, and the predecessor's (08 R208, R222)? -/
def Hg.decHere (h : Hg) (c : WdecCmd) : Bool :=
  !(h.feed.queue.any fun t => decide (t.serial < c.serial))
    && (match h.feed.tokenAt with | some n => decide (c.serial < n) | none => true)

/-- A DEST 0 command puts words together and presents a whole lane row. -/
def State.deliverLanes (s : State) (k : Nat) (c : WdecCmd) : State :=
  match s.fedSegment k with
  | none => s
  | some (p, id, q, b) =>
    let lanes := s.decLanes k
    let s := s.modHg k fun h => { h with dec := Decoder.fillRow c.fmt lanes (s.hgCycle k) 2 h.dec }
    let h := s.hg k
    let d := h.dec
    if !(d.rowWhole lanes && s.mayPresent k q b && h.decHere c) then s
    else match d.rowWords h.scale c lanes with
      | .inl x => s.scaleWait k 3 x
      | .inr l =>
        let cb4 := c.fmt == .cb4
        let l := if cb4 then cb4Row h.codebook.toList c.fmode d.sub l else l
        (s.presentRow k p id q b (.dec c.serial d.asmPos.1 d.asmPos.2.1 d.asmPos.2.2 d.sub) l).modHg k fun h =>
          { h with dec := h.dec.rowDone (s.hgCycle k) cb4 }

/-- The weight-store row of word n of a DEST 1 command: cell and row; none past the plot's last cell (08 R224). -/
def wsRow (c : WdecCmd) (q : Plot) (n : Nat) : Option (Nat × Nat × Nat) :=
  let per := 128 - c.darg
  let cell := n / per
  if cell < q.rows * q.cols then some (cell / q.cols, cell % q.cols, c.darg + n % per) else none

/-- Write words to the weight-store rows of a DEST 1 command from word n on; false when one lies past the last cell. -/
def State.writeWs (s : State) (c : WdecCmd) (q : Plot) (n : Nat) : List Nat → State × Bool
  | [] => (s, true)
  | x :: t =>
    match wsRow c q n with
    | none => (s, false)
    | some (row, col, r) =>
      ((q.copies row col).foldl (fun s key => s.modCell key fun y => { y with store := SMap.set y.store r x }) s).writeWs c q (n + 1) t

/-- The faulting address of a word past the last weight store, which has none that the manual states (log 61). -/
def State.freeAddr (s : State) (k : Nat) : Word := Config.freeDetail (4096 * (s.core (coreOf k)).seq + coreOf k) 1

/-- A DEST 1 command writes one word (four rows for cb4). -/
def State.deliverStore (s : State) (k : Nat) (c : WdecCmd) : State :=
  let h := s.hg k
  let now := s.hgCycle k
  if !h.dec.mayDeliver now c.fmt then s
  else match h.bound.bind fun b => s.plot? (s.hgPart k) b.plot, h.dec.popWord c.fmt with
  | some q, some (d, data, word, _, b') =>
    let side := if c.fmt == .cb4 then h.scale.lookAll
        ((List.range 4).map fun m => h.scale.elbase + BitVec.ofNat 64 (2 ^ 24 * b'.tile + 16 * word + 4 * m)) else .inr []
    match side with
    | .inl x => s.scaleWait k 3 x
    | .inr bs =>
      let l := if c.fmt == .cb4 then (List.range 4).map (cb4Word h.codebook.toList c.fmode data (pack 8 bs)) else [data]
      let (t, ok) := s.writeWs c q h.dec.wsWords l
      if ok then t.modHg k fun h =>
        { h with dec := { (d.moveTo now (b'.tile, b'.seg, b'.done)).delivered now with wsWords := d.wsWords + l.length } }
      else match h.dec.bufs with
        | b :: _ => (t.modHg k fun h => { h with dec := { h.dec.moveTo now (b.tile, b.seg, b.done) with fentry := some b.entry } }).engineFault
            k 3 cWdecOver (s.freeAddr k)
        | [] => t
  | _, _ => s

/-- DECODER_WORD_DELIVER: inp.unit is the headgate (11 R281). -/
def execDecoderWordDeliver (s : State) : Host.Outcome State Fault Refusal :=
  let k := s.inp.unit
  .next (
    match (s.hg k).dec.queue with
    | [] => s
    | c :: _ =>
      if !s.engineOn k || !(s.hg k).dec.started || (s.hg k).dec.parked || s.decBlocked k c then s
      else (if c.dest = 0 then s.deliverLanes k c else s.deliverStore k c).decFinish k)

end Sys2Proof.Machine
end

