-- ==== Sys2Proof/Machine/Scl.lean ====
section
/-! DEFINITION. The SCL group (08 R226, R227). -/

namespace Sys2Proof.Machine

/-- Has a headgate a command that still consults the scale cache: a transform of a node with block scales, a decode command or
a tile-step row with side words, a drain with band scales (log 34)? -/
def Hg.scaleBusy (h : Hg) : Bool :=
  h.node0.queue.any (·.blocks) || h.node1.queue.any (·.blocks)
    || h.dec.queue.any (fun c => if c.dest = 0 then c.fmt.blockScalable else c.fmt == .cb4)
    || h.feed.queue.any (fun c => shScaled c.shape) || h.drain.queue.any fun c => shScaled c.shape

/-- The cache with no entry. -/
def ScaleCache.flush (c : ScaleCache) : ScaleCache := { c with runs := [] }

/-- The cache with a parameter set. -/
def ScaleCache.setParam (c : ScaleCache) (sel v : Word) : ScaleCache :=
  match sel.toNat with
  | 0 => { c with scbase := v }
  | 1 => { c with elbase := v }
  | 2 => { c with shift := v.toNat }
  | 3 => { c with bandbase := v }
  | _ => c

/-- SCSET when it performs. -/
def State.performScset (s : State) (o : Operands) : Acc State := do
  waitFor !s.me.scaleBusy
  .ok (s.modMe fun h => { h with scale := (h.scale.setParam o.va o.vb).flush })

/-- SCSET (08 R226). -/
def execScset (a b : SReg) (g : PReg) (s : State) : Host.Outcome State Fault Refusal :=
  let o : Operands := { va := s.getS a, vb := s.getS b }
  s.holdable g (.scset a b g) o
    (chk (decide (o.va.toNat ≤ 3) && (decide (o.va.toNat ≠ 2) || decide (o.vb.toNat ≤ 63))) cIllegal) fun s => s.performScset o

/-- SCFL when it performs. -/
def State.performScfl (s : State) : Acc State := do
  waitFor !s.me.scaleBusy
  .ok (s.modMe fun h => { h with scale := h.scale.flush })

/-- SCFL (08 R226). -/
def execScfl (g : PReg) (s : State) : Host.Outcome State Fault Refusal :=
  s.holdable g (.scfl g) {} (.ok ()) fun s => s.performScfl

end Sys2Proof.Machine
end

