-- ==== Sys2Proof/Machine/Chn.lean ====
section
/-! DEFINITION. The CHN group and the chain unit (08 R228 to R230; 10 R263). Log 35. -/

namespace Sys2Proof.Machine

/-! ## Chain slots (08 R228) -/

/-- An operation of a chain slot. -/
inductive COp where
  | elem (op : EOp)
  | cvt | qnt | sacc | amaxu
  deriving DecidableEq, Repr

/-- The operation of a code 0 to 23 (05 R125). -/
def COp.ofCode : Nat → Option COp
  | 0 => some (.elem .add)
  | 1 => some (.elem .sub)
  | 2 => some (.elem .mul)
  | 3 => some (.elem .fma)
  | 4 => some (.elem .fnma)
  | 5 => some (.elem .min)
  | 6 => some (.elem .max)
  | 7 => some (.elem .abs)
  | 8 => some (.elem .neg)
  | 9 => some (.elem .rsqs)
  | 10 => some (.elem .rcps)
  | 11 => some (.elem .exp2s)
  | 12 => some (.elem .log2s)
  | 13 => some (.elem .relu)
  | 14 => some (.elem .clamp)
  | 15 => some (.elem .sel)
  | 16 => some (.elem .cmpeq)
  | 17 => some (.elem .cmplt)
  | 18 => some (.elem .cmple)
  | 19 => some (.elem .mov)
  | 20 => some .cvt
  | 21 => some .qnt
  | 22 => some .sacc
  | 23 => some .amaxu
  | _ => none

/-- Sources that an operation uses: a, then b, then c (08 R230). -/
def COp.sources : COp → Nat
  | .elem .add | .elem .sub | .elem .mul | .elem .min | .elem .max | .elem .clamp => 2
  | .elem .cmpeq | .elem .cmplt | .elem .cmple | .qnt => 2
  | .elem .fma | .elem .fnma | .elem .sel | .sacc => 3
  | .elem .abs | .elem .neg | .elem .rsqs | .elem .rcps | .elem .exp2s | .elem .log2s | .elem .relu | .elem .mov => 1
  | .cvt | .amaxu => 1

/-- Is an operation code paired with a type (05 R125)? -/
def opTypeOk (code : Nat) (t : LaneType) : Bool :=
  match t with
  | .f32 => true
  | .bf16 | .f16 => code ≠ 4 && !(decide (9 ≤ code) && decide (code ≤ 12))
  | .i32 => decide (code ≤ 3) || (decide (5 ≤ code) && decide (code ≤ 8)) || (decide (13 ≤ code) && decide (code ≤ 19))

def slotOp (w : Nat) : Nat := bits w 27 5
def slotDst (w : Nat) : Nat := bits w 21 4
def slotSrc (w n : Nat) : Nat := bits w (17 - 4 * n) 4
def slotLast (w : Nat) : Bool := bit w 4

/-- The type of a slot. -/
def slotType (w : Nat) : LaneType :=
  match bits w 25 2 with
  | 0 => .f32
  | 1 => .bf16
  | 2 => .f16
  | _ => .i32

/-- Is FMT a destination of CVT or QNT: a format that a single value is converted to (02 R40)? -/
def chainFmtOk (f : Nat) : Bool := decide (f ≤ 11)

/-- Is a slot legal? -/
def chainSlotOk (w : Nat) : Bool :=
  match COp.ofCode (slotOp w) with
  | none => false
  | some op =>
    opTypeOk (slotOp w) (slotType w) && decide (slotDst w ≤ 8)
      && ((List.range 3).all fun n => if n < op.sources then decide (slotSrc w n ≤ 14) else slotSrc w n == 0)
      && (if op = .cvt ∨ op = .qnt then chainFmtOk (bits w 5 4) else bits w 5 4 == 0)
      && bits w 0 4 == 0

/-- The slots of a record up to the first LAST, and the rest. -/
def splitLast : List Nat → Option (List Nat × List Nat)
  | [] => none
  | w :: t => if slotLast w then some ([w], t) else (splitLast t).map fun r => (w :: r.1, r.2)

/-- The slots of a record. -/
def chainSlots (r : BitVec 256) : List Nat := unpack r.toNat 32 8

/-- Is a record legal (08 R228)? -/
def chainRecordOk (r : BitVec 256) : Bool :=
  match splitLast (chainSlots r) with
  | none => false
  | some (l, rest) => l.all chainSlotOk && rest.all (· == 0) && l.any fun w => slotDst w == 8

/-! ## CHAIN and CHCONST (08 R229) -/

def chainX (d : Word) : Nat := bits d.toNat 0 4
def chainY (d : Word) : Nat := bits d.toNat 4 4
def chainYuse (d : Word) : Bool := bit d.toNat 8
def chainOut (d : Word) : Nat := bits d.toNat 12 4
def chainFrom (d : Word) : Nat := bits d.toNat 24 4
def chainTo (d : Word) : Nat := bits d.toNat 28 4
def chainCount (d : Word) : Nat := bits d.toNat 32 32

/-- The checks of a chain descriptor: zero fields, formats, sluices that are set. -/
def State.chainOk (s : State) (d : Word) : Bool :=
  let sl := fun (i : Nat) => ((s.core (unitCore s.cur)).sluice i).set
  bits d.toNat 16 8 == 0 && bits d.toNat 9 3 == 0 && (Fmt.ofCode (chainFrom d)).isSome && (Fmt.ofCode (chainTo d)).isSome
    && sl (chainX d) && sl (chainOut d) && (!chainYuse d || sl (chainY d))

/-- Commands at the head of a chain queue that need no element finish. -/
def State.chainTrim (s : State) (k : Nat) : Nat → State
  | 0 => s
  | n + 1 =>
    match (s.hg k).chain.queue with
    | c :: t =>
      if c.left = 0 then
        ((s.modHg k fun h => { h with chain := { h.chain with queue := t } }).engineDone k).chainTrim k n
      else s
    | [] => s

/-- CHAIN when it performs: the record is read and checked, and the command queued when the queue has room. -/
def State.performChain (s : State) (o : Operands) : Acc State := do
  waitFor (decide (s.me.chain.queue.length < 2))
  let (t, v) ← s.loadVia s.cur o.va 32 false
  chk (chainRecordOk (BitVec.ofNat 256 v)) cIllegal
  let c : ChainCmd :=
    { slots := BitVec.ofNat 256 v, desc := o.vb, left := chainCount o.vb, fmode := o.fmode, g := o.g, k := t.me.chain.k.toList }
  .ok ((t.modMe fun h => { h with chain := { h.chain with queue := h.chain.queue ++ [c] } }).chainTrim t.cur 2)

/-- CHAIN (08 R229). -/
def execChain (a b : SReg) (g : PReg) (s : State) : Host.Outcome State Fault Refusal :=
  let o : Operands := { va := s.getS a, vb := s.getS b, fmode := s.me.fmode, g := s.me.g }
  s.holdable g (.chain a b g) o (chk (s.chainOk o.vb) cIllegal) (fun s => s.performChain o) fun t => t.modMe Hg.stepG

/-- CHCONST when it performs. -/
def State.performChconst (s : State) (o : Operands) : Acc State :=
  .ok (s.modMe fun h => { h with chain := { h.chain with k := h.chain.k.set! (o.va.toNat % 4) (low32 o.vb) } })

/-- CHCONST (08 R229). -/
def execChconst (a b : SReg) (g : PReg) (s : State) : Host.Outcome State Fault Refusal :=
  let o : Operands := { va := s.getS a, vb := s.getS b }
  s.holdable g (.chconst a b g) o (chk (decide (o.va.toNat ≤ 3)) cIllegal) fun s => s.performChconst o

/-! ## One element (08 R229, R230) -/

/-- An element as the chain sees it: an f32 or an i32. -/
def widen (cb : List Nat) (f : Fmt) (x : Nat) : Nat :=
  match f with
  | .f32 => x % 2 ^ 32
  | .cb4 => encodeVal 0 spec32 false .rne (fdecode specF16 (cb.getD x 0))
  | .bf16 | .f16 | .e4m3 | .e5m2 | .e2m1 | .e3m5 => encodeVal 0 spec32 false .rne (readElem 0 f x)
  | .i8 => keep 32 (sx x 8)
  | .i4 => keep 32 (sx x 4)
  | .i32 | .n8 | .n32 => x % 2 ^ 32

/-- The values a slot reads, and those it writes: t0 to t7, out. -/
structure ChainRegs where
  t : List Nat := List.replicate 9 0
  x : Nat
  y : Nat
  k : List Nat
  deriving DecidableEq, Repr

/-- A source. -/
def ChainRegs.src (r : ChainRegs) (n : Nat) : Nat :=
  if n ≤ 7 then r.t.getD n 0 else if n = 8 then r.x else if n = 9 then r.y else if n ≤ 13 then r.k.getD (n - 10) 0 else 0

/-- One slot: the registers, the generator, the values AMAX takes. -/
def ChainRegs.slot (r : ChainRegs) (fm g : Word) (w : Nat) : ChainRegs × Word × List FVal :=
  let t := slotType w
  let a := r.src (slotSrc w 0)
  let b := r.src (slotSrc w 1)
  let c := r.src (slotSrc w 2)
  let read := fread fm (laneSpec t)
  let f := (Fmt.ofCode (bits w 5 4)).getD .f32
  let (v, g', l) : Nat × Word × List FVal :=
    match COp.ofCode (slotOp w) with
    | some (.elem op) => (elemOp fm t op a b c, g, [])
    | some .cvt => let (v, g') := conv fm g f (read a); (v, g', [read a])
    | some .qnt => let p := (read a).mul (read b); let (v, g') := conv fm g f p; (v, g', [p])
    | some .sacc => (saccElem fm a b c, g, [])
    | some .amaxu => (a % 2 ^ laneWidth t, g, [read a])
    | none => (0, g, [])
  ({ r with t := setAt r.t (slotDst w) v }, g', l)

/-- The slots of a record on one element. -/
def ChainRegs.run (fm : Word) : List Nat → ChainRegs → Word → List FVal → ChainRegs × Word × List FVal
  | [], r, g, l => (r, g, l)
  | w :: t, r, g, l => let (r', g', l') := r.slot fm g w; ChainRegs.run fm t r' g' (l ++ l')

/-- The results of a list of elements (x, y), the generator, the values AMAX takes. -/
def ChainCmd.results (c : ChainCmd) (cb : List Nat) : List (Nat × Nat) → Word → List Nat × Word × List FVal
  | [], g => ([], g, [])
  | (x, y) :: t, g =>
    let f := (Fmt.ofCode (chainFrom c.desc)).getD .f32
    let l := match splitLast (chainSlots c.slots) with | some (l, _) => l | none => []
    let (r, g, a) := ChainRegs.run c.fmode l
      { x := widen cb f x, y := if chainYuse c.desc then widen cb f y else 0, k := c.k } g []
    let (rs, g, as') := c.results cb t g
    (r.t.getD 8 0 :: rs, g, a ++ as')

/-! ## CHAIN_FIRE (10 R263) -/

/-- The units that n more elements reach into, when off elements of the open unit are already used. -/
def unitsFor (off n per : Nat) : Nat := (off + n + per - 1) / per

/-- Units left behind: those used up, and the open one too when the command ends. -/
def unitsDone (off n per : Nat) (last : Bool) : Nat := if last then unitsFor off n per else (off + n) / per

/-- The elements used of the open unit afterwards. -/
def offNext (off n per : Nat) (last : Bool) : Nat := if last then 0 else (off + n) % per

/-- n elements of w bits of a sluice, off elements into the open unit, for an engine's waiter: read by 8 bytes. -/
def State.slElems (s : State) (wt c : Nat) (x : Sluice) (off n w : Nat) : Acc (State × List Nat) := do
  let (t, v) ← (List.range ((n * w + 63) / 64)).foldlM (fun (st : State × Nat) j => do
    let o := off * w / 8 + 8 * j
    let (t, v) ← st.1.unitRead wt c x (x.c + o / x.unitBytes) (o % x.unitBytes) 8
    .ok (t, st.2 + v * 2 ^ (64 * j))) (s, 0)
  .ok (t, unpack v w n)

/-- bytes bytes of a number into a sluice, off elements of w bits into the open unit, for an engine's waiter. -/
def State.slPut (s : State) (wt c : Nat) (x : Sluice) (off w bytes v : Nat) : Acc State :=
  (List.range (bytes / 8)).foldlM (fun (t : State) j =>
    let o := off * w / 8 + 8 * j
    t.unitWrite wt c x (x.p + o / x.unitBytes) (o % x.unitBytes) 8 (v / 2 ^ (64 * j) % 2 ^ 64)) s

/-- What a firing of a command does at the pointers it names, with the units that each passes (10 R263): units that hold px, py and po
elements. -/
def ChainCmd.moves (c : ChainCmd) (px py po : Nat) : List (PointerUse × Nat) :=
  let n := min 16 c.left
  let last := decide (c.left ≤ 16)
  let use := fun (sl : Nat) (isP : Bool) (off per : Nat) =>
    ((⟨sl, isP, unitsDone off n per last != 0, offNext off n per last != 0⟩ : PointerUse), unitsDone off n per last)
  use (chainX c.desc) false c.xoff px
    :: (if chainYuse c.desc && chainY c.desc != chainX c.desc then [use (chainY c.desc) false c.yoff py] else [])
    ++ [use (chainOut c.desc) true c.ooff po]

/-- The chain unit of a headgate fires its command once: the state, or where and why it did not go on. -/
def State.chainStep (s : State) (k : Nat) (c : ChainCmd) : Except (Word × Stop) State := do
  let core := unitCore k
  let sl := fun (i : Nat) => (s.core core).sluice i
  let fx := (Fmt.ofCode (chainFrom c.desc)).getD .f32
  let fo := (Fmt.ofCode (chainTo c.desc)).getD .f32
  let n := min 16 c.left
  let last := decide (c.left ≤ 16)
  let x := sl (chainX c.desc)
  let y := sl (chainY c.desc)
  let o := sl (chainOut c.desc)
  let yuse := chainYuse c.desc
  let po := o.perUnit fo
  if x.seen < unitsFor c.xoff n (x.perUnit fx) || (yuse && decide (y.seen < unitsFor c.yoff n (y.perUnit fx)))
      || o.room < unitsFor c.ooff n po then .ok s
  else
    let wt := waiterOf k 4
    let at_ := fun (z : Sluice) (r : Acc (State × List Nat)) => r.mapError fun e => (z.ptr z.c 0, e)
    let moves := c.moves (x.perUnit fx) (y.perUnit fx) po
    (s.pointersFree core k 4 (moves.map (·.1))).mapError fun e => (x.ptr x.c 0, e)
    let (s, xs) ← at_ x (s.slElems wt core x c.xoff n (fmtWidth fx))
    let (s, ys) ← if yuse then at_ y (s.slElems wt core y c.yoff n (fmtWidth fx)) else .ok (s, List.replicate n 0)
    let (rs, g, vs) := c.results (s.hg k).codebook.toList (xs.zip ys) c.g
    let w := fmtWidth fo
    let bytes := if last then unitsFor c.ooff n po * o.unitBytes - c.ooff * w / 8 else n * w / 8
    let s ← (s.slPut wt core o c.ooff w bytes (pack w rs)).mapError fun e => (o.ptr o.p 0, e)
    let s := (moves.foldl (fun s m => if m.1.isP then s.advanceP core m.1.sl m.2 else s.advanceC core m.1.sl m.2) s).takePointers core k 4
      (moves.map (·.1))
    let c' := { c with
      left := c.left - n, g, xoff := offNext c.xoff n (x.perUnit fx) last, yoff := offNext c.yoff n (y.perUnit fx) last,
      ooff := offNext c.ooff n po last }
    .ok ((s.modHg k fun h => { h.noteAmax vs with chain := { h.chain with queue := c' :: h.chain.queue.drop 1 } }).chainTrim k 2)

/-- CHAIN_FIRE: inp.unit is the headgate (10 R263). -/
def execChainFire (s : State) : Host.Outcome State Fault Refusal :=
  let k := s.inp.unit
  let h := s.hg k
  .next (
    match h.chain.queue with
    | [] => s
    | c :: _ =>
      if !s.engineOn k || h.chain.cause != 0 then s
      else match s.chainStep k c with
        | .ok t => t
        | .error (a, e) => s.engineStop k 4 a e)

end Sys2Proof.Machine
end

