-- ==== Sys2Proof/Machine/PlotRun.lean ====
section
/-! DEFINITION. A plot's rows: what its cells read, holds and their wait kinds, what leaves the plot, marks, TIMING and automatic
restarts, the splice wavefront (03 R66, R67, R71, R456; 08 R208, R223; 09 R237 to R254; 12 R300, R301; 14 R331 to R334, R339).
Log 36. -/

namespace Sys2Proof.Machine

/-! ## What a cell reads -/

/-- The distance of two numbers. -/
def absDiff (a b : Nat) : Nat := a - b + (b - a)

/-- The opposite direction: 0 N, 1 E, 2 S, 3 W. -/
def opposite (d : Nat) : Nat := (d + 2) % 4

/-- Does a wafer cell let a word pass: does it belong to no plot, and is it not isolated (03 R456)? -/
def State.passes (s : State) (x y : Nat) : Bool := !s.badCell (cellKey x y) && !s.allPlots.any fun e => e.2.2.covers x y

/-- Does a flight reach a cell by its input of a side at a tick? -/
def State.flightHits (s : State) (f : Flight) (x y side now : Nat) : Bool :=
  let dist := absDiff f.x x + absDiff f.y y
  let inLine := if side = 1 ∨ side = 3 then f.y == y else f.x == x
  let ahead := match side with
    | 0 => decide (y < f.y)
    | 1 => decide (x < f.x)
    | 2 => decide (f.y < y)
    | _ => decide (f.x < x)
  let between := fun (i : Nat) => match side with
    | 0 => s.passes x (y + i)
    | 1 => s.passes (x + i) y
    | 2 => s.passes x (y - i)
    | _ => s.passes (x - i) y
  let st := 2 * (stitches (min f.x x) (max f.x x) + stitches (min f.y y) (max f.y y))
  f.dir == opposite side && inLine && ahead && f.at_ + dist + st == now && (List.range (dist - 1)).all fun i => between (i + 1)

/-- The word that pass-through cells bring to an edge cell's link input from outside its plot (03 R456). -/
def State.flightIn (s : State) (x y side now : Nat) : LWord :=
  match (s.parts.flatMap fun e => e.2.flights).find? fun f => s.flightHits f x y side now with
  | some f => f.w
  | none => {}

/-- The word that an output of a cell carried n rows before the latest. -/
def Plot.outWord (q : Plot) (row col dir n : Nat) : LWord := (SMap.getD q.out (q.num row col * 4 + dir) []).getD n {}

/-- A link input of a logical cell in the row to be executed at cycle lag (09 R240): none carries a word in the first row after a START from
READY (R241). -/
def State.linkIn (s : State) (q : Plot) (row col side : Nat) : LWord :=
  if q.fresh then {}
  else
  let outside := s.flightIn (q.px + q.physCol col) (q.py + q.physRow row) side (s.wt + q.lag row col)
  match side with
  | 0 => if row + 1 = q.allRows then outside else q.outWord (row + 1) col 2 (2 * q.eRow row)
  | 1 => if col + 1 = q.cols then outside else q.outWord row (col + 1) 3 (2 * q.eCol col)
  | 2 => if row = 0 then outside else q.outWord (row - 1) col 0 0
  | _ => if col = 0 then outside else q.outWord row (col - 1) 1 0

/-! ## Waits (14 R331) -/

/-- What a waiter's stalled access is as the waits of a hold. -/
def holdsOf (waiter : Nat) : Wait → List HoldWait
  | .wakes l => l.map fun b => .bank b.1 b.2
  | .restore c b => [.restore c b]
  | .walk cl ctx va _ => [.walk cl ctx va]
  | .budget cl _ => [.budget cl waiter]
  | .knock _ | .remote _ | .busy => [.unexplained]

/-- What a waiter's access that stopped is as the waits of a hold; a fault is nothing that the device ends. -/
def Stop.holds (waiter : Nat) : Stop → List HoldWait
  | .fault _ _ => [.unexplained]
  | .wait w | .held _ w => holdsOf waiter w

/-- Is bank n of a cluster ACTIVE, and back since the last context restore (14 R332)? -/
def State.bankUsable (s : State) (cl n : Nat) : Bool :=
  (s.bank cl n).state == 0
    && (if n < 256 then !(s.core (coreOfCic cl (n / 32))).unrestored.contains (n % 32)
        else if n < 272 then !(s.core ((s.liveOf cl).headD 0)).unrestored.contains (32 + (n - 256))
        else true)

/-- Has a wait ended (14 R332)? -/
def State.holdEnded (s : State) : HoldWait → Bool
  | .unexplained => true
  | .bank cl n => s.bankUsable cl n
  | .restore c b => s.bankUsable (clusterOf c) (if b < 32 then coreBank c b else 256 + (b - 32))
  | .walk cl ctx va => !(s.cluster cl).walks.any fun w => w.ctx == ctx && w.va / 65536 == va / 65536
  | .budget cl w => !(s.cluster cl).transfers.any fun t => t.seqr == w && t.units != 0
  | .scale k r => !(s.hg k).scale.misses.any fun m => m.1 == r

/-- The waits that are recorded of those of one lane: those of the lowest kind that is not 0 (14 R331). -/
def recorded (l : List HoldWait) : List HoldWait :=
  let known := l.filter fun w => w.kind != 0
  if known.isEmpty then [.unexplained] else known.filter fun w => w.kind == lowestKind known

/-- A cell that holds: where it is, what it waits for, and the waiter whose access stalls. -/
structure Holder where
  row : Nat
  col : Nat
  waits : List HoldWait := [.unexplained]
  waiter : Nat := 0
  deriving DecidableEq, Repr

/-- The stalled access of a waiter behind a wait is under way. -/
def State.beginHold (s : State) (waiter : Nat) : HoldWait → State
  | .unexplained | .restore _ _ => s
  | .bank cl n => s.beginWake cl n
  | .walk cl ctx va => s.beginWalk cl ctx va waiter []
  | .budget cl w => if (s.cluster cl).transfers.any fun t => t.seqr == w then s else s.startWait w (.budget cl 1)
  | .scale k r => s.modHg k fun h => { h with scale := h.scale.want r (engOf waiter) }

/-- What the lookup of a scale waits for. -/
def holdOfLook (k : Nat) : ScaleLook → HoldWait
  | .miss r => .scale k r
  | .hit _ | .poisoned _ => .unexplained

/-- What the loads of a block wait for: all of them together, and each. -/
def State.blockWaits (s : State) (w : Nat) (p : Word) (n : Nat) : List HoldWait :=
  (match s.readRec w p n with | .error x => x.holds w | .ok _ => [])
    ++ (chunks n p n).flatMap fun e => match s.loadVia w e.1 e.2 false with | .error x => x.holds w | .ok _ => []

/-- What a lane row of a tile waits for (14 R331). -/
def State.tileWaits (s : State) (k : Nat) (c : TileCmd) (rep r : Nat) : List HoldWait :=
  let w := waiterOf k 10
  let a := c.rowAddr rep (if c.cb4 then r / 4 else r)
  match s.tileRow k c rep r with
  | .ok _ => []
  | .error (.scale l) => [holdOfLook k l]
  | .error (.acc _ x) =>
    x.holds w ++
      if space a = 3 then
        (List.range 7).flatMap fun i =>
          let o := bits a.toNat 0 22 / 64 * 64 + 64 * i
          if o < bits a.toNat 0 22 + 16 * c.lanes then (match s.inBanks (coreOf k) 3 o with | .error x => x.holds w | .ok _ => []) else []
      else s.blockWaits w a (16 * c.lanes)

/-- What the next lane row of a headgate's decoder waits for. -/
def State.decWait (s : State) (k : Nat) (c : WdecCmd) : List HoldWait :=
  let h := s.hg k
  let d := if h.dec.started then h.dec else h.dec.begin (s.hgCycle k) c
  let lanes := s.decLanes k
  if d.parked then []
  else if d.rowWhole lanes then
    match d.rowWords h.scale c lanes with
    | .inl x => [holdOfLook k x]
    | .inr _ => []
  else match s.nextSegment k c d with
    | .error (.acc _ x _) => x.holds (waiterOf k 3)
    | _ => []

/-- What the next lane row of a headgate waits for, and the waiter (14 R331). -/
def State.feedWait (s : State) (k : Nat) : List HoldWait × Nat :=
  let h := s.hg k
  let dec := match h.dec.queue with
    | c :: _ => if c.dest = 0 ∧ h.decHere c then (recorded (s.decWait k c), waiterOf k 3) else ([.unexplained], 0)
    | [] => ([.unexplained], 0)
  match h.feed.queue with
  | c :: _ =>
    if h.feed.cause = 0 ∧ h.tileFirst c ∧ h.tileHere c ∧ h.replayFree c then
      (recorded (s.tileWaits k c h.feed.k h.feed.r), waiterOf k 10)
    else dec
  | [] => dec

/-! ## One cell -/

/-- A cell's tentative execution of a row: what it leaves, the lane it read and whether the lane gave it a token. -/
structure CellRun where
  row : Nat
  col : Nat
  regs : CellRegs
  store : SMap Nat
  out : Vector LWord 4
  lane : Option (Nat × Nat) := none
  token : Bool := false
  deriving DecidableEq, Repr

/-- Has a headgate presented everything that goes before its switch token (09 R253)? -/
def Hg.tokenNext (h : Hg) : Bool :=
  match h.feed.tokenAt with
  | some n => h.feed.queue.all (fun c => decide (n ≤ c.serial)) && h.dec.queue.all fun c => c.dest != 0 || decide (n ≤ c.serial)
  | none => false

/-- What the edge lane offers a cell in cycle t + lag: a word, a token, or a wait (03 R67; 09 R247, R250, R253). -/
inductive EdgeRead where
  | word (side pos : Nat) (w : LWord)
  | token
  | hold (l : List HoldWait) (waiter : Nat)
  deriving DecidableEq, Repr

/-- Read an edge lane. A furrow's word that belongs to neither plot's mark is refused (14 R329). -/
def State.edgeRead (s : State) (p id : Nat) (q : Plot) (row col t : Nat) : EdgeRead :=
  match s.edgeLane p id q row col with
  | none => .hold [.unexplained] 0
  | some (side, pos) =>
    let feeder := q.feeder side pos
    match (q.lane side pos).fifo with
    | x :: _ =>
      if x.at_ ≤ (if feeder.isSome then t else t + q.lag row col) ∧ !x.stray then .word side pos x.w else .hold [.unexplained] 0
    | [] =>
      match feeder with
      | some k =>
        if q.spliced && (s.hg k).tokenNext then .token
        else let (l, by_) := s.feedWait k; .hold l by_
      | none => .hold [.unexplained] 0

/-- A cell executes its slot (03 R61, R67; 09 R254). -/
def State.runCell (s : State) (p id : Nat) (q : Plot) (t row col : Nat) : CellRun ⊕ Holder :=
  let c := s.cell (q.cellAt row col)
  if q.switched.contains (q.num row col) then .inl ⟨row, col, c.regs, c.store, Vector.replicate 4 {}, none, false⟩
  else
    let x := s.slotNow q row col
    let link : Vector LWord 4 := Vector.ofFn fun d => s.linkIn q row col d.val
    let go := fun (edge : LWord) (lane : Option (Nat × Nat)) (token : Bool) =>
      let (regs, store, out) := execSlot q.fmode x c.regs c.store { link, edge }
      (.inl ⟨row, col, regs, store, out, lane, token⟩ : CellRun ⊕ Holder)
    if slotEdge x then
      match s.edgeRead p id q row col t with
      | .word side pos w => go w (some (side, pos)) false
      | .token => go {} none true
      | .hold l by_ => .inr ⟨row, col, l, by_⟩
    else go {} none false

/-! ## What leaves the plot -/

/-- A valid word at the edge of a plot: the position of its lane, its cell, the cycle it is driven in. -/
structure Leaving where
  side : Nat
  pos : Nat
  row : Nat
  col : Nat
  cycle : Nat
  w : LWord
  deriving DecidableEq, Repr

/-- The valid words that a row drives out of its plot. -/
def Plot.leavers (q : Plot) (t : Nat) (l : List CellRun) : List Leaving :=
  l.flatMap fun r => (q.sidesOf r.row r.col).filterMap fun e =>
    let w := r.out.get (Fin.ofNat 4 e.1)
    if w.valid then some ⟨e.1, e.2, r.row, r.col, t + q.lag r.row r.col, w⟩ else none

/-- A row's tentative effect on the drains: their positions and orders, who holds, a mismatch (headgate, lane), the engine faults met, and
the latest emergence. -/
structure DrainRun where
  pos : SMap (DrainPos × Nat)
  holders : List Holder := []
  mismatch : Option (Nat × Nat) := none
  faults : List (Nat × Nat × Word) := []
  last : Nat := 0
  deriving DecidableEq, Repr

/-- Insert an uncommitted word by its row, its emergence cycle, its lane, its order. -/
def insertWord (w : DrainWord) : List DrainWord → List DrainWord
  | [] => [w]
  | x :: t =>
    let before := decide (x.serial < w.serial) || (x.serial == w.serial && (decide (x.cycle < w.cycle)
      || (x.cycle == w.cycle && (decide (x.lane < w.lane) || (x.lane == w.lane && decide (x.seq ≤ w.seq))))))
    if before then x :: insertWord w t else w :: x :: t

/-- The tile-step row that a lane's next word belongs to. -/
def Drain.rowOf (d : Drain) (n : Nat) : Option TileCmd := d.rows.find? fun c => decide (c.dbase ≤ n) && decide (n < c.dbase + c.words)

/-- The place of a word among a drain's words of a sluice, counted in words over their units. -/
def indexOf (n seq : Nat) (l : List DrainWord) : Nat :=
  match (drainPlaces n 0 none l).find? fun e => e.2.seq == seq with
  | some e => e.1
  | none => 0

/-- The place of unit j of a drain's uncommitted units of a sluice: one it has, or is to have. -/
def State.placeFor (s : State) (c sl : Nat) (places : List (Option Nat)) (j : Nat) : Option Nat :=
  if j < places.length then places.getD j none else (s.freePlaces c sl)[j - places.length]?

/-- A drain's position and order in a tentative row. -/
def DrainRun.at_ (r : DrainRun) (s : State) (k : Nat) : DrainPos × Nat := SMap.getD r.pos k ((s.hg k).drain.pos, (s.hg k).drain.seq)

/-- A word is offered to a drain, which takes it when its unit has room and the unit's banks are ready (08 R223; 09 R242, R249). DESIGN CHOICE
(log 61): a word that belongs to no tile-step row issued so far is refused, and the row held with wait kind 0. -/
def DrainRun.offer (r : DrainRun) (s : State) (q : Plot) (k seg : Nat) (x : Leaving) : DrainRun :=
  let c := coreOf k
  let lane := q.copyA x.side x.pos - 24 * seg
  let (pos, seq) := r.at_ s k
  let hold := fun (l : List HoldWait) => { r with holders := r.holders ++ [⟨x.row, x.col, l, waiterOf k 10⟩] }
  let n := pos.counts.getD lane 0
  match (s.hg k).drain.rowOf n with
  | none => hold [.unexplained]
  | some row =>
    let cycle := x.cycle + (if x.w.guard then 2 else 1)
    let w : DrainWord := ⟨row.serial, row.sl, cycle, lane, seq, q.rc, if x.w.guard then some x.w.data else none⟩
    let pos' := { pos with counts := setAt pos.counts lane (n + 1), coming := insertWord w pos.coming }
    let taken := { r with pos := SMap.set r.pos k (pos', seq + 1), last := max r.last cycle }
    if !x.w.guard then taken
    else
      let sl := (s.core c).sluice row.sl
      let i := indexOf sl.unitWords seq (pos'.wordsOf row.sl)
      let place := s.placeFor c row.sl (SMap.getD pos.places row.sl []) (i / sl.unitWords)
      if !sl.set || decide (sl.room < s.unitsUsed c row.sl fun h => (taken.at_ s h).1) then hold [.unexplained]
      else match s.unitHome c sl (place.getD sl.p) (16 * (i % sl.unitWords)) with
        | .error (.fault f _) => { hold [.unexplained] with faults := r.faults ++ [(k, f, sl.ptr (place.getD sl.p) 0)] }
        | .error e => hold (recorded (e.holds (waiterOf k 10)))
        | .ok _ => taken

/-- The offers of a row to one headgate's drain, by the cycle and then the lane; in redundant mode by pairs (09 R249, R251). -/
def DrainRun.pair (r : DrainRun) (s : State) (q : Plot) (k seg : Nat) (l : List Leaving) : DrainRun :=
  if !q.redun then l.foldl (fun r x => r.offer s q k seg x) r
  else l.foldl (fun r x =>
    if q.copyA x.side x.pos = x.pos then
      match l.find? fun y => y.side == x.side && y.pos == x.pos + q.rows with
      | none => { r with holders := r.holders ++ [{ row := x.row, col := x.col }] }
      | some y =>
        if x.w = y.w then r.offer s q k seg { x with cycle := max x.cycle y.cycle }
        else if r.mismatch.isSome then r else { r with mismatch := some (k, x.pos) }
    else if l.any fun y => y.side == x.side && y.pos + q.rows == x.pos then r
    else { r with holders := r.holders ++ [{ row := x.row, col := x.col }] }) r

/-- Words in the order in which they are offered. -/
def insertLeaving (x : Leaving) : List Leaving → List Leaving
  | [] => [x]
  | y :: t => if y.cycle < x.cycle ∨ (y.cycle = x.cycle ∧ y.pos ≤ x.pos) then y :: insertLeaving x t else x :: y :: t

/-- All the drains of a row. -/
def State.drainRow (s : State) (q : Plot) (l : List Leaving) : DrainRun :=
  q.binds.foldl (fun r b =>
    if drains b.2.2.1 then
      let mine := (l.filter fun x => x.side == b.1 && q.copyA x.side x.pos / 24 == b.2.1).foldl (fun a x => insertLeaving x a) []
      r.pair s q b.2.2.2 b.2.1 mine
    else r) { pos := [] }

/-! ## Furrows and words that leave unbound (03 R456; 09 R250) -/

/-- The lanes of the receiving plot that a word enters. -/
def Furrow.lanes (f : Furrow) (r : Plot) (pos : Nat) : List Nat :=
  let x := 24 * f.toSeg + (pos - 24 * f.fromSeg)
  if (r.segLanes f.toSide f.toSeg).contains x then x :: (if r.redun then [x + r.rows] else []) else []

/-- Is a lane full (09 R250)? -/
def Lane.full (x : Lane) (logDepth : Nat) : Bool := decide (2 ^ logDepth ≤ x.fifo.length + x.kept.length)

/-- The cell of a lane position, in wafer coordinates. -/
def Plot.edgeXY (q : Plot) (side pos : Nat) : Nat × Nat :=
  let (r, c) := q.edgeCell side pos
  (q.px + q.physCol c, q.py + q.physRow r)

/-- Cycles from drive to readable: 3, the cells between, twice the stitches, the delay counter. -/
def furrowTime (q r : Plot) (x : Leaving) (f : Furrow) (pos : Nat) : Nat :=
  let a := q.edgeXY x.side x.pos
  let b := r.edgeXY f.toSide pos
  3 + (absDiff a.1 b.1 + absDiff a.2 b.2 - 1)
    + 2 * (stitches (min a.1 b.1) (max a.1 b.1) + stitches (min a.2 b.2) (max a.2 b.2))
    + SMap.getD r.dly (laneKey f.toSide pos) 0

/-- Where a word that no drain takes goes: a furrow, nowhere, or out of the plot. -/
def Plot.furrowOf (q : Plot) (x : Leaving) : Option Furrow := if q.copyA x.side x.pos = x.pos then q.furrowFrom x.side x.pos else none

/-- The cells whose word meets a full furrow lane. -/
def State.furrowHolders (s : State) (p : Nat) (q : Plot) (l : List Leaving) : List Holder :=
  l.filterMap fun x =>
    match q.furrowOf x with
    | none => none
    | some f =>
      match s.furrowEnd p q f with
      | none => none
      | some r =>
        if (f.lanes r x.pos).any fun y => (r.lane f.toSide y).full f.logDepth then some { row := x.row, col := x.col } else none

/-- A word enters the lanes of its furrow; one that repeats a word read before its sender went back is refused there (14 R329). -/
def State.furrowPut (s : State) (p : Nat) (q : Plot) (x : Leaving) (f : Furrow) (t : Nat) : State :=
  match s.furrowEnd p q f with
  | none => s
  | some r =>
    let now := s.plotCycle r
    s.modFurrowEnd p q f fun r =>
      { r with lanes := (f.lanes r x.pos).foldl (fun m y =>
          let lane : Lane := SMap.getD m (laneKey f.toSide y) {}
          let w : LaneWord := ⟨x.w, now + (x.cycle - t) + furrowTime q r x f y, q.rc, lane.void⟩
          SMap.set m (laneKey f.toSide y) { lane with fifo := lane.fifo ++ [w] }) r.lanes }

/-- Ticks for which a flight is kept. -/
def flightLife : Nat := 131072

/-- A word leaves its plot where nothing takes it. -/
def State.fly (s : State) (p : Nat) (q : Plot) (x : Leaving) (t : Nat) : State :=
  let (cx, cy) := (q.px + q.physCol x.col, q.py + q.physRow x.row)
  s.modPart p fun a =>
    { a with flights := (a.flights.filter fun f => decide (s.wt ≤ f.at_ + flightLife)) ++ [⟨cx, cy, x.side, s.wt + (x.cycle - t), x.w⟩] }

/-- The words of a row that no drain takes go on. -/
def State.release_ (s : State) (p : Nat) (q : Plot) (t : Nat) (l : List Leaving) : State :=
  l.foldl (fun s x =>
    if (q.drainer x.side x.pos).isSome then s
    else match q.furrowOf x with
      | some f => s.furrowPut p q x f t
      | none => s.fly p q x t) s

/-! ## The effect of a row -/

/-- The lanes and read positions after a row's reads (09 R250; 14 R328). -/
def Plot.readLane (q : Plot) (side pos : Nat) : Plot :=
  let key := laneKey side pos
  let x := q.lane side pos
  match x.fifo with
  | [] => q
  | w :: t =>
    if (q.feeder side pos).isSome then
      let seg := side * 64 + q.copyA side pos / 24
      { q with lanes := SMap.set q.lanes key { x with fifo := t }, reads := SMap.set q.reads seg (max (SMap.getD q.reads seg 0) (w.ord + 1)) }
    else { q with lanes := SMap.set q.lanes key { x with fifo := t, kept := x.kept ++ [w] } }

/-- Rows of output words that are kept. -/
def outDepth : Nat := 64

/-- A plot's output words after a row. -/
def Plot.pushOut (q : Plot) (l : List CellRun) : SMap (List LWord) :=
  l.foldl (fun m r => (List.range 4).foldl (fun m d =>
    let key := q.num r.row r.col * 4 + d
    SMap.set m key ((r.out.get (Fin.ofNat 4 d) :: SMap.getD m key []).take outDepth)) m) q.out

/-- A cell after a row; on a mark row PAMAX is cleared and a pending snapshot taken (03 R70, R71). -/
def Cell.after (c : Cell) (r : CellRun) (mark : Bool) (rc : Nat) : Cell :=
  if mark then
    let regs := { r.regs with pmag := 0, pnseen := false }
    { c with regs, store := r.store, pend := c.pend ++ [(rc, regs)] }
  else { c with regs := r.regs, store := r.store }

/-- The row counter after a row. -/
def Plot.rcNext (q : Plot) : Nat := (q.rc + 1) % 2 ^ 32

/-- The pending mark of a mark row: what its cells offer, and where reads, outputs, drains, furrows and the splice wavefront stand (12 R301; 14
R328). -/
def State.markOf (s : State) (q : Plot) (t : Nat) (l : List CellRun) : PendMark :=
  { rc := q.rc, ready := max (t + q.maxLag) q.lastEmerge + 1, reads := q.reads,
    amax := l.foldl (fun m r => max m r.regs.pmag) 0, nseen := l.any fun r => r.regs.pnseen,
    out := q.out, drains := q.binds.filterMap fun b => if drains b.2.2.1 then some (b.2.2.2, (s.hg b.2.2.2).drain.pos.counts) else none,
    kept := q.lanes.map fun e => (e.1, e.2.kept.length), switched := q.switched, tokens := q.tokens }

/-! ## The splice wavefront (09 R253, R254) -/

/-- The neighbours of a logical cell, with the e of R240 between. -/
def Plot.neighbours (q : Plot) (row col : Nat) : List (Nat × Nat × Nat) :=
  (if row + 1 < q.allRows then [(row + 1, col, q.eRow row)] else []) ++ (if row = 0 then [] else [(row - 1, col, q.eRow (row - 1))])
    ++ (if col + 1 < q.cols then [(row, col + 1, q.eCol col)] else []) ++ (if col = 0 then [] else [(row, col - 1, q.eCol (col - 1))])

/-- A cell receives a token in a cycle, unless it has one earlier. -/
def giveToken (m : SMap Nat) (n cycle : Nat) : SMap Nat :=
  match SMap.get? m n with
  | some c => if c ≤ cycle then m else SMap.set m n cycle
  | none => SMap.set m n cycle

/-- The tokens that edge cells read in a row. -/
def Plot.takeTokens (q : Plot) (t : Nat) (l : List CellRun) : SMap Nat :=
  l.foldl (fun m r => if r.token then giveToken m (q.num r.row r.col) (t + q.lag r.row r.col) else m) q.tokens

/-- The cells that switch at the end of a mark row. -/
def Plot.switching (q : Plot) (t : Nat) : List (Nat × Nat) :=
  q.cells.filter fun e =>
    !q.switched.contains (q.num e.1 e.2) && match SMap.get? q.tokens (q.num e.1 e.2) with
      | some c => decide (c ≤ t + q.lag e.1 e.2)
      | none => false

/-- At the end of a mark row, the cells that have the token switch and pass it on; their words change when the mark commits. -/
def Plot.wavefront (q : Plot) (t : Nat) : Plot :=
  let l := q.switching t
  let tokens := l.foldl (fun m e => (q.neighbours e.1 e.2).foldl (fun m n =>
    giveToken m (q.num n.1 n.2.1) (t + q.lag e.1 e.2 + 1 + n.2.2)) m) q.tokens
  { q with tokens, switched := q.switched ++ l.map fun e => q.num e.1 e.2 }

/-- Have all cells of a spliced plot switched? -/
def Plot.allSwitched (q : Plot) : Bool := q.spliced && q.cells.all fun e => q.switched.contains (q.num e.1 e.2)

/-- A predecessor whose last cell has switched and whose marks have committed is deconfigured: its headgates are unbound, and
the cells of its footprint that no successor covers go outside every plot. -/
def State.endPredecessor (s : State) (p id : Nat) : State :=
  match s.plot? p id with
  | none => s
  | some q =>
    if q.allSwitched && q.pend.isEmpty then
      let succ := (s.part p).waves.flatMap fun w => w.load.plots
      let cells := q.footprint.map fun k => (k, s.cell k)
      let own := q.cells.map fun e => q.cellAt e.1 e.2
      let s := s.unconfigure p id
      (cells.foldl (fun s e =>
        if succ.any fun w => w.2.footprint.contains e.1 then
          s.setCell e.1 (if own.contains e.1 then e.2 else e.2.switch)
        else s) s).enterWaves p
    else s

/-! ## PLOT_ROW_ATTEMPT (09 R237, R242, R243) -/

/-- Everything that holds a row, and the drains' part of it. -/
def State.rowHolders (s : State) (p : Nat) (q : Plot) (l : List (CellRun ⊕ Holder)) (t : Nat) : List Holder × List CellRun × List Leaving × DrainRun :=
  let hs := l.filterMap fun x => match x with | .inr h => some h | .inl _ => none
  let rs := l.filterMap fun x => match x with | .inl r => some r | .inr _ => none
  let out := q.leavers t rs
  let d := s.drainRow q out
  let fs := s.furrowHolders p q (out.filter fun x => (q.drainer x.side x.pos).isNone)
  (hs ++ d.holders ++ fs, rs, out, d)

/-- The first holding cell: logical row first, then logical column. -/
def firstHolder : List Holder → Nat × Nat
  | [] => (0, 0)
  | h :: t => t.foldl (fun e x => if x.row < e.1 ∨ (x.row = e.1 ∧ x.col < e.2) then (x.row, x.col) else e) (h.row, h.col)

/-- A row is held for a cycle (09 R243, R245). -/
def State.holdRow (s : State) (p id : Nat) (t : Nat) (hs : List Holder) (faults : List (Nat × Nat × Word)) : State :=
  let s := hs.foldl (fun s x => x.waits.foldl (fun s w => s.beginHold x.waiter w) s) s
  let s := s.modPlot p id fun q =>
    { q with held := q.held + 1, next := t + 1, waits := hs.flatMap (·.waits), firstHold := firstHolder hs }
  faults.foldl (fun s f => s.engineFault f.1 10 f.2.1 f.2.2) s

/-- A row executes. -/
def State.doRow (s : State) (p id : Nat) (q : Plot) (t : Nat) (rs : List CellRun) (out : List Leaving) (d : DrainRun) : State :=
  let mark := s.isMark q
  let rc := q.rcNext
  let s := rs.foldl (fun s r => s.modCell (q.cellAt r.row r.col) fun c =>
    if q.switched.contains (q.num r.row r.col) && !mark then c else c.after r mark rc) s
  let s := d.pos.foldl (fun s e => s.modHg e.1 fun h => { h with drain := { h.drain with pos := e.2.1, seq := e.2.2 } }) s
  let q := rs.foldl (fun (q : Plot) r => match r.lane with | some e => q.readLane e.1 e.2 | none => q) q
  let q' := { q with
    rc, out := q.pushOut rs, next := t + (if q.redun then 2 else 1), held := 0, waits := [], lastEmerge := max q.lastEmerge d.last,
    tokens := q.takeTokens t rs, fresh := false }
  let q' := if mark && q'.spliced then q'.wavefront t else q'
  let q' := if mark then { q' with pend := q'.pend ++ [s.markOf q' t rs] } else q'
  (s.setPlot p id q').release_ p q t out

/-- REDUN_MISMATCH: the plot goes back to its last mark, and the halt line rises (09 R252; 14 R327, R339). -/
def State.redunFault (s : State) (p id : Nat) (q : Plot) (k lane : Nat) : State :=
  let h := s.hg k
  let b := h.bound
  let seg := (b.map (·.seg)).getD 0
  let n := h.drain.pos.counts.getD (lane - 24 * seg) 0
  let rep := match h.drain.rowOf n with
    | some c => (n - c.dbase) / max 1 (shExt c.shape 1)
    | none => 0
  let s := s.record p q.swCore 5 0 cRedun id 0 [rep, lane, q.rc, 0]
  let s := (s.restart p id true).modPlot p id fun x =>
    { x with stopCause := cRedun, stopRc := q.rc, stopWt := s.wt, stopInfo := 0 }
  s.haltLine p

/-- Do the rows of a plot advance: active, released, its island running? -/
def State.plotOn (s : State) (q : Plot) : Bool := q.active && !q.waiting && q.stopCause == 0 && s.coreOn q.swCore

/-- May the next row of a plot be attempted now? -/
def State.mayAttempt (s : State) (q : Plot) : Bool :=
  s.plotOn q && q.yield != 2 && decide (q.next ≤ s.plotCycle q) && !q.allSwitched && !s.pastLimit q
    && !((q.pend.getLast?.map (·.rc)) == some q.rc && q.stopsAt q.rc)

/-- A plot attempts its next row. -/
def State.attemptRow (s : State) (p id : Nat) : State :=
  match s.plot? p id with
  | none => s
  | some q =>
    if !s.mayAttempt q then s
    else
      let t := s.plotCycle q
      let l := q.cells.map fun e => s.runCell p id q t e.1 e.2
      let (hs, rs, out, d) := s.rowHolders p q l t
      match d.mismatch with
      | some (k, lane) => if hs.isEmpty then s.redunFault p id q k lane else s.holdRow p id t hs d.faults
      | none => if hs.isEmpty then s.doRow p id q t rs out d else s.holdRow p id t hs d.faults

/-- PLOT_ROW_ATTEMPT: inp.unit is the partition, inp.idx the plot's id. -/
def execPlotRowAttempt (s : State) : Host.Outcome State Fault Refusal := .next (s.attemptRow s.inp.unit s.inp.idx)

/-! ## MARK_COMMIT (12 R301; 14 R328) -/

/-- MARK_COMMIT: inp.unit is the partition, inp.idx the plot's id: its oldest pending mark commits once its cycle has come. -/
def execMarkCommit (s : State) : Host.Outcome State Fault Refusal :=
  let p := s.inp.unit
  let id := s.inp.idx
  .next (
    match s.plot? p id with
    | none => s
    | some q =>
      match q.pend with
      | m :: _ =>
        if s.coreOn q.swCore && q.stopCause == 0 && s.markReady q m then
          (s.commitMark p id q).endPredecessor p id
        else s
      | [] => s)

/-! ## TIMING_LIMIT and PLOT_RELEASE (09 R245, R246; 14 R331 to R333, R339) -/

/-- A plot raises TIMING at a row that it holds: an automatic restart, or a stop with the halt line raised. -/
def State.timing (s : State) (p id : Nat) (held : Plot) : State :=
  let cls := s.holdClass held
  let s := s.commitDue p id 4096
  match s.plot? p id with
  | none => s
  | some q =>
    let auto := allDelivered held.waits && decide (q.restarts < 8)
    let count := if auto then q.restarts + 1 else q.restarts
    let s := s.record p q.swCore 5 0 cTiming id 0 (q.timingDetail auto count cls held.waits)
    if auto then (s.restart p id false).modPlot p id fun x => { x with waiting := true, restarts := count, waits := held.waits }
    else
      ((s.restart p id true).modPlot p id fun x =>
        { x with stopCause := cTiming, stopRc := q.rc, stopWt := s.wt, stopInfo := lowestKind held.waits * 256 + cls }).haltLine p

/-- TIMING_LIMIT: inp.unit is the partition, inp.idx the plot's id. -/
def execTimingLimit (s : State) : Host.Outcome State Fault Refusal :=
  let p := s.inp.unit
  let id := s.inp.idx
  .next (
    match s.plot? p id with
    | none => s
    | some q => if s.plotOn q && s.pastLimit q then s.timing p id q else s)

/-- PLOT_RELEASE: inp.unit is the partition, inp.idx the plot's id: its first row 4 cycles later (09 R237). -/
def execPlotRelease (s : State) : Host.Outcome State Fault Refusal :=
  let p := s.inp.unit
  let id := s.inp.idx
  .next (
    match s.plot? p id with
    | none => s
    | some q =>
      if q.active && q.waiting && s.coreOn q.swCore && q.waits.all s.holdEnded then
        s.setPlot p id { q with waiting := false, waits := [], held := 0, next := s.plotCycle q + 4 }
      else s)

end Sys2Proof.Machine
end

