-- ==== Sys2Proof/Machine/Drains.lean ====
section
/-! DEFINITION. The drains as time passes: words emerge into their units, rows end, committed units pass P, and a predecessor that has switched
away goes (08 R208, R223; 09 R249, R254; 10 R263, R264; 12 R300). -/

namespace Sys2Proof.Machine

/-! ## Emergence (08 R223; 09 R249; 12 R300) -/

/-- The four f32 lanes of a drained word times a band scale (02 R31; 08 R223). -/
def bandScale (fm : Word) (scale x : Nat) : Nat :=
  map4 fun l => rnd32 fm ((fin32 fm (lane4 x l)).mul (fread fm (laneSpec .bf16) scale))

/-- The address of the band scale of a lane of a segment. -/
def ScaleCache.band (c : ScaleCache) (seg lane : Nat) : Word := padd c.bandbase (2 * ((24 * seg + lane) / 64) : Nat)

/-- The data that a drain appends: multiplied by the band scale when the tile is SCALED. -/
def State.drainData (s : State) (k : Nat) (c : TileCmd) (seg lane x : Nat) : Acc (State × Nat) :=
  if shScaled c.shape then do
    let (t, b) ← s.loadVia (waiterOf k 10) ((s.hg k).scale.band seg lane) 2 false
    .ok (t, bandScale c.fmode b x)
  else .ok (s, x)

/-- A word joins the units of a drain; the place of its unit, and its place within it. -/
def State.appendWord (s : State) (k : Nat) (w : DrainWord) : State × Option Nat × Nat :=
  let d := (s.hg k).drain
  let n := ((s.core (coreOf k)).sluice w.sl).unitWords
  let old := SMap.getD d.pos.ents w.sl []
  let l := old ++ [w]
  let before := unitsOf n old
  let places := (SMap.getD d.pos.places w.sl []).take before
  let places := if unitsOf n l = before then places else places ++ [(s.freePlaces (coreOf k) w.sl).head?]
  let pos := { d.pos with ents := SMap.set d.pos.ents w.sl l, places := SMap.set d.pos.places w.sl places }
  (s.modHg k fun h => { h with drain := { h.drain with pos } }, places.getD (unitsOf n l - 1) none, indexOf n w.seq l % n)

/-- A word is appended, and written where its unit has its place. -/
def State.putWord (s : State) (k : Nat) (w : DrainWord) : State :=
  match s.appendWord k w with
  | (s, some a, i) => s.putUnitWord k w.sl a i (w.data.getD 0)
  | (s, none, _) => s

/-- The words of a row that a drain has not committed. -/
def Drain.wordsOfRow (d : Drain) (c : TileCmd) : List DrainWord := (SMap.getD d.pos.ents c.sl []).filter fun w => w.serial == c.serial

/-- The drain of a row has ended: zero words complete its last unit at once, and PEV bit 4 latches unless the feed of the row still runs (06
R161; 08 R223). -/
def State.endRow (s : State) (k row : Nat) (c : TileCmd) : State :=
  let d := (s.hg k).drain
  let n := ((s.core (coreOf k)).sluice c.sl).unitWords
  let m := (d.wordsOfRow c).length
  let zeros := (List.range ((n - m % n) % n)).map fun i => (⟨c.serial, c.sl, 0, 99, d.seq + i, row, some 0⟩ : DrainWord)
  let s := zeros.foldl (fun s w => s.putWord k w) s
  s.modHg k fun h =>
    let h := { h with drain := { h.drain with seq := h.drain.seq + zeros.length } }
    if h.feed.queue.any fun t => t.serial == c.serial then h else h.latch 4

/-- The first of the words that a drain has taken emerges in a cycle, when its cycle has come and the rows before its own have ended: the
state without it; none where it does not. A band scale that has not come keeps it waiting. -/
def State.emerge (s : State) (k seg now : Nat) : Option State × State :=
  let d := (s.hg k).drain
  match d.pos.coming with
  | [] => (none, s)
  | w :: rest =>
    if now < w.cycle ∨ !(d.rows.all fun r => decide (w.serial ≤ r.serial) || d.taken r) then (none, s)
    else
      let gone := fun (t : State) => t.modHg k fun h => { h with drain := { h.drain with pos := { h.drain.pos with coming := rest } } }
      let row := d.rows.find? fun r => r.serial == w.serial
      let ended := fun (t : State) => match row with
        | some c => if (t.hg k).drain.ended c then t.endRow k w.row c else t
        | none => t
      match w.data, row with
      | some x, some c =>
        match s.drainData k c seg w.lane x with
        | .ok (t, v) => (some (ended ((gone t).putWord k { w with data := some v })), s)
        | .error e => (none, s.engineStop k 10 ((s.hg k).scale.band seg w.lane) e)
      | _, _ => (some (ended (gone s)), s)

/-- The words that a drain has taken emerge, as many as their cycles allow. -/
def State.emergeAll (s : State) (k seg now : Nat) : Nat → State
  | 0 => s
  | fuel + 1 =>
    match s.emerge k seg now with
    | (some t, _) => t.emergeAll k seg now fuel
    | (none, t) => t

/-- What the drain of a headgate does up to now. -/
def State.drainOn (s : State) (k : Nat) : State :=
  match (s.hg k).bound, s.partOfHg k with
  | some b, some p =>
    match s.plot? p b.plot with
    | some q => if (s.hg k).feed.cause = 0 then s.emergeAll k b.seg (s.plotCycle q) (s.hg k).drain.pos.coming.length else s
    | none => s
  | _, _ => s

/-! ## Committed units (10 R263, R264; 12 R300) -/

/-- The oldest committed unit of a headgate's drain passes P in its cycle, when that has come, its sluice has room and the step fires (10 R264);
where another producer took its place, its words are written then. Otherwise it tries again in the next cycle. -/
def State.passUnit (s : State) (k : Nat) : State :=
  let now := s.hgCycle k
  let c := coreOf k
  match (s.hg k).drain.adv with
  | [] => s
  | o :: rest =>
    let x := (s.core c).sluice o.sl
    let u : List PointerUse := [⟨o.sl, true, true, false⟩]
    if now < o.due then s
    else if x.room = 0 then s.modHg k fun h => { h with drain := { h.drain with adv := datedFrom (now + 1) (o :: rest) } }
    else match s.pointersFreeAt c k 11 o.due u with
      | .error e => (s.stall (waiterOf k 11) e).modHg k fun h => { h with drain := { h.drain with adv := datedFrom (now + 1) (o :: rest) } }
      | .ok _ =>
        let s := s.modHg k fun h => { h with drain := { h.drain with adv := rest } }
        let s := if o.place = some x.p then s
          else (o.words.zip (List.range o.words.length)).foldl (fun s e => s.putUnitWord k o.sl x.p e.2 e.1) s
        (s.advanceP c o.sl 1).takePointersAt c k 11 o.due u

/-- What a headgate's drain has committed passes P up to now. -/
def State.passUnits (s : State) (k : Nat) : State :=
  ((List.range (s.hg k).drain.adv.length).foldl (fun s _ => s.passUnit k) s)

/-! ## All of it -/

/-- The headgates whose drains hold anything. -/
def State.drainers (s : State) : List Nat :=
  (s.hgs.filter fun e => !e.2.drain.pos.coming.isEmpty || !e.2.drain.adv.isEmpty).map (·.1)

/-- What follows by itself from the time that has passed and from what an action has done. -/
def State.settle (s : State) : State :=
  let s := s.drainers.foldl (fun s k => (s.drainOn k).passUnits k) s
  s.allPlots.foldl (fun s e => if e.2.2.spliced then s.endPredecessor e.1 e.2.1 else s) s

end Sys2Proof.Machine
end

