-- ==== Sys2Proof/Machine/Time.lean ====
section
/-! DEFINITION. The TIME group and the firing of timed actions (07 R189, R190). Log 37. -/

namespace Sys2Proof.Machine

/-- WTRD (07 R189). -/
def execWtrd (d : SReg) (g : PReg) (s : State) : Host.Outcome State Fault Refusal :=
  s.unforked g (done (s.setS d (BitVec.ofNat 64 s.wt)))

/-- The status word of a slot (07 R190). -/
def TimedSlot.status (x : TimedSlot) : Nat :=
  x.cause % 256 * 256 + (if x.err then 4 else 0) + (if x.late then 2 else 0) + if x.fired then 1 else 0

def TimedSlot.kind (x : TimedSlot) : Nat := bits x.desc.toNat 60 4
def TimedSlot.operand (x : TimedSlot) : Nat := bits x.desc.toNat 0 16

/-- The plot that a timed START of a sequencer names. -/
def State.timedPlot (s : State) (k : Nat) (x : TimedSlot) : Option Plot :=
  if x.kind = 1 then s.plot? (s.hgPart k) x.operand else none

/-- A timed START: it cannot wait, so a plot that is not startable yet makes it fail as one in a wrong state does. -/
def State.timedStart (s : State) (k : Nat) (x : TimedSlot) : Acc State :=
  let p := s.hgPart k
  match s.startable p x.operand with
  | .ok _ => .ok (s.startPlot p x.operand k x.fmode x.g)
  | .error (.fault c d) => .error (.fault c d)
  | .error _ => flt cIllegal

/-- A timed LRARM, with the release of LRARM (07 R185): it acts on its tick, and the write-back wakes the banks that sleep (13 R311; log 37). -/
def State.timedArm (s : State) (k : Nat) (x : TimedSlot) : Acc State :=
  (if isRmc k then s else s.writeBackAll k (coreOf k)).armRecord (x.operand % 4096) (s.ctxOf k)

/-- A timed opening of a sluice's gate (10 R262). -/
def State.timedOpen (s : State) (k : Nat) (x : TimedSlot) : Acc State := do
  chk ((s.core (unitCore k)).sluice (x.operand % 16)).set cSluice
  .ok (s.modCore (unitCore k) fun c => c.modSluice (x.operand % 16) fun y => { y with open_ := true })

/-- The action of a slot (07 R189). -/
def State.timedAct (s : State) (k : Nat) (x : TimedSlot) : Acc State :=
  match x.kind with
  | 1 => s.timedStart k x
  | 2 => s.timedArm k x
  | 3 => s.timedOpen k x
  | 4 =>
    match s.partOfHg k with
    | some p => .ok (s.modPart p fun q => { q with bwphase := BitVec.ofNat 64 (setBits q.bwphase.toNat 48 3 x.operand) })
    | none => .ok s
  | _ => .ok s

/-- The slot after its action, which may have failed. -/
def TimedSlot.after (x : TimedSlot) (late : Bool) : Acc State → TimedSlot
  | .ok _ => { x with fired := true, late }
  | .error (.fault c _) => { x with fired := true, late, err := true, cause := c }
  | .error _ => { x with fired := true, late, err := true, cause := cIllegal }

/-- A slot of a sequencer fires: the action, the status, PEV bit 1, and the wake event of an RMC (07 R189, R190; 23 R430). -/
def State.fireSlot (s : State) (k i : Nat) (x : TimedSlot) (late : Bool) : State :=
  let r := s.timedAct k x
  let t := match r with
    | .ok t => t
    | .error _ => match s.timedPlot k x with | some q => s.endBallast q false | none => s
  let t := t.modHg k fun h => Hg.latch { h with timed := h.timed.set (Fin.ofNat 8 i) (x.after late r) } 1
  if isRmc k then t.rmcEvent (k - rmcBase) else t

/-- The first free slot. -/
def Hg.freeSlot (h : Hg) : Option Nat := (List.range 8).find? fun i => !(h.timed.get (Fin.ofNat 8 i)).busy

/-- ATSET (07 R189). -/
def execAtset (d a b : SReg) (g : PReg) (s : State) : Host.Outcome State Fault Refusal :=
  s.unforked g (do
    let desc := s.getS b
    chk (decide (bits desc.toNat 60 4 ≤ 4) && bits desc.toNat 16 44 == 0) cIllegal
    match s.me.freeSlot with
    | none => flt cIllegal
    | some i =>
      let x : TimedSlot := { busy := true, wt := (s.getS a).toNat, desc, fmode := s.me.fmode, g := s.me.g }
      let t := s.setMe { s.me with timed := s.me.timed.set (Fin.ofNat 8 i) x }
      let t := match s.timedPlot s.cur x with
        | some q => if s.wt < x.wt then t.armBallast q x.wt else t
        | none => t
      let t := if x.wt < s.wt then t.fireSlot s.cur i x true else t
      done (t.setS d (BitVec.ofNat 64 i)))

/-- A slot that a register names. -/
def slotIndex (x : Word) : Acc Nat := do
  chk (decide (x.toNat < 8)) cIllegal
  .ok x.toNat

/-- A slot is freed. -/
def Hg.dropSlot (h : Hg) (i : Nat) : Hg := { h with timed := h.timed.set (Fin.ofNat 8 i) {} }

/-- ATCAN (07 R190). -/
def execAtcan (d a : SReg) (g : PReg) (s : State) : Host.Outcome State Fault Refusal :=
  s.unforked g (do
    let i ← slotIndex (s.getS a)
    let x := s.me.timed.get (Fin.ofNat 8 i)
    let t := if x.busy && !x.fired then
        match s.timedPlot s.cur x with
        | some q => s.endBallast q false
        | none => s
      else s
    done ((t.modMe fun h => h.dropSlot i).setS d (BitVec.ofNat 64 (if x.fired then x.status else 0))))

/-- ATWAIT (07 R190). -/
def execAtwait (d a : SReg) (g : PReg) (s : State) : Host.Outcome State Fault Refusal :=
  s.unforked g (do
    let i ← slotIndex (s.getS a)
    let x := s.me.timed.get (Fin.ofNat 8 i)
    waitFor (!x.busy || x.fired)
    done ((s.modMe fun h => h.dropSlot i).setS d (BitVec.ofNat 64 (if x.busy then x.status else 0))))

/-- Do the timed actions of a sequencer run: its clock runs, and its context is not stopped for a switch? -/
def State.timersOn (s : State) (k : Nat) : Bool :=
  isRmc k || (s.live (coreOf k) && s.clocked (clusterOf (coreOf k)) && !((s.partOf (coreOf k)).map s.frozen).getD false)

/-- TIMED_ACTION_FIRE: inp.unit is the sequencer, inp.idx the slot, whose tick has come (07 R189). -/
def execTimedActionFire (s : State) : Host.Outcome State Fault Refusal :=
  let k := s.inp.unit
  let i := s.inp.idx % 8
  let x := (s.hg k).timed.get (Fin.ofNat 8 i)
  .next (if x.busy && !x.fired && decide (x.wt ≤ s.wt) && s.timersOn k then s.fireSlot k i x false else s)

end Sys2Proof.Machine
end

