-- ==== Sys2Proof/Machine/Qbank.lean ====
section
/-! DEFINITION. The QBANK group (06 R149 to R155). -/

namespace Sys2Proof.Machine

/-- FORK: legal while FORKED = 0 (06 R149). -/
def execFork (g : PReg) (s : State) : Host.Outcome State Fault Refusal :=
  s.unforked g (done (s.setMe { s.me with forked := true, qb := false, bank0 := [], bank1 := [] }))

/-- An instruction that is legal only while FORKED = 1 (06 R149, R151). -/
def State.onlyForked (s : State) (g : PReg) (body : Eff) : Host.Outcome State Fault Refusal :=
  if s.me.forked then s.plain g body else .next (s.precise cIllegal [])

/-- SWQ (06 R149). -/
def execSwq (g : PReg) (s : State) : Host.Outcome State Fault Refusal :=
  s.onlyForked g (done (s.setMe { s.me with qb := !s.me.qb }))

/-- A held instruction performs, on the operands it issued with (06 R153). -/
def State.performHeld (s : State) (x : Held) : Acc State :=
  let o := x.ops
  match x.instr with
  | .st _ _ off z sc m => s.performSt o off z sc m
  | .stv _ _ off z sc m => s.performStv o off z sc m
  | .shld x _ => s.performShld o x
  | .shst _ _ => s.performShst o
  | .xform n _ => s.performXform o n
  | .strm _ _ n _ => s.performStrm o n
  | .strmq n a => s.performStrmq n a
  | .cbload _ => s.performCbload o
  | .tstep _ y _ n => s.performTstep o y n none
  | .tstepV _ y _ n => s.performTstep o y n (some o.vec)
  | .wtbl _ _ _ => s.performWtbl o
  | .wdec _ _ => s.performWdec o
  | .wseek _ _ => s.performWseek o
  | .wdqry d _ _ => s.performWdqry o d
  | .scset _ _ _ => s.performScset o
  | .scfl _ => s.performScfl
  | .chain _ _ _ => s.performChain o
  | .chconst _ _ _ => s.performChconst o
  | _ => .ok s

/-- A headgate without the oldest instruction of a bank. -/
def Hg.dropHeld (h : Hg) (b : Bool) : Hg := if b then { h with bank1 := h.bank1.drop 1 } else { h with bank0 := h.bank0.drop 1 }

/-- The kept instructions perform in order, each leaving its bank, up to one that faults or waits. -/
def State.pickRun (s : State) (b : Bool) : List Held → State × Option (Held × Stop)
  | [] => (s, none)
  | x :: t =>
    match s.performHeld x with
    | .ok s' => (s'.modMe fun h => h.dropHeld b).pickRun b t
    | .error e => (s, some (x, e))

/-- The slot that a refused table image leaves, when that is what fails at the PICK (11 R273). -/
def State.heldRefused (s : State) (x : Held) : State :=
  match x.instr, s.readTableImage x.ops with
  | .wtbl _ _ _, .ok (t, y) =>
    if y.valid then s else t.setMe { t.me with dec := t.me.dec.setSlot (bits x.ops.vb.toNat 0 1) y }
  | _, _ => s

/-- A held instruction's wait: should its walk fail, the record's D0 is the instruction's address (06 R154). -/
def Wait.heldAt (addr : Word) : Wait → Wait
  | .walk cl ctx va d => .walk cl ctx va (addr.toNat :: d.drop 1)
  | w => w

/-- PICK's effect: the kept bank performs, the other is cancelled (06 R153, R154). -/
def State.pickBank (s : State) (b : Bool) : State :=
  match s.pickRun b (if b then s.me.bank1 else s.me.bank0) with
  | (t, none) => (t.setMe { t.me with forked := false, qb := false, bank0 := [], bank1 := [] }).retire
  | (t, some (x, .fault c d)) => (t.heldRefused x).precise c (x.addr.toNat :: d.drop 1)
  | (t, some (x, .wait w)) => t.startWait t.cur (w.heldAt x.addr)
  | (_, some (x, .held t w)) => t.startWait t.cur (w.heldAt x.addr)

/-- PICK (06 R149). -/
def execPick (p g : PReg) (s : State) : Host.Outcome State Fault Refusal :=
  if s.me.forked && s.getP g then .next (s.pickBank (s.getP p))
  else s.onlyForked g (done s)

end Sys2Proof.Machine
end

