-- ==== Sys2Proof/Machine/Sys.lean ====
section
/-! DEFINITION. The SYS group, the start of a program on a headgate, and the steps of a word that decodes to nothing and of a
fetch that fails (05 R112 to R114, R118, R120; 06 R143, R156 to R164; 17 R360). Log 39. -/

namespace Sys2Proof.Machine

/-! ## Registers of a sequencer (05 R112) -/

/-- HGSTAT of sequencer k (05 R113). -/
def Hg.stat (h : Hg) (k : Nat) : Word :=
  BitVec.ofNat 64 ((if isRmc k then 0 else hgnOf k) * 2 ^ 14 + (if h.bound.isSome then 2 ^ 13 else 0) + h.loops.length % 8 * 2 ^ 8
    + (if h.qb then 16 else 0) + (if h.forked then 8 else 0) + if h.sys then 1 else 0)

/-- Is a register number assigned? -/
def sysRegOk (r : Nat) : Bool :=
  [0x000, 0x001, 0x010, 0x011, 0x012, 0x013, 0x100, 0x101, 0x102, 0x103, 0x110, 0x111].contains r

/-- Is a register read-only? -/
def sysRegRo (r : Nat) : Bool := r == 0x000 || r == 0x001 || r == 0x013

/-- The value of a register of the issuing sequencer. -/
def State.sysRead (s : State) (r : Nat) : Word :=
  match r with
  | 0x000 => s.me.stat s.cur
  | 0x001 => s.coreid s.cur
  | 0x010 => s.me.fmode
  | 0x011 => BitVec.ofNat 64 s.me.amax
  | 0x012 => if s.me.nseen then 1 else 0
  | 0x013 => s.me.g
  | 0x100 => s.me.epc
  | 0x101 => s.me.ecause
  | 0x102 => s.me.tvec
  | 0x103 => s.me.escr
  | 0x110 => (s.core (unitCore s.cur)).roleRead 0
  | 0x111 => (s.core (unitCore s.cur)).roleRead 1
  | _ => 0

/-- A write of a register of the issuing sequencer (01 R15; 02 R33, R34, R47; 05 R112, R114). -/
def State.sysWrite (s : State) (r : Nat) (v : Word) : Acc State :=
  let h := s.me
  match r with
  | 0x010 => do
    chk (bits v.toNat 0 3 ≤ 4) cIllegal
    .ok (s.setMe { h with fmode := v &&& 0xFF17#64 })
  | 0x011 =>
    let m := bits v.toNat 0 31
    .ok (s.setMe (if m > 0x7F800000 then { h with amax := 0, nseen := true } else { h with amax := m }))
  | 0x012 => .ok (s.setMe { h with nseen := h.nseen && !bit v.toNat 0 })
  | 0x100 => .ok (s.setMe { h with epc := v })
  | 0x101 => .ok (s.setMe { h with ecause := v &&& 0xFFFFFFFF0003FFFF#64 })
  | 0x102 => .ok (s.setMe { h with tvec := v &&& 0xFFFFFFFFFFFFFFFC#64 })
  | 0x103 => .ok (s.setMe { h with escr := v })
  | 0x110 => s.roleWrite (unitCore s.cur) 0 v
  | 0x111 => s.roleWrite (unitCore s.cur) 1 v
  | _ => flt cIllegal

/-- MRD (06 R159). -/
def execMrd (r : BitVec 10) (d : SReg) (s : State) : Host.Outcome State Fault Refusal :=
  if !sysRegOk r.toNat then .next (s.precise cIllegal [])
  else s.issue .normal (decide (0x100 ≤ r.toNat)) 0 (done (s.setS d (s.sysRead r.toNat)))

/-- MWR (06 R159). -/
def execMwr (r : BitVec 10) (a : SReg) (s : State) : Host.Outcome State Fault Refusal :=
  if !sysRegOk r.toNat || sysRegRo r.toNat then .next (s.precise cIllegal [])
  else s.issue .banned (decide (0x100 ≤ r.toNat)) 0 (do done (← s.sysWrite r.toNat (s.getS a)))

/-! ## NOP, TRAP, ERET -/

/-- NOP (06 R156). -/
def execNop (s : State) : Host.Outcome State Fault Refusal := s.plain 0 (done s)

/-- TRAP (06 R157): ILLEGAL at a headgate already in system mode. -/
def execTrap (n : BitVec 10) (s : State) : Host.Outcome State Fault Refusal :=
  s.unforked 0 (do
    chk (isRmc s.cur || !s.me.sys) cIllegal
    .ok (s.setMe (s.me.takeTrap n.toNat), .stay))

/-- ERET (06 R158). -/
def execEret (s : State) : Host.Outcome State Fault Refusal :=
  s.issue .banned true 0 (do
    chk (s.me.epc.toNat % 4 == 0) cAlign
    .ok (s.setMe (s.me.takeEret (isRmc s.cur)), .stay))

/-! ## YIELD, WAIT, SEED -/

/-- A YIELD reaches the switch that a partition has pending (06 R160; 18 R377). -/
def Part.yields (q : Part) (wt : Nat) : Part :=
  match q.sw with
  | .requested inc a d c =>
    if !c && decide (wt ≤ d) then
      { q with sw := .requested inc a d true, plots := q.plots.map fun e => (e.1, if e.2.active then { e.2 with yield := 1 } else e.2) }
    else q
  | .none | .flip _ _ => q

/-- YIELD (06 R160). -/
def execYield (s : State) : Host.Outcome State Fault Refusal :=
  s.unforked 0 (done (match s.partOfHg s.cur with | some p => s.modPart p fun q => q.yields s.wt | none => s))

/-- The events of PEV that a mask selects. -/
def Hg.events (h : Hg) (m : Word) : BitVec 5 := h.pev &&& m.setWidth 5

/-- WAIT (06 R161). -/
def execWait (d a : SReg) (s : State) : Host.Outcome State Fault Refusal :=
  s.plain 0 (do
    let m := s.getS a
    chk (m != 0 && decide (m.toNat < 32)) cIllegal
    let e := s.me.events m
    waitFor (e != 0)
    done ((s.setMe { s.me with pev := s.me.pev &&& ~~~e }).setS d (e.setWidth 64)))

/-- SEED (06 R164; 02 R39). -/
def execSeed (a : SReg) (s : State) : Host.Outcome State Fault Refusal :=
  s.unforked 0 (done (s.setMe { s.me with g := seedG (s.getS a) }))

/-! ## The start of a program, and HALT (06 R162; 10 R260; 17 R360) -/

/-- The registers of a headgate that begins at a PC with values in s1 on: the others zero, no loops, no banks, no events. -/
def Hg.fresh (h : Hg) (pc : Word) (sr : List Word) : Hg :=
  { h with
    pc := pc &&& 0xFFFFFFFFFFFFFFFC#64, s := Vector.ofFn fun i => if i.val = 0 then 0 else sr.getD (i.val - 1) 0,
    p := Vector.replicate 8 false, v := Vector.replicate 16 0, loops := [], forked := false, qb := false, bank0 := [], bank1 := [],
    pev := 0, wait := .none }

/-- A headgate of a partition starts the program of the LOAD node that its walker has reached (17 R360). -/
def State.startHg (s : State) (p k : Nat) (pc : Word) : State :=
  let (r, n) := match (s.part p).walker with
    | .loading r n _ | .at_ r n | .holding r n _ _ => (r, n)
    | .idle => (0, 0)
  let l := s.launch r
  let c := s.ctx l.owner
  let args := (List.range 8).map fun i => l.word (8 + i)
  s.modHg k fun h =>
    { h.fresh pc (BitVec.ofNat 64 (r * 2 ^ 16 + n) :: args) with
      sys := c.sys, tvec := c.tvec, icache := [], run := .program, stopped := false, pendStart := none }

/-- The claims of a task are given up (10 R260). -/
def State.dropClaims (s : State) (c : Nat) (l : List (Nat × Nat)) : State :=
  l.foldl (fun s e => s.modCore c fun k => k.modSluice e.1 fun x => { x with claim := x.claim - e.2 }) s

/-- A headgate's program or task has ended: it is free, or starts what waits for it (06 R162; 10 R258; 17 R360). -/
def State.becomeFree (s : State) (k : Nat) : State :=
  let h := s.hg k
  let s := match h.run with
    | .task l => s.dropClaims (coreOf k) l
    | .idle | .program => s
  let s := s.modHg k fun h => { h with loops := [], run := .idle, pc := h.pc + 4 }
  match h.pendStart, s.partOfHg k with
  | some pc, some p => s.startHg p k pc
  | _, _ => s

/-- An RMC halts, unless a wake event is latched (23 R430; 24 R433). -/
def State.rmcHalt (s : State) : State :=
  let r := s.cur - rmcBase
  let s := s.retire
  if (s.reticle r).rmc.wakepend then s.modReticle r fun t => { t with rmc := { t.rmc with wakepend := false } }
  else s.modMe fun h => { h with run := .idle, wait := .halt }

/-- HALT (06 R162): once every access has performed and every engine command has finished. -/
def execHalt (s : State) : Host.Outcome State Fault Refusal :=
  s.unforked 0 (do
    waitFor (s.storesDone s.cur .domain && s.me.enginesIdle && s.me.readsDone)
    .ok (if isRmc s.cur then s.rmcHalt else s.becomeFree s.cur, .stay))

/-! ## BRK and DBGH (06 R163; 26 R454, R458) -/

/-- DEBUG_HALT at the issuing sequencer, whose instruction counts as completed. -/
def State.debugHalt (s : State) (code : Nat) : State :=
  let a := s.me.pc
  let t := s.retire
  t.trapAt t.cur cDebug a t.me.pc code []

/-- BRK. -/
def execBrk (n : BitVec 10) (s : State) : Host.Outcome State Fault Refusal :=
  s.unforked 0 (.ok (s.debugHalt n.toNat, .stay))

/-- DBGH: on an RMC it halts partitions only. -/
def execDbgh (a : SReg) (s : State) : Host.Outcome State Fault Refusal :=
  s.issue .banned true 0 (do
    let x := (s.getS a).toNat
    chk (decide (x < 2)) cIllegal
    let t := if isRmc s.cur then s.retire else s.debugHalt x
    .ok (if x = 1 then t.waferHalt 1 else t, .stay))

/-! ## Words that cannot be issued -/

/-- ILLEGAL_ENCODING (05 R118, R120). -/
def execIllegalEncoding (s : State) : Host.Outcome State Fault Refusal := .next (s.precise cIllegal [])

/-- INSTRUCTION_FETCH_FAULT: inp.idx is the cause of the failed fetch, inp.data its detail words (06 R143; 05 R124). -/
def execInstructionFetchFault (s : State) : Host.Outcome State Fault Refusal := .next (s.precise s.inp.idx s.inp.data)

end Sys2Proof.Machine
end

