-- ==== Sys2Proof/Machine/Host.lean ====
section
/-! DEFINITION. What reaches the management space from outside the device: host transactions and register writes, power-on
reset, port training, the root monitor's boot and mailbox, the test port (26 R446, R447, R449, R452 to R455). Logs 13, 14,
24, 40, 41. -/

namespace Sys2Proof.Machine

/-! ## Accesses of agents outside the device (26 R447, R449) -/

/-- The waiter of an agent outside the device. -/
def agentWaiter (a : Agent) : Nat := 32768 + a.bit

/-- Is an agent outside the device's cores? -/
def Agent.external (a : Agent) : Bool := !(a == .rmc || a == .sysHg)

/-- A completion is delivered. -/
def State.complete (s : State) (denied : Bool) (data : Nat) : State := { s with compl := { denied, data } }

/-- A write of n bytes by an agent outside the device: done, denied, or waiting. -/
def State.agentWrite (s : State) (a : Agent) (p : Word) (n v : Nat) : State :=
  match s.mgmtWrite a (agentWaiter a) p n v with
  | .ok t => t.complete false 0
  | .error (.fault _ _) => s.complete true 0
  | .error x => s.stall (agentWaiter a) x

/-- A read of n bytes by an agent outside the device; a refused one returns zero. -/
def State.agentRead (s : State) (a : Agent) (p : Word) (n : Nat) : State :=
  match s.mgmtRead a (agentWaiter a) p n .load with
  | .ok (t, v) => t.complete false v
  | .error (.fault _ _) => s.complete true 0
  | .error x => s.stall (agentWaiter a) x

/-- The agent an event names. -/
def State.agent (s : State) : Agent := Agent.ofCode s.inp.sub

/-- The pointer an event names. -/
def State.target (s : State) : Nat := s.inp.addr.toNat

/-- Is the size of a host transaction one that R449 allows for its pointer? -/
def hostSizeOk (p : Word) (n : Nat) : Bool :=
  space p == 15 && ([8, 16, 32, 64, 128, 256].contains n) && p.toNat % n == 0 && (n == 8 || mRegion p.toNat == 5)

/-- MREAD: agent inp.sub reads inp.idx bytes at inp.addr (26 R449). -/
def execMread (s : State) : Host.Outcome State Fault Refusal :=
  .next (if !s.agent.external then s
    else if hostSizeOk s.inp.addr s.inp.idx then s.agentRead s.agent s.inp.addr s.inp.idx
    else s.complete true 0)

/-- The number that an event's bytes spell: inp.data from the lowest on, or inp.val when there are none. -/
def State.dataIn (s : State) : Nat := if s.inp.data.isEmpty then s.inp.val.toNat else pack 8 s.inp.data

/-- MWRITE: agent inp.sub writes inp.idx bytes at inp.addr (26 R449). -/
def execMwrite (s : State) : Host.Outcome State Fault Refusal :=
  .next (if !s.agent.external then s
    else if hostSizeOk s.inp.addr s.inp.idx then s.agentWrite s.agent s.inp.addr s.inp.idx (s.dataIn % 256 ^ s.inp.idx)
    else s.complete true 0)

/-- An event of a write of one register: agent inp.sub writes inp.val through inp.addr, which must name that register. -/
def State.regEvent (s : State) (names : Nat → Nat → Bool) : State :=
  if s.agent.external && space s.inp.addr == 15 && names s.target s.inp.val.toNat then
    s.agentWrite s.agent s.inp.addr 8 s.inp.val.toNat
  else s

/-! ## Which register a pointer names (18 R365, R367; 26 R446) -/

/-- The partition register at an offset. -/
def isPart (off x : Nat) : Bool := mRegion x == 1 && mOff x == off

/-- The cluster register at an offset. -/
def isCluster (off x : Nat) : Bool := mRegion x == 2 && mOff x == off

/-- The core register at an offset. -/
def isCore (off x : Nat) : Bool := mRegion x == 3 && mOff x == off

/-- The module register at an offset. -/
def isModule (off x : Nat) : Bool := mRegion x == 0 && bits x 0 24 == off

/-- The register of a block of region 6 at an offset. -/
def isReg6 (block off x : Nat) : Bool := mRegion x == 6 && mBlock x == block && mOff x == off

/-- A semaphore. -/
def isSem (x : Nat) : Bool := mRegion x == 0 && decide (0x100 ≤ bits x 0 24) && decide (bits x 0 24 < 0x300)

/-- Word 0 of a context descriptor. -/
def isCtx0 (x : Nat) : Bool :=
  mRegion x == 0 && decide (0x10000 ≤ bits x 0 24) && decide (bits x 0 24 < 0x18000) && bits x 0 5 == 0

/-- A register of BPC_MAP. -/
def isBpcMap (x : Nat) : Bool := mRegion x == 2 && decide (0x100 ≤ mOff x) && decide (mOff x < 0x1C8)

/-- A routing entry. -/
def isRoute (x : Nat) : Bool := mRegion x == 6 && mBlock x == 0x10 && (routeSlot (mOff x)).isSome

/-- A write of PCMD with a command. -/
def isPcmd (cmd x v : Nat) : Bool := isPart 0x010 x && v % 4 == cmd

/-- A write of XINV with an operation. -/
def isXinv (op x v : Nat) : Bool := isModule 0x10 x && bits v 62 2 == op

/-- A write of RETCMD with an operation. -/
def isRetcmd (op x v : Nat) : Bool := isModule 0x28 x && bits v 62 2 == op

/-- Every register whose write is a row of the opcode table of its own. -/
def hasRow (x v : Nat) : Bool :=
  isPart 0x000 x || isPart 0x010 x || isPart 0x030 x || isPart 0x038 x || isPart 0x040 x || isPart 0x050 x
    || isCtx0 x || isModule 0x10 x || isModule 0x28 x || (isSem x && v == 0) || isCore 0x20 x || isCore 0x28 x
    || isRoute x || isBpcMap x || isCluster 0x000 x || isCluster 0x010 x || isCluster 0x018 x || isCluster 0x020 x
    || isReg6 0x02 0x000 x || isReg6 0x07 0x000 x

/-- REGISTER_WRITE (18 R365). -/
def execRegisterWrite (s : State) : Host.Outcome State Fault Refusal :=
  .next (s.regEvent fun x v => mRegion x != 4 && mRegion x != 5 && !hasRow x v)

/-- SEM_READ: agent inp.sub reads a semaphore through inp.addr (17 R356). -/
def execSemRead (s : State) : Host.Outcome State Fault Refusal :=
  .next (if s.agent.external && space s.inp.addr == 15 && isSem s.target then s.agentRead s.agent s.inp.addr 8 else s)

/-- SEM_FREE (17 R356). -/
def execSemFree (s : State) : Host.Outcome State Fault Refusal := .next (s.regEvent fun x v => isSem x && v == 0)

/-- PARTITION_ENABLE (18 R366). -/
def execPartitionEnable (s : State) : Host.Outcome State Fault Refusal := .next (s.regEvent fun x _ => isPart 0x000 x)

/-- PCMD_RESUME (18 R368). -/
def execPcmdResume (s : State) : Host.Outcome State Fault Refusal := .next (s.regEvent (isPcmd 1))

/-- PCMD_HALT (18 R368). -/
def execPcmdHalt (s : State) : Host.Outcome State Fault Refusal := .next (s.regEvent (isPcmd 2))

/-- PCMD_SWITCH (18 R368). -/
def execPcmdSwitch (s : State) : Host.Outcome State Fault Refusal := .next (s.regEvent (isPcmd 3))

/-- PRINGRD_WRITE (18 R385). -/
def execPringrdWrite (s : State) : Host.Outcome State Fault Refusal := .next (s.regEvent fun x _ => isPart 0x050 x)

/-- PRINGBASE_WRITE (18 R460). -/
def execPringbaseWrite (s : State) : Host.Outcome State Fault Refusal := .next (s.regEvent fun x _ => isPart 0x038 x)

/-- PSTOPBASE_WRITE (18 R460). -/
def execPstopbaseWrite (s : State) : Host.Outcome State Fault Refusal := .next (s.regEvent fun x _ => isPart 0x030 x)

/-- PRINGCTL_WRITE (18 R367). -/
def execPringctlWrite (s : State) : Host.Outcome State Fault Refusal := .next (s.regEvent fun x _ => isPart 0x040 x)

/-- KMFIFO_READ: agent inp.sub reads KMFIFO through inp.addr (18 R387). -/
def execKmfifoRead (s : State) : Host.Outcome State Fault Refusal :=
  .next (if s.agent.external && space s.inp.addr == 15 && isCore 0x40 s.target then s.agentRead s.agent s.inp.addr 8 else s)

/-- CTX_CREATE (18 R369). -/
def execCtxCreate (s : State) : Host.Outcome State Fault Refusal := .next (s.regEvent fun x v => isCtx0 x && v % 8 == 1)

/-- CTX_DESTROY (18 R369). -/
def execCtxDestroy (s : State) : Host.Outcome State Fault Refusal := .next (s.regEvent fun x v => isCtx0 x && v % 8 == 0)

/-- XINV_CTX (18 R375). -/
def execXinvCtx (s : State) : Host.Outcome State Fault Refusal := .next (s.regEvent (isXinv 1))

/-- XINV_PAGE (18 R375). -/
def execXinvPage (s : State) : Host.Outcome State Fault Refusal := .next (s.regEvent (isXinv 2))

/-- XINV_ALL (18 R375). -/
def execXinvAll (s : State) : Host.Outcome State Fault Refusal := .next (s.regEvent (isXinv 3))

/-- TSKCTL_WRITE (10 R255, R256). -/
def execTskctlWrite (s : State) : Host.Outcome State Fault Refusal := .next (s.regEvent fun x _ => isCore 0x20 x)

/-- TTBASE_WRITE (10 R255, R256). -/
def execTtbaseWrite (s : State) : Host.Outcome State Fault Refusal := .next (s.regEvent fun x _ => isCore 0x28 x)

/-- ROUTE_TABLE_WRITE (19 R393). -/
def execRouteTableWrite (s : State) : Host.Outcome State Fault Refusal := .next (s.regEvent fun x _ => isRoute x)

/-- BPC_CLASS_WRITE (13 R319). -/
def execBpcClassWrite (s : State) : Host.Outcome State Fault Refusal := .next (s.regEvent fun x _ => isBpcMap x)

/-- CL_QREQ_WRITE (23 R420). -/
def execClQreqWrite (s : State) : Host.Outcome State Fault Refusal := .next (s.regEvent fun x _ => isCluster 0x000 x)

/-- CL_SWALLOW_REQ_WRITE (23 R421). -/
def execClSwallowReqWrite (s : State) : Host.Outcome State Fault Refusal := .next (s.regEvent fun x _ => isCluster 0x010 x)

/-- CL_RAIL_REQ_WRITE (23 R423). -/
def execClRailReqWrite (s : State) : Host.Outcome State Fault Refusal := .next (s.regEvent fun x _ => isCluster 0x018 x)

/-- CL_WAKE_WRITE (23 R425). -/
def execClWakeWrite (s : State) : Host.Outcome State Fault Refusal := .next (s.regEvent fun x _ => isCluster 0x020 x)

/-- RMC_DOORBELL (26 R458). -/
def execRmcDoorbell (s : State) : Host.Outcome State Fault Refusal := .next (s.regEvent fun x _ => isReg6 0x02 0x000 x)

/-- RETCMD_TEST (25 R441). -/
def execRetcmdTest (s : State) : Host.Outcome State Fault Refusal := .next (s.regEvent (isRetcmd 1))

/-- RETCMD_RETIRE (25 R440). -/
def execRetcmdRetire (s : State) : Host.Outcome State Fault Refusal := .next (s.regEvent (isRetcmd 2))

/-- RETCMD_CELLBAD (25 R440). -/
def execRetcmdCellbad (s : State) : Host.Outcome State Fault Refusal := .next (s.regEvent (isRetcmd 3))

/-- DBGCTL_HALTALL (26 R454). -/
def execDbgctlHaltall (s : State) : Host.Outcome State Fault Refusal := .next (s.regEvent fun x v => isReg6 0x07 0x000 x && bit v 0)

/-- DBGCTL_RESUMEALL (26 R454). -/
def execDbgctlResumeall (s : State) : Host.Outcome State Fault Refusal := .next (s.regEvent fun x v => isReg6 0x07 0x000 x && bit v 1)

/-- TEST_PORT_HALT: the HALT instruction of the test port (26 R454). -/
def execTestPortHalt (s : State) : Host.Outcome State Fault Refusal := .next (s.waferHalt 3)

/-- RMC_WAKE: an event of R430 that has occurred resumes the halted RMC of reticle inp.unit (23 R430; 24 R433; 26 R458). -/
def State.rmcWake (s : State) (r : Nat) : State :=
  let m := (s.reticle r).rmc
  if m.wakepend && !m.fault && (s.hg (rmcBase + r)).rmcHalted then
    (s.modReticle r fun t => { t with rmc := { t.rmc with wakepend := false } }).modHg (rmcBase + r) Hg.rmcResume
  else s

/-- RMC_WAKE: inp.unit is the reticle. -/
def execRmcWake (s : State) : Host.Outcome State Fault Refusal := .next (s.rmcWake (s.inp.unit % 64))

/-! ## Power-on reset and boot (25 R438; 26 R446, R449, R452) -/

/-- An entry of the capability table over pointer bits lo to hi (26 R447). -/
def capEntry (agents lo hi : Nat) (rd wr : Bool) : Nat :=
  2 ^ 63 + (if rd then 2 ^ 62 else 0) + (if wr then 2 ^ 61 else 0) + agents % 128 + 2 ^ 64 * (lo % 2 ^ 60) + 2 ^ 128 * (hi % 2 ^ 60)

/-- The firmware area as pointer bits [59:0]: its first and its last (26 R452). -/
def Module.fwLo (m : Module) : Nat := 5 * 2 ^ 56 + region5 m.fwbase
def Module.fwHi (m : Module) : Nat := m.fwLo + m.fwsize.toNat - 1

/-- The module as its fuses leave it: dead cores, then defective cells from 4,096 on, and the map generation (log 5). -/
def Module.fused (m : Module) (gen : Nat) (l : List Nat) : Module :=
  let dead := dedup (l.filter (· < 4096))
  let cells := (l.filter (4096 ≤ ·)).map fun k => ((k - 4096) / 576, (k - 4096) % 576)
  let live := 4096 - dead.length
  { m with mapgen := gen % 2 ^ 32, live, replaceReq := decide (live < 4032), defects := { m.defects with dead, cells } }

/-- Every bank of a live core, and of a cluster with one, becomes HOT (13 R310). -/
def State.classesAtBoot (s : State) : State :=
  (List.range 512).foldl (fun s cl =>
    let live := fun (n : Nat) => match bankCore cl n with | some c => s.live c | none => !(s.liveOf cl).isEmpty
    s.modCluster cl fun c =>
      { c with banks := (List.range 400).foldl (fun b n => SMap.set b n { c.bank n with cls := if live n then 1 else 0, state := if live n then 0 else 3 }) c.banks }) s

/-- Stage 1 of boot (26 R452), which ends in stage 2. -/
def State.bootFirst (s : State) (fwbase fwsize : Word) : State :=
  let s := s.modMod fun m => { m with fwbase, fwsize }
  let s := (s.classesAtBoot.modMod fun m => { m with minslice := s.minSlice }).writeImage
  let bad := s.mod.defects.dead.flatMap (fun c => (List.range 576).map (c * 576 + ·)) ++ s.mod.defects.cells.map fun e => e.1 * 576 + e.2
  let s := bad.foldl (fun s k => s.idleCell k) s
  s.modMod fun m => { m.setStage 2 0 with caps := SMap.set m.caps 0 (capEntry 3 m.fwLo m.fwHi false true) }

/-- POWER_ON_RESET: inp.idx is the fused map generation, inp.data the fused defects, inp.addr and inp.val the firmware area that
the root monitor sets (log 5, 13). -/
def execPowerOnReset (s : State) : Host.Outcome State Fault Refusal :=
  let t := { State.reset with agenda := s.agenda, fresh := s.fresh, inp := s.inp }
  .next ((t.modMod fun m => m.fused s.inp.idx s.inp.data).bootFirst s.inp.addr s.inp.val)

/-- HOST_PORT_TRAINING: of port inp.unit, the modules of inp.val have trained (26 R449). -/
def execHostPortTraining (s : State) : Host.Outcome State Fault Refusal :=
  .next (s.modMod fun m => m.modPort (s.inp.unit % 2) fun h => { h with mods := s.inp.val &&& 0xFF#64 })

/-! ## The mailbox (26 R453) -/

def Module.mbOp (m : Module) : Nat := bits m.mbcmd.toNat 56 8
def Module.mbArg (m : Module) : Nat := bits m.mbcmd.toNat 0 32
def Module.mbWord (m : Module) (i : Nat) : Word := m.mbdata.getD i 0

/-- The number that words i to i + n - 1 of MBDATA spell. -/
def Module.mbNum (m : Module) (i n : Nat) : Nat := pack 64 ((List.range n).map fun k => (m.mbWord (i + k)).toNat)

/-- MBDATA with a number of n words written from word i on. -/
def Module.setMb (m : Module) (i n v : Nat) : Module :=
  (List.range n).foldl (fun m k => { m with mbdata := setWordAt m.mbdata (i + k) (BitVec.ofNat 64 (v / 2 ^ (64 * k))) }) m

/-- The command ends with a result. -/
def Module.mbDone (m : Module) (result : Nat) : Module := { m with mbstat := (m.mbstat &&& 2#64) ||| BitVec.ofNat 64 (result * 256) }

/-- Is a command one that the root monitor refuses with RESULT 1 whatever its operands? -/
def Module.mbBad (m : Module) : Bool := m.mbOp == 0 || decide (6 < m.mbOp) || bits m.mbcmd.toNat 32 24 != 0

/-- An event of a mailbox command: what it does once its command stands, and its result. -/
def State.mailbox (s : State) (op : Nat) (f : State → State × Nat) : State :=
  if !s.mod.mbBusy then s
  else if s.mod.mbBad then s.modMod fun m => m.mbDone 1
  else if s.mod.mbOp ≠ op then s
  else let (t, r) := f s; t.modMod fun m => m.mbDone r

/-- The DRAM address of a region-5 pointer to n backed bytes (26 R453). -/
def State.mbArea (s : State) (p : Word) (n : Nat) : Option Nat :=
  if p.toNat / 2 ^ 56 = 0xF5 ∧ bits p.toNat 41 15 = 0 ∧ s.isBacked (region5 p) n ∧ !s.poisoned (region5 p) n then some (region5 p) else none

/-- The RMCs start at an address (26 R452). -/
def State.startRmcs (s : State) (pc : Word) : State :=
  (List.range 64).foldl (fun s r => s.modHg (rmcBase + r) fun h =>
    { h with pc, run := .program, wait := .none, stopped := false, icache := [] }) s

/-- BOOT (26 R452, R453): the measure of the image, its checks, and stage 4 or 2. -/
def State.boot (s : State) : State × Nat :=
  let m := s.mod
  if m.stage ≠ 2 then (s, 1)
  else
    let a := region5 m.fwbase
    let len := s.readN (a + 8) 8
    let fail := fun (t : State) (err r : Nat) => (t.modMod fun m => m.setStage 2 err, r)
    if len > m.fwsize.toNat then fail s 2 1
    else
      let body := s.readBytes a (64 + len)
      let sig := s.readN (a + 64 + len) 512
      let s := s.modMod fun m => { m with meas0 := Config.sha512 (body ++ bytesOf sig 512) }
      if s.readN a 4 ≠ 0x59444F42 ∨ !s.isBacked a (576 + len) ∨ s.poisoned a (576 + len) ∨ !Config.pssVerify Config.vendorKey body sig then
        fail s 1 2
      else
        let version := s.readN (a + 4) 4
        let entry := s.readN (a + 16) 8
        let s := s.modMod fun m =>
          { m.setStage 4 0 with
            caps := SMap.set (SMap.erase m.caps 0) 1 (capEntry 4 m.fwLo m.fwHi true false) }
        let s := s.modMod fun m => { m with bootstat := BitVec.ofNat 64 (setBits m.bootstat.toNat 32 32 version) }
        (s.startRmcs (m.fwbase + BitVec.ofNat 64 entry), 0)

/-- MB_BOOT. -/
def execMbBoot (s : State) : Host.Outcome State Fault Refusal := .next (s.mailbox 1 State.boot)

/-- ATTEST (26 R453). -/
def State.attest (s : State) : State × Nat :=
  let nonce := s.mod.mbNum 0 8
  let m := ((s.mod.setMb 64 8 s.mod.meas0).setMb 72 1 s.mod.mapgen).setMb 73 1 s.mod.bootstat.toNat
  let sig := Config.attestSign (bytesOf nonce 64 ++ bytesOf (m.mbNum 64 10) 80)
  ({ s with mod := m.setMb 0 64 sig }, 0)

/-- MB_ATTEST. -/
def execMbAttest (s : State) : Host.Outcome State Fault Refusal := .next (s.mailbox 2 State.attest)

/-- PUBKEY (26 R453). -/
def State.pubkey (s : State) : State × Nat :=
  let slot := s.mod.mbArg
  if slot ≥ 8 then (s, 1) else (s.modMod fun m => { m with pubkeys := SMap.set m.pubkeys slot (m.mbNum 0 64) }, 0)

/-- MB_PUBKEY. -/
def execMbPubkey (s : State) : Host.Outcome State Fault Refusal := .next (s.mailbox 3 State.pubkey)

/-- Is a layer entry of a manifest well formed (26 R453)? -/
def layerOk (e : Nat) : Bool := bits e 1792 256 == 0

/-- MANIFEST (26 R453). -/
def State.manifest (s : State) : State × Nat :=
  let p := s.mod.mbWord 0
  match s.mbArea p 64 with
  | none => (s, 5)
  | some a =>
    let h := s.readN a 64
    let n := bits h 32 16
    if bits h 0 32 ≠ 0x54534E4D ∨ n = 0 ∨ 4096 < n ∨ bits h 51 461 ≠ 0 then (s, 1)
    else match s.mbArea p (64 + 256 * n + 512) with
      | none => (s, 5)
      | some _ =>
        let layers := (List.range n).map fun i => s.readN (a + 64 + 256 * i) 256
        if !layers.all layerOk then (s, 1)
        else match SMap.get? s.mod.pubkeys (bits h 48 3) with
          | none => (s, 2)
          | some key =>
            if Config.pssVerify key (s.readBytes a (64 + 256 * n)) (s.readN (a + 64 + 256 * n) 512) then
              (s.modMod fun m => { m with manifest := some layers }, 0)
            else (s, 2)

/-- MB_MANIFEST. -/
def execMbManifest (s : State) : Host.Outcome State Fault Refusal := .next (s.mailbox 4 State.manifest)

/-- INSTALL (26 R453): the copy is hashed, and stored only when its hash matches. -/
def State.install (s : State) : State × Nat :=
  let x := s.mod.mbNum 0 4
  let part := bits x 64 8
  if part > 2 then (s, 1)
  else match (s.mod.manifest.getD []).find? fun e => bits e 0 64 == bits x 0 64 with
    | none => (s, 4)
    | some e =>
      let len := bits e (64 + 64 * part) 64
      match s.mbArea (BitVec.ofNat 64 (bits x 72 64)) len, s.mbArea (BitVec.ofNat 64 (bits x 136 64)) 0 with
      | some a, some b =>
        if !s.isBacked b len then (s, 5)
        else
          let copy := s.readBytes a len
          if Config.sha512 copy = bits e (256 + 512 * part) 512 then (s.devStore b len (pack 8 (copy.map BitVec.toNat)), 0) else (s, 3)
      | _, _ => (s, 5)

/-- MB_INSTALL. -/
def execMbInstall (s : State) : Host.Outcome State Fault Refusal := .next (s.mailbox 5 State.install)

/-- CMAP (26 R448, R453). -/
def State.cmapCmd (s : State) : State × Nat :=
  let p := s.mod.mbWord 0
  let g := bits p.toNat 21 20
  let n := s.mod.mbArg
  if p.toNat / 2 ^ 56 ≠ 0xF5 ∨ bits p.toNat 41 15 ≠ 0 ∨ 2 ^ 20 < g + n then (s, 5)
  else
    let other := s.mod.cmap.filter fun k => !(decide (g ≤ k) && decide (k < g + n))
    (s.modMod fun m =>
      { m with cmap := if bit (m.mbWord 1).toNat 63 then (List.range n).map (g + ·) ++ other else other }, 0)

/-- MB_CMAP. -/
def execMbCmap (s : State) : Host.Outcome State Fault Refusal := .next (s.mailbox 6 State.cmapCmd)

end Sys2Proof.Machine
end

