-- ==== Sys2Proof/Machine/Disp.lean ====
section
/-! DEFINITION. The dispatcher: host commands, device launches, cancellation and tear-down, and which launch runs next (12
R308, R309; 17 R349 to R352, R355, R357 to R359; 18 R376). Log 42. -/

namespace Sys2Proof.Machine

/-! ## Launch records (17 R350, R352) -/

/-- Is a context known (18 R369)? -/
def State.known (s : State) (c : Nat) : Bool := (s.ctx c).state != 0

/-- The part of a record's validity that its own bits decide. -/
def shapeOk (w : Vector Word 16) : Bool :=
  let x := fun (k : Nat) => (w.get (Fin.ofNat 16 k)).toNat
  let nn := bits (x 1) 0 13
  x 5 == 0 && x 6 == 0 && x 7 == 0 && bits (x 3) 24 40 == 0 && bits (x 1) 58 6 == 0 && bits (x 1) 19 13 == 0 && bits (x 1) 13 3 == 0
    && decide (1 ≤ nn) && decide (nn ≤ 4096) && x 0 / 2 ^ 60 == 0 && x 0 % 64 == 0 && bits (x 1) 32 2 == 0

/-- The owner that a record image names. -/
def imageOwner (w : Vector Word 16) : Nat := bits (w.get 1).toNat 48 10

/-- Is PRIO 7 only a system context's? -/
def State.prioOk (s : State) (w : Vector Word 16) : Bool := bits (w.get 1).toNat 16 3 != 7 || (s.ctx (imageOwner w)).sys

/-- Is a record image valid (17 R350)? -/
def State.imageOk (s : State) (w : Vector Word 16) : Bool := shapeOk w && s.known (imageOwner w) && s.prioOk w

/-! ## The partition of a context -/

/-- The partition on which a context is active. -/
def State.activeOn (s : State) (c : Nat) : Option Nat :=
  (s.parts.find? fun e => e.2.en && e.2.av && e.2.active == c).map (·.1)

/-- The waiter of a partition's graph walker. -/
def State.walkerW (s : State) (p : Nat) : Nat := waiterOf (4 * (s.part p).cores.headD 0) 7

/-- The record that a walker runs. -/
def Walker.record : Walker → Option Nat
  | .idle => none
  | .at_ r _ | .loading r _ _ | .holding r _ _ _ => some r

/-! ## The end of a launch (12 R309; 17 R351) -/

/-- Store a launch's status word to NOTIFY; a context that is not active is reached through its own tables. -/
def State.notifyStore (s : State) (l : Launch) : Acc State := do
  let p := l.notify
  if p = 0 then return s
  chk (space p != 15) cPriv
  match space p, s.activeOn l.owner with
  | 12, _ => do
    chk (zeroOk p) cAddr
    chk (p.toNat % 8 == 0) cAlign
    .ok (s.homeWrite (hostAddr l.via (bits p.toNat 0 48)) 8 l.status)
  | _, some q => s.storeVia (s.walkerW q) p 8 l.status true
  | sp, none => do
    chk (decide (sp ≤ 2) && zeroOk p) cAddr
    chk (p.toNat % 8 == 0) cAlign
    let w := s.walkerW (s.ctx l.owner).part
    let cl := clusterOf (coreOf (seqOf w))
    match s.walk cl l.owner (bits p.toNat 0 48) with
    | (t, .wait x) => .error (.held t x)
    | (_, .fail c) => flt c
    | (_, .next _) => flt cXlate
    | (t, .leaf e) => keeping t do
      chk e.w cProt
      let a := e.pa + (bits p.toNat 0 48 - e.va)
      t.lineReady sp a w
      .ok ((t.homeWrite a 8 l.status).touchAs sp a w true)

/-- Every L1 of a partition writes back (12 R294). -/
def State.partWriteBack (s : State) (p : Nat) : Acc State := do
  let w := s.walkerW p
  s.flushReady w (s.part p).cores
  .ok ((s.part p).cores.foldl (fun s c => s.writeBackAll w c) s)

/-- Every L1 of a partition drops its clean copies: no program of a launch sees an older one (12 R294, R297, R298, R308). -/
def State.partInval (s : State) (p : Nat) : State := (s.part p).cores.foldl (fun s c => s.selfInval c) s

/-- The release at host scope that the end of a launch is for every access of it (12 R309): all but the NOTIFY store itself. -/
def State.launchRelease (s : State) (p : Nat) : Acc State := do
  waitFor ((s.partHgs p).all fun k => s.remoteClearBut k (s.walkerW p))
  s.partWriteBack p

/-- A headgate whose program a cancellation ends (17 R361; log 42). -/
def Hg.endProgram (h : Hg) : Hg :=
  match h.run with
  | .program => { h with run := .idle, loops := [], wait := .none, pendStart := none, staged := none }
  | .idle | .task _ => { h with pendStart := none }

/-- The walker that runs a record becomes idle, and the load of the launch ends, whether its context is active or saved. -/
def State.endWalk (s : State) (r : Nat) : State :=
  let c := (s.launch r).owner
  match s.activeOn c with
  | some p =>
    if (s.part p).walker.record = some r then
      let s := s.modPart p fun q => { q with walker := .idle, load := none, iters := [], colls := [] }
      (s.partHgs p).foldl (fun s k => s.modHg k Hg.endProgram) s
    else s
  | none =>
    if (s.ctx c).saved.walker.record = some r then
      s.modCtx c fun x =>
        { x with saved := { x.saved with
            walker := .idle, load := none, iters := [], colls := [], hgs := x.saved.hgs.map fun e => (e.1, e.2.endProgram) } }
    else s

/-- The record after DONE (state 4) or CANCELLED (state 5) with a code. -/
def Launch.ended (l : Launch) (state code : Nat) : Launch :=
  { l with state, count := if state = 4 then (l.count + 1) % 2 ^ 32 else l.count, code := if state = 4 then l.code else code }

/-- Has the page walk failed that the NOTIFY store of a record waits for? -/
def State.notifyLost (s : State) (r : Nat) : Bool :=
  let l := s.launch r
  match s.activeOn l.owner with
  | some p => l.notify != 0 && ((s.part p).walkFault.map (·.2)) == some (bits l.notify.toNat 0 48)
  | none => false

/-- The walker of a partition has heard of the walk that failed. -/
def State.heard (s : State) (p : Nat) : State := s.modPart p fun q => { q with walkFault := none }

/-- A launch ends: the release, the NOTIFY store, and the record's new state; it waits as the store waits, and a store that
faults, or whose page walk fails, is dropped (17 R351). -/
def State.endLaunch (s : State) (r state code : Nat) : Acc State := do
  let l := s.launch r
  let s ← match s.activeOn l.owner with
    | some p => if l.state = 3 then s.launchRelease p else .ok s
    | none => .ok s
  let l' := l.ended state code
  let dropped := fun (t : State) => (t.endWalk r).setLaunch r { l' with code := if state = 4 then 7 else l'.code }
  if s.notifyLost r then .ok (dropped (((s.activeOn l.owner).map s.heard).getD s))
  else
    match keeping s (s.notifyStore l') with
    | .ok t => .ok ((t.endWalk r).setLaunch r l')
    | .error (.fault _ _) => .ok (dropped s)
    | .error e => .error e

/-- Something that may wait, done by a waiter. -/
def State.orWait (s : State) (waiter : Nat) : Acc State → State
  | .ok t => t
  | .error x => s.stall waiter x

/-! ## Arming (17 R351, R357) -/

/-- A host LAUNCH arms a record at once (12 R309). -/
def State.armHost (s : State) (r port : Nat) : State :=
  (s.modLaunch r fun l => { l with state := 2, via := port, order := s.mod.armSeq, accepted := true, armedWt := s.wt }).modMod fun m =>
    { m with armSeq := m.armSeq + 1 }

/-! ## Tear-down (17 R359; 18 R382) -/

/-- What a context held in a core is gone. -/
def Core.blank (k : Core) : Core :=
  { k with
    queues := Vector.replicate 8 [], arrivals := Vector.replicate 8 [], counters := Vector.replicate 64 0, cntovf := 0, tskctl := 0,
    ttbase := 0, taskReady := 0, lastq := 0, table := [], sluices := Vector.replicate 16 {} }

/-- The partition of a context that is torn down while active has no active context: its plots are unconfigured, and its
headgates and their engines hold nothing. -/
def State.dropActive (s : State) (p : Nat) : State :=
  let q := s.part p
  let s := s.deconfigure p (q.plots.map (·.1))
  let s := (s.partHgs p).foldl (fun s k => s.setHg k (resetHg k)) s
  let s := q.cores.foldl (fun s c => s.modCore c Core.blank) s
  let s := s.modMod fun m => { m with packets := m.packets.filter fun x => !q.cores.contains x.src }
  s.modPart p fun q =>
    { q with
      av := false, active := 0, walker := .idle, load := none, iters := [], colls := [], plots := [], waves := [], flights := [] }

/-- Tear-down of a known context. -/
def State.tearDown (s : State) (c : Nat) : Acc State := do
  let rs := (s.launches.filter fun e => e.2.owner == c && (e.2.state == 2 || e.2.state == 3)).map (·.1)
  let s ← rs.foldlM (fun (s : State) r => keeping s (s.endLaunch r 5 1)) s
  let s := match s.activeOn c with
    | some p => s.dropActive p
    | none => s
  let s : State := { s with parts := s.parts.map fun e => (e.1, { e.2 with preq := e.2.preq.filter fun x => x % 1024 != c }) }
  .ok (s.modCtx c fun x => { x with state := 0, saved := {}, tokens := [], parked := false })

/-! ## Commands of the hosts (17 R355, R357; 26 R452) -/

def cmdOp (v : Nat) : Nat := bits v 60 4
def cmdRec (v : Nat) : Nat := bits v 0 12
def cmdCtx (v : Nat) : Nat := bits v 32 10

/-- A command with a bad OP or a reserved bit. -/
def cmdBad (v : Nat) : Bool := cmdOp v == 0 || decide (5 < cmdOp v) || bits v 42 18 != 0 || bits v 12 20 != 0

/-- The command that waits at a port. -/
def Module.cmdAt (m : Module) (port : Nat) : Option Nat := (m.port port).dcmd.map (·.toNat)

/-- Does a tear-down wait at a port? -/
def Module.tearAt (m : Module) (port : Nat) : Bool :=
  match m.cmdAt port with
  | some v => !cmdBad v && cmdOp v == 5
  | none => false

/-- Does a pre-emption wait that the dispatcher can accept (17 R357; 18 R376)? -/
def State.preemptWaits (s : State) : Bool := s.parts.any fun e => e.2.en && !e.2.preq.isEmpty && decide (e.2.sw = .none)

/-- Has a port lost a contest: both wait, and it won the last (17 R357)? Port A wins the first. -/
def Module.loses (m : Module) (port : Nat) : Bool :=
  (m.cmdAt (1 - port)).isSome && (m.lastWinner == port + 1 || (m.lastWinner == 0 && port == 1))

/-- May the dispatcher accept the command of a port now? -/
def State.mayAccept (s : State) (port : Nat) : Bool :=
  let m := s.mod
  m.stage == 5 &&
    if m.tearAt port then true else !m.tearAt (1 - port) && !s.preemptWaits && !m.loses port

/-- A command is accepted with a result. -/
def HostPort.accepted (h : HostPort) (result : Nat) : HostPort :=
  { h with dcmd := none, dstat := (h.dstat &&& 2#64) ||| BitVec.ofNat 64 (result * 256) }

/-- The command of a port is accepted: who won a contest, its result, BUSY. -/
def State.accept (s : State) (port result : Nat) : State :=
  let contest := (s.mod.cmdAt (1 - port)).isSome && !s.mod.tearAt port
  s.modMod fun m => ({ m with lastWinner := if contest then port + 1 else m.lastWinner }).modPort port fun h => h.accepted result

/-- An event of a host command: what it does with its word, and its result. -/
def State.hostCmd (s : State) (op : Nat) (f : Nat → Nat → Acc (State × Nat)) : State :=
  let port := s.inp.unit % 2
  match s.mod.cmdAt port with
  | none => s
  | some v =>
    if !s.mayAccept port then s
    else if cmdBad v then s.accept port 1
    else if cmdOp v ≠ op then s
    else match f port v with
      | .ok (t, r) => t.accept port r
      | .error x => s.stall (32768 + port) x

/-- BUILD (17 R351, R355): LSTAGE becomes the record. -/
def State.hostBuild (s : State) (port v : Nat) : Acc (State × Nat) :=
  let r := cmdRec v
  let w := (s.mod.port port).lstage
  if (s.launch r).state = 2 ∨ (s.launch r).state = 3 then .ok (s, 2)
  else if !shapeOk w then .ok (s, 3)
  else if !s.known (imageOwner w) then .ok (s, 4)
  else if !s.prioOk w then .ok (s, 3)
  else .ok (s.modLaunch r fun l => { l with words := w, state := 1, count := 0, code := 0, port }, 0)

/-- HOST_BUILD: inp.unit is the port. -/
def execHostBuild (s : State) : Host.Outcome State Fault Refusal := .next (s.hostCmd 1 s.hostBuild)

/-- LAUNCH (17 R351). -/
def State.hostLaunch (s : State) (port v : Nat) : Acc (State × Nat) :=
  if (s.launch (cmdRec v)).idle then .ok (s.armHost (cmdRec v) port, 0) else .ok (s, 2)

/-- HOST_LAUNCH: inp.unit is the port. -/
def execHostLaunch (s : State) : Host.Outcome State Fault Refusal := .next (s.hostCmd 2 s.hostLaunch)

/-- CANCEL (17 R351, R352). -/
def State.hostCancel (s : State) (_port v : Nat) : Acc (State × Nat) :=
  let l := s.launch (cmdRec v)
  if l.state = 2 ∨ l.state = 3 then do .ok (← s.endLaunch (cmdRec v) 5 2, 0) else .ok (s, 2)

/-- HOST_CANCEL: inp.unit is the port. -/
def execHostCancel (s : State) : Host.Outcome State Fault Refusal := .next (s.hostCmd 3 s.hostCancel)

/-- CLEAR (17 R351). -/
def State.hostClear (s : State) (_port v : Nat) : Acc (State × Nat) :=
  if (s.launch (cmdRec v)).idle then .ok (s.modLaunch (cmdRec v) fun l => { l with state := 0 }, 0) else .ok (s, 2)

/-- HOST_CLEAR: inp.unit is the port. -/
def execHostClear (s : State) : Host.Outcome State Fault Refusal := .next (s.hostCmd 4 s.hostClear)

/-- TEARDOWN (17 R355, R359). -/
def State.hostTeardown (s : State) (_port v : Nat) : Acc (State × Nat) :=
  if s.known (cmdCtx v) then do .ok (← s.tearDown (cmdCtx v), 0) else .ok (s, 4)

/-- HOST_TEARDOWN: inp.unit is the port. -/
def execHostTeardown (s : State) : Host.Outcome State Fault Refusal := .next (s.hostCmd 5 s.hostTeardown)

/-! ## Device launches (17 R357) -/

/-- The oldest device launch is accepted, or discarded when its record is no longer ARMED. -/
def State.deviceLaunch (s : State) : State :=
  match s.mod.dcmds with
  | [] => s
  | (r, _) :: rest =>
    if s.mod.stage ≠ 5 ∨ (s.mod.cmdAt 0).isSome ∨ (s.mod.cmdAt 1).isSome ∨ s.preemptWaits then s
    else
      let s := s.modMod fun m => { m with dcmds := rest }
      if (s.launch r).state = 2 then s.modLaunch r fun l => { l with accepted := true } else s

/-- DEVICE_LAUNCH. -/
def execDeviceLaunch (s : State) : Host.Outcome State Fault Refusal := .next s.deviceLaunch

/-! ## Which launch runs next (17 R358; 18 R376) -/

/-- The effective level of a waiting record. -/
def Launch.level (l : Launch) (wt : Nat) : Nat := if l.prio = 7 then 7 else min 6 (l.prio + (wt - l.armedWt) / 1600000)

/-- A candidate of a partition: its context, its level, and its record, or none where a launch that was switched out is to be
resumed. -/
structure Cand where
  ctx : Nat
  level : Nat
  rec_ : Option Nat
  order : Nat
  deriving DecidableEq, Repr

/-- The record of a context that is RUNNING. -/
def State.runningOf (s : State) (c : Nat) : Option Nat := (s.launches.find? fun e => e.2.state == 3 && e.2.owner == c).map (·.1)

/-- Does a context run, or wait to be resumed, on a partition? -/
def State.boundTo (s : State) (p c : Nat) : Bool := s.known c && (s.ctx c).part == p

/-- The armed records that the dispatcher has accepted for the contexts bound to a partition, but for those of a context that
has a launch already; and the contexts whose launch a pre-emption of the dispatcher has switched out. -/
def State.cands (s : State) (p : Nat) : List Cand :=
  let active := fun c => (s.part p).av && (s.part p).active == c
  s.launches.filterMap fun e =>
    let l := e.2
    if !s.boundTo p l.owner then none
    else if l.state = 2 ∧ l.accepted ∧ (s.runningOf l.owner).isNone then some ⟨l.owner, l.level s.wt, some e.1, l.order⟩
    else if l.state = 3 ∧ !active l.owner ∧ !(s.ctx l.owner).parked then some ⟨l.owner, l.prio, none, l.order⟩
    else none

/-- The context of a partition that was last served at a level; 1,023 for none. -/
def State.lastServed (s : State) (p level : Nat) : Nat := SMap.getD (s.part p).served level 1023

/-- How far a candidate lies behind the context last served at its level, and then its age. -/
def Cand.rank (c : Cand) (last : Nat) : Nat := (c.ctx + 2048 - last - 1) % 1024 * 2 ^ 64 + c.order

/-- The smallest by a measure. -/
def leastBy {α : Type} (f : α → Nat) : List α → Option α
  | [] => none
  | x :: t =>
    match leastBy f t with
    | some y => if f y < f x then some y else some x
    | none => some x

/-- The candidate that is taken: the highest level, then round-robin over contexts, then age. -/
def State.bestCand (s : State) (p : Nat) (l : List Cand) : Option Cand :=
  let top := l.foldl (fun m c => max m c.level) 0
  leastBy (fun c => c.rank (s.lastServed p top)) (l.filter (·.level == top))

/-- A context has been served at a level. -/
def State.serve (s : State) (p level c : Nat) : State := s.modPart p fun q => { q with served := SMap.set q.served level c }

/-- A record of the active context becomes RUNNING; what its graph loads is no older than what the host and the arming headgate stored
before (12 R297, R308). -/
def State.runLaunch (s : State) (p : Nat) (c : Cand) (r : Nat) : State :=
  (((s.partInval p).serve p c.level c.ctx).modLaunch r fun l => { l with state := 3, runWt := s.wt }).modPart p fun q =>
    { q with walker := .at_ r 0, iters := [], load := none }

/-- The dispatcher acts on a candidate. -/
def State.take (s : State) (p : Nat) (c : Cand) : State :=
  match c.rec_ with
  | some r =>
    if !s.imageOk (s.launch r).words then s.orWait (s.walkerW p) (s.endLaunch r 5 3)
    else if (s.part p).av ∧ (s.part p).active = c.ctx then s.runLaunch p c r
    else s.askSwitch p c.ctx
  | none => s.askSwitch p c.ctx

/-- The candidates for which a RUNNING launch of the active context may be pre-empted (18 R376). -/
def State.preempting (s : State) (p r : Nat) (l : List Cand) : List Cand :=
  let run := s.launch r
  let sys := l.filter fun c => c.rec_.isSome && c.level == 7 && (s.ctx c.ctx).sys
  let slice := (s.part p).slice
  if !sys.isEmpty then sys
  else if slice ≠ 0 ∧ run.runWt + slice ≤ s.wt then l.filter fun c => c.ctx != run.owner && decide (run.prio ≤ c.level)
  else []

/-- LAUNCH_DISPATCH's effect on a partition. -/
def State.dispatch (s : State) (p : Nat) : State :=
  let q := s.part p
  if !q.en ∨ q.sw ≠ .none ∨ !q.preq.isEmpty ∨ s.mod.stage ≠ 5 then s
  else
    let l := s.cands p
    let l := match (if q.av then s.runningOf q.active else none) with
      | some r => s.preempting p r l
      | none => l
    match s.bestCand p l with
    | some c => s.take p c
    | none => s

/-- LAUNCH_DISPATCH: inp.unit is the partition. -/
def execLaunchDispatch (s : State) : Host.Outcome State Fault Refusal := .next (s.dispatch s.inp.unit)

end Sys2Proof.Machine
end

