-- ==== Sys2Proof/Machine/Graph.lean ====
section
/-! DEFINITION. The graph walker of a partition: nodes, loads and their boundaries (12 R302, R303; 17 R353, R354, R360,
R361). Log 43. -/

namespace Sys2Proof.Machine

/-! ## Nodes (17 R353, R354) -/

def nKind (x : Nat) : Nat := bits x 0 8
def nNext (x : Nat) : Nat := bits x 16 16
def nAlt (x : Nat) : Nat := bits x 32 16
def nIter (x : Nat) : Nat := bits x 48 16
def nAddr (x : Nat) : Word := BitVec.ofNat 64 (bits x 64 64)
def nMask (x : Nat) : Nat := bits x 128 64
def nValue (x : Nat) : Nat := bits x 192 64
def nEntry (x h : Nat) : Word := BitVec.ofNat 64 (bits x (256 + 64 * h) 64)
def nHgs (x : Nat) : Nat := bits x 160 4
def nCount (x : Nat) : Nat := bits x 144 16
def nLo (x : Nat) : Nat := bits x 128 16

/-- A condition word's pointer: aligned, of spaces 0x0 to 0x6. -/
def condAddrOk (x : Nat) : Bool := (nAddr x).toNat % 8 == 0 && decide (space (nAddr x) ≤ 6)

/-- Is a node well formed in a graph of nn nodes on a partition of n cores (17 R353, R354, R360)? -/
def nodeOk (x nn n : Nat) : Bool :=
  let noEntry := bits x 256 256 == 0
  let next := decide (nNext x < nn)
  let alt := decide (nAlt x < nn)
  bits x 8 8 == 0 &&
    match nKind x with
    | 0 => bits x 16 496 == 0
    | 1 => next && nAlt x == 0 && nIter x == 0 && nValue x == 0 && bits x 164 28 == 0 && nHgs x != 0 && nCount x != 0
        && decide (nLo x + nCount x ≤ n) && (List.range 4).all fun h => !bit (nHgs x) h || nEntry x h != 0
    | 2 => next && alt && nIter x == 0 && noEntry && condAddrOk x
    | 3 => next && alt && noEntry && condAddrOk x
    | 4 => next && nAlt x == 0 && nIter x == 0 && noEntry && condAddrOk x
    | 5 => next && nAlt x == 0 && nIter x == 0 && bits x 76 52 == 0 && nMask x == 0 && nValue x == 0 && noEntry
    | _ => false

/-- The test of COND, WHILE and HOLD. -/
def nTest (x word : Nat) : Bool := word &&& nMask x == nValue x

/-! ## Faults of the walker (17 R354; 14 R457; 18 R384) -/

/-- The detail words of a walker's record: the node index with the cause's own. -/
def walkerDetail (cause n : Nat) (d : List Nat) : List Nat :=
  if cause = cCfgBad ∨ cause = cCfgEcc then [d.getD 0 0, d.getD 1 0, d.getD 2 0, n % 2 ^ 16 * 2 ^ 16 + d.getD 3 0 % 32]
  else n :: d.take 3

/-- A fault at the walker: its record, and the halt line; it tries again once the partition resumes. -/
def State.walkerFault (s : State) (p n cause : Nat) (d : List Nat) : State :=
  (s.record p ((s.part p).cores.headD 0) 7 0 cause 0xFFFF 0 (walkerDetail cause n d)).haltLine p

/-- Does the walker of a partition run? -/
def State.walkerOn (s : State) (p : Nat) : Bool :=
  let q := s.part p
  q.en && q.av && !q.halted && !s.frozen p && !q.cores.isEmpty

/-- What the walker does at a node; an access of it may fault or wait. -/
def State.walkerAct (s : State) (p n : Nat) : Acc State → State
  | .ok t => t
  | .error (.fault c d) => s.walkerFault p n c d
  | .error x => s.stall (s.walkerW p) x

/-- Read a node. -/
def State.readNode (s : State) (p r n : Nat) : Acc (State × Nat) :=
  s.loadVia (s.walkerW p) (padd (s.launch r).graph (64 * n : Nat)) 64 true

/-- Go on at a node. -/
def State.walkTo (s : State) (p r n : Nat) : State := s.modPart p fun q => { q with walker := .at_ r n }

/-- An event of the walker at the node it has reached, which must be of a kind; a malformed node cancels the launch. A launch whose NOTIFY
store has failed at its END ends also while the halt line is up, since that store is dropped (17 R351). -/
def State.nodeEvent (s : State) (kind : Nat) (f : Nat → Nat → Nat → State → Nat → Acc State) : State :=
  let p := s.inp.unit
  match (s.part p).walker with
  | .at_ r n =>
    if !s.walkerOn p && !(kind == 0 && s.notifyLost r) then s
    else s.walkerAct p n (do
      let nn := (s.launch r).nnodes
      if nn ≤ n then s.endLaunch r 5 4
      else
        let (t, x) ← s.readNode p r n
        if !nodeOk x nn (s.part p).cores.length then t.endLaunch r 5 4
        else if nKind x ≠ kind then .ok s
        else f p r n t x)
  | .idle | .loading _ _ _ | .holding _ _ _ _ => s

/-- Read the condition word of a node. -/
def State.readCond (s : State) (p x : Nat) : Acc (State × Nat) := s.loadVia (s.walkerW p) (nAddr x) 8 true

/-! ## END, COND, WHILE, HOLD, ARM (17 R354) -/

/-- GRAPH_NODE_END: inp.unit is the partition (17 R351). -/
def execGraphNodeEnd (s : State) : Host.Outcome State Fault Refusal :=
  .next (s.nodeEvent 0 fun _ r _ t _ => t.endLaunch r 4 0)

/-- GRAPH_NODE_COND: inp.unit is the partition. -/
def execGraphNodeCond (s : State) : Host.Outcome State Fault Refusal :=
  .next (s.nodeEvent 2 fun p r _ t x => do
    let (t, w) ← t.readCond p x
    .ok (t.walkTo p r (if nTest x w then nNext x else nAlt x)))

/-- WHILE at node n: the body with the iteration counted, the exit, or the end at the limit. -/
def State.whileNode (s : State) (p r n x : Nat) (test : Bool) : Acc State :=
  if !test then .ok (s.walkTo p r (nAlt x))
  else
    let k := SMap.getD (s.part p).iters n 0 + 1
    if nIter x ≠ 0 ∧ nIter x < k then s.endLaunch r 5 5
    else .ok ((s.modPart p fun q => { q with iters := SMap.set q.iters n k }).walkTo p r (nNext x))

/-- GRAPH_NODE_WHILE: inp.unit is the partition. -/
def execGraphNodeWhile (s : State) : Host.Outcome State Fault Refusal :=
  .next (s.nodeEvent 3 fun p r n t x => do
    let (t, w) ← t.readCond p x
    t.whileNode p r n x (nTest x w))

/-- A HOLD node after a read of its word. -/
def State.holdNode (s : State) (p r n x : Nat) (test : Bool) : State :=
  if test then s.walkTo p r (nNext x) else s.modPart p fun q => { q with walker := .holding r n s.wt x }

/-- GRAPH_NODE_HOLD: inp.unit is the partition. -/
def execGraphNodeHold (s : State) : Host.Outcome State Fault Refusal :=
  .next (s.nodeEvent 4 fun p r n t x => do
    let (t, w) ← t.readCond p x
    .ok (t.holdNode p r n x (nTest x w)))

/-- HOLD_NODE_REREAD: inp.unit is the partition; 1,600 ticks after the last read. -/
def execHoldNodeReread (s : State) : Host.Outcome State Fault Refusal :=
  let p := s.inp.unit
  .next (match (s.part p).walker with
    | .holding r n since x =>
      if s.walkerOn p && decide (since + 1600 ≤ s.wt) then
        s.walkerAct p n (do
          let (t, w) ← s.readCond p x
          .ok (t.holdNode p r n x (nTest x w)))
      else s
    | .idle | .at_ _ _ | .loading _ _ _ => s)

/-- ARM: as LRARM does, for this launch's owner. -/
def State.armNode (s : State) (p r x : Nat) : Acc State :=
  match s.armRecord (nAddr x).toNat (some (s.launch r).owner) with
  | .ok t => .ok (t.walkTo p r (nNext x))
  | .error _ => s.endLaunch r 5 6

/-- GRAPH_NODE_ARM: inp.unit is the partition. -/
def execGraphNodeArm (s : State) : Host.Outcome State Fault Refusal := .next (s.nodeEvent 5 fun p r _ t x => t.armNode p r x)

/-! ## LOAD (17 R354, R360) -/

/-- The weight-store images of a walker's configuration: a plot whose image fails to read stays unstartable with its error
flag (08 R202). -/
def State.walkerStores (s : State) (p : Nat) (ids : List Nat) : Acc State :=
  ids.foldlM (fun (s : State) id =>
    match s.plot? p id with
    | none => .ok s
    | some q =>
      match s.readStores (s.walkerW p) id q with
      | .ok (t, m) => .ok ((t.putStores m).modPlot p id fun q => { q with startable := true })
      | .error (.fault _ _) => .ok (s.modPlot p id fun q => { q with err := true })
      | .error e => .error (e.keeping s)) s

/-- The walker configures an image as CFG does (08 R202); it is no headgate's, so the cores that the load covers copy their task tables and
no other does. -/
def State.walkerCfg (s : State) (p : Nat) (img : Word) : Acc State := do
  let (t, l) ← s.stage p (s.walkerW p) img false
  waitFor ((boundHgs (t.overlapped p l.plots)).all fun j => (t.hg j).enginesDone)
  (dedup (l.plots.flatMap fun e => e.2.cores)).forM t.tasksReady
  ((t.discardStaging p 0x10000 l.plots).switchLoad rmcBase p l).walkerStores p (l.plots.map (·.1))

/-- The logical cores of a LOAD node. -/
def State.loadCores (s : State) (p x : Nat) : List Nat := ((s.part p).cores.drop (nLo x)).take (nCount x)

/-- The start reaches a headgate: it begins, and issues nothing in the next three cycles, or it waits for its task's HALT (17 R360). -/
def State.startOrWait (s : State) (p k : Nat) (pc : Word) : State :=
  if s.isFree k then (s.startHg p k pc).modHg k fun h => { h with startAt := s.hgCycle k + 4 } else s.modHg k fun h => { h with pendStart := some pc }

/-- The cores of a LOAD node receive TSKCTL and TTBASE, and copy their task tables (10 R255, R256; 17 R360). -/
def State.loadTasks (s : State) (p r x : Nat) : Acc State := do
  let l := s.launch r
  let cs := s.loadCores p x
  let t := cs.foldl (fun s c => s.modCore c fun k => { k with tskctl := l.word 3 &&& 0xFF00FF#64, ttbase := l.word 2 }) s
  cs.forM t.tasksReady
  .ok (cs.foldl (fun s c => s.copyTasks c) t)

/-- The headgates of a LOAD node start (17 R360). -/
def State.startLoad (s : State) (p r n x : Nat) : State :=
  let cs := s.loadCores p x
  let s := s.modPart p fun q => { q with walker := .loading r n (nNext x), load := some (nLo x, nCount x, nHgs x) }
  cs.foldl (fun s c => (List.range 4).foldl (fun s h =>
    if bit (nHgs x) h then s.startOrWait p (4 * c + h) (nEntry x h) else s) s) s

/-- A LOAD node begins a fabric load: the roles that system code wrote take effect, after those of its image (01 R15). -/
def State.pendingRoles (s : State) (p : Nat) : State := (s.part p).cores.foldl (fun s c => s.roleBoundary c none) s

/-- GRAPH_NODE_LOAD: inp.unit is the partition. No load starts on the cores of a cluster whose QREQ is set (23 R420). -/
def execGraphNodeLoad (s : State) : Host.Outcome State Fault Refusal :=
  .next (s.nodeEvent 1 fun p r n t x => do
    waitFor ((t.loadCores p x).all fun c => !t.quiescing (clusterOf c))
    let t ← if nAddr x = 0 then .ok t else t.walkerCfg p (nAddr x)
    let t ← (t.pendingRoles p).loadTasks p r x
    .ok (t.startLoad p r n x))

/-! ## The end of a load (12 R302, R303; 17 R361) -/

/-- Is a headgate free of programs and tasks? -/
def Hg.atRest (h : Hg) : Bool := decide (h.run = .idle) && h.pendStart.isNone

/-- Are the task queues of a core empty? -/
def Core.tasksDone (k : Core) : Bool := (List.range 8).all fun q => !bit k.tqmask q || (k.queue q).isEmpty

/-- Has the load of a partition ended (17 R361), and has every access and engine command of it performed (12 R302)? -/
def State.loadEnded (s : State) (p : Nat) : Bool :=
  (s.partHgs p).all (fun k => (s.hg k).atRest && (s.hg k).enginesDone && (s.hg k).readsDone && s.storesDone k .partition)
    && (s.part p).cores.all fun c => (s.core c).tasksDone

/-- Nothing stands in the edge lanes of a plot that its headgates feed (12 R303). -/
def Plot.dropLanes (q : Plot) : Plot :=
  { q with lanes := q.lanes.filter fun e => (q.feeder (e.1 / 512) (e.1 % 512)).isNone }

/-- The boundary between two loads (12 R302, R303): every L1 writes back and self-invalidates; plots that run stop at their last
marks, and what the headgates held for a plot that has run is discarded. -/
def State.loadBoundaryAt (s : State) (p : Nat) : Acc State := do
  let s := (← s.partWriteBack p).partInval p
  .ok ((s.part p).plots.foldl (fun s e =>
    if e.2.st = .unconf ∨ e.2.st = .ready then s
    else ((s.stopNow p e.1).modBound e.2 Hg.dropFeed).modPlot p e.1 Plot.dropLanes) s)

/-- LOAD_END: inp.unit is the partition. -/
def execLoadEnd (s : State) : Host.Outcome State Fault Refusal :=
  let p := s.inp.unit
  .next (match (s.part p).walker with
    | .loading r _ next =>
      if s.walkerOn p && s.loadEnded p then
        s.orWait (s.walkerW p) (do .ok (((← s.loadBoundaryAt p).modPart p fun q => { q with load := none }).walkTo p r next))
      else s
    | .idle | .at_ _ _ | .holding _ _ _ _ => s)

end Sys2Proof.Machine
end

