-- ==== Sys2Proof/Machine/Halt.lean ====
section
/-! DEFINITION. The halt line and stop records, the task scheduler, and the age write-back of the L1 (10 R257 to R262; 12
R294; 14 R337, R338; 18 R460). Log 44. -/

namespace Sys2Proof.Machine

/-! ## The halt line reaches a core (14 R337) -/

/-- A headgate stops; one that its own fault has stopped keeps its record. -/
def Hg.haltAt (h : Hg) (wt : Nat) : Hg :=
  if h.stopped then h else { h with stopped := true, stop := { wt, pos := h.pc.toNat } }

/-- What the stop record of a plot keeps of the row at which it stopped. -/
def Plot.noteStop (q : Plot) (cls wt : Nat) : Plot :=
  if q.stopCause ≠ 0 then q
  else { q with stopRc := q.rc, stopWt := wt, stopInfo := if q.held = 0 then 0 else lowestKind q.waits * 256 + cls }

/-- A plot's row counter stops, and it goes back to its last mark; a TIMING of the same cycle is recorded first (14 R334). -/
def State.haltPlot (s : State) (p id : Nat) : State :=
  match s.plot? p id with
  | some q =>
    if q.active && q.stopCause == 0 then
      ((s.noteTiming p id).modPlot p id fun x => x.noteStop (s.holdClass q) s.wt).restart p id true
    else s
  | none => s

/-- The halt line of a partition reaches one of its cores. -/
def State.haltCore (s : State) (p c : Nat) : State :=
  let s := (List.range 4).foldl (fun s h => s.modHg (4 * c + h) fun x => x.haltAt s.wt) s
  let ids := ((s.part p).plots.filter fun e => e.2.swCore == c).map (·.1)
  let s := ids.foldl (fun s id => s.haltPlot p id) s
  s.modCore c fun k => { k with halted := true, haltWt := s.wt }

/-- HALT_LINE_ARRIVAL: inp.unit is the core. -/
def execHaltLineArrival (s : State) : Host.Outcome State Fault Refusal :=
  let c := s.inp.unit
  .next (match s.partOf c with
    | some p => if (s.part p).halted && !(s.core c).halted then s.haltCore p c else s
    | none => s)

/-! ## Stop records (14 R338; 18 R460) -/

/-- The 256 bits of a stop record. -/
def stopRecord (kind cause info wt pos addrf : Nat) : Nat :=
  kind * 2 ^ 248 + cause % 256 * 2 ^ 240 + info % 2 ^ 32 * 2 ^ 192 + wt % 2 ^ 64 * 2 ^ 128 + pos % 2 ^ 64 * 2 ^ 64 + addrf % 2 ^ 64

/-- The record of an engine: all zero while it is idle. -/
def engineRecord (idle : Bool) (kind cause wt pos : Nat) (addrf : Word) : Nat :=
  if idle then 0 else stopRecord kind cause 0 wt pos addrf.toNat

/-- When an engine stopped: at its own fault, or with its core. -/
def Hg.engStop (h : Hg) (eng haltWt : Nat) : Nat := SMap.getD h.engWt eng haltWt

/-- The record of a headgate. -/
def Hg.record (h : Hg) : Nat :=
  if h.run = .idle then 0 else stopRecord 1 h.stop.cause h.stop.info h.stop.wt h.stop.pos h.stop.addr.toNat

/-- The records of a headgate's stream node. -/
def Node.record (n : Node) (wt : Nat) : Nat := engineRecord (n.queue.isEmpty && n.cause == 0) 2 n.cause wt n.left n.faddr

/-- The decoder's own fault: the one it is parked with, or the page walk that failed its read (11 R280; 14 R335). -/
def Decoder.fault (d : Decoder) : Nat × Word :=
  if d.parked then (d.cause, d.faddr)
  else match d.walkFail with
    | some (c, va) => (c, BitVec.ofNat 64 va)
    | none => (0, 0)

/-- The records of a headgate's units, as (entry, record). -/
def Hg.records (h : Hg) (i haltWt : Nat) : List (Nat × Nat) :=
  [(i, h.record), (4 + 4 * i, h.node0.record (h.engStop 1 haltWt)), (5 + 4 * i, h.node1.record (h.engStop 2 haltWt)),
   (6 + 4 * i, engineRecord (h.dec.queue.isEmpty && !h.dec.parked) 3 h.dec.fault.1 (h.engStop 3 haltWt) h.dec.posWord h.dec.fault.2),
   (7 + 4 * i, engineRecord (h.chain.queue.isEmpty && h.chain.cause == 0) 4 h.chain.cause (h.engStop 4 haltWt) h.chain.leftNow h.chain.faddr),
   (20 + i, engineRecord (h.feed.queue.isEmpty && h.drain.queue.isEmpty && h.feed.cause == 0) 6 h.feed.cause (h.engStop 10 haltWt)
      (h.feed.k * 2 ^ 32 + h.feed.r) h.feed.faddr)]

/-- The record of a plot: all zero unless it runs. -/
def Plot.record (q : Plot) : Nat :=
  if q.active then stopRecord 5 q.stopCause q.stopInfo q.stopWt (q.rcMark % 2 ^ 32 * 2 ^ 32 + q.stopRc % 2 ^ 32) q.st.code else 0

/-- The records of a core. -/
def State.coreRecords (s : State) (c : Nat) : List (Nat × Nat) :=
  (List.range 4).flatMap fun h => (s.hg (4 * c + h)).records h (s.core c).haltWt

/-- Every stop record of a partition in its stop area. -/
def State.writeStops (s : State) (p : Nat) : State :=
  let q := s.part p
  if q.stopbase = 0 then s
  else
    let a := region5 q.stopbase
    let s := s.devStore a (32768 + 1024 * q.cores.length) 0
    let s := q.plots.foldl (fun s e => if e.1 < 1024 then s.devStore (a + 32 * e.1) 32 e.2.record else s) s
    ((List.range q.cores.length).zip q.cores).foldl (fun s e =>
      (s.coreRecords e.2).foldl (fun s r => s.devStore (a + 32768 + 1024 * e.1 + 32 * r.1) 32 r.2) s) s

/-- STOP_RECORDS_DONE: inp.unit is the partition; once the halt line has reached every core. -/
def execStopRecordsDone (s : State) : Host.Outcome State Fault Refusal :=
  let p := s.inp.unit
  let q := s.part p
  .next (if q.en && q.halted && !q.done && q.cores.all (fun c => (s.core c).halted) then
      (s.writeStops p).modPart p fun q => { q with done := true }
    else s)

/-! ## The task scheduler (10 R257 to R262) -/

/-- The conditions of a task entry. -/
def taskConds (e : Nat) : List Nat := [bits e 64 32, bits e 96 32, bits e 128 32]
def condUse (c : Nat) : Bool := bit c 31
def condRoom (c : Nat) : Bool := bit c 30
def condSluice (c : Nat) : Nat := bits c 16 4
def condCount (c : Nat) : Nat := bits c 0 16

/-- Why a task of a type is faulty (10 R261). -/
def Core.taskFault (k : Core) (type_ : Nat) : Option Nat :=
  if type_ ≥ k.ttcount then some cIllegal
  else match k.table[type_]? with
    | none => some cIllegal
    | some (.unreadable c) => some c
    | some (.entry w) =>
      let e := w.toNat
      let cs := taskConds e
      if bits e 28 4 = 0 ∨ bits e 0 28 ≠ 0 ∨ bits e 32 32 ≠ 0 ∨ cs.any (fun c => c != 0 && (!condUse c || bits c 20 10 != 0)) then some cIllegal
      else if cs.any fun c => condUse c && (!(k.sluice (condSluice c)).set || decide (2 ^ (k.sluice (condSluice c)).logn < condCount c)) then
        some cSluice
      else if (List.range 32).any fun b => bit (bits e 160 32) b && k.role b == 0 then some cBank
      else none

/-- The bits of a sound task entry. -/
def Core.taskEntry (k : Core) (type_ : Nat) : Nat :=
  match k.table[type_]? with
  | some (.entry w) => w.toNat
  | some (.unreadable _) | none => 0

/-- Does a sluice condition hold (10 R258)? -/
def Core.condHolds (k : Core) (c : Nat) : Bool :=
  let x := k.sluice (condSluice c)
  !condUse c || condCount c == 0 || if condRoom c then decide (condCount c ≤ x.room) else decide (condCount c + x.claim ≤ x.seen)

/-- The type index of a task (10 R257). -/
def Msg.type (m : Msg) : Nat := bits m.header.toNat 0 16

/-- Are the banks that an entry names resident? -/
def State.resident (s : State) (c e : Nat) : Bool :=
  (List.range 32).all fun b => !bit (bits e 160 32) b ||
    (!(s.core c).unrestored.contains b && ((s.cluster (clusterOf c)).bank (32 * cicOf c + b)).state == 0)

/-- The lowest-numbered free headgate that an entry names. -/
def State.taskHg (s : State) (c e : Nat) : Option Nat :=
  (List.range 4).find? fun h => bit (bits e 28 4) h && s.isFree (4 * c + h)

/-- Does an entry pass (10 R258)? -/
def State.taskPasses (s : State) (c e : Nat) : Bool :=
  (taskConds e).all (s.core c).condHolds && s.resident c e && (s.taskHg c e).isSome

/-- Wake requests for the banks an entry names. -/
def State.wakeNamed (s : State) (c e : Nat) : State :=
  (List.range 32).foldl (fun s b => if bit (bits e 160 32) b then s.beginWake (clusterOf c) (32 * cicOf c + b) else s) s

/-- The task queues of a core with an entry: the queue and its head. -/
def Core.heads (k : Core) : List (Nat × Msg) :=
  (List.range 8).filterMap fun q => if bit k.tqmask q then (k.queue q).head?.map fun m => (q, m) else none

/-- An entry leaves its queue. -/
def Core.pop (k : Core) (q : Nat) : Core := k.setQueue q ((k.queue q).drop 1)

/-- The claims a task takes. -/
def taskClaims (e : Nat) : List (Nat × Nat) :=
  (taskConds e).filterMap fun c => if condUse c && !condRoom c then some (condSluice c, condCount c) else none

/-- A task starts, and issues nothing before the second cycle after this one (10 R259). -/
def State.startTask (s : State) (c q h : Nat) (m : Msg) (e : Nat) : State :=
  let claims := taskClaims e
  let s := s.modCore c fun k =>
    claims.foldl (fun k x => k.modSluice x.1 fun y => { y with claim := (y.claim + x.2) % 2 ^ 32 }) { k.pop q with lastq := q }
  let stamps := BitVec.ofNat 64 (m.sent % 2 ^ 32 * 2 ^ 32 + m.arrived % 2 ^ 32)
  s.modHg (4 * c + h) fun x =>
    { (x.fresh (BitVec.ofNat 64 (bits e 192 64)) [m.header, stamps, BitVec.ofNat 64 q]).setV 0 (BitVec.ofNat 512 m.payload) with
      run := .task claims, stopped := false, startAt := s.cycleOf (clusterOf c) + 2 }

/-- A faulty task: its record of UNIT 6 with the queue and the type, and the halt line; the entry is discarded. -/
def State.taskFaulty (s : State) (p c q type_ cause : Nat) : State :=
  ((s.modCore c fun k => k.pop q).record p c 6 0 cause 0xFFFF 0 [q, type_]).haltLine p

/-- One cycle of the scheduler of a core: every sound head is tested; a faulty one is discarded, and then nothing starts, nor while QREQ of
its cluster is set (23 R420). -/
def State.schedule (s : State) (p c : Nat) : State :=
  let k := s.core c
  if k.ttcount = 0 then s
  else
    let bad := k.heads.filterMap fun e => (k.taskFault e.2.type).map fun cause => (e, cause)
    let hs := k.heads.filter fun e => (k.taskFault e.2.type).isNone
    let good := hs.filter fun e => s.taskPasses c (k.taskEntry e.2.type)
    let t := hs.foldl (fun s e => s.wakeNamed c (k.taskEntry e.2.type)) s
    let t := t.modCore c fun k => { k with taskReady := good.foldl (fun n e => n + 2 ^ e.1) 0 }
    if !bad.isEmpty then bad.foldl (fun s x => s.taskFaulty p c x.1.1 x.1.2.type x.2) t
    else if s.quiescing (clusterOf c) then t
    else
      match leastBy (fun e => (e.1 + 15 - k.lastq) % 8) good with
      | some (q, m) =>
        let e := k.taskEntry m.type
        match s.taskHg c e with
        | some h => t.startTask c q h m e
        | none => t
      | none => t

/-- TASK_SCHEDULER_CYCLE: inp.unit is the core. -/
def execTaskSchedulerCycle (s : State) : Host.Outcome State Fault Refusal :=
  let c := s.inp.unit
  .next (match s.partOf c with
    | some p => if s.coreOn c && !(s.part p).halted && (s.part p).av then s.schedule p c else s
    | none => s)

/-! ## The age of dirty sectors (12 R294) -/

/-- L1_SECTOR_AGE_WRITEBACK: inp.unit is the core, inp.idx the sector, whose oldest dirty byte is 16,384 cycles old. -/
def execL1SectorAgeWriteback (s : State) : Host.Outcome State Fault Refusal :=
  let c := s.inp.unit
  let w := coreWaiter c
  .next (match SMap.get? (s.core c).l1 s.inp.idx with
    | some x =>
      if x.dirty ≠ 0 ∧ x.since + 16384 ≤ s.cycleOf (clusterOf c) then
        match s.sectorsReady w c [s.inp.idx] with
        | .ok _ => s.l1WriteBack c w [s.inp.idx]
        | .error x => s.stall w x
      else s
    | none => s)

end Sys2Proof.Machine
end

