-- ==== Sys2Proof/Machine/Loops.lean ====
section
/-! DEFINITION. Hardware loops (06 R145, R148). -/

namespace Sys2Proof.Machine

/-- Begin a loop of count c over the len words that follow (06 R145): skipped when c is 0. -/
def State.beginLoop (s : State) (c len : Nat) : Eff :=
  let h := s.me
  let stop := h.pc + BitVec.ofNat 64 (4 * len)
  if c = 0 then .ok (s, .skip (stop + 4))
  else do
    chk (decide (h.loops.length < 4)) cIllegal
    chk (match h.loops with | [] => true | l :: _ => decide (stop.toNat ≤ l.stop.toNat)) cIllegal
    done (s.setMe { h with loops := ⟨h.pc + 4, stop, c⟩ :: h.loops })

/-- LOOP: the count is s[a], below 2^32 (06 R145). -/
def execLoop (a : SReg) (l : BitVec 16) (s : State) : Host.Outcome State Fault Refusal :=
  s.plain 0 (if (s.getS a).toNat < 2 ^ 32 then s.beginLoop (s.getS a).toNat l.toNat else flt cIllegal)

/-- LOOPI: the count is the immediate (06 R145). -/
def execLoopi (l : BitVec 10) (c : BitVec 16) (s : State) : Host.Outcome State Fault Refusal :=
  s.plain 0 (s.beginLoop c.toNat l.toNat)

/-- LBRK: pop the innermost level and go on behind its body (06 R148); a level that ends at the same word counts (R146). -/
def execLbrk (g : PReg) (s : State) : Host.Outcome State Fault Refusal :=
  s.plain g (match s.me.loops with
    | [] => flt cIllegal
    | l :: t => .ok (s.setMe { s.me with loops := t }, .skip (l.stop + 4)))

end Sys2Proof.Machine
end

