-- ==== Sys2Proof/Machine/Net.lean ====
section
/-! DEFINITION. Messages on the mesh, domain time, Ethernet ports, and accesses between modules (07 R180, R182; 12 R306,
R307; 19 R389 to R394, R398, R399; 23 R424; 26 R450, R451). Logs 13, 29, 45, 46. -/

namespace Sys2Proof.Machine

/-! ## Routers (19 R389, R394) -/

/-- The input by which a packet that leaves by an output arrives at the next router. -/
def oppositePort : Nat → Nat
  | 0 => 2
  | 1 => 3
  | 2 => 0
  | _ => 1

/-- Where an output of the router of core c leads. -/
def nextHop (c o : Nat) : PacketAt :=
  match neighbour c o with
  | some n => .router n (oppositePort o)
  | none => .leaving

/-- The packet at a position becomes another. -/
def Module.putPacket (m : Module) (i : Nat) (x : Packet) : Module := { m with packets := m.packets.set i x }

/-- The cycles of a hop from the router of core c: 4 for a link, 2 more across a reticle stitch, 4 to the network interface (19 R390; 20
R406). -/
def hopCycles (c : Nat) : PacketAt → Nat
  | .router n _ => if reticleOf n = reticleOf c then 4 else 6
  | .leaving => 4
  | .source | .arrived => 0

/-- The last input that an output of a router served for a class, and when: at first the local one, never. -/
def Core.link (k : Core) (cls o : Nat) : Nat × Option Nat :=
  match SMap.get? k.links (8 * cls + o) with
  | some x => (x.1, some x.2)
  | none => (4, none)

/-- Does the packet at a position, at an input of a router, come first among those of its class that stand there for the same output:
round-robin over the inputs, in order within one (19 R389)? -/
def State.comesFirst (s : State) (i c input o : Nat) (x : Packet) : Bool :=
  let place := fun (n : Nat) => roundPlace 5 ((s.core c).link x.cls o).1 n
  ((List.range s.mod.packets.length).zip s.mod.packets).all fun e =>
    match e.2.standsAt c with
    | some n =>
      e.2.cls != x.cls || decide (s.wt < e.2.ready) || s.takesOut c n e.2 != some o || decide (place input < place n)
        || (n == input && decide (i ≤ e.1))
    | none => true

/-- A packet takes its next hop when it comes first at an output that has moved none in this tick, or waits. -/
def State.forward (s : State) (i c input : Nat) (x : Packet) : State :=
  match s.takesOut c input x with
  | none => s
  | some o =>
    if s.wt < x.ready || ((s.core c).link x.cls o).2 == some s.wt || !s.comesFirst i c input o x then s
    else
      let place := nextHop c o
      (s.modCore c fun k => { k with links := SMap.set k.links (8 * x.cls + o) (input, s.wt) }).modMod fun m =>
        m.putPacket i { x with place, ready := s.wt + hopCycles c place, out := none }

/-- ROUTER_FORWARD: inp.idx is the packet's position among those on the mesh. -/
def execRouterForward (s : State) : Host.Outcome State Fault Refusal :=
  .next (match s.mod.packets[s.inp.idx]? with
    | some x =>
      match x.place with
      | .source => s.forward s.inp.idx x.src 4 x
      | .router c input => s.forward s.inp.idx c input x
      | .leaving | .arrived => s
    | none => s)

/-! ## The latency matrix (19 R395) -/

/-- The ticks that the links and stitches take on the way of a ping of class SYS from a router to a core, n hops at most; none where its
way ends before it. -/
def State.pingPath (s : State) (dst : Nat) : Nat → Nat → Nat → Option Nat
  | 0, _, _ => none
  | n + 1, c, input =>
    match ((s.routeOut c 3 input dst).filter (s.openOut c)).map (nextHop c) with
    | some (.router d i) => (s.pingPath dst n d i).map (hopCycles c (.router d i) + ·)
    | some .leaving => some 0
    | some .source | some .arrived | none => none

/-- An entry of the matrix: the latency of a single-flit packet (19 R390), 0 of a core to itself, 0xFFFF where one of the cores is dead or
a ping is not delivered within 16,000 ticks. -/
def State.pingEntry (s : State) (a b : Nat) : Nat :=
  if a = b then 0
  else if !s.live a || !s.live b then 0xFFFF
  else match s.pingPath b 4000 a 4 with
    | some n => if 8 + n ≤ 16000 then 8 + n else 0xFFFF
    | none => 0xFFFF

/-- The row of a source: 4,096 entries of 16 bits. -/
def State.pingRow (s : State) (a : Nat) : Nat := pack 16 ((List.range 4096).map (s.pingEntry a))

/-- The matrix is written at LATBASE, its header and then its rows; nowhere where LATBASE names no backed DRAM. DESIGN CHOICE (log 61): every
ping of a sweep goes by the SYS tables as they stand when the matrix is written. -/
def State.writeMatrix (s : State) : State :=
  let a := region5 s.mod.latbase
  if mRegion s.mod.latbase.toNat ≠ 5 ∨ space s.mod.latbase ≠ 15 ∨ !s.isBacked a (64 + 2 ^ 25) then s
  else (List.range 4096).foldl (fun t k => t.devStore (a + 64 + 8192 * k) 8192 (s.pingRow k))
    (s.devStore a 64 (0x4C41544D + s.mod.mapgen % 2 ^ 32 * 2 ^ 64))

/-- The end of the firmware's sweep of pings, when its time has come. -/
def State.endSweep (s : State) : State :=
  match s.mod.sweepAt with
  | some t => if t ≤ s.wt then (s.modMod fun m => { m with sweepAt := none }).writeMatrix else s
  | none => s

/-! ## Delivery (07 R180; 19 R390, R391; 23 R424) -/

/-- PACKET_DELIVER: inp.idx is the packet's position; at a cluster whose clock is stopped or whose rail is not ON it waits, and
sets KNOCK. -/
def execPacketDeliver (s : State) : Host.Outcome State Fault Refusal :=
  .next (match s.mod.packets[s.inp.idx]? with
    | some x =>
      if x.place = .leaving ∧ x.ready ≤ s.wt then
        if s.running (clusterOf x.dst) then s.modMod fun m => m.putPacket s.inp.idx { x with place := .arrived, ready := s.wt + 1 }
        else if x.knocked then s
        else (s.modMod fun m => m.putPacket s.inp.idx { x with knocked := true }).setKnock (clusterOf x.dst)
      else s
    | none => s)

/-- Does a packet come before another of the same headgate for the same queue? -/
def Packet.sameStream (x y : Packet) : Bool := x.cls == y.cls && x.seqr == y.seqr && x.dst == y.dst && x.queue == y.queue

/-- A message is written into its queue (07 R180): PEV bit 0 of the core's headgates. -/
def State.arrive (s : State) (i : Nat) (x : Packet) : State :=
  let s := s.modCore x.dst fun k => k.setQueue x.queue (k.queue x.queue ++ [{ x.msg with arrived := s.wt }])
  (s.modMod fun m => { m with packets := m.packets.eraseIdx i }).latchCore x.dst 0

/-- The oldest pending arrival of a core's queue is written into it, when there is room (18 R459). -/
def Core.takeArrival (k : Core) (q wt : Nat) : Core :=
  match k.arrivals.get (Fin.ofNat 8 q) with
  | m :: t =>
    if (k.queue q).length < 64 then
      { k.setQueue q (k.queue q ++ [{ m with arrived := wt }]) with arrivals := k.arrivals.set (Fin.ofNat 8 q) t }
    else k
  | [] => k

/-- QUEUE_MESSAGE_ARRIVAL: inp.idx is the packet's position; a full queue lets it wait, and so do pending arrivals. With inp.sub 1
the arrival is the pending one of queue inp.idx of core inp.unit. -/
def execQueueMessageArrival (s : State) : Host.Outcome State Fault Refusal :=
  let i := s.inp.idx
  let c := s.inp.unit
  if s.inp.sub = 1 then
    .next (if (s.core c).arrivals.get (Fin.ofNat 8 i) = [] ∨ 64 ≤ ((s.core c).queue i).length then s
      else (s.modCore c fun k => k.takeArrival i s.wt).latchCore c 0)
  else .next (match s.mod.packets[i]? with
    | some x =>
      if x.place = .arrived ∧ ((s.core x.dst).queue x.queue).length < 64 ∧ (s.core x.dst).arrivals.get (Fin.ofNat 8 x.queue) = []
          ∧ !(s.mod.packets.take i).any (·.sameStream x)
          ∧ x.ready ≤ s.wt then s.arrive i x
      else s
    | none => s)

/-! ## Domain time (19 R398, R399) -/

/-- SYNC as it now stands takes effect. -/
def State.takeSync (s : State) : State := s.modMod fun m => { m with sync := m.syncNow }

/-- A tick passes; the first of a window takes SYNC as it then stands (19 R399). -/
def State.tick (s : State) : State :=
  let t : State := { s with wt := (s.wt + 1) % 2 ^ 64, turns := [] }
  if t.wt % t.mod.window = 0 then t.takeSync else t

/-- DOMAIN_WINDOW_BOUNDARY: at the first tick of a window, SYNC as it then stands takes effect; a step that passes such a tick does the
same. -/
def execDomainWindowBoundary (s : State) : Host.Outcome State Fault Refusal :=
  .next (if s.wt % s.mod.window = 0 then s.takeSync else s)

/-- SERVO_ADJUST: the servo adds a tick (inp.val 1) or withholds one, which leaves WT as it is; at multiples of 4,096 ticks while
it is locked (log 46). -/
def execServoAdjust (s : State) : Host.Outcome State Fault Refusal :=
  .next (if s.mod.locked && s.wt % 4096 = 0 && s.inp.val = 1 then s.tick else s)

/-- SERVO_LOCK_CHANGE: inp.val bit 0 is LOCKED, inp.idx the offset bound (log 13). -/
def execServoLockChange (s : State) : Host.Outcome State Fault Refusal :=
  .next (s.modMod fun m =>
    { m with dtstat := BitVec.ofNat 64 (s.inp.idx % 2 ^ 32 * 2 ^ 32 + if bit s.inp.val.toNat 0 then 1 else 0) })

/-! ## Ethernet ports (26 R450) -/

/-- ETHSTAT of a port. -/
def Module.ethstat (m : Module) (port : Nat) : Nat := (SMap.getD m.eth port 0).toNat
def Module.setEth (m : Module) (port v : Nat) : Module := { m with eth := SMap.set m.eth port (BitVec.ofNat 64 v) }

/-- PTP_EVENT: inp.unit is the port. -/
def execPtpEvent (s : State) : Host.Outcome State Fault Refusal :=
  .next (s.modMod fun m => m.setEth (s.inp.unit % 32) (setBits (m.ethstat (s.inp.unit % 32)) 1 1 1))

/-- ETH_LINK_EVENT: inp.unit is the port, inp.val bit 0 the link, inp.idx the module at its far end. -/
def execEthLinkEvent (s : State) : Host.Outcome State Fault Refusal :=
  let p := s.inp.unit % 32
  .next (s.modMod fun m =>
    m.setEth p (setBits (setBits (m.ethstat p) 0 1 (bits s.inp.val.toNat 0 1)) 16 4 s.inp.idx))

/-- ETH_FRAME_RETRANSMIT: inp.unit is the port. -/
def execEthFrameRetransmit (s : State) : Host.Outcome State Fault Refusal :=
  let p := s.inp.unit % 32
  .next (s.modMod fun m => m.setEth p (setBits (m.ethstat p) 4 12 (min 0xFFF (bits (m.ethstat p) 4 12 + 1))))

/-- Does a link reach a module? -/
def Module.linked (m : Module) (peer : Nat) : Bool :=
  (List.range 32).any fun p => bit (m.ethstat p) 0 && bits (m.ethstat p) 16 4 == peer

/-! ## Accesses of another module (26 R451) -/

/-- The function of an atomic operation by its code: what a remote module applies to n old bytes (07 R170). -/
def amoFn (n code data old : Nat) : Nat :=
  let z := n == 8
  let x := data % 256 ^ n
  let v := match code with
    | 0 => old + x
    | 1 => if amoSigned z x < amoSigned z old then x else old
    | 2 => if amoSigned z old < amoSigned z x then x else old
    | 3 => min old x
    | 4 => max old x
    | 5 => old &&& x
    | 6 => old ||| x
    | 7 => old ^^^ x
    | 8 => x
    | 9 => if old = x then data / 2 ^ 64 else old
    | _ => elemOp 0 .f32 .add old x 0
  v % 256 ^ n

/-- The permission that a remote access of a kind needs. -/
def remoteKind (kind : Nat) : Kind := if kind = 0 then .load else if kind = 1 then .store else .amo

/-- The home of a byte run that does not cross a page, for a remote access under a context. -/
def State.remoteHome (s : State) (w ctx va n : Nat) (k : Kind) : Acc (State × Nat) :=
  match s.walk ((s.ctx ctx).xroot.toNat / 2 ^ 32 % 512) ctx va with
  | (t, .wait x) => .error (.held t x)
  | (_, .fail c) => flt c
  | (_, .next _) => flt cXlate
  | (t, .leaf e) => keeping t do
    chk (permOk e k) cProt
    let a := e.pa + (va - e.va)
    chk (decide (a + n ≤ e.pa + e.size)) cXlate
    match t.bankOfAddr a with
    | some (cl, b) => t.classOk cl b
    | none => pure ()
    t.lineReady 0 a w
    .ok (t, a)

/-- The context of a remote access: from entry module_ of the issuing partition (26 R451). -/
def State.remoteCtx (s : State) (p module_ : Nat) : Acc Nat := do
  let e := (SMap.getD s.mod.domtab (domKey p module_) 0).toNat
  chk (bit e 63 && s.known (bits e 0 10)) cXlate
  .ok (bits e 0 10)

/-- A remote access of n bytes at an address performs: pieces of at most 64 bytes, all or none; its reply. -/
def State.remoteAccess (s : State) (w ctx kind va n data : Nat) : Acc (State × Nat) := do
  chk (n != 0 && va % min n 64 == 0) cAlign
  let m := min n 64
  let (s, homes) ← (List.range (n / m)).foldlM (fun (st : State × List Nat) i => do
    let (t, a) ← keeping st.1 (st.1.remoteHome w ctx (va + m * i) m (remoteKind kind))
    .ok (t, st.2 ++ [a])) (s, [])
  match kind, homes with
  | 0, _ => do
    let l ← homes.mapM fun a => s.homeRead a m
    .ok (homes.foldl (fun s a => s.touchAs 0 a w false) s, pack (8 * m) l)
  | 1, _ =>
    .ok (((List.range (n / m)).zip homes).foldl (fun s e =>
      (s.homeWrite e.2 m (data / 2 ^ (8 * m * e.1) % 256 ^ m)).touchAs 0 e.2 w true) s, 0)
  | k, a :: _ => s.swapAt w 0 a n (amoFn n (k - 16) data)
  | _, [] => flt cAddr

/-- REMOTE_ACCESS_ARRIVAL: an access of module inp.sub from its partition inp.unit: kind inp.idx as a request's, of inp.val bytes
at address inp.addr, with the bytes inp.data; its reply is the completion (log 13). -/
def execRemoteAccessArrival (s : State) : Host.Outcome State Fault Refusal :=
  let w := 32784 + s.inp.sub % 16
  .next (match (do
      let c ← s.remoteCtx (s.inp.unit % 128) (s.inp.sub % 16)
      s.remoteAccess w c s.inp.idx (bits s.inp.addr.toNat 0 48) s.inp.val.toNat (pack 8 s.inp.data) : Acc (State × Nat)) with
    | .ok (t, v) => t.complete false v
    | .error (.fault c _) => s.complete true c
    | .error x => s.stall w x)

/-! ## Replies and acknowledgements (12 R306, R307) -/

/-- A NOTIFY store to another module has failed (17 R351): the record's code, unless it was cancelled. -/
def State.notifyFailed (s : State) (r : Remote) : State :=
  { s with launches := s.launches.map fun e =>
      let p := e.2.notify
      (e.1, if space p == 8 && bits p.toNat 56 4 == r.module_ && bits p.toNat 0 48 == r.addr && (e.2.state == 3 || e.2.state == 4) then
        { e.2 with code := 7 } else e.2) }

/-- A request has failed at its module with a cause: an instruction traps at its address, an engine stops (26 R451; log 29). -/
def State.remoteFailed (s : State) (r : Remote) (cause : Nat) : State :=
  let k := seqOf r.seqr
  match engOf r.seqr with
  | 0 => s.trapAt k cause r.iaddr (s.hg k).pc 0 []
  | 7 => s.notifyFailed r
  | e => s.engineFault k e cause (BitVec.ofNat 64 (8 * 2 ^ 60 + r.module_ * 2 ^ 56 + r.addr))

/-- The answer to the request at a position: a blocking one keeps its reply until its instruction takes it. -/
def State.remoteAnswer (s : State) (i : Nat) (r : Remote) (cause : Option Nat) : State :=
  let drop := fun (s : State) => s.modMod fun m => { m with remotes := m.remotes.eraseIdx i }
  let answer := fun (s : State) => s.modMod fun m => { m with remotes := m.remotes.set i { r with reply := some (s.dataIn % 256 ^ r.size) } }
  match cause with
  | none => if r.blocking then answer s else drop s
  | some c => if r.blocking && engOf r.seqr == 7 then answer (s.remoteFailed r c) else (drop s).remoteFailed r c

/-- The causes with which an access can fail at another module: those that translation and an access at a home raise (05 R118, R122; 18
R373). -/
def remoteCauses : List Nat := [cAddr, cAlign, cXlate, cProt, cBank, cEcc]

/-- REMOTE_ACKNOWLEDGEMENT: inp.idx is the request's position among those sent, inp.sub the cause with which it failed (0 none), or 256
where the other module has translated it, so that it cannot fail any more; inp.data, or inp.val, is a load's or an atomic operation's
reply. Requests of one headgate to one module are answered in order. -/
def execRemoteAcknowledgement (s : State) : Host.Outcome State Fault Refusal :=
  let i := s.inp.idx
  .next (match s.mod.remotes[i]? with
    | some r =>
      if r.reply.isSome || !s.mod.linked r.module_
          || (s.mod.remotes.take i).any fun x => seqOf x.seqr == seqOf r.seqr && x.module_ == r.module_ && x.reply.isNone then s
      else if s.inp.sub = 0 then s.remoteAnswer i r none
      else if s.inp.sub = 256 then s.modMod fun m => { m with remotes := m.remotes.set i { r with passed := true } }
      else if remoteCauses.contains s.inp.sub && !r.passed then s.remoteAnswer i r (some s.inp.sub)
      else s
    | none => s)

end Sys2Proof.Machine
end

