-- ==== Sys2Proof/Machine/Pred.lean ====
section
/-! DEFINITION. Predicates (06 R135, R136). -/

namespace Sys2Proof.Machine

/-- p[d] := the outcome of comparing s[a] with s[b] (06 R135). -/
def State.setp (s : State) (d : PReg) (a b : SReg) (g : PReg) (c : Cond) : Host.Outcome State Fault Refusal :=
  s.plain g (done (s.setP d (c.holds (s.getS a) (s.getS b))))

/-- p[p] := the outcome of comparing s[a] with the signed immediate (06 R135). -/
def State.setpi (s : State) (p : PReg) (a : SReg) (i : BitVec 16) (c : Cond) : Host.Outcome State Fault Refusal :=
  s.plain 0 (done (s.setP p (c.holds (s.getS a) (simm i))))

/-- p[d] := f(p[a], p[b]) (06 R136). -/
def State.plog2 (s : State) (d a b g : PReg) (f : Bool → Bool → Bool) : Host.Outcome State Fault Refusal :=
  s.plain g (done (s.setP d (f (s.getP a) (s.getP b))))

/-- SETP.EQ (06 R135). -/
def execSetpEq (d : PReg) (a b : SReg) (g : PReg) (s : State) : Host.Outcome State Fault Refusal := s.setp d a b g .eq

/-- SETP.NE (06 R135). -/
def execSetpNe (d : PReg) (a b : SReg) (g : PReg) (s : State) : Host.Outcome State Fault Refusal := s.setp d a b g .ne

/-- SETP.LT (06 R135). -/
def execSetpLt (d : PReg) (a b : SReg) (g : PReg) (s : State) : Host.Outcome State Fault Refusal := s.setp d a b g .lt

/-- SETP.GE (06 R135). -/
def execSetpGe (d : PReg) (a b : SReg) (g : PReg) (s : State) : Host.Outcome State Fault Refusal := s.setp d a b g .ge

/-- SETP.LTN (06 R135). -/
def execSetpLtn (d : PReg) (a b : SReg) (g : PReg) (s : State) : Host.Outcome State Fault Refusal := s.setp d a b g .ltn

/-- SETP.GEN (06 R135). -/
def execSetpGen (d : PReg) (a b : SReg) (g : PReg) (s : State) : Host.Outcome State Fault Refusal := s.setp d a b g .gen

/-- SETPI.EQ (06 R135). -/
def execSetpiEq (p : PReg) (a : SReg) (i : BitVec 16) (s : State) : Host.Outcome State Fault Refusal := s.setpi p a i .eq

/-- SETPI.NE (06 R135). -/
def execSetpiNe (p : PReg) (a : SReg) (i : BitVec 16) (s : State) : Host.Outcome State Fault Refusal := s.setpi p a i .ne

/-- SETPI.LT (06 R135). -/
def execSetpiLt (p : PReg) (a : SReg) (i : BitVec 16) (s : State) : Host.Outcome State Fault Refusal := s.setpi p a i .lt

/-- SETPI.GE (06 R135). -/
def execSetpiGe (p : PReg) (a : SReg) (i : BitVec 16) (s : State) : Host.Outcome State Fault Refusal := s.setpi p a i .ge

/-- PAND (06 R136). -/
def execPand (d a b g : PReg) (s : State) : Host.Outcome State Fault Refusal := s.plog2 d a b g (fun x y => x && y)

/-- POR (06 R136). -/
def execPor (d a b g : PReg) (s : State) : Host.Outcome State Fault Refusal := s.plog2 d a b g (fun x y => x || y)

/-- PXOR (06 R136). -/
def execPxor (d a b g : PReg) (s : State) : Host.Outcome State Fault Refusal := s.plog2 d a b g (fun x y => x != y)

/-- PNOT: p[d] := not p[a] (06 R136). -/
def execPnot (d a g : PReg) (s : State) : Host.Outcome State Fault Refusal := s.plain g (done (s.setP d (!s.getP a)))

/-- PMOV: p[d] := p[a] (06 R136). -/
def execPmov (d a g : PReg) (s : State) : Host.Outcome State Fault Refusal := s.plain g (done (s.setP d (s.getP a)))

/-- PTOS: s[d] := p[a], zero-extended (06 R136). -/
def execPtos (d : SReg) (a g : PReg) (s : State) : Host.Outcome State Fault Refusal :=
  s.plain g (done (s.setS d (if s.getP a then 1 else 0)))

end Sys2Proof.Machine
end

