-- ==== Sys2Proof/Machine/Ptr.lean ====
section
/-! DEFINITION. Pointer forms (06 R137 to R140; the key ring of 19 R403). -/

namespace Sys2Proof.Machine

/-- (s[b][3:0], s[a][59:0]) (06 R137). -/
def mkptr (x y : Word) : Word := BitVec.ofNat 64 (x.toNat % 2 ^ 60 + y.toNat % 16 * 2 ^ 60)

/-- A pointer of space 0x4 or 0x5 with another index; any other pointer poisoned (06 R139). -/
def pcore (x y : Word) : Word :=
  if space x = 4 ∨ space x = 5 then BitVec.ofNat 64 (setBits x.toNat 32 16 (y.toNat % 2 ^ 16)) else poisonPtr x

/-- The hash of a key (19 R403). -/
def keyHash (k : Nat) : Nat := k % 2 ^ 32 * 0x9E3779B9 % 2 ^ 32

/-- The ring member with the smallest token at or above a hash, or else with the smallest token (19 R403): tokens by
holder. -/
def ringOwner (tokens : List (Nat × Nat)) (h : Nat) : Option Nat :=
  let least := fun (l : List (Nat × Nat)) =>
    l.foldl (fun (best : Option (Nat × Nat)) e =>
      match best with
      | none => some e
      | some b => if e.2 < b.2 then some e else some b) none
  match least (tokens.filter fun e => decide (e.2 ≥ h)) with
  | some e => some e.1
  | none => (least tokens).map (·.1)

/-- The scratchpad pointer KEYLK makes (06 R140). -/
def keyPtr (o : Nat) (off : Word) : Word := BitVec.ofNat 64 (4 * 2 ^ 60 + o % 2 ^ 16 * 2 ^ 32 + off.toNat % 2 ^ 22)

/-- The logical owner of a key on the ring of the context active on the issuer's partition; the manual states none for
an issuer without a ring, and the value is free there (log 12). -/
def State.keyOwner (s : State) (key : Nat) : Nat :=
  match s.partOfHg s.cur with
  | some p =>
    match ringOwner (s.ctx (s.part p).active).tokens (keyHash key) with
    | some c => s.lcore c
    | none => (Config.freeOwner s.fresh).toNat
  | none => (Config.freeOwner s.fresh).toNat

/-- MKPTR (06 R137). -/
def execMkptr (d a b : SReg) (g : PReg) (s : State) : Host.Outcome State Fault Refusal :=
  s.plain g (done (s.setS d (mkptr (s.getS a) (s.getS b))))

/-- PSPC: the space of a pointer (06 R137). -/
def execPspc (d a : SReg) (g : PReg) (s : State) : Host.Outcome State Fault Refusal :=
  s.plain g (done (s.setS d (BitVec.ofNat 64 (space (s.getS a)))))

/-- PADD: the offset field advanced by the signed s[b] (06 R138). -/
def execPadd (d a b : SReg) (g : PReg) (s : State) : Host.Outcome State Fault Refusal :=
  s.plain g (done (s.setS d (padd (s.getS a) (s.getS b).toInt)))

/-- PCORE (06 R139). -/
def execPcore (d a b : SReg) (g : PReg) (s : State) : Host.Outcome State Fault Refusal :=
  s.plain g (done (s.setS d (pcore (s.getS a) (s.getS b))))

/-- KEYLK: a scratchpad pointer into the owner of a key (06 R140). -/
def execKeylk (d a b : SReg) (g : PReg) (s : State) : Host.Outcome State Fault Refusal :=
  s.plain g (done { s.setS d (keyPtr (s.keyOwner (low32 (s.getS a))) (s.getS b)) with fresh := s.fresh + 1 })

end Sys2Proof.Machine
end

