-- ==== Sys2Proof/Machine/Switch.lean ====
section
/-! DEFINITION. The context switch: pre-emption requests, cooperative and forced switches, the flip with what is saved and
restored, migration, and the spill and restore of banks (03 R72; 08 R201; 11 R287; 13 R322; 18 R376 to R383; 19 R403, R459).
Log 47. -/

namespace Sys2Proof.Machine

/-! ## The request (18 R376) -/

/-- Is a configuration staged at a headgate discarded (03 R72)? A CFG begins again, and so does the staging of a splice. -/
def Hg.dropStaged (h : Hg) : Hg :=
  { h with
    staged := none, splice := h.splice.map fun x => if x.staged then { image := x.image } else x,
    wait := match h.wait with
      | .cfg false => .none
      | .none | .mfence _ | .coll _ | .cfg true | .halt => h.wait }

/-- The cells of a partition's cores. -/
def State.partCells (s : State) (p : Nat) : SMap Cell := s.cells.filter fun e => (s.part p).cores.contains (e.1 / 576)

/-- The key of a cell by its core's logical index, and back. -/
def toLogical (cores : List Nat) (key : Nat) : Nat := (indexIn cores (key / 576)).getD 0 * 576 + key % 576
def toPhysical (cores : List Nat) (key : Nat) : Nat := cores.getD (key / 576) 0 * 576 + key % 576

/-- The cells of the successors whose tokens are placed. -/
def State.waveCells (s : State) (p : Nat) : List Nat := (s.part p).waves.flatMap fun w => w.load.plots.flatMap fun e => e.2.footprint

/-- The incoming context's cell state stands in the shadow banks (18 R376). DESIGN CHOICE (log 47): the words of a splice whose tokens are
placed are no staged configuration any more, and they stay where the tokens will find them (03 R72). -/
def State.fillShadows (s : State) (p inc : Nat) : State :=
  let keep := s.waveCells p
  let put := fun (s : State) (key : Nat) (f : Cell → Cell) => if keep.contains key then s else s.modCell key f
  let s := (s.partCells p).foldl (fun s e => put s e.1 fun c => { c with shSlots := [], shRegs := {} }) s
  (s.ctx inc).saved.cells.foldl (fun s e =>
    put s (toPhysical (s.part p).cores e.1) fun c => { c with shSlots := e.2.slots, shRegs := e.2.regs }) s

/-- May a partition switch to a context: SAVED, bound to the partition, not active on it? -/
def State.switchable (s : State) (p inc : Nat) : Bool :=
  (s.ctx inc).state == 1 && (s.ctx inc).part == p && !((s.part p).av && (s.part p).active == inc)

/-- A request is accepted. -/
def State.acceptSwitch (s : State) (p x : Nat) : State :=
  let inc := x % 1024
  let q := s.part p
  let s := s.modPart p fun q => { q with switch := true, sw := .requested inc s.wt (s.wt + q.yield_) false }
  let s := s.modCtx inc fun c => { c with state := 2 }
  let s := if q.av then s.modCtx q.active fun c => { c with parked := decide (1024 ≤ x) } else s
  ((s.partHgs p).foldl (fun s k => s.modHg k Hg.dropStaged) s).fillShadows p inc

/-- PREEMPT_REQUEST: inp.unit is the partition. A request for a context that cannot be switched to is dropped. -/
def execPreemptRequest (s : State) : Host.Outcome State Fault Refusal :=
  let p := s.inp.unit
  .next (
    match (s.part p).preq with
    | [] => s
    | x :: rest =>
      if !(s.part p).en || (s.part p).sw != .none || s.mod.stage != 5 || s.mod.tearAt 0 || s.mod.tearAt 1 then s
      else
        let t := s.modPart p fun q => { q with preq := rest }
        if s.switchable p (x % 1024) then t.acceptSwitch p x else t)

/-! ## The end of the outgoing context's work (18 R377, R378) -/

/-- A plot is rinsed: a TIMING of the same cycle takes effect first (14 R334), and a mark row that has not committed is taken back with the
plot, which goes to its last committed mark (03 R71); else the plot stays at the row it stands in (18 R378). -/
def State.rinsePlot (s : State) (p id : Nat) : State :=
  let s := match s.plot? p id with
    | some q => if s.plotOn q && s.pastLimit q then s.timing p id q else s
    | none => s
  let s := s.commitDue p id 4096
  match s.plot? p id with
  | some q => if q.active && !q.pend.isEmpty then s.restart p id false else s
  | none => s

/-- Everything of a partition stops for the flip. -/
def State.beginFlip (s : State) (p inc : Nat) : State :=
  let s := ((s.part p).plots.map (·.1)).foldl (fun s id => s.rinsePlot p id) s
  let q := s.part p
  let s := s.modPart p fun q => { q with sw := .flip inc s.wt }
  if q.av then s.modCtx q.active fun c => { c with state := 4 } else s

/-- YIELD_DEADLINE: inp.unit is the partition. -/
def execYieldDeadline (s : State) : Host.Outcome State Fault Refusal :=
  let p := s.inp.unit
  .next (
    match (s.part p).sw with
    | .requested inc _ d false => if d < s.wt then s.beginFlip p inc else s
    | .requested _ _ _ true | .none | .flip _ _ => s)

/-- COOPERATIVE_STOP: inp.unit is the partition. -/
def execCooperativeStop (s : State) : Host.Outcome State Fault Refusal :=
  let p := s.inp.unit
  .next (
    match (s.part p).sw with
    | .requested inc _ _ true =>
      if (s.part p).plots.all fun e => !e.2.active || e.2.yield == 2 then s.beginFlip p inc else s
    | .requested _ _ _ false | .none | .flip _ _ => s)

/-- COOPERATIVE_TIMEOUT: inp.unit is the partition; D + YIELD is twice D less the tick of acceptance. -/
def execCooperativeTimeout (s : State) : Host.Outcome State Fault Refusal :=
  let p := s.inp.unit
  .next (
    match (s.part p).sw with
    | .requested inc a d true => if 2 * d - a ≤ s.wt then s.beginFlip p inc else s
    | .requested _ _ _ false | .none | .flip _ _ => s)

/-! ## Numbers that a migration changes (18 R383) -/

/-- A sequencer's number, and a waiter's, on other cores. -/
def moveHg (old new : List Nat) (k : Nat) : Nat :=
  match indexIn old (coreOf (seqOf k)) with
  | some i => 4 * new.getD i 0 + hgnOf k + 65536 * engOf k
  | none => k

def PendMark.moved (m : PendMark) (f : Nat → Nat) (g : Nat → Nat) : PendMark :=
  { m with ready := g m.ready, drains := m.drains.map fun e => (f e.1, e.2), tokens := m.tokens.map fun e => (e.1, g e.2) }

def Lane.shifted (l : Lane) (g : Nat → Nat) : Lane :=
  { l with fifo := l.fifo.map fun w => { w with at_ := g w.at_ }, kept := l.kept.map fun w => { w with at_ := g w.at_ } }

/-- A plot on other headgates, f, and at another cycle of its island, g: its row counter stands at the row it was rinsed in. -/
def Plot.moved (q : Plot) (f g : Nat → Nat) : Plot :=
  { q with
    starter := f q.starter, next := g q.next, held := 0, waits := [], lastEmerge := g q.lastEmerge, yield := 0,
    pend := q.pend.map fun m => m.moved f g, lanes := q.lanes.map fun e => (e.1, e.2.shifted g),
    tokens := q.tokens.map fun e => (e.1, g e.2), tokensMark := q.tokensMark.map fun e => (e.1, g e.2), binds := q.binds.map fun b => (b.1, b.2.1, b.2.2.1, f b.2.2.2) }

def DrainPos.shifted (d : DrainPos) (g : Nat → Nat) : DrainPos :=
  let word := fun (w : DrainWord) => { w with cycle := g w.cycle }
  { d with coming := d.coming.map word, ents := d.ents.map fun e => (e.1, e.2.map word) }

/-- The plots of a load at their places in a partition, and its headgates. -/
def State.moveLoad (s : State) (p : Nat) (f : Nat → Nat) (l : Load) : Load :=
  { l with
    plots := l.plots.map fun e => (e.1, ((s.placed p e.2).getD e.2).moved f id), binds := l.binds.map fun b => (f b.1, b.2) }

def State.moveWave (s : State) (p : Nat) (f : Nat → Nat) (w : Wave) : Wave :=
  { w with load := s.moveLoad p f w.load, hgs := w.hgs.map f, starter := f w.starter }

/-! ## What is saved (18 R378, R379, R459; 11 R287) -/

/-- A decoder as it is saved: its command goes on at its position (11 R287). -/
def Decoder.saved (d : Decoder) : Decoder :=
  { d.suspend with busy := 0, rate := {}, posCycle := 0, posPrev := d.pos }

/-- A stream node as it is saved. -/
def Node.saved (n : Node) : Node := { n with rdRate := {}, wrRate := {} }

/-- A headgate as it is saved. -/
def Hg.saved (h : Hg) : Hg :=
  { h.dropStaged with
    startAt := 0, icache := [], lastWin := none, node0 := h.node0.saved, node1 := h.node1.saved, dec := h.dec.saved,
    scale := { h.scale with misses := [] }, feed := { h.feed with nextCycle := 0 },
    drain := { h.drain with adv := h.drain.adv.map fun x => { x with due := 0 } } }

/-- A pointer's arbiter as it is saved. -/
def PointerArb.saved (x : PointerArb) : PointerArb := { x with used := none, asks := [] }

/-- A core as it is saved. -/
def Core.saved (k : Core) : Core :=
  { k with sluices := k.sluices.map fun x => { x with parb := x.parb.saved, carb := x.carb.saved } }

/-- A message reaches its queue, or becomes a pending arrival of a full one (18 R459). -/
def Core.takeMessage (k : Core) (q wt : Nat) (m : Msg) : Core :=
  if (k.queue q).length < 64 ∧ k.arrivals.get (Fin.ofNat 8 q) = [] then k.setQueue q (k.queue q ++ [{ m with arrived := wt }])
  else { k with arrivals := k.arrivals.set (Fin.ofNat 8 q) (k.arrivals.get (Fin.ofNat 8 q) ++ [m]) }

/-- A message on its way is written: PEV bit 0 tells of one that has entered its queue (06 R161). -/
def State.landMessage (s : State) (x : Packet) : State :=
  let k := (s.core x.dst).takeMessage x.queue s.wt x.msg
  let t := s.modCore x.dst fun _ => k
  if ((s.core x.dst).queue x.queue).length < (k.queue x.queue).length then t.latchCore x.dst 0 else t

/-- The messages that a partition's cores have sent are written before the flip. -/
def State.drainMessages (s : State) (p : Nat) : State :=
  let mine := fun (x : Packet) => (s.part p).cores.contains x.src
  let s := (s.mod.packets.filter mine).foldl State.landMessage s
  s.modMod fun m => { m with packets := m.packets.filter fun x => !mine x }

/-- The ballast of a headgate's armed timed STARTs falls, or rises again (23 R428). -/
def State.timedBallast (s : State) (k : Nat) (on : Bool) : State :=
  (s.hg k).timed.toList.foldl (fun s x =>
    match (if x.busy && !x.fired then s.timedPlot k x else none) with
    | some q => if on then (if s.wt < x.wt then s.armBallast q x.wt else s) else s.endBallast q false
    | none => s) s

/-- What waits for the outgoing context's accesses waits no more: they are made again after a restore. -/
def State.dropWaits (s : State) (p : Nat) : State :=
  let mine := fun (w : Nat) => (s.partHgs p).contains (seqOf w)
  { s with clusters := s.clusters.map fun e => (e.1, { e.2 with
      walks := (e.2.walks.map fun w => { w with joined := w.joined.filter fun j => !mine j.waiter }).filter fun w => !w.joined.isEmpty,
      transfers := e.2.transfers.filter fun t => !mine t.seqr, waiters := e.2.waiters.filter fun w => !mine w }) }

/-- Has every space-0x8 access of a partition been answered? -/
def State.answered (s : State) (p : Nat) : Bool :=
  s.mod.remotes.all fun r => !(s.partHgs p).contains (seqOf r.seqr) || r.reply.isSome

/-- A table of a partition's cores, by logical index. -/
def byIndex {α : Type} (cores : List Nat) (f : Nat → α) : SMap α := (List.range cores.length).zip (cores.map f)

/-- Everything of a partition's active context, but for its banks. -/
def State.savedCtx (s : State) (p : Nat) : SavedCtx :=
  let q := s.part p
  let mine := fun (r : Remote) => (s.partHgs p).contains (seqOf r.seqr)
  let keep := s.waveCells p
  let cell := fun (key : Nat) (c : Cell) => if keep.contains key then c else { c with shSlots := [], shRegs := {} }
  { hgs := (List.range (4 * q.cores.length)).zip ((s.partHgs p).map fun k => (s.hg k).saved),
    cores := byIndex q.cores fun c => (s.core c).saved, plots := q.plots,
    cells := (s.partCells p).foldl (fun m e => SMap.set m (toLogical q.cores e.1) (cell e.1 e.2)) [],
    colls := q.colls, halted := q.halted, done := q.done, haltWt := q.haltWt, placement := q.cores, waves := q.waves,
    flights := q.flights, walker := q.walker, iters := q.iters, load := q.load, bwphase := q.bwphase, bwphwt := q.bwphwt,
    bwOn := q.bwSet.isSome || q.bwDue, short := q.short, lostBw := q.lostBw, remotes := s.mod.remotes.filter mine, wt := s.wt,
    cycles := q.plots.map fun e => (e.1, s.plotCycle e.2) }

/-- Where a context's shadow area holds the first byte of a bank of a core, or of way b - 32 of its cluster (18 R369). DESIGN CHOICE (log
47): the banks are the first 4 MiB of a core's 8 MiB, in their order. -/
def State.shadowAt (s : State) (ctx c b : Nat) : Nat :=
  let cl := clusterOf c
  let l := s.liveOf cl
  dramAddr cl ((s.ctx ctx).shbase
    + (if b < 32 then 2 ^ 23 * (indexIn l c).getD 0 + bankBytes * b else 2 ^ 23 * l.length + 2 ^ 20 * (b - 32)))

/-- The cell state and headgate state of a context stand in the rest of its cores' shadow areas, in a layout that the manual does not give:
those bytes are undefined. -/
def State.spillRest (s : State) (p ctx : Nat) : State :=
  (s.part p).cores.foldl (fun s c =>
    let a := s.shadowAt ctx c 0 + 2 ^ 22
    if s.isBacked a (2 ^ 22) then s.undefine a (2 ^ 22) else s) s

/-- The outgoing context is saved; its CACHE banks are written back and hold nothing (18 R379). -/
def State.saveActive (s : State) (p : Nat) : State :=
  let w := s.walkerW p
  let s := (s.part p).cores.foldl (fun s c => (s.writeBackAll w c).modCore c fun k => { k with l1 := [] }) s
  let s := (s.partHgs p).foldl (fun s k => s.timedBallast k false) s
  let s := (s.drainMessages p).dropWaits p
  let q := s.part p
  let x := s.savedCtx p
  let s := if q.av ∧ (s.ctx q.active).state = 4 then (s.modCtx q.active fun c => { c with saved := x }).spillRest p q.active else s
  s.modMod fun m => { m with remotes := m.remotes.filter fun r => !(s.partHgs p).contains (seqOf r.seqr) }

/-! ## What is restored (18 R379, R380, R383) -/

/-- A core of a partition as the incoming context has it: what belongs to the core itself stays. -/
def Core.restored (k c : Core) : Core :=
  { c with
    l1 := [], seq := k.seq, routes := k.routes, rtstat := k.rtstat, links := k.links, kmfifo := k.kmfifo, kmpos := k.kmpos, kmovf := k.kmovf,
    unrestored := [] }

/-- The banks that are spilled and restored, in order: OPERAND, SCRATCH, CLUSTER (18 R380). -/
def bankOrder (new old : Core) : List Nat :=
  dedup (new.banksOf 3 ++ new.banksOf 2 ++ new.banksOf 4 ++ old.banksOf 3 ++ old.banksOf 2 ++ old.banksOf 4)

/-- The cores take the incoming context's state; the wafer-scratchpad ways of a cluster come with its first live core. -/
def State.restoreCores (s : State) (p : Nat) (x : SavedCtx) : State :=
  let q := s.part p
  let lead := (s.lclusters p).map fun cl => (s.liveOf cl).headD 0
  (byIndex q.cores id).foldl (fun s e => s.modCore e.2 fun k =>
    let c := k.restored (SMap.getD x.cores e.1 {})
    let ways := if lead.contains e.2 then (List.range q.waysNow).map (32 + ·) else []
    { c with unrestored := bankOrder c k ++ ways }) s

/-- The headgates take the incoming context's state; drained words keep their distance in cycles. -/
def State.restoreHgs (s : State) (p : Nat) (x : SavedCtx) (g : Nat → Nat → Nat) : State :=
  ((List.range (s.partHgs p).length).zip (s.partHgs p)).foldl (fun s e =>
    match SMap.get? x.hgs e.1 with
    | none => s.setHg e.2 (resetHg e.2)
    | some h =>
      let sh := fun (d : DrainPos) => match h.bound with | some b => d.shifted (g b.plot) | none => d
      s.setHg e.2 { h with drain := { h.drain with pos := sh h.drain.pos, mark := sh h.drain.mark } }) s

/-- The cells take the incoming context's state, and the shadow banks the outgoing one's (03 R72). On another placement only a
plot's cells keep their words. -/
def State.restoreCells (s : State) (p : Nat) (x : SavedCtx) (same : Bool) : State :=
  let cores := (s.part p).cores
  let old := s.partCells p
  let s := old.foldl (fun s e => s.setCell e.1 { shSlots := e.2.slots, shRegs := e.2.regs }) s
  let put := fun (s : State) (key : Nat) (c : Cell) =>
    s.modCell key fun y => if c.shSlots.isEmpty then { c with shSlots := y.shSlots, shRegs := y.shRegs } else c
  let s := x.cells.foldl (fun s e => put s (toPhysical cores e.1) (if same then e.2 else { e.2 with slots := [] })) s
  if same then s
  else
    let move := fun (f : Cell → Cell → Cell) (s : State) (e : Nat × Plot) =>
      match s.placed p e.2 with
      | some r => e.2.cells.foldl (fun s c =>
          s.modCell (r.cellAt c.1 c.2) (f (SMap.getD x.cells (toLogical x.placement (e.2.cellAt c.1 c.2)) {}))) s
      | none => s
    let s := x.plots.foldl (move fun c y => { c with shSlots := y.shSlots, shRegs := y.shRegs }) s
    (x.waves.flatMap fun w => w.load.plots).foldl (move fun c y => { y with shSlots := c.shSlots, shRegs := c.shRegs }) s

/-- Cells outside every plot that are defective are isolated (03 R456). -/
def State.isolateBad (s : State) (p : Nat) : State :=
  s.mod.defects.cells.foldl (fun s d =>
    let key := d.1 * 576 + d.2
    if (s.part p).cores.contains d.1 && !(s.part p).plots.any fun e => e.2.footprint.contains key then s.idleCell key else s) s

/-- The ring tokens move with the logical indices (18 R383; 19 R403). -/
def movedTokens (old new : List Nat) (t : SMap Nat) : SMap Nat :=
  t.foldl (fun m e => match indexIn old e.1 with
    | some i => SMap.set m (new.getD i 0) e.2
    | none => m) []

/-- The plots and the machinery of the partition take the incoming context's state. -/
def State.restorePart (s : State) (p inc : Nat) (x : SavedCtx) (same : Bool) (f : Nat → Nat) (g : Nat → Nat → Nat) : State :=
  let waits := fun (q : Plot) => if q.waiting && same then q.waits.filter (fun w => w.kind == 1 || w.kind == 2) else []
  let plots := x.plots.map fun e => (e.1, { ((s.placed p e.2).getD e.2).moved f (g e.1) with waits := waits e.2 })
  let waves := x.waves.map (s.moveWave p f)
  let flights := if same then x.flights.map fun w => { w with at_ := w.at_ + (s.wt - x.wt) } else []
  s.modPart p fun q =>
    { q with
      av := true, active := inc, plots, waves, flights, colls := x.colls, halted := x.halted, done := x.done, haltWt := x.haltWt,
      walker := x.walker, iters := x.iters, load := x.load, bwphase := x.bwphase, bwphwt := x.bwphwt, lostBw := x.lostBw,
      walkFault := none, short := x.short, bwSet := none, bwHold := 0, bwDue := x.bwOn }

/-! ## The checks of a restore (08 R201; 18 R379, R383) -/

/-- May a plot not stand where it is restored (18 R383)? old is the plot as it was saved. -/
def State.misplaced (s : State) (p : Nat) (old new : Plot) : Bool :=
  (s.placed p old).isNone || !s.footprintOwned p new
    || (new.cells.any fun e => s.mod.defects.cells.contains (new.cellAt e.1 e.2 / 576, new.cellAt e.1 e.2 % 576))
    || (new.bypass != 0 && new.gen != s.mod.mapgen % 2 ^ 32)
    || new.cells.any fun e => new.lag e.1 e.2 != old.lag e.1 e.2

/-- The first cell, row by row, that condition 11 finds: on a dead or defective core or cell, or with another lag. -/
def State.offending (s : State) (p : Nat) (old new : Plot) : Nat :=
  (new.firstCell fun r c =>
    let key := new.cellAt r c
    s.badCell key || !(s.part p).cores.contains (key / 576) || new.lag r c != old.lag r c).getD 0

/-- Eight bytes at an address under a context's tables, read by a waiter of a cluster. -/
def State.viewWord (s : State) (w ctx va : Nat) : Acc (State × Nat) :=
  match s.walk (clusterOf (coreOf (seqOf w))) ctx va with
  | (t, .wait x) => .error (.held t x)
  | (_, .fail c) => flt c
  | (_, .next _) => flt cXlate
  | (t, .leaf e) => do
    chk e.r cProt
    let a := e.pa + (va - e.va)
    t.lineReady 0 a w
    let v ← t.homeRead a 8
    .ok (t.touchAs 0 a w false, v)

/-- n slots of a slot image at a pointer, read under a context's tables. -/
def State.viewSlots (s : State) (w ctx : Nat) (ptr : Word) (n : Nat) : Acc (State × List Nat) :=
  (List.range n).foldlM (fun (st : State × List Nat) k => do
    let va := bits ptr.toNat 0 48 + 16 * k
    let (t, lo) ← st.1.viewWord w ctx va
    let (t, hi) ← t.viewWord w ctx (va + 8)
    .ok (t, st.2 ++ [hi * 2 ^ 64 + lo])) (s, [])

/-- The slot words of a plot, read again from its image with the checks of 03 R75: (row, column, slots). -/
def State.rereadSlots (s : State) (p ctx id : Nat) (q : Plot) : Acc (State × List ((Nat × Nat) × List Nat)) :=
  let cells := (List.range q.rows).flatMap fun r => (List.range q.cols).map fun c => (r, c)
  cells.foldlM (fun (st : State × List ((Nat × Nat) × List Nat)) (e : Nat × Nat) => do
    let cell := e.1 * 2 ^ 16 + e.2
    let (t, l) ← imageEcc id cell (st.1.viewSlots (s.walkerW p) ctx (padd q.slotImg (16 * ((e.1 * q.cols + e.2) * q.ii))) q.ii)
    match badSlot (s.edgeLane p id q e.1 e.2).isSome 0 l ((st.2.head?.map (·.2)).getD l) with
    | some k => refuse { cond := 0, plot := id, cell, slot := k }
    | none => .ok (t, st.2 ++ [(e, l)])) (s, [])

/-- The slot words of a plot are put into its cells. -/
def State.putSlots (s : State) (q : Plot) (l : List ((Nat × Nat) × List Nat)) : State :=
  l.foldl (fun s e => (q.copies e.1.1 e.1.2).foldl (fun s key =>
    s.modCell key fun c => { c with slots := (List.range q.ii).zip e.2 }) s) s

/-- A plot is restored UNCONF: the switch engine's record, and the halt line. -/
def State.refusePlot (s : State) (p id : Nat) (q : Plot) (cause : Nat) (d : List Nat) : State :=
  ((s.record p q.swCore 9 0 cause id 0 d).haltLine p).unconfigure p id

/-- A restored plot is judged: its place, and its slot words, which a plot with a splice under way and a plot whose image lies
outside translated memory keep as they were saved. -/
def State.judgePlot (s : State) (p ctx : Nat) (old : Nat × Plot) : Acc State :=
  match s.plot? p old.1 with
  | none => .ok s
  | some q =>
    if s.misplaced p old.2 q then .ok (s.refusePlot p old.1 q cCfgBad [11, old.1, s.offending p old.2 q, 0])
    else if q.spliced ∨ 2 < space q.slotImg then .ok (s.isolateLines q)
    else match s.rereadSlots p ctx old.1 q with
      | .ok (t, l) => .ok ((t.isolateLines q).putSlots q l)
      | .error (.fault c d) => .ok (s.refusePlot p old.1 q c d)
      | .error e => .error e

/-! ## The flip (18 R378) -/

/-- Pending arrivals are written into their queues, as far as there is room (18 R459). -/
def State.restoreArrivals (s : State) (p : Nat) : State :=
  (s.part p).cores.foldl (fun s c => (List.range 8).foldl (fun s q =>
    ((s.core c).arrivals.get (Fin.ofNat 8 q)).foldl (fun s _ =>
      if ((s.core c).queue q).length < 64 then (s.modCore c fun k => k.takeArrival q s.wt).latchCore c 0 else s) s) s) s

/-- Slots whose tick passed while the context was switched out fire with LATE (07 R190). -/
def State.lateTimers (s : State) (p : Nat) : State :=
  (s.partHgs p).foldl (fun s k =>
    let s := s.timedBallast k true
    (List.range 8).foldl (fun s i =>
      let x := (s.hg k).timed.get (Fin.ofNat 8 i)
      if x.busy && !x.fired && decide (x.wt < s.wt) then s.fireSlot k i x true else s) s) s

/-- The partition has no active context. -/
def State.emptyPart (s : State) (p : Nat) : State :=
  let s := s.restoreCores p {}
  let s := (s.restoreHgs p {} fun _ n => n).restoreCells p {} true
  let s := s.modPart p fun q =>
    { q with
      av := false, active := 0, plots := [], waves := [], flights := [], colls := [], halted := false, done := false,
      walker := .idle, iters := [], load := none, walkFault := none, bwphase := 0, bwphwt := 0, bwSet := none, bwHold := 0,
      bwDue := false, lostBw := false, short := false }
  s.isolateBad p

/-- The incoming context's state is back, but for its banks. -/
def State.restoreCtx (s : State) (p inc : Nat) : Acc State := do
  let x := (s.ctx inc).saved
  let new := (s.part p).cores
  let same := x.placement == new
  let f := moveHg x.placement new
  let g := fun (id : Nat) (n : Nat) =>
    match SMap.get? x.plots id with
    | some q => n + s.plotCycle ((s.placed p q).getD q) - SMap.getD x.cycles id 0
    | none => n
  let s := if same then s else s.advancePlace
  let s := (s.restoreCores p x).restoreHgs p x g
  let s := (s.restoreCells p x same).restorePart p inc x same f g
  let s := s.modCtx inc fun c =>
    { c with state := 3, parked := false, tokens := if same then c.tokens else if x.placement.isEmpty then newTokens new else movedTokens x.placement new c.tokens }
  let s := s.modMod fun m => { m with remotes := m.remotes ++ x.remotes.map fun r => { r with seqr := f r.seqr } }
  let s := match s.runningOf inc with
    | some r => s.modLaunch r fun l => { l with runWt := s.wt }
    | none => s
  let s ← x.plots.foldlM (fun s e => s.judgePlot p inc e) (s.isolateBad p)
  .ok ((s.restoreArrivals p).lateTimers p)

/-- The context that a partition's switch puts out. -/
def State.outgoing (s : State) (p : Nat) : Option Nat :=
  let q := s.part p
  if q.av && (s.ctx q.active).state == 4 then some q.active else none

/-- The flip of a partition: the outgoing context is saved, the incoming one restored if it is still SHADOW. DESIGN CHOICE (log 47): it
waits until an earlier switch has restored its last bank. -/
def State.flip (s : State) (p inc : Nat) : Acc State := do
  waitFor (s.answered p && (s.part p).restoring.isNone)
  s.flushReady (s.walkerW p) (s.part p).cores
  let out := s.outgoing p
  let s := s.saveActive p
  let s ← if (s.ctx inc).state = 2 then s.restoreCtx p inc else .ok (s.emptyPart p)
  .ok (s.modPart p fun q => { q with sw := .none, restoring := some (inc, out) })

/-- What waits, without anything done before. -/
def Stop.undone : Stop → Stop
  | .held _ w => .wait w
  | .fault c d => .fault c d
  | .wait w => .wait w

/-- CONTEXT_FLIP: inp.unit is the partition; a flip that waits is done whole later. -/
def execContextFlip (s : State) : Host.Outcome State Fault Refusal :=
  let p := s.inp.unit
  .next (
    match (s.part p).sw with
    | .flip inc _ => s.orWait (s.walkerW p) ((s.flip p inc).mapError Stop.undone)
    | .none | .requested _ _ _ _ => s)

/-! ## Spill and restore (18 R379, R380) -/

/-- Where bank b of a core, or way b - 32 of its cluster, lies: its first byte and its size. -/
def spillArea (c b : Nat) : Nat × Nat :=
  if b < 32 then (bankAddr c b 0, bankBytes) else (wspAddr (clusterOf c) (2 ^ 20 * (b - 32)), 2 ^ 20)

/-- The bytes of an area that are not zero, by offset: the listed ones, unless some of it is undefined. -/
def State.areaBytes (s : State) (lo n : Nat) : List Host.Cell :=
  if s.mod.undef.all fun u => decide (u.1 + u.2.1 ≤ lo) || decide (lo + n ≤ u.1) then
    (s.mem.filter fun e => decide (lo ≤ e.1) && decide (e.1 < lo + n)).map fun e => (e.1 - lo, e.2)
  else ((List.range n).map fun o => (o, s.byte (lo + o))).filter fun e => e.2 != 0

/-- n bytes from an address become those at another, poisoned words and all. -/
def State.copyArea (s : State) (src dst n : Nat) : State :=
  let bad := (s.mod.poison.filter fun w => decide (src ≤ 8 * w) && decide (8 * w < src + n)).map fun w => w - src / 8 + dst / 8
  let t := (s.areaBytes src n).foldl (fun t e => t.setByte (dst + e.1) e.2) (s.clearRange dst n)
  t.modMod fun m => { m with poison := m.poison ++ bad }

/-- A copy to or from a shadow area has touched it; it is charged to no budget (18 R380). -/
def State.areaTouch (s : State) (a n : Nat) (st : Bool) : State :=
  let c := s.cluster (a / 2 ^ 32)
  ((List.range (n / 64)).foldl (fun s i => s.touchAs 0 (a + 64 * i) 0 st) s).modCluster (a / 2 ^ 32) fun d =>
    { d with granted := c.granted, transfers := c.transfers }

/-- Has a partition's switch restored every bank? -/
def State.allRestored (s : State) (p : Nat) : Bool := (s.part p).cores.all fun c => (s.core c).unrestored.isEmpty

/-- The context that a switch puts out, unless it has been torn down since (18 R382). -/
def State.spills (s : State) (out : Option Nat) : Option Nat := out.filter fun o => (s.ctx o).state == 4

/-- The switch ends when the last bank is restored (18 R381). -/
def State.endSwitch (s : State) (p inc : Nat) (out : Option Nat) : State :=
  if s.allRestored p then
    let s := match s.spills out with
      | some o => s.modCtx o fun c => { c with state := 1 }
      | none => s
    let s := if (s.part p).av ∧ (s.part p).active = inc then s.modCtx inc fun c => { c with saved := {} } else s
    s.modPart p fun q => { q with restoring := none, switch := q.sw != .none }
  else s

/-- A bank's bytes go to the shadow area of the context that is put out; nowhere where that area is not backed. -/
def State.spillTo (s : State) (o a key lo n : Nat) : State :=
  if s.isBacked a n then
    ((s.copyArea lo a n).areaTouch a n true).modCtx o fun x => { x with saved := { x.saved with banks := SMap.set x.saved.banks key a } }
  else s

/-- A bank's bytes come back from where they were spilled; those of a bank that never was are zero. -/
def State.restoreFrom (s : State) (a : Option Nat) (lo n : Nat) : State :=
  match a with
  | some a => (s.copyArea a lo n).areaTouch a n false
  | none => s.clearRange lo n

/-- A core's next bank is spilled for the outgoing context, then restored for the incoming one (18 R380). The device is not refused at any
bank; it wakes those that sleep and waits for them (13 R311, R316, R317). -/
def State.spillRestore (s : State) (p inc : Nat) (out : Option Nat) (c : Nat) : Acc State :=
  match (s.core c).unrestored with
  | [] => .ok s
  | b :: rest => do
    let (lo, n) := spillArea c b
    let key := 64 * (indexIn (s.part p).cores c).getD 0 + b
    let out := (s.spills out).map fun o => (o, s.shadowAt o c b)
    let back := if (s.part p).av ∧ (s.part p).active = inc then SMap.get? (s.ctx inc).saved.banks key else none
    s.awake ((s.bankOfAddr lo).toList ++ ((out.map (·.2)).toList ++ back.toList).flatMap fun a => s.areaBanks a n)
    let s := s.devTouch (s.bankOfAddr lo).toList
    let s := match out with
      | some (o, a) => s.spillTo o a key lo n
      | none => s
    .ok ((s.restoreFrom back lo n).modCore c fun k => { k with unrestored := rest })

/-- BANK_SPILL_RESTORE: inp.unit is the core. -/
def execBankSpillRestore (s : State) : Host.Outcome State Fault Refusal :=
  let c := s.inp.unit
  .next (
    match s.partOf c with
    | none => s
    | some p =>
      match (s.part p).restoring with
      | some (inc, out) => s.orWait (coreWaiter c) (do .ok ((← s.spillRestore p inc out c).endSwitch p inc out))
      | none => s)

end Sys2Proof.Machine
end

