-- ==== Sys2Proof/Machine/Vec.lean ====
section
/-! DEFINITION. The vector unit and scalar floating-point operations (08 R230 to R235). -/

namespace Sys2Proof.Machine

/-- Every lane of v[d] := op(v[a], v[b], old v[d]) (08 R231). -/
def vopLanes (fm : Word) (t : LaneType) (op : EOp) (a b c : VWord) : VWord :=
  let w := laneWidth t
  ofLanes w ((List.range (512 / w)).map fun l => elemOp fm t op (lane a w l) (lane b w l) (lane c w l))

/-- A VOP with two sources (08 R231). -/
def State.vop2 (s : State) (d a b : VReg) (g : PReg) (t : LaneType) (op : EOp) : Host.Outcome State Fault Refusal :=
  s.plain g (done (s.setV d (vopLanes s.me.fmode t op (s.getV a) (s.getV b) (s.getV d))))

/-- A VOP with one source (08 R231). -/
def State.vop1 (s : State) (d a : VReg) (g : PReg) (t : LaneType) (op : EOp) : Host.Outcome State Fault Refusal :=
  s.plain g (done (s.setV d (vopLanes s.me.fmode t op (s.getV a) 0 (s.getV d))))

/-- s[d] := op on f32 values, zero-extended (08 R230). -/
def fscVal (fm : Word) (op : EOp) (a b c : Word) : Word :=
  BitVec.ofNat 64 (elemOp fm .f32 op (low32 a) (low32 b) (low32 c))

/-- An FSC with two sources. -/
def State.fsc2 (s : State) (d a b : SReg) (g : PReg) (op : EOp) : Host.Outcome State Fault Refusal :=
  s.plain g (done (s.setS d (fscVal s.me.fmode op (s.getS a) (s.getS b) (s.getS d))))

/-- An FSC with one source. -/
def State.fsc1 (s : State) (d a : SReg) (g : PReg) (op : EOp) : Host.Outcome State Fault Refusal :=
  s.plain g (done (s.setS d (fscVal s.me.fmode op (s.getS a) 0 (s.getS d))))

/-- VOP ADD (08 R230, R231). -/
def execVopAdd (d a b : VReg) (g : PReg) (t : LaneType) (s : State) : Host.Outcome State Fault Refusal :=
  s.vop2 d a b g t .add

/-- VOP SUB (08 R230, R231). -/
def execVopSub (d a b : VReg) (g : PReg) (t : LaneType) (s : State) : Host.Outcome State Fault Refusal :=
  s.vop2 d a b g t .sub

/-- VOP MUL (08 R230, R231). -/
def execVopMul (d a b : VReg) (g : PReg) (t : LaneType) (s : State) : Host.Outcome State Fault Refusal :=
  s.vop2 d a b g t .mul

/-- VOP FMA (08 R230, R231). -/
def execVopFma (d a b : VReg) (g : PReg) (t : LaneType) (s : State) : Host.Outcome State Fault Refusal :=
  s.vop2 d a b g t .fma

/-- VOP FNMA (08 R230, R231). -/
def execVopFnma (d a b : VReg) (g : PReg) (t : LaneType) (s : State) : Host.Outcome State Fault Refusal :=
  s.vop2 d a b g t .fnma

/-- VOP MIN (08 R230, R231). -/
def execVopMin (d a b : VReg) (g : PReg) (t : LaneType) (s : State) : Host.Outcome State Fault Refusal :=
  s.vop2 d a b g t .min

/-- VOP MAX (08 R230, R231). -/
def execVopMax (d a b : VReg) (g : PReg) (t : LaneType) (s : State) : Host.Outcome State Fault Refusal :=
  s.vop2 d a b g t .max

/-- VOP ABS (08 R230, R231). -/
def execVopAbs (d a : VReg) (g : PReg) (t : LaneType) (s : State) : Host.Outcome State Fault Refusal :=
  s.vop1 d a g t .abs

/-- VOP NEG (08 R230, R231). -/
def execVopNeg (d a : VReg) (g : PReg) (t : LaneType) (s : State) : Host.Outcome State Fault Refusal :=
  s.vop1 d a g t .neg

/-- VOP RSQS (08 R230, R231). -/
def execVopRsqs (d a : VReg) (g : PReg) (t : LaneType) (s : State) : Host.Outcome State Fault Refusal :=
  s.vop1 d a g t .rsqs

/-- VOP RCPS (08 R230, R231). -/
def execVopRcps (d a : VReg) (g : PReg) (t : LaneType) (s : State) : Host.Outcome State Fault Refusal :=
  s.vop1 d a g t .rcps

/-- VOP EXP2S (08 R230, R231). -/
def execVopExp2s (d a : VReg) (g : PReg) (t : LaneType) (s : State) : Host.Outcome State Fault Refusal :=
  s.vop1 d a g t .exp2s

/-- VOP LOG2S (08 R230, R231). -/
def execVopLog2s (d a : VReg) (g : PReg) (t : LaneType) (s : State) : Host.Outcome State Fault Refusal :=
  s.vop1 d a g t .log2s

/-- VOP RELU (08 R230, R231). -/
def execVopRelu (d a : VReg) (g : PReg) (t : LaneType) (s : State) : Host.Outcome State Fault Refusal :=
  s.vop1 d a g t .relu

/-- VOP CLAMP (08 R230, R231). -/
def execVopClamp (d a b : VReg) (g : PReg) (t : LaneType) (s : State) : Host.Outcome State Fault Refusal :=
  s.vop2 d a b g t .clamp

/-- VOP SEL (08 R230, R231). -/
def execVopSel (d a b : VReg) (g : PReg) (t : LaneType) (s : State) : Host.Outcome State Fault Refusal :=
  s.vop2 d a b g t .sel

/-- VOP CMPEQ (08 R230, R231). -/
def execVopCmpeq (d a b : VReg) (g : PReg) (t : LaneType) (s : State) : Host.Outcome State Fault Refusal :=
  s.vop2 d a b g t .cmpeq

/-- VOP CMPLT (08 R230, R231). -/
def execVopCmplt (d a b : VReg) (g : PReg) (t : LaneType) (s : State) : Host.Outcome State Fault Refusal :=
  s.vop2 d a b g t .cmplt

/-- VOP CMPLE (08 R230, R231). -/
def execVopCmple (d a b : VReg) (g : PReg) (t : LaneType) (s : State) : Host.Outcome State Fault Refusal :=
  s.vop2 d a b g t .cmple

/-- VOP MOV (08 R230, R231). -/
def execVopMov (d a : VReg) (g : PReg) (t : LaneType) (s : State) : Host.Outcome State Fault Refusal :=
  s.vop1 d a g t .mov

/-- The lanes of a register as values of a float lane type. -/
def laneVals (fm : Word) (t : LaneType) (v : VWord) : List FVal := (lanes v (laneWidth t)).map (fread fm (laneSpec t))

/-- VOP AMAXU: v[d] := v[a], AMAX updated with each lane (08 R230, R231; 02 R48). -/
def execVopAmaxu (d a : VReg) (g : PReg) (t : LaneType) (s : State) : Host.Outcome State Fault Refusal :=
  s.plain g (
    let v := s.getV a
    let h := s.me.noteAmax (laneVals s.me.fmode t v)
    done (s.setMe (h.setV d v)))

/-- Elements converted in ascending order, with the generator's draws (08 R232; 02 R38). -/
def convElems (fm : Word) (dst src : Fmt) : Word → List Nat → List Nat × Word
  | g, [] => ([], g)
  | g, x :: t =>
    let (y, g') := convElem fm g dst src x
    let (ys, g'') := convElems fm dst src g' t
    (y :: ys, g'')

/-- VCVT: n elements from v[a], packed from bit 0 of v[d]; AMAX updated with each source (08 R232). -/
def execVcvt (d a : VReg) (g : PReg) (t f : Fmt) (s : State) : Host.Outcome State Fault Refusal :=
  s.plain g (
    let h := s.me
    let n := 512 / max (fmtWidth f) (fmtWidth t)
    let xs := unpack (s.getV a).toNat (fmtWidth f) n
    let (ys, g') := convElems h.fmode t f h.g xs
    let h := { h.noteAmax (xs.map (readElem h.fmode f)) with g := g' }
    done (s.setMe (h.setV d (ofLanes (fmtWidth t) ys))))

/-- Neighbouring lanes added pairwise, each sum rounded as FADD32 rounds (08 R233). -/
def pairSums (fm : Word) : List Nat → List Nat
  | x :: y :: t => elemOp fm .f32 .add x y 0 :: pairSums fm t
  | l => l

/-- v[d] := one f32 lane computed from the 16 of v[a], the others 0 (08 R233). -/
def State.vred (s : State) (d a : VReg) (g : PReg) (f : List Nat → Nat) : Host.Outcome State Fault Refusal :=
  s.plain g (done (s.setV d (BitVec.ofNat 512 (f (lanes (s.getV a) 32)))))

/-- The f32 code of a fold over the lanes' values, first lane first. -/
def foldLanes (fm : Word) (f : FVal → FVal → FVal) (l : List Nat) : Nat :=
  match l.map (fin32 fm) with
  | [] => 0
  | v :: t => encodeVal fm spec32 false (rndOf fm) (t.foldl f v)

/-- VSUM: a pairwise tree of 15 additions (08 R233). -/
def execVsum (d a : VReg) (g : PReg) (s : State) : Host.Outcome State Fault Refusal :=
  let fm := s.me.fmode
  s.vred d a g fun l => (pairSums fm (pairSums fm (pairSums fm (pairSums fm l)))).getD 0 0

/-- VMAX (08 R233). -/
def execVmax (d a : VReg) (g : PReg) (s : State) : Host.Outcome State Fault Refusal :=
  s.vred d a g (foldLanes s.me.fmode FVal.max2)

/-- VMIN (08 R233). -/
def execVmin (d a : VReg) (g : PReg) (s : State) : Host.Outcome State Fault Refusal :=
  s.vred d a g (foldLanes s.me.fmode FVal.min2)

/-- The f32 code of the largest lane magnitude, the canonical NaN if a lane is NaN (08 R233). -/
def absMax (fm : Word) (vs : List FVal) : Nat :=
  if vs.any FVal.isNan then canonNaN spec32
  else encodeVal fm spec32 false (rndOf fm) ((vs.map FVal.abs).foldl FVal.max2 (.fin false 0 0))

/-- VAMAX, which also updates AMAX (08 R233). -/
def execVamax (d a : VReg) (g : PReg) (s : State) : Host.Outcome State Fault Refusal :=
  s.plain g (
    let h := s.me
    let vs := laneVals h.fmode .f32 (s.getV a)
    done (s.setMe ((h.noteAmax vs).setV d (BitVec.ofNat 512 (absMax h.fmode vs)))))

/-- VBCAST: every 32-bit lane := lane 0 of v[a] (08 R234). -/
def execVbcast (d a : VReg) (g : PReg) (s : State) : Host.Outcome State Fault Refusal :=
  s.plain g (done (s.setV d (ofLanes 32 (List.replicate 16 (lane (s.getV a) 32 0)))))

/-- VEXT: 16 lanes from lane k of the pair v[b], v[a]; k from the old v[d] (08 R234). -/
def execVext (d a b : VReg) (g : PReg) (s : State) : Host.Outcome State Fault Refusal :=
  s.plain g (
    let k := (s.getV d).toNat % 16
    done (s.setV d (BitVec.ofNat 512 (((s.getV b).toNat * 2 ^ 512 + (s.getV a).toNat) / 2 ^ (32 * k)))))

/-- VSHUF: lane l := the lane of v[a] that v[b]'s lane names, or 0 (08 R234). -/
def execVshuf (d a b : VReg) (g : PReg) (s : State) : Host.Outcome State Fault Refusal :=
  s.plain g (done (s.setV d (ofLanes 32 ((lanes (s.getV b) 32).map fun x =>
    if bit x 4 then 0 else lane (s.getV a) 32 (x % 16)))))

/-- VINS: the lane of v[d] that v[b]'s lane 0 names := lane 0 of v[a] (08 R234). -/
def execVins (d a b : VReg) (g : PReg) (s : State) : Host.Outcome State Fault Refusal :=
  s.plain g (done (s.setV d (ofLanes 32 (setAt (lanes (s.getV d) 32) ((s.getV b).toNat % 16) (lane (s.getV a) 32 0)))))

/-- VQNT: two blocks of 8 lanes by the block-scale rule: 16 codes from bit 0, the scales at bits 256 and 264; AMAX
updated (08 R216, R235). -/
def execVqnt (d a : VReg) (g : PReg) (f : Fmt) (s : State) : Host.Outcome State Fault Refusal :=
  s.plain g (
    let h := s.me
    let vs := laneVals h.fmode .f32 (s.getV a)
    let (s0, c0, g0) := blockConv h.fmode h.g h.codebook.toList f (vs.take 8)
    let (s1, c1, g1) := blockConv h.fmode g0 h.codebook.toList f (vs.drop 8)
    let v := pack (fmtWidth f) (c0 ++ c1) + (s0 + 256 * s1) * 2 ^ 256
    done (s.setMe ({ h.noteAmax vs with g := g1 }.setV d (BitVec.ofNat 512 v))))

/-- Scaled accumulation into the first n f32 lanes of v[d]: the partial of each lane times the two scales of v[b]'s lane,
one rounding each (08 R235; 02 R42). -/
def vsaccLanes (fm : Word) (n : Nat) (part : Nat → FVal) (b d : VWord) : VWord :=
  ofLanes 32 ((List.range 16).map fun l =>
    let y := lane b 32 l
    if l < n then saccVals fm (lane d 32 l) [(part l, scaleVal fm (bits y 0 8), scaleVal fm (bits y 8 8))] else lane d 32 l)

/-- VSACC of 16 i32 partials (08 R235). -/
def execVsaccE2m1 (d a b : VReg) (g : PReg) (s : State) : Host.Outcome State Fault Refusal :=
  s.plain g (done (s.setV d
    (vsaccLanes s.me.fmode 16 (fun l => part32 (lane (s.getV a) 32 l)) (s.getV b) (s.getV d))))

/-- VSACC of 8 binary64 partials (08 R235). -/
def execVsaccE4m3 (d a b : VReg) (g : PReg) (s : State) : Host.Outcome State Fault Refusal :=
  s.plain g (done (s.setV d
    (vsaccLanes s.me.fmode 8 (fun l => part64 (lane (s.getV a) 64 l)) (s.getV b) (s.getV d))))

/-- FSC ADD (08 R230). -/
def execFscAdd (d a b : SReg) (g : PReg) (s : State) : Host.Outcome State Fault Refusal := s.fsc2 d a b g .add

/-- FSC SUB (08 R230). -/
def execFscSub (d a b : SReg) (g : PReg) (s : State) : Host.Outcome State Fault Refusal := s.fsc2 d a b g .sub

/-- FSC MUL (08 R230). -/
def execFscMul (d a b : SReg) (g : PReg) (s : State) : Host.Outcome State Fault Refusal := s.fsc2 d a b g .mul

/-- FSC FMA (08 R230). -/
def execFscFma (d a b : SReg) (g : PReg) (s : State) : Host.Outcome State Fault Refusal := s.fsc2 d a b g .fma

/-- FSC FNMA (08 R230). -/
def execFscFnma (d a b : SReg) (g : PReg) (s : State) : Host.Outcome State Fault Refusal := s.fsc2 d a b g .fnma

/-- FSC MIN (08 R230). -/
def execFscMin (d a b : SReg) (g : PReg) (s : State) : Host.Outcome State Fault Refusal := s.fsc2 d a b g .min

/-- FSC MAX (08 R230). -/
def execFscMax (d a b : SReg) (g : PReg) (s : State) : Host.Outcome State Fault Refusal := s.fsc2 d a b g .max

/-- FSC ABS (08 R230). -/
def execFscAbs (d a : SReg) (g : PReg) (s : State) : Host.Outcome State Fault Refusal := s.fsc1 d a g .abs

/-- FSC NEG (08 R230). -/
def execFscNeg (d a : SReg) (g : PReg) (s : State) : Host.Outcome State Fault Refusal := s.fsc1 d a g .neg

/-- FSC RSQS (08 R230). -/
def execFscRsqs (d a : SReg) (g : PReg) (s : State) : Host.Outcome State Fault Refusal := s.fsc1 d a g .rsqs

/-- FSC RCPS (08 R230). -/
def execFscRcps (d a : SReg) (g : PReg) (s : State) : Host.Outcome State Fault Refusal := s.fsc1 d a g .rcps

/-- FSC EXP2S (08 R230). -/
def execFscExp2s (d a : SReg) (g : PReg) (s : State) : Host.Outcome State Fault Refusal := s.fsc1 d a g .exp2s

/-- FSC LOG2S (08 R230). -/
def execFscLog2s (d a : SReg) (g : PReg) (s : State) : Host.Outcome State Fault Refusal := s.fsc1 d a g .log2s

/-- FSC RELU (08 R230). -/
def execFscRelu (d a : SReg) (g : PReg) (s : State) : Host.Outcome State Fault Refusal := s.fsc1 d a g .relu

/-- FSC CLAMP (08 R230). -/
def execFscClamp (d a b : SReg) (g : PReg) (s : State) : Host.Outcome State Fault Refusal := s.fsc2 d a b g .clamp

/-- FSC SEL (08 R230). -/
def execFscSel (d a b : SReg) (g : PReg) (s : State) : Host.Outcome State Fault Refusal := s.fsc2 d a b g .sel

/-- FSC CMPEQ (08 R230). -/
def execFscCmpeq (d a b : SReg) (g : PReg) (s : State) : Host.Outcome State Fault Refusal := s.fsc2 d a b g .cmpeq

/-- FSC CMPLT (08 R230). -/
def execFscCmplt (d a b : SReg) (g : PReg) (s : State) : Host.Outcome State Fault Refusal := s.fsc2 d a b g .cmplt

/-- FSC CMPLE (08 R230). -/
def execFscCmple (d a b : SReg) (g : PReg) (s : State) : Host.Outcome State Fault Refusal := s.fsc2 d a b g .cmple

/-- FSC MOV (08 R230). -/
def execFscMov (d a : SReg) (g : PReg) (s : State) : Host.Outcome State Fault Refusal := s.fsc1 d a g .mov

end Sys2Proof.Machine
end

