-- ==== Sys2Proof/Machine/Dispatch.lean ====
section
/-! DEFINITION. What each instruction does: one arm per constructor of Instr. -/

namespace Sys2Proof.Machine

def exec (i : Instr) (s : State) : Host.Outcome State Fault Refusal :=
  match i with
  | .add d a b g => Sys2Proof.Machine.execAdd d a b g s
  | .sub d a b g => Sys2Proof.Machine.execSub d a b g s
  | .and d a b g => Sys2Proof.Machine.execAnd d a b g s
  | .or d a b g => Sys2Proof.Machine.execOr d a b g s
  | .xor d a b g => Sys2Proof.Machine.execXor d a b g s
  | .andn d a b g => Sys2Proof.Machine.execAndn d a b g s
  | .shl d a b g => Sys2Proof.Machine.execShl d a b g s
  | .shr d a b g => Sys2Proof.Machine.execShr d a b g s
  | .sra d a b g => Sys2Proof.Machine.execSra d a b g s
  | .ror d a b g => Sys2Proof.Machine.execRor d a b g s
  | .min d a b g => Sys2Proof.Machine.execMin d a b g s
  | .max d a b g => Sys2Proof.Machine.execMax d a b g s
  | .minn d a b g => Sys2Proof.Machine.execMinn d a b g s
  | .maxn d a b g => Sys2Proof.Machine.execMaxn d a b g s
  | .mul d a b g => Sys2Proof.Machine.execMul d a b g s
  | .mulh d a b g => Sys2Proof.Machine.execMulh d a b g s
  | .mulhn d a b g => Sys2Proof.Machine.execMulhn d a b g s
  | .div d a b g => Sys2Proof.Machine.execDiv d a b g s
  | .divn d a b g => Sys2Proof.Machine.execDivn d a b g s
  | .rem d a b g => Sys2Proof.Machine.execRem d a b g s
  | .remn d a b g => Sys2Proof.Machine.execRemn d a b g s
  | .clz d a g => Sys2Proof.Machine.execClz d a g s
  | .ctz d a g => Sys2Proof.Machine.execCtz d a g s
  | .popc d a g => Sys2Proof.Machine.execPopc d a g s
  | .brev d a g => Sys2Proof.Machine.execBrev d a g s
  | .sext d a b g => Sys2Proof.Machine.execSext d a b g s
  | .zext d a b g => Sys2Proof.Machine.execZext d a b g s
  | .sel d a b p => Sys2Proof.Machine.execSel d a b p s
  | .addi d a imm => Sys2Proof.Machine.execAddi d a imm s
  | .andi d a imm => Sys2Proof.Machine.execAndi d a imm s
  | .ori d a imm => Sys2Proof.Machine.execOri d a imm s
  | .xori d a imm => Sys2Proof.Machine.execXori d a imm s
  | .shfiShl d a c => Sys2Proof.Machine.execShfiShl d a c s
  | .shfiShr d a c => Sys2Proof.Machine.execShfiShr d a c s
  | .shfiSra d a c => Sys2Proof.Machine.execShfiSra d a c s
  | .shfiRor d a c => Sys2Proof.Machine.execShfiRor d a c s
  | .muli d a imm => Sys2Proof.Machine.execMuli d a imm s
  | .li d imm => Sys2Proof.Machine.execLi d imm s
  | .lis d imm => Sys2Proof.Machine.execLis d imm s
  | .setpEq d a b g => Sys2Proof.Machine.execSetpEq d a b g s
  | .setpNe d a b g => Sys2Proof.Machine.execSetpNe d a b g s
  | .setpLt d a b g => Sys2Proof.Machine.execSetpLt d a b g s
  | .setpGe d a b g => Sys2Proof.Machine.execSetpGe d a b g s
  | .setpLtn d a b g => Sys2Proof.Machine.execSetpLtn d a b g s
  | .setpGen d a b g => Sys2Proof.Machine.execSetpGen d a b g s
  | .setpiEq p a imm => Sys2Proof.Machine.execSetpiEq p a imm s
  | .setpiNe p a imm => Sys2Proof.Machine.execSetpiNe p a imm s
  | .setpiLt p a imm => Sys2Proof.Machine.execSetpiLt p a imm s
  | .setpiGe p a imm => Sys2Proof.Machine.execSetpiGe p a imm s
  | .pand d a b g => Sys2Proof.Machine.execPand d a b g s
  | .por d a b g => Sys2Proof.Machine.execPor d a b g s
  | .pxor d a b g => Sys2Proof.Machine.execPxor d a b g s
  | .pnot d a g => Sys2Proof.Machine.execPnot d a g s
  | .pmov d a g => Sys2Proof.Machine.execPmov d a g s
  | .ptos d a g => Sys2Proof.Machine.execPtos d a g s
  | .mkptr d a b g => Sys2Proof.Machine.execMkptr d a b g s
  | .pspc d a g => Sys2Proof.Machine.execPspc d a g s
  | .padd d a b g => Sys2Proof.Machine.execPadd d a b g s
  | .pcore d a b g => Sys2Proof.Machine.execPcore d a b g s
  | .keylk d a b g => Sys2Proof.Machine.execKeylk d a b g s
  | .br g v o => Sys2Proof.Machine.execBr g v o s
  | .call g v o => Sys2Proof.Machine.execCall g v o s
  | .jr a g => Sys2Proof.Machine.execJr a g s
  | .jalr d a g => Sys2Proof.Machine.execJalr d a g s
  | .ret g => Sys2Proof.Machine.execRet g s
  | .jtab d a n => Sys2Proof.Machine.execJtab d a n s
  | .loop a l => Sys2Proof.Machine.execLoop a l s
  | .loopi l c => Sys2Proof.Machine.execLoopi l c s
  | .lbrk g => Sys2Proof.Machine.execLbrk g s
  | .fork g => Sys2Proof.Machine.execFork g s
  | .swq g => Sys2Proof.Machine.execSwq g s
  | .pick p g => Sys2Proof.Machine.execPick p g s
  | .ld d a o z sc m => Sys2Proof.Machine.execLd d a o z sc m s
  | .st d a o z sc m => Sys2Proof.Machine.execSt d a o z sc m s
  | .ldv d a o z sc m => Sys2Proof.Machine.execLdv d a o z sc m s
  | .stv d a o z sc m => Sys2Proof.Machine.execStv d a o z sc m s
  | .amoAadd d a b sc r z => Sys2Proof.Machine.execAmoAadd d a b sc r z s
  | .amoAmin d a b sc r z => Sys2Proof.Machine.execAmoAmin d a b sc r z s
  | .amoAmax d a b sc r z => Sys2Proof.Machine.execAmoAmax d a b sc r z s
  | .amoAminn d a b sc r z => Sys2Proof.Machine.execAmoAminn d a b sc r z s
  | .amoAmaxn d a b sc r z => Sys2Proof.Machine.execAmoAmaxn d a b sc r z s
  | .amoAand d a b sc r z => Sys2Proof.Machine.execAmoAand d a b sc r z s
  | .amoAor d a b sc r z => Sys2Proof.Machine.execAmoAor d a b sc r z s
  | .amoAxor d a b sc r z => Sys2Proof.Machine.execAmoAxor d a b sc r z s
  | .amoAswap d a b sc r z => Sys2Proof.Machine.execAmoAswap d a b sc r z s
  | .amoAcas d a b sc r z => Sys2Proof.Machine.execAmoAcas d a b sc r z s
  | .amoAfadd d a b sc r z => Sys2Proof.Machine.execAmoAfadd d a b sc r z s
  | .fence sc g => Sys2Proof.Machine.execFence sc g s
  | .fenceLd sc g => Sys2Proof.Machine.execFenceLd sc g s
  | .fenceSt sc g => Sys2Proof.Machine.execFenceSt sc g s
  | .wfence g => Sys2Proof.Machine.execWfence g s
  | .mfence g => Sys2Proof.Machine.execMfence g s
  | .ifence g => Sys2Proof.Machine.execIfence g s
  | .binit a b g => Sys2Proof.Machine.execBinit a b g s
  | .barr d a b g => Sys2Proof.Machine.execBarr d a b g s
  | .bwait a b g => Sys2Proof.Machine.execBwait a b g s
  | .bleave a b g => Sys2Proof.Machine.execBleave a b g s
  | .bqry d a b g => Sys2Proof.Machine.execBqry d a b g s
  | .qsend d a b g => Sys2Proof.Machine.execQsend d a b g s
  | .qrecv d a b g => Sys2Proof.Machine.execQrecv d a b g s
  | .qpoll d a g => Sys2Proof.Machine.execQpoll d a g s
  | .collAllred x y a r f => Sys2Proof.Machine.execCollAllred x y a r f s
  | .collRedscat x y a r f => Sys2Proof.Machine.execCollRedscat x y a r f s
  | .collAllgath x y a f => Sys2Proof.Machine.execCollAllgath x y a f s
  | .collBcast x y a f => Sys2Proof.Machine.execCollBcast x y a f s
  | .collA2a x y a f => Sys2Proof.Machine.execCollA2a x y a f s
  | .lrpatch a b g => Sys2Proof.Machine.execLrpatch a b g s
  | .lrarm a g => Sys2Proof.Machine.execLrarm a g s
  | .lrqry d a g => Sys2Proof.Machine.execLrqry d a g s
  | .cntadd a b g => Sys2Proof.Machine.execCntadd a b g s
  | .vcnt a b g => Sys2Proof.Machine.execVcnt a b g s
  | .cntrd d a g => Sys2Proof.Machine.execCntrd d a g s
  | .cntsnap d a g => Sys2Proof.Machine.execCntsnap d a g s
  | .wtrd d g => Sys2Proof.Machine.execWtrd d g s
  | .atset d a b g => Sys2Proof.Machine.execAtset d a b g s
  | .atcan d a g => Sys2Proof.Machine.execAtcan d a g s
  | .atwait d a g => Sys2Proof.Machine.execAtwait d a g s
  | .bwph a b g => Sys2Proof.Machine.execBwph a b g s
  | .bwqry d a g => Sys2Proof.Machine.execBwqry d a g s
  | .cfg a => Sys2Proof.Machine.execCfg a s
  | .cfgwait a => Sys2Proof.Machine.execCfgwait a s
  | .cfgwaitQ a => Sys2Proof.Machine.execCfgwaitQ a s
  | .start a => Sys2Proof.Machine.execStart a s
  | .stopp a => Sys2Proof.Machine.execStopp a s
  | .stoppNow a => Sys2Proof.Machine.execStoppNow a s
  | .splarm a => Sys2Proof.Machine.execSplarm a s
  | .splice => Sys2Proof.Machine.execSplice s
  | .bypmap a => Sys2Proof.Machine.execBypmap a s
  | .bypmapCol a => Sys2Proof.Machine.execBypmapCol a s
  | .dlyset a => Sys2Proof.Machine.execDlyset a s
  | .holdtab a => Sys2Proof.Machine.execHoldtab a s
  | .shld x a => Sys2Proof.Machine.execShld x a s
  | .shst x a => Sys2Proof.Machine.execShst x a s
  | .strm x y n a => Sys2Proof.Machine.execStrm x y n a s
  | .strmq n a => Sys2Proof.Machine.execStrmq n a s
  | .xform n a => Sys2Proof.Machine.execXform n a s
  | .cbload a => Sys2Proof.Machine.execCbload a s
  | .slset x a => Sys2Proof.Machine.execSlset x a s
  | .slput x a => Sys2Proof.Machine.execSlput x a s
  | .sltake x a => Sys2Proof.Machine.execSltake x a s
  | .slqry x a => Sys2Proof.Machine.execSlqry x a s
  | .slqryD x a => Sys2Proof.Machine.execSlqryD x a s
  | .slwaitData x a => Sys2Proof.Machine.execSlwaitData x a s
  | .slwaitRoom x a => Sys2Proof.Machine.execSlwaitRoom x a s
  | .tstep x y a n => Sys2Proof.Machine.execTstep x y a n s
  | .tstepV x y z n => Sys2Proof.Machine.execTstepV x y z n s
  | .wtbl a b g => Sys2Proof.Machine.execWtbl a b g s
  | .wdec a g => Sys2Proof.Machine.execWdec a g s
  | .wseek a g => Sys2Proof.Machine.execWseek a g s
  | .wdqry d a g => Sys2Proof.Machine.execWdqry d a g s
  | .scset a b g => Sys2Proof.Machine.execScset a b g s
  | .scfl g => Sys2Proof.Machine.execScfl g s
  | .chain a b g => Sys2Proof.Machine.execChain a b g s
  | .chconst a b g => Sys2Proof.Machine.execChconst a b g s
  | .vopAdd d a b g t => Sys2Proof.Machine.execVopAdd d a b g t s
  | .vopSub d a b g t => Sys2Proof.Machine.execVopSub d a b g t s
  | .vopMul d a b g t => Sys2Proof.Machine.execVopMul d a b g t s
  | .vopFma d a b g t => Sys2Proof.Machine.execVopFma d a b g t s
  | .vopFnma d a b g t => Sys2Proof.Machine.execVopFnma d a b g t s
  | .vopMin d a b g t => Sys2Proof.Machine.execVopMin d a b g t s
  | .vopMax d a b g t => Sys2Proof.Machine.execVopMax d a b g t s
  | .vopAbs d a g t => Sys2Proof.Machine.execVopAbs d a g t s
  | .vopNeg d a g t => Sys2Proof.Machine.execVopNeg d a g t s
  | .vopRsqs d a g t => Sys2Proof.Machine.execVopRsqs d a g t s
  | .vopRcps d a g t => Sys2Proof.Machine.execVopRcps d a g t s
  | .vopExp2s d a g t => Sys2Proof.Machine.execVopExp2s d a g t s
  | .vopLog2s d a g t => Sys2Proof.Machine.execVopLog2s d a g t s
  | .vopRelu d a g t => Sys2Proof.Machine.execVopRelu d a g t s
  | .vopClamp d a b g t => Sys2Proof.Machine.execVopClamp d a b g t s
  | .vopSel d a b g t => Sys2Proof.Machine.execVopSel d a b g t s
  | .vopCmpeq d a b g t => Sys2Proof.Machine.execVopCmpeq d a b g t s
  | .vopCmplt d a b g t => Sys2Proof.Machine.execVopCmplt d a b g t s
  | .vopCmple d a b g t => Sys2Proof.Machine.execVopCmple d a b g t s
  | .vopMov d a g t => Sys2Proof.Machine.execVopMov d a g t s
  | .vopAmaxu d a g t => Sys2Proof.Machine.execVopAmaxu d a g t s
  | .vcvt d a g t f => Sys2Proof.Machine.execVcvt d a g t f s
  | .vsum d a g => Sys2Proof.Machine.execVsum d a g s
  | .vmax d a g => Sys2Proof.Machine.execVmax d a g s
  | .vmin d a g => Sys2Proof.Machine.execVmin d a g s
  | .vamax d a g => Sys2Proof.Machine.execVamax d a g s
  | .vbcast d a g => Sys2Proof.Machine.execVbcast d a g s
  | .vext d a b g => Sys2Proof.Machine.execVext d a b g s
  | .vshuf d a b g => Sys2Proof.Machine.execVshuf d a b g s
  | .vins d a b g => Sys2Proof.Machine.execVins d a b g s
  | .fscAdd d a b g => Sys2Proof.Machine.execFscAdd d a b g s
  | .fscSub d a b g => Sys2Proof.Machine.execFscSub d a b g s
  | .fscMul d a b g => Sys2Proof.Machine.execFscMul d a b g s
  | .fscFma d a b g => Sys2Proof.Machine.execFscFma d a b g s
  | .fscFnma d a b g => Sys2Proof.Machine.execFscFnma d a b g s
  | .fscMin d a b g => Sys2Proof.Machine.execFscMin d a b g s
  | .fscMax d a b g => Sys2Proof.Machine.execFscMax d a b g s
  | .fscAbs d a g => Sys2Proof.Machine.execFscAbs d a g s
  | .fscNeg d a g => Sys2Proof.Machine.execFscNeg d a g s
  | .fscRsqs d a g => Sys2Proof.Machine.execFscRsqs d a g s
  | .fscRcps d a g => Sys2Proof.Machine.execFscRcps d a g s
  | .fscExp2s d a g => Sys2Proof.Machine.execFscExp2s d a g s
  | .fscLog2s d a g => Sys2Proof.Machine.execFscLog2s d a g s
  | .fscRelu d a g => Sys2Proof.Machine.execFscRelu d a g s
  | .fscClamp d a b g => Sys2Proof.Machine.execFscClamp d a b g s
  | .fscSel d a b g => Sys2Proof.Machine.execFscSel d a b g s
  | .fscCmpeq d a b g => Sys2Proof.Machine.execFscCmpeq d a b g s
  | .fscCmplt d a b g => Sys2Proof.Machine.execFscCmplt d a b g s
  | .fscCmple d a b g => Sys2Proof.Machine.execFscCmple d a b g s
  | .fscMov d a g => Sys2Proof.Machine.execFscMov d a g s
  | .vqnt d a g f => Sys2Proof.Machine.execVqnt d a g f s
  | .vsaccE2m1 d a b g => Sys2Proof.Machine.execVsaccE2m1 d a b g s
  | .vsaccE4m3 d a b g => Sys2Proof.Machine.execVsaccE4m3 d a b g s
  | .nop => Sys2Proof.Machine.execNop s
  | .trap n => Sys2Proof.Machine.execTrap n s
  | .eret => Sys2Proof.Machine.execEret s
  | .mrd r d => Sys2Proof.Machine.execMrd r d s
  | .mwr r a => Sys2Proof.Machine.execMwr r a s
  | .yield => Sys2Proof.Machine.execYield s
  | .wait d a => Sys2Proof.Machine.execWait d a s
  | .halt => Sys2Proof.Machine.execHalt s
  | .brk n => Sys2Proof.Machine.execBrk n s
  | .dbgh a => Sys2Proof.Machine.execDbgh a s
  | .seed a => Sys2Proof.Machine.execSeed a s
  | .powerOnReset => Sys2Proof.Machine.execPowerOnReset s
  | .hostPortTraining => Sys2Proof.Machine.execHostPortTraining s
  | .mread => Sys2Proof.Machine.execMread s
  | .mwrite => Sys2Proof.Machine.execMwrite s
  | .registerWrite => Sys2Proof.Machine.execRegisterWrite s
  | .mbBoot => Sys2Proof.Machine.execMbBoot s
  | .mbAttest => Sys2Proof.Machine.execMbAttest s
  | .mbPubkey => Sys2Proof.Machine.execMbPubkey s
  | .mbManifest => Sys2Proof.Machine.execMbManifest s
  | .mbInstall => Sys2Proof.Machine.execMbInstall s
  | .mbCmap => Sys2Proof.Machine.execMbCmap s
  | .hostBuild => Sys2Proof.Machine.execHostBuild s
  | .hostLaunch => Sys2Proof.Machine.execHostLaunch s
  | .hostCancel => Sys2Proof.Machine.execHostCancel s
  | .hostClear => Sys2Proof.Machine.execHostClear s
  | .hostTeardown => Sys2Proof.Machine.execHostTeardown s
  | .semRead => Sys2Proof.Machine.execSemRead s
  | .semFree => Sys2Proof.Machine.execSemFree s
  | .deviceLaunch => Sys2Proof.Machine.execDeviceLaunch s
  | .launchDispatch => Sys2Proof.Machine.execLaunchDispatch s
  | .preemptRequest => Sys2Proof.Machine.execPreemptRequest s
  | .graphNodeEnd => Sys2Proof.Machine.execGraphNodeEnd s
  | .graphNodeLoad => Sys2Proof.Machine.execGraphNodeLoad s
  | .loadEnd => Sys2Proof.Machine.execLoadEnd s
  | .graphNodeCond => Sys2Proof.Machine.execGraphNodeCond s
  | .graphNodeWhile => Sys2Proof.Machine.execGraphNodeWhile s
  | .graphNodeHold => Sys2Proof.Machine.execGraphNodeHold s
  | .holdNodeReread => Sys2Proof.Machine.execHoldNodeReread s
  | .graphNodeArm => Sys2Proof.Machine.execGraphNodeArm s
  | .partitionEnable => Sys2Proof.Machine.execPartitionEnable s
  | .pcmdResume => Sys2Proof.Machine.execPcmdResume s
  | .pcmdHalt => Sys2Proof.Machine.execPcmdHalt s
  | .pcmdSwitch => Sys2Proof.Machine.execPcmdSwitch s
  | .pringrdWrite => Sys2Proof.Machine.execPringrdWrite s
  | .pringbaseWrite => Sys2Proof.Machine.execPringbaseWrite s
  | .pstopbaseWrite => Sys2Proof.Machine.execPstopbaseWrite s
  | .pringctlWrite => Sys2Proof.Machine.execPringctlWrite s
  | .kmfifoRead => Sys2Proof.Machine.execKmfifoRead s
  | .ctxCreate => Sys2Proof.Machine.execCtxCreate s
  | .ctxDestroy => Sys2Proof.Machine.execCtxDestroy s
  | .xinvCtx => Sys2Proof.Machine.execXinvCtx s
  | .xinvPage => Sys2Proof.Machine.execXinvPage s
  | .xinvAll => Sys2Proof.Machine.execXinvAll s
  | .xinvComplete => Sys2Proof.Machine.execXinvComplete s
  | .translationWalkDone => Sys2Proof.Machine.execTranslationWalkDone s
  | .yieldDeadline => Sys2Proof.Machine.execYieldDeadline s
  | .cooperativeStop => Sys2Proof.Machine.execCooperativeStop s
  | .cooperativeTimeout => Sys2Proof.Machine.execCooperativeTimeout s
  | .contextFlip => Sys2Proof.Machine.execContextFlip s
  | .bankSpillRestore => Sys2Proof.Machine.execBankSpillRestore s
  | .haltLineArrival => Sys2Proof.Machine.execHaltLineArrival s
  | .stopRecordsDone => Sys2Proof.Machine.execStopRecordsDone s
  | .plotRowAttempt => Sys2Proof.Machine.execPlotRowAttempt s
  | .markCommit => Sys2Proof.Machine.execMarkCommit s
  | .timingLimit => Sys2Proof.Machine.execTimingLimit s
  | .plotRelease => Sys2Proof.Machine.execPlotRelease s
  | .tstepFeedPresent => Sys2Proof.Machine.execTstepFeedPresent s
  | .cfgSwitching => Sys2Proof.Machine.execCfgSwitching s
  | .cfgBackgroundDone => Sys2Proof.Machine.execCfgBackgroundDone s
  | .spliceStagingDone => Sys2Proof.Machine.execSpliceStagingDone s
  | .streamNodeRead => Sys2Proof.Machine.execStreamNodeRead s
  | .streamNodeFire => Sys2Proof.Machine.execStreamNodeFire s
  | .chainFire => Sys2Proof.Machine.execChainFire s
  | .decoderSegmentDecode => Sys2Proof.Machine.execDecoderSegmentDecode s
  | .decoderWordDeliver => Sys2Proof.Machine.execDecoderWordDeliver s
  | .scaleCacheFill => Sys2Proof.Machine.execScaleCacheFill s
  | .taskSchedulerCycle => Sys2Proof.Machine.execTaskSchedulerCycle s
  | .tskctlWrite => Sys2Proof.Machine.execTskctlWrite s
  | .ttbaseWrite => Sys2Proof.Machine.execTtbaseWrite s
  | .queueMessageArrival => Sys2Proof.Machine.execQueueMessageArrival s
  | .routerForward => Sys2Proof.Machine.execRouterForward s
  | .packetDeliver => Sys2Proof.Machine.execPacketDeliver s
  | .routeTableWrite => Sys2Proof.Machine.execRouteTableWrite s
  | .timedActionFire => Sys2Proof.Machine.execTimedActionFire s
  | .domainWindowBoundary => Sys2Proof.Machine.execDomainWindowBoundary s
  | .servoAdjust => Sys2Proof.Machine.execServoAdjust s
  | .ptpEvent => Sys2Proof.Machine.execPtpEvent s
  | .ethLinkEvent => Sys2Proof.Machine.execEthLinkEvent s
  | .remoteAccessArrival => Sys2Proof.Machine.execRemoteAccessArrival s
  | .l1SectorAgeWriteback => Sys2Proof.Machine.execL1SectorAgeWriteback s
  | .bankIdleLower => Sys2Proof.Machine.execBankIdleLower s
  | .bankWakeComplete => Sys2Proof.Machine.execBankWakeComplete s
  | .bwphApply => Sys2Proof.Machine.execBwphApply s
  | .bankPhaseWakeStart => Sys2Proof.Machine.execBankPhaseWakeStart s
  | .bwphPhaseTime => Sys2Proof.Machine.execBwphPhaseTime s
  | .bpcClassWrite => Sys2Proof.Machine.execBpcClassWrite s
  | .budgetIntervalBoundary => Sys2Proof.Machine.execBudgetIntervalBoundary s
  | .clQreqWrite => Sys2Proof.Machine.execClQreqWrite s
  | .clSwallowReqWrite => Sys2Proof.Machine.execClSwallowReqWrite s
  | .quiescePointChange => Sys2Proof.Machine.execQuiescePointChange s
  | .swallowForceTimeout => Sys2Proof.Machine.execSwallowForceTimeout s
  | .clRailReqWrite => Sys2Proof.Machine.execClRailReqWrite s
  | .railTransitionDone => Sys2Proof.Machine.execRailTransitionDone s
  | .clWakeWrite => Sys2Proof.Machine.execClWakeWrite s
  | .clusterWakeDone => Sys2Proof.Machine.execClusterWakeDone s
  | .thermalSample => Sys2Proof.Machine.execThermalSample s
  | .energyInterval => Sys2Proof.Machine.execEnergyInterval s
  | .ballastStep => Sys2Proof.Machine.execBallastStep s
  | .rmcWake => Sys2Proof.Machine.execRmcWake s
  | .rmcDoorbell => Sys2Proof.Machine.execRmcDoorbell s
  | .retcmdTest => Sys2Proof.Machine.execRetcmdTest s
  | .testComplete => Sys2Proof.Machine.execTestComplete s
  | .retcmdRetire => Sys2Proof.Machine.execRetcmdRetire s
  | .retcmdCellbad => Sys2Proof.Machine.execRetcmdCellbad s
  | .retireComplete => Sys2Proof.Machine.execRetireComplete s
  | .patrolScrub => Sys2Proof.Machine.execPatrolScrub s
  | .sliceRowRemap => Sys2Proof.Machine.execSliceRowRemap s
  | .dbgctlHaltall => Sys2Proof.Machine.execDbgctlHaltall s
  | .dbgctlResumeall => Sys2Proof.Machine.execDbgctlResumeall s
  | .testPortHalt => Sys2Proof.Machine.execTestPortHalt s
  | .collComplete => Sys2Proof.Machine.execCollComplete s
  | .illegalEncoding => Sys2Proof.Machine.execIllegalEncoding s
  | .instructionFetchFault => Sys2Proof.Machine.execInstructionFetchFault s
  | .streamNodeWriteWalk => Sys2Proof.Machine.execStreamNodeWriteWalk s
  | .remoteAcknowledgement => Sys2Proof.Machine.execRemoteAcknowledgement s
  | .ethFrameRetransmit => Sys2Proof.Machine.execEthFrameRetransmit s
  | .servoLockChange => Sys2Proof.Machine.execServoLockChange s

end Sys2Proof.Machine
end

