-- ==== Sys2Proof/Machine/Fetch.lean ====
section
/-! DEFINITION. Fetching an instruction's word (06 R143; 05 R110, R124), which sequencers can issue, and the helpers of
one step. -/

namespace Sys2Proof.Machine

/-- Does an RMC fetch lie within the firmware bounds (26 R452)? -/
def inFirmware (s : State) (pa : Nat) : Bool :=
  let b := region5 s.mod.fwbase
  decide (b ≤ pa) && decide (pa < b + s.mod.fwsize.toNat)

/-- The home of an RMC's fetch: region 5 within the firmware bounds (06 R143). -/
def State.rmcFetchAddr (s : State) (pc : Word) : Acc Nat := do
  let x := pc.toNat
  chk (space pc == 15 && bits x 56 4 == 5 && bits x 41 15 == 0) cAddr
  let pa := region5 pc
  chk (inFirmware s pa) cProt
  chk (!s.mapped pa) cProt
  .ok pa

/-- The next word of the current sequencer, and the state with its instruction cache filled. DEDUCED (log 58): a fetch from space 0xF
raises ADDR in either mode, as 06 R143 says of a space from which instructions cannot be fetched, though 05 R111 and R118 would give
PRIV in user mode. -/
def State.fetch (s : State) : Acc (State × IWord) :=
  let h := s.me
  match SMap.get? h.icache h.pc.toNat with
  | some w => .ok (s, w)
  | none => do
    let keepWord := fun (t : State) (v : Nat) =>
      let w : IWord := BitVec.ofNat 32 v
      (t.setMe { t.me with icache := SMap.set t.me.icache h.pc.toNat w }, w)
    if isRmc s.cur then do
      let a ← s.rmcFetchAddr h.pc
      s.mgmtCrossing s.cur h.pc.toNat
      s.dramReady (a / 2 ^ 32) 2 a s.cur
      let v ← s.homeRead a 4
      .ok (keepWord (s.touchAs 2 a s.cur false) v)
    else do
      let sp := space h.pc
      chk (decide (sp ≤ 2) || sp == 4) cAddr
      match ← s.resolve s.cur h.pc 4 .fetch with
      | .home a => do
        s.homeReady s.cur (if sp ≤ 2 then 0 else sp) a 4 false
        let (t, v) ← s.loadAt s.cur (if sp ≤ 2 then 0 else sp) a 4 false
        .ok (keepWord t v)
      | .window _ _ _ _ _ | .remote _ _ | .mgmt => flt cAddr

/-- May a sequencer issue an instruction now? -/
def State.canIssue (s : State) (k : Nat) : Bool :=
  let h := s.hg k
  !h.stopped && decide (h.run ≠ .idle) && s.engineOn k && (isRmc k || decide (h.startAt ≤ s.cycleOf (clusterOf (coreOf k))))

/-- A word of a sequencer's instruction cache is dropped. -/
def State.dropWord (s : State) (k a : Nat) : State := s.modHg k fun h => { h with icache := SMap.erase h.icache a }

/-- The pointer to offset 0 of the issuing core's scratchpad (05 R117). -/
def scratch0 : Word := 0x4000FFFF00000000#64

/-- The state of State.withFetchWord. -/
def State.placeWord (s : State) (w : Nat) : State :=
  let s := s.modPart 0 fun q => { q with en := true, cores := [0], av := true, active := 0, halted := false }
  let s := s.modCtx 0 fun c => { c with state := 3, part := 0 }
  let s := s.modCluster 0 fun c =>
    { c with banks := SMap.set c.banks 16 { c.bank 16 with cls := 1, state := 0 }, cur := 0xFFFF, rail := 0 }
  let s := s.modCore 0 fun c => { c with role1 := 0x4444333322222222#64, halted := false, unrestored := [] }
  let s := s.modHg 0 fun h => { h with pc := scratch0, run := .program, stopped := false, icache := SMap.erase h.icache scratch0.toNat }
  { s.writeN (bankAddr 0 16 0) 4 w with cur := 0, agenda := [], turns := [] }

end Sys2Proof.Machine
end

