-- ==== Sys2Proof/Machine/Turn.lean ====
section
/-! DEFINITION. What happens when: the order of the steps of one tick (02 R49; 07 R179, R181, R186, R191; 08 R206, R220; 10 R258, R262; 17
R357), the events that take place by themselves at their tick, the passing of a tick, and the actions of the agenda. Log 10. -/

namespace Sys2Proof.Machine

/-! ## The order of the steps of one tick -/

/-- A place that a step takes among those of its tick: it may not follow one of a higher rank, nor any other where it stands alone. -/
structure Place where
  turn : Turn
  rank : Nat := 0
  alone : Bool := false
  deriving DecidableEq, Repr

/-- May a step take its places now? -/
def State.allows (s : State) (l : List Place) : Bool :=
  l.all fun x => if x.alone then s.firstTurn x.turn else s.inTurn x.turn x.rank

/-- A step has taken its places. -/
def State.noted (s : State) (l : List Place) : State := l.foldl (fun s x => s.noteTurn x.turn x.rank) s

/-- A sequencer's rank in an order by logical core, then headgate. -/
def State.hgRank (s : State) (k : Nat) : Nat := 4 * s.lcore (coreOf k) + hgnOf k

/-- A partition's place in an order over all of them. -/
def partRank (p : Nat) : Nat := 2 ^ 20 * p

/-- The rank of the halt line among the steps that concern a partition's plots, and that of a TIMING. -/
def haltRank : Nat := 2 ^ 21
def timingRank : Nat := 2 ^ 22

/-- What every step takes but a task scheduler's cycle, which sees the state before all of them (10 R258, R262), and the energy of an
interval, which is added after all of them (23 R429). -/
def anyPlace : Place := ⟨.anything, 1, false⟩

/-- The places of an instruction that a sequencer issues. DESIGN CHOICE (log 61): one instruction of a sequencer in a tick. -/
def State.issuePlaces (s : State) (k : Nat) (i : Instr) : List Place :=
  let p := s.hgPart k
  let r := s.hgRank k
  let own : List Place := match i with
    | .binit _ _ _ | .barr _ _ _ _ | .bwait _ _ _ | .bleave _ _ _ => [⟨.barriers p, r, false⟩]
    | .qrecv _ _ _ _ => [⟨.queues (unitCore k), hgnOf k, false⟩]
    | .lrpatch _ _ _ | .lrarm _ _ | .lrqry _ _ _ => [⟨.records, partRank p + r, false⟩, ⟨.dispatcher, 0, false⟩]
    | .bwph _ _ _ => [⟨.phases p, r, false⟩]
    | .start _ | .stopp _ | .stoppNow _ | .dlyset _ | .holdtab _ => [⟨.plots p, 1 + r, false⟩]
    | .slset _ _ | .slput _ _ | .sltake _ _ | .slqry _ _ | .slqryD _ _ | .slwaitData _ _ | .slwaitRoom _ _ =>
      [⟨.sluices (unitCore k), 1 + hgnOf k, false⟩]
    | .mwr n _ => if n = 0x011 ∨ n = 0x012 then [⟨.stats k, 0, false⟩] else []
    | _ => []
  ⟨.seqr k, 0, true⟩ :: anyPlace :: own

/-- The places of a timed action (07 R189; 08 R206; 10 R262). -/
def State.timedPlaces (s : State) (k : Nat) (x : TimedSlot) : List Place :=
  let p := s.hgPart k
  match x.kind with
  | 1 => [⟨.plots p, 0, false⟩]
  | 2 => [⟨.records, partRank p, false⟩, ⟨.dispatcher, 0, false⟩]
  | 3 => [⟨.sluices (unitCore k), 0, false⟩]
  | 4 => [⟨.phases p, 0, false⟩]
  | _ => []

/-- The places of an event. -/
def State.eventPlaces (s : State) (i : Instr) (inp : Inp) : List Place :=
  let k := inp.unit
  match i with
  | .taskSchedulerCycle => [⟨.anything, 0, false⟩, ⟨.scheduler k, 0, true⟩]
  | .timedActionFire => anyPlace :: s.timedPlaces k ((s.hg k).timed.get (Fin.ofNat 8 (inp.idx % 8)))
  | .hostBuild | .hostLaunch | .hostCancel | .hostClear | .hostTeardown | .deviceLaunch | .preemptRequest =>
    [anyPlace, ⟨.command, 0, true⟩, ⟨.dispatcher, 1, false⟩]
  | .launchDispatch => [anyPlace, ⟨.dispatcher, 1, false⟩]
  | .graphNodeEnd | .graphNodeLoad | .graphNodeCond | .graphNodeWhile | .graphNodeHold | .graphNodeArm | .loadEnd | .holdNodeReread =>
    [anyPlace, ⟨.dispatcher, 2, false⟩]
  | .streamNodeRead | .streamNodeWriteWalk | .streamNodeFire | .chainFire => [anyPlace, ⟨.sluices (coreOf k), 0, false⟩, ⟨.stats k, 1, false⟩]
  | .markCommit => anyPlace :: ((s.plot? k inp.idx).map fun q => (⟨.stats q.starter, 1, false⟩ : Place)).toList
  | .haltLineArrival => anyPlace :: ((s.partOf k).map fun p => (⟨.plots p, haltRank, false⟩ : Place)).toList
  | .timingLimit => [anyPlace, ⟨.plots k, timingRank, false⟩]
  | .thermalSample => [anyPlace, ⟨.sample (k % 64), 0, true⟩]
  | .energyInterval => if s.wt % 1600 = 0 then [⟨.anything, 2, false⟩, ⟨.energy k, 0, true⟩] else []
  | _ => [anyPlace]

/-! ## Events that take place by themselves -/

/-- An event of the opcode table and what it is about. -/
abbrev Event := Instr × Inp

/-- Does an event change anything? -/
def State.effective (s : State) (e : Event) : Bool :=
  match exec e.1 { s with inp := e.2 } with
  | .next t => { t with inp := s.inp } != s
  | .fault _ | .refused _ => true

/-- A cycle of every core's task scheduler that has not had one in this tick, as long as it is in order (10 R258). -/
def State.schedulersDue (s : State) : List Event :=
  if s.inTurn .anything 0 then
    s.cores.filterMap fun e =>
      if e.2.ttcount != 0 && s.firstTurn (.scheduler e.1) then some (.taskSchedulerCycle, { unit := e.1 }) else none
  else []

/-- What is due of a cluster's clock, rail and budget (13 R324; 23 R419, R422, R425). -/
def State.clusterDue (s : State) (cl : Nat) (c : Cluster) : List Event :=
  let u : Inp := { unit := cl }
  (if c.changing then [(.quiescePointChange, u), (.swallowForceTimeout, u)] else [])
    ++ (if c.ballast != c.ballastLevel s.wt then [(.ballastStep, u)] else [])
    ++ (if c.railTo == some 1 then [(.railTransitionDone, u)] else [])
    ++ (if c.railTo == some 0 && c.rail == 1 then [(.clusterWakeDone, u)] else [])
    ++ (if s.wt % c.interval = 0 ∧ c.boundWt ≠ some s.wt
          ∧ (c.granted ≠ 0 ∨ c.transfers ≠ [] ∨ c.eff ≠ bits c.budget.toNat 0 32 ∨ c.interval ≠ bits c.budget.toNat 32 16
            ∨ s.thermal cl 1) then
        [(.budgetIntervalBoundary, u)] else [])

/-- The wakes of a cluster's banks that are over (13 R312). -/
def State.wakesDue (s : State) (cl : Nat) (c : Cluster) : List Event :=
  c.banks.filterMap fun e => if s.wakeOver cl e.1 then some (.bankWakeComplete, { unit := cl, idx := e.1 }) else none

/-- What is due of a partition's bandwidth declaration (13 R321, R322): it is applied after a restore; the wake of a bank that it names
starts a wake latency before its time; at its time the banks are ACTIVE. -/
def State.phaseDue (s : State) (p : Nat) (q : Part) : List Event :=
  (if q.bwDue then [(.bwphApply, { unit := p })] else [])
    ++ (if q.bwSet.isSome && !q.short && decide (s.wt < q.bwphwt.toNat) then
        (s.namedBanks p).filterMap fun b =>
          match s.wakeTicks b.1 b.2 with
          | some n =>
            if (s.bank b.1 b.2).state != 0 && decide (q.bwphwt.toNat ≤ s.wt + n) then
              some (.bankPhaseWakeStart, { unit := b.1, idx := b.2 })
            else none
          | none => none
      else [])
    ++ (if q.bwSet.isSome && decide (q.bwphwt.toNat = s.wt) then [(.bwphPhaseTime, { unit := p })] else [])

/-- What is due of a partition's context switch: the stop of a cooperative one, the deadlines (18 R377, R378). -/
def State.switchDue (s : State) (p : Nat) (q : Part) : List Event :=
  match q.sw with
  | .requested _ _ d false => if d < s.wt then [(.yieldDeadline, { unit := p })] else []
  | .requested _ a d true =>
    (.cooperativeStop, { unit := p }) :: if 2 * d - a ≤ s.wt then [(.cooperativeTimeout, { unit := p })] else []
  | .none | .flip _ _ => []

/-- The timed actions whose tick has come, each with its place in the order of partition, logical core, headgate and slot (07 R189; 08
R206). -/
def State.timersDue (s : State) : List (Nat × Event) :=
  s.hgs.flatMap fun e => (List.range 8).filterMap fun i =>
    let x := e.2.timed.get (Fin.ofNat 8 i)
    if x.busy && !x.fired && decide (x.wt ≤ s.wt) && s.timersOn e.1 then
      some (8 * (partRank (s.hgPart e.1) + s.hgRank e.1) + i, .timedActionFire, { unit := e.1, idx := i })
    else none

/-- The halted RMCs that a latched event resumes (23 R430; 24 R433). -/
def State.rmcsDue (s : State) : List Event :=
  s.reticles.filterMap fun e =>
    if e.2.rmc.wakepend && !e.2.rmc.fault && (s.hg (rmcBase + e.1)).rmcHalted then some (.rmcWake, { unit := e.1 }) else none

/-- What takes place at the beginning of a tick, before anything else of it. -/
def State.dueFirst (s : State) : List Event :=
  s.rmcsDue ++ s.clusters.flatMap (fun e => s.clusterDue e.1 e.2 ++ s.wakesDue e.1 e.2)
    ++ s.parts.flatMap (fun e => if e.2.en then s.phaseDue e.1 e.2 ++ s.switchDue e.1 e.2 else [])
    ++ ((leastBy (·.1) s.timersDue).map (·.2)).toList

/-- The rows that plots attempt in this tick (09 R237). -/
def State.rowsDue (s : State) : List Event :=
  s.allPlots.filterMap fun e => if s.mayAttempt e.2.2 then some (.plotRowAttempt, { unit := e.1, idx := e.2.1 }) else none

/-- The other steps of the plots: commits, releases, TIMING (12 R301; 14 R331 to R334). -/
def State.plotsDue (s : State) : List Event :=
  s.allPlots.flatMap fun e =>
    let u : Inp := { unit := e.1, idx := e.2.1 }
    (if e.2.2.pend.isEmpty then [] else [(.markCommit, u)]) ++ (if e.2.2.waiting then [(.plotRelease, u)] else [])
      ++ (if s.plotOn e.2.2 && s.pastLimit e.2.2 then [(.timingLimit, u)] else [])

/-- The banks of a cluster that have been idle long enough to be lowered (13 R315, R319). -/
def State.idleDue (s : State) (cl : Nat) (c : Cluster) : List Event :=
  c.banks.filterMap fun e =>
    if decide (e.2.state < idleTarget c.idle (s.demand cl) (floorOf e.2.cls) (c.cycles s.wt - e.2.last)) then
      some (.bankIdleLower, { unit := cl, idx := e.1 })
    else none

/-- The sectors of a core's L1 whose oldest dirty byte has reached its age (12 R294). -/
def State.agedDue (s : State) (c : Nat) (k : Core) : List Event :=
  k.l1.filterMap fun e =>
    if e.2.dirty != 0 && decide (e.2.since + 16384 ≤ s.cycleOf (clusterOf c)) then some (.l1SectorAgeWriteback, { unit := c, idx := e.1 }) else none

/-- A HOLD node's next read (17 R354). -/
def holdDue (p : Nat) (q : Part) : List Event :=
  match q.walker with
  | .holding _ _ _ _ => [(.holdNodeReread, { unit := p })]
  | .idle | .at_ _ _ | .loading _ _ _ => []

/-- What takes place at the end of a tick, before its time passes. -/
def State.dueLast (s : State) : List Event :=
  s.rowsDue ++ s.plotsDue ++ s.clusters.flatMap (fun e => s.idleDue e.1 e.2) ++ s.cores.flatMap (fun e => s.agedDue e.1 e.2)
    ++ s.parts.flatMap fun e => holdDue e.1 e.2

/-! ## The actions of the agenda -/

/-- Is a constructor an event that the agenda may run: a row of the opcode table without an encoding, but not the two steps
of a sequencer that has no instruction to issue? -/
def isEvent (i : Instr) : Bool := (encodeNat i).isNone && i != .illegalEncoding && i != .instructionFetchFault

/-- Issue the next instruction of sequencer k, when it is its turn: fetch, decode, execute. A word that decodes to nothing is the
ILLEGAL_ENCODING step, a fetch that fails the INSTRUCTION_FETCH_FAULT step. One that is out of turn, or whose fetch waits, tries again in
the next tick. -/
def issueNext (k : Nat) (s : State) : Host.Outcome State Fault Refusal :=
  let s := { s with cur := k }
  let run := fun (i : Instr) (t : State) => if s.allows (s.issuePlaces k i) then exec i (t.noted (s.issuePlaces k i)) else .next (s.noteTurn (.seqr k) 0)
  match s.fetch with
  | .ok (t, w) =>
    match decode w with
    | .ok i => run i t
    | .error _ => run .illegalEncoding t
  | .error (.fault c d) => run .instructionFetchFault { s with inp := { idx := c, data := d } }
  | .error x => .next ((s.stall k x).noteTurn (.seqr k) 0)

/-- May a sequencer issue now, not having done so in this tick? -/
def State.issues (s : State) (k : Nat) : Bool := s.canIssue k && s.firstTurn (.seqr k)

/-- An event takes place, when it is its turn. -/
def eventStep (e : Event) (s : State) : Host.Outcome State Fault Refusal :=
  let l := s.eventPlaces e.1 e.2
  if s.allows l then exec e.1 { s.noted l with inp := e.2 } else .next s

/-- A core's L1 evicts a sector (12 R294). -/
def State.evictSector (s : State) (c sec : Nat) : State :=
  let w := coreWaiter c
  s.orWait w (do
    s.sectorsReady w c ([sec].filter (s.dirtySectors c).contains)
    .ok ((s.l1WriteBack c w [sec]).l1Drop c sec))

/-- An L2 slice evicts a line (12 R295). -/
def State.evictLine (s : State) (cl line : Nat) : State :=
  let w := bpcWaiter cl
  s.orWait w (do
    match SMap.get? (s.cluster cl).l2 line with
    | some x =>
      if x.dirty then do
        s.awake (s.lineBank cl line ++ [(cl, 256 + x.way)])
        s.budgetReady cl w 1
      else pure ()
    | none => pure ()
    .ok (s.l2Evict cl line w))

/-- Carry out one action of the agenda. -/
def act (a : Action) (s : State) : Host.Outcome State Fault Refusal :=
  match a with
  | .issue k => if s.issues k then issueNext k s else .next s
  | .event i inp => if isEvent i then eventStep (i, inp) s else .next s
  | .evict c sec => .next (s.evictSector c sec)
  | .evictI k a => .next (s.dropWord k a)
  | .evictL2 cl line => .next (s.evictLine cl line)
  | .pick n => .next { s with pick := n }
  | .ecc unc a => .next (s.eccError unc a)

/-! ## Time -/

/-- The instruction that a sequencer would issue now. -/
def State.nextInstr (s : State) (k : Nat) : Option Instr :=
  match ({ s with cur := k } : State).fetch with
  | .ok (_, w) => (decode w).toOption
  | .error _ => none

/-- Does an action stop plots, which first attempt their rows of the tick (08 R204; 14 R334, R337)? -/
def State.stopsPlots (s : State) : Action → Bool
  | .issue k => match s.nextInstr k with | some (.stoppNow _) => true | _ => false
  | .event i _ => i == .haltLineArrival
  | .evict _ _ | .evictI _ _ | .evictL2 _ _ | .pick _ | .ecc _ _ => false

/-- Is the tick over: does nothing of the agenda take place in it any more? -/
def State.tickOver (s : State) : Bool :=
  match s.agenda with
  | it :: _ => it.dt != 0
  | [] => !s.issues s.cur

/-- The events that come before what the agenda names next. -/
def State.due (s : State) : List Event :=
  s.schedulersDue ++ s.dueFirst
    ++ if s.tickOver then s.dueLast else match s.agenda with
      | it :: _ => if s.allPlots.isEmpty then [] else if s.stopsPlots it.act then s.rowsDue else []
      | [] => []

/-- The event that takes place next by itself. -/
def State.forced (s : State) : Option Event := s.due.find? s.effective

/-- Such an event takes place; it waits for no turn. -/
def forcedStep (e : Event) (s : State) : Host.Outcome State Fault Refusal := exec e.1 { s.noted (s.eventPlaces e.1 e.2) with inp := e.2 }

/-- What the agenda names next: an action of this tick, or a tick passes; with an empty agenda the current sequencer issues, if it can. -/
def agendaStep (s : State) : Host.Outcome State Fault Refusal :=
  match s.agenda with
  | ⟨0, a⟩ :: rest => act a { s with agenda := rest }
  | ⟨n + 1, a⟩ :: rest => .next ({ s with agenda := ⟨n, a⟩ :: rest } : State).tick
  | [] => if s.issues s.cur then issueNext s.cur s else .next s.tick

/-- What follows by itself from a step: drained words emerge and units pass, predecessors end, a latency matrix is written, FORCED clears. -/
def settled : Host.Outcome State Fault Refusal → Host.Outcome State Fault Refusal
  | .next t => .next t.settle.endSweep.unforce
  | .fault f => .fault f
  | .refused r => .refused r

end Sys2Proof.Machine
end

