-- ==== Sys2Proof/Machine/Step.lean ====
section
/-! DEFINITION. One step of the machine: an event that is due, or what the agenda names next. -/

namespace Sys2Proof.Machine

/-- One step (log 1): an event that takes place by itself now, else the agenda's next item, which may be that a tick passes. -/
def step (s : State) : Host.Outcome State Fault Refusal :=
  settled (match s.forced with
    | some e => forcedStep e s
    | none => agendaStep s)

/-- The host's probe: s with the word w standing where the next step fetches. Partition 0 is enabled over core 0 with
context 0 active in user mode; headgate N of core 0 runs a program at offset 0 of its scratchpad (log 3). -/
def State.withFetchWord (s : State) (_nbits w : Nat) : State := s.placeWord w

end Sys2Proof.Machine
end

