-- ==== Sys2Proof/Safety.lean ====
section
/-! DEFINITION. What counts as a safe state and a safe run. -/

namespace Sys2Proof.Machine

/-- A safe step answers a next state: nothing the machine does ends in a fault or a refusal of the model. -/
def safeStep (s : State) : Prop := ∃ t, step s = .next t

/-- A run of k steps that stays safe. -/
def safeRun (k : Nat) (s : State) : Prop := ∃ t, Host.Core.run core k s = .next t

end Sys2Proof.Machine
end

