-- ==== Sys2Proof/Certificates/Slice0/Obligations.lean ====
section
/-! DEFINITION. The statements for the provers. Each docstring says which rule of the spec a statement formalises. A
statement about an instruction gives the whole next state as an explicit update of the state before it, so that whatever the
update does not name is unchanged; frames over instructions that can trap or that change the machine widely are stated beside. -/

open Sys2Proof Sys2Proof.Machine

namespace Sys2Proof.Claims

/-! ## Vocabulary -/

/-- An instruction runs and leaves a given state. -/
abbrev runsTo (i : Instr) (s t : State) : Prop := exec i s = .next t

/-- The state after an instruction that completes without a transfer, from its effect. -/
abbrev goesOn (i : Instr) (s t : State) : Prop := exec i s = .next t.retire

/-- An instruction traps precisely with a cause and detail words. -/
abbrev traps (i : Instr) (s : State) (cause : Nat) (d : List Nat) : Prop := exec i s = .next (s.precise cause d)

/-- An instruction stays where it is and changes nothing. -/
abbrev waits (i : Instr) (s : State) : Prop := exec i s = .next s

/-- Everything of two states is equal but the issuing sequencer. -/
def sameBut (s t : State) : Prop :=
  t.mem = s.mem ∧ t.wt = s.wt ∧ t.cur = s.cur ∧ t.inp = s.inp ∧ t.compl = s.compl ∧ t.agenda = s.agenda ∧ t.fresh = s.fresh ∧
  t.pick = s.pick ∧ t.turns = s.turns ∧
  (∀ k, k ≠ s.cur → t.hg k = s.hg k) ∧ t.cores = s.cores ∧ t.cells = s.cells ∧ t.clusters = s.clusters ∧
  t.reticles = s.reticles ∧ t.parts = s.parts ∧ t.ctxs = s.ctxs ∧ t.launches = s.launches ∧ t.mod = s.mod

/-- Everything of two headgates is equal but their registers s, p and v, the PC and the loop stack. -/
def sameMode (h k : Hg) : Prop :=
  k.sh = h.sh ∧ k.sys = h.sys ∧ k.forked = h.forked ∧ k.qb = h.qb ∧ k.bank0 = h.bank0 ∧ k.bank1 = h.bank1 ∧
  k.fmode = h.fmode ∧ k.amax = h.amax ∧ k.nseen = h.nseen ∧ k.g = h.g ∧ k.epc = h.epc ∧ k.ecause = h.ecause ∧
  k.tvec = h.tvec ∧ k.escr = h.escr ∧ k.pev = h.pev ∧ k.timed = h.timed ∧ k.run = h.run ∧ k.stopped = h.stopped ∧
  k.bound = h.bound ∧ k.codebook = h.codebook ∧ k.scale = h.scale ∧ k.node0 = h.node0 ∧ k.node1 = h.node1 ∧ k.dec = h.dec ∧
  k.chain = h.chain ∧ k.feed = h.feed ∧ k.drain = h.drain

/-- A shift count: the low six bits. -/
abbrev six (y : Word) : Nat := y.toNat % 64

/-! ## The tables of results -/

/-- The scalar instructions (06 R131 to R134, R137 to R139, R136): guard, destination, value. -/
def scalarResult : Instr → Option (PReg × SReg × (State → Word))
  | .add d a b g => some (g, d, fun s => s.getS a + s.getS b)
  | .sub d a b g => some (g, d, fun s => s.getS a - s.getS b)
  | .and d a b g => some (g, d, fun s => s.getS a &&& s.getS b)
  | .or d a b g => some (g, d, fun s => s.getS a ||| s.getS b)
  | .xor d a b g => some (g, d, fun s => s.getS a ^^^ s.getS b)
  | .andn d a b g => some (g, d, fun s => s.getS a &&& ~~~s.getS b)
  | .shl d a b g => some (g, d, fun s => s.getS a <<< six (s.getS b))
  | .shr d a b g => some (g, d, fun s => s.getS a >>> six (s.getS b))
  | .sra d a b g => some (g, d, fun s => (s.getS a).sshiftRight (six (s.getS b)))
  | .ror d a b g => some (g, d, fun s => (s.getS a).rotateRight (six (s.getS b)))
  | .min d a b g => some (g, d, fun s => if (s.getS a).toInt < (s.getS b).toInt then s.getS a else s.getS b)
  | .max d a b g => some (g, d, fun s => if (s.getS a).toInt < (s.getS b).toInt then s.getS b else s.getS a)
  | .minn d a b g => some (g, d, fun s => if (s.getS a).toNat < (s.getS b).toNat then s.getS a else s.getS b)
  | .maxn d a b g => some (g, d, fun s => if (s.getS a).toNat < (s.getS b).toNat then s.getS b else s.getS a)
  | .mul d a b g => some (g, d, fun s => BitVec.ofNat 64 ((s.getS a).toNat * (s.getS b).toNat))
  | .mulh d a b g => some (g, d, fun s => BitVec.ofInt 64 ((s.getS a).toInt * (s.getS b).toInt / 2 ^ 64))
  | .mulhn d a b g => some (g, d, fun s => BitVec.ofNat 64 ((s.getS a).toNat * (s.getS b).toNat / 2 ^ 64))
  | .div d a b g => some (g, d, fun s =>
      if s.getS b = 0 then BitVec.allOnes 64 else BitVec.ofInt 64 ((s.getS a).toInt.tdiv (s.getS b).toInt))
  | .divn d a b g => some (g, d, fun s =>
      if s.getS b = 0 then BitVec.allOnes 64 else BitVec.ofNat 64 ((s.getS a).toNat / (s.getS b).toNat))
  | .rem d a b g => some (g, d, fun s =>
      if s.getS b = 0 then s.getS a else BitVec.ofInt 64 ((s.getS a).toInt.tmod (s.getS b).toInt))
  | .remn d a b g => some (g, d, fun s =>
      if s.getS b = 0 then s.getS a else BitVec.ofNat 64 ((s.getS a).toNat % (s.getS b).toNat))
  | .clz d a g => some (g, d, fun s => clz (s.getS a))
  | .ctz d a g => some (g, d, fun s => ctz (s.getS a))
  | .popc d a g => some (g, d, fun s => popc (s.getS a))
  | .brev d a g => some (g, d, fun s => brev (s.getS a))
  | .sext d a b g => some (g, d, fun s => sextFrom (s.getS a) (s.getS b))
  | .zext d a b g => some (g, d, fun s => BitVec.ofNat 64 ((s.getS a).toNat % 2 ^ (six (s.getS b) + 1)))
  | .sel d a b p => some (0, d, fun s => if s.getP p then s.getS a else s.getS b)
  | .addi d a i => some (0, d, fun s => s.getS a + i.signExtend 64)
  | .andi d a i => some (0, d, fun s => s.getS a &&& i.setWidth 64)
  | .ori d a i => some (0, d, fun s => s.getS a ||| i.setWidth 64)
  | .xori d a i => some (0, d, fun s => s.getS a ^^^ i.setWidth 64)
  | .shfiShl d a c => some (0, d, fun s => s.getS a <<< c.toNat)
  | .shfiShr d a c => some (0, d, fun s => s.getS a >>> c.toNat)
  | .shfiSra d a c => some (0, d, fun s => (s.getS a).sshiftRight c.toNat)
  | .shfiRor d a c => some (0, d, fun s => (s.getS a).rotateRight c.toNat)
  | .muli d a i => some (0, d, fun s => s.getS a * i.signExtend 64)
  | .li d i => some (0, d, fun _ => i.signExtend 64)
  | .lis d i => some (0, d, fun s => s.getS d <<< 16 ||| i.setWidth 64)
  | .ptos d a g => some (g, d, fun s => if s.getP a then 1 else 0)
  | .mkptr d a b g => some (g, d, fun s => BitVec.ofNat 64 ((s.getS b).toNat % 16 * 2 ^ 60 + (s.getS a).toNat % 2 ^ 60))
  | .pspc d a g => some (g, d, fun s => s.getS a >>> 60)
  | .padd d a b g => some (g, d, fun s => padd (s.getS a) (s.getS b).toInt)
  | .pcore d a b g => some (g, d, fun s => pcore (s.getS a) (s.getS b))
  | .fscAdd d a b g => some (g, d, fun s => fscVal s.me.fmode .add (s.getS a) (s.getS b) (s.getS d))
  | .fscSub d a b g => some (g, d, fun s => fscVal s.me.fmode .sub (s.getS a) (s.getS b) (s.getS d))
  | .fscMul d a b g => some (g, d, fun s => fscVal s.me.fmode .mul (s.getS a) (s.getS b) (s.getS d))
  | .fscFma d a b g => some (g, d, fun s => fscVal s.me.fmode .fma (s.getS a) (s.getS b) (s.getS d))
  | .fscFnma d a b g => some (g, d, fun s => fscVal s.me.fmode .fnma (s.getS a) (s.getS b) (s.getS d))
  | .fscMin d a b g => some (g, d, fun s => fscVal s.me.fmode .min (s.getS a) (s.getS b) (s.getS d))
  | .fscMax d a b g => some (g, d, fun s => fscVal s.me.fmode .max (s.getS a) (s.getS b) (s.getS d))
  | .fscAbs d a g => some (g, d, fun s => fscVal s.me.fmode .abs (s.getS a) 0 (s.getS d))
  | .fscNeg d a g => some (g, d, fun s => fscVal s.me.fmode .neg (s.getS a) 0 (s.getS d))
  | .fscRsqs d a g => some (g, d, fun s => fscVal s.me.fmode .rsqs (s.getS a) 0 (s.getS d))
  | .fscRcps d a g => some (g, d, fun s => fscVal s.me.fmode .rcps (s.getS a) 0 (s.getS d))
  | .fscExp2s d a g => some (g, d, fun s => fscVal s.me.fmode .exp2s (s.getS a) 0 (s.getS d))
  | .fscLog2s d a g => some (g, d, fun s => fscVal s.me.fmode .log2s (s.getS a) 0 (s.getS d))
  | .fscRelu d a g => some (g, d, fun s => fscVal s.me.fmode .relu (s.getS a) 0 (s.getS d))
  | .fscClamp d a b g => some (g, d, fun s => fscVal s.me.fmode .clamp (s.getS a) (s.getS b) (s.getS d))
  | .fscSel d a b g => some (g, d, fun s =>
      if (s.getS d).toNat % 2 ^ 32 ≠ 0 then BitVec.ofNat 64 ((s.getS a).toNat % 2 ^ 32) else BitVec.ofNat 64 ((s.getS b).toNat % 2 ^ 32))
  | .fscCmpeq d a b g => some (g, d, fun s => fscVal s.me.fmode .cmpeq (s.getS a) (s.getS b) (s.getS d))
  | .fscCmplt d a b g => some (g, d, fun s => fscVal s.me.fmode .cmplt (s.getS a) (s.getS b) (s.getS d))
  | .fscCmple d a b g => some (g, d, fun s => fscVal s.me.fmode .cmple (s.getS a) (s.getS b) (s.getS d))
  | .fscMov d a g => some (g, d, fun s => BitVec.ofNat 64 ((s.getS a).toNat % 2 ^ 32))
  | _ => none

/-- The instructions that write a predicate (06 R135, R136): guard, destination, value. -/
def predicateResult : Instr → Option (PReg × PReg × (State → Bool))
  | .setpEq d a b g => some (g, d, fun s => decide (s.getS a = s.getS b))
  | .setpNe d a b g => some (g, d, fun s => decide (s.getS a ≠ s.getS b))
  | .setpLt d a b g => some (g, d, fun s => decide ((s.getS a).toInt < (s.getS b).toInt))
  | .setpGe d a b g => some (g, d, fun s => decide ((s.getS b).toInt ≤ (s.getS a).toInt))
  | .setpLtn d a b g => some (g, d, fun s => decide ((s.getS a).toNat < (s.getS b).toNat))
  | .setpGen d a b g => some (g, d, fun s => decide ((s.getS b).toNat ≤ (s.getS a).toNat))
  | .setpiEq d a i => some (0, d, fun s => decide (s.getS a = i.signExtend 64))
  | .setpiNe d a i => some (0, d, fun s => decide (s.getS a ≠ i.signExtend 64))
  | .setpiLt d a i => some (0, d, fun s => decide ((s.getS a).toInt < i.toInt))
  | .setpiGe d a i => some (0, d, fun s => decide (i.toInt ≤ (s.getS a).toInt))
  | .pand d a b g => some (g, d, fun s => s.getP a && s.getP b)
  | .por d a b g => some (g, d, fun s => s.getP a || s.getP b)
  | .pxor d a b g => some (g, d, fun s => xor (s.getP a) (s.getP b))
  | .pnot d a g => some (g, d, fun s => !s.getP a)
  | .pmov d a g => some (g, d, fun s => s.getP a)
  | _ => none

/-- The lane of a result of VOP, by operation: the lanes of the sources and the old lane (08 R230, R231). -/
abbrev eachLane (t : LaneType) (op : EOp) (a b d : VReg) (s : State) : VWord :=
  vopLanes s.me.fmode t op (s.getV a) (s.getV b) (s.getV d)

/-- An operation of one source reads zeros in the place of the second. -/
abbrev eachLane1 (t : LaneType) (op : EOp) (a d : VReg) (s : State) : VWord :=
  vopLanes s.me.fmode t op (s.getV a) 0 (s.getV d)

/-- The instructions that write a vector register and nothing else (08 R230, R231, R233 to R235): guard, destination,
value. -/
def vectorResult : Instr → Option (PReg × VReg × (State → VWord))
  | .vopAdd d a b g t => some (g, d, eachLane t .add a b d)
  | .vopSub d a b g t => some (g, d, eachLane t .sub a b d)
  | .vopMul d a b g t => some (g, d, eachLane t .mul a b d)
  | .vopFma d a b g t => some (g, d, eachLane t .fma a b d)
  | .vopFnma d a b g t => some (g, d, eachLane t .fnma a b d)
  | .vopMin d a b g t => some (g, d, eachLane t .min a b d)
  | .vopMax d a b g t => some (g, d, eachLane t .max a b d)
  | .vopAbs d a g t => some (g, d, eachLane1 t .abs a d)
  | .vopNeg d a g t => some (g, d, eachLane1 t .neg a d)
  | .vopRsqs d a g t => some (g, d, eachLane1 t .rsqs a d)
  | .vopRcps d a g t => some (g, d, eachLane1 t .rcps a d)
  | .vopExp2s d a g t => some (g, d, eachLane1 t .exp2s a d)
  | .vopLog2s d a g t => some (g, d, eachLane1 t .log2s a d)
  | .vopRelu d a g t => some (g, d, eachLane1 t .relu a d)
  | .vopClamp d a b g t => some (g, d, eachLane t .clamp a b d)
  | .vopSel d a b g t => some (g, d, eachLane t .sel a b d)
  | .vopCmpeq d a b g t => some (g, d, eachLane t .cmpeq a b d)
  | .vopCmplt d a b g t => some (g, d, eachLane t .cmplt a b d)
  | .vopCmple d a b g t => some (g, d, eachLane t .cmple a b d)
  | .vopMov d a g t => some (g, d, eachLane1 t .mov a d)
  | .vsum d a g => some (g, d, fun s =>
      let add2 := pairSums s.me.fmode
      BitVec.ofNat 512 ((add2 (add2 (add2 (add2 (lanes (s.getV a) 32))))).getD 0 0))
  | .vmax d a g => some (g, d, fun s => BitVec.ofNat 512 (foldLanes s.me.fmode FVal.max2 (lanes (s.getV a) 32)))
  | .vmin d a g => some (g, d, fun s => BitVec.ofNat 512 (foldLanes s.me.fmode FVal.min2 (lanes (s.getV a) 32)))
  | .vbcast d a g => some (g, d, fun s => ofLanes 32 (List.replicate 16 ((s.getV a).toNat % 2 ^ 32)))
  | .vext d a b g => some (g, d, fun s =>
      BitVec.ofNat 512 (((s.getV b).toNat * 2 ^ 512 + (s.getV a).toNat) / 2 ^ (32 * ((s.getV d).toNat % 16))))
  | .vshuf d a b g => some (g, d, fun s => ofLanes 32 ((lanes (s.getV b) 32).map fun x =>
      if x / 16 % 2 = 1 then 0 else lane (s.getV a) 32 (x % 16)))
  | .vins d a b g => some (g, d, fun s =>
      ofLanes 32 (setAt (lanes (s.getV d) 32) ((s.getV b).toNat % 16) (lane (s.getV a) 32 0)))
  | .vsaccE2m1 d a b g => some (g, d, fun s =>
      vsaccLanes s.me.fmode 16 (fun l => part32 (lane (s.getV a) 32 l)) (s.getV b) (s.getV d))
  | .vsaccE4m3 d a b g => some (g, d, fun s =>
      vsaccLanes s.me.fmode 8 (fun l => part64 (lane (s.getV a) 64 l)) (s.getV b) (s.getV d))
  | _ => none

end Sys2Proof.Claims

open Sys2Proof.Claims

/-! ## Scalar, predicate and vector results -/

/-- Every scalar instruction whose guard is true writes s[d] with the value its rule gives and goes on (06 R131, R133, R134,
R136 to R139; 08 R230). A write to s0 is discarded; nothing else changes. -/
def Obligations.ScalarInstructionsGiveTheirResults : Prop :=
  ∀ (i : Instr) (g : PReg) (d : SReg) (f : State → Word) (s : State),
    scalarResult i = some (g, d, f) → s.getP g = true → goesOn i s (s.setS d (f s))

/-- What CLZ, CTZ, POPC, BREV and SEXT count and move, bit by bit (06 R131). -/
def Obligations.BitCountsAndReversalAreRight : Prop :=
  ∀ x : Word,
    clz 0 = 64 ∧ ctz 0 = 64 ∧
    (x ≠ 0 → (clz x).toNat < 64 ∧ x.toNat < 2 ^ (64 - (clz x).toNat) ∧ 2 ^ (63 - (clz x).toNat) ≤ x.toNat) ∧
    (x ≠ 0 → (ctz x).toNat < 64 ∧ x.toNat % 2 ^ (ctz x).toNat = 0 ∧ x.toNat / 2 ^ (ctz x).toNat % 2 = 1) ∧
    (popc x).toNat = ((List.range 64).filter fun k => x.getLsbD k).length ∧
    (∀ k, k < 64 → (brev x).getLsbD (63 - k) = x.getLsbD k) ∧
    (∀ (y : Word) (k : Nat), k < 64 → (sextFrom x y).getLsbD k = x.getLsbD (min k (six y)))

/-- Every compare and predicate instruction whose guard is true writes p[d] with the outcome its rule gives and goes on
(06 R135, R136). A write to p0 is discarded; nothing else changes. -/
def Obligations.PredicateInstructionsGiveTheirResults : Prop :=
  ∀ (i : Instr) (g d : PReg) (f : State → Bool) (s : State),
    predicateResult i = some (g, d, f) → s.getP g = true → goesOn i s (s.setP d (f s))

/-- Every vector instruction that touches no sticky register writes v[d] with the value its rule gives, when its guard is true,
and goes on; AMAXU and VAMAX update AMAX and NSEEN with every lane, VCVT with every source element, taking its draws from G in
ascending order, VQNT with every lane, converting by two blocks of 8 (08 R231 to R235; 02 R38, R48). -/
def Obligations.VectorInstructionsGiveTheirResults : Prop :=
  (∀ (i : Instr) (g : PReg) (d : VReg) (f : State → VWord) (s : State),
     vectorResult i = some (g, d, f) → s.getP g = true → goesOn i s (s.setV d (f s))) ∧
  (∀ (d a : VReg) (g : PReg) (s : State), s.getP g = true →
     (∀ t : LaneType, goesOn (.vopAmaxu d a g t) s
       (s.setMe ((s.me.noteAmax ((lanes (s.getV a) (laneWidth t)).map (fread s.me.fmode (laneSpec t)))).setV d (s.getV a)))) ∧
     goesOn (.vamax d a g) s
       (s.setMe ((s.me.noteAmax ((lanes (s.getV a) 32).map (fin32 s.me.fmode))).setV d
         (BitVec.ofNat 512 (absMax s.me.fmode ((lanes (s.getV a) 32).map (fin32 s.me.fmode)))))) ∧
     (∀ t f : Fmt,
       let xs := unpack (s.getV a).toNat (fmtWidth f) (512 / max (fmtWidth f) (fmtWidth t))
       let r := convElems s.me.fmode t f s.me.g xs
       goesOn (.vcvt d a g t f) s
         (s.setMe ({ s.me.noteAmax (xs.map (readElem s.me.fmode f)) with g := r.2 }.setV d (ofLanes (fmtWidth t) r.1)))) ∧
     (∀ f : Fmt,
       let vs := (lanes (s.getV a) 32).map (fin32 s.me.fmode)
       let lo := blockConv s.me.fmode s.me.g s.me.codebook.toList f (vs.take 8)
       let hi := blockConv s.me.fmode lo.2.2 s.me.codebook.toList f (vs.drop 8)
       goesOn (.vqnt d a g f) s
         (s.setMe ({ s.me.noteAmax vs with g := hi.2.2 }.setV d
           (BitVec.ofNat 512 (pack (fmtWidth f) (lo.2.1 ++ hi.2.1) + (lo.1 + 256 * hi.1) * 2 ^ 256))))))

/-- VOP computes each lane from the lanes of its own position alone: 16 lanes of 32 bits, or 32 lanes of 16. The i32 operations
wrap modulo 2^32; SEL and MOV copy bits unchanged; the compares give all ones or zero (08 R230, R231). -/
def Obligations.VopWorksLaneByLane : Prop :=
  (∀ (fm : Word) (t : LaneType) (op : EOp) (a b c : VWord) (l : Nat), l < 512 / laneWidth t →
     lane (vopLanes fm t op a b c) (laneWidth t) l =
       elemOp fm t op (lane a (laneWidth t) l) (lane b (laneWidth t) l) (lane c (laneWidth t) l) % 2 ^ laneWidth t) ∧
  (∀ (fm : Word) (a b c : BitVec 32),
     elemOp fm .i32 .add a.toNat b.toNat c.toNat = (a + b).toNat ∧
     elemOp fm .i32 .sub a.toNat b.toNat c.toNat = (a - b).toNat ∧
     elemOp fm .i32 .mul a.toNat b.toNat c.toNat = (a * b).toNat ∧
     elemOp fm .i32 .fma a.toNat b.toNat c.toNat = (a * b + c).toNat ∧
     elemOp fm .i32 .fnma a.toNat b.toNat c.toNat = (c - a * b).toNat ∧
     elemOp fm .i32 .neg a.toNat b.toNat c.toNat = (-a).toNat ∧
     (∀ t : LaneType, laneWidth t = 32 →
       elemOp fm t .sel a.toNat b.toNat c.toNat = (if c ≠ 0 then a else b).toNat ∧ elemOp fm t .mov a.toNat b.toNat c.toNat = a.toNat) ∧
     elemOp fm .i32 .cmplt a.toNat b.toNat c.toNat = (if a.toInt < b.toInt then BitVec.allOnes 32 else 0).toNat ∧
     elemOp fm .i32 .cmpeq a.toNat b.toNat c.toNat = (if a = b then BitVec.allOnes 32 else 0).toNat)

/-- What a register instruction leaves alone, whenever it answers a next state: all memory, every other sequencer, every
other part of the machine, every register of its own that is not its destination, the flags, the modes and the exception
registers (06 R130; 05 R110). -/
def Obligations.RegisterInstructionsLeaveTheRest : Prop :=
  ∀ (i : Instr) (s t : State), exec i s = .next t →
    (∀ g d f, scalarResult i = some (g, d, f) →
      sameBut s t ∧ sameMode s.me t.me ∧ (∀ r, r ≠ d → t.me.getS r = s.me.getS r) ∧ t.me.p = s.me.p ∧ t.me.v = s.me.v) ∧
    (∀ g d f, predicateResult i = some (g, d, f) →
      sameBut s t ∧ sameMode s.me t.me ∧ t.me.s = s.me.s ∧ (∀ r, r ≠ d → t.me.getP r = s.me.getP r) ∧ t.me.v = s.me.v) ∧
    (∀ g d f, vectorResult i = some (g, d, f) →
      sameBut s t ∧ sameMode s.me t.me ∧ t.me.s = s.me.s ∧ t.me.p = s.me.p ∧ (∀ r, r ≠ d → t.me.getV r = s.me.getV r))

namespace Sys2Proof.Claims

/-- The guard of a guarded instruction (05 R119, R124); SWQ and PICK are under their own statement. -/
def guardOf : Instr → Option PReg
  | .add _ _ _ g | .sub _ _ _ g | .and _ _ _ g | .or _ _ _ g | .xor _ _ _ g | .andn _ _ _ g | .shl _ _ _ g
  | .shr _ _ _ g | .sra _ _ _ g | .ror _ _ _ g | .min _ _ _ g | .max _ _ _ g | .minn _ _ _ g | .maxn _ _ _ g
  | .mul _ _ _ g | .mulh _ _ _ g | .mulhn _ _ _ g | .div _ _ _ g | .divn _ _ _ g | .rem _ _ _ g | .remn _ _ _ g
  | .clz _ _ g | .ctz _ _ g | .popc _ _ g | .brev _ _ g | .sext _ _ _ g | .zext _ _ _ g | .setpEq _ _ _ g
  | .setpNe _ _ _ g | .setpLt _ _ _ g | .setpGe _ _ _ g | .setpLtn _ _ _ g | .setpGen _ _ _ g | .pand _ _ _ g
  | .por _ _ _ g | .pxor _ _ _ g | .pnot _ _ g | .pmov _ _ g | .ptos _ _ g | .mkptr _ _ _ g | .pspc _ _ g
  | .padd _ _ _ g | .pcore _ _ _ g | .keylk _ _ _ g | .jr _ g | .jalr _ _ g | .ret g | .lbrk g | .fork g | .fence _ g
  | .fenceLd _ g | .fenceSt _ g | .wfence g | .mfence g | .ifence g | .binit _ _ g | .barr _ _ _ g | .bwait _ _ g
  | .bleave _ _ g | .bqry _ _ _ g | .qsend _ _ _ g | .qrecv _ _ _ g | .qpoll _ _ g | .lrpatch _ _ g | .lrarm _ g
  | .lrqry _ _ g | .cntadd _ _ g | .vcnt _ _ g | .cntrd _ _ g | .cntsnap _ _ g | .wtrd _ g | .atset _ _ _ g
  | .atcan _ _ g | .atwait _ _ g | .bwph _ _ g | .bwqry _ _ g | .wtbl _ _ g | .wdec _ g | .wseek _ g | .wdqry _ _ g
  | .scset _ _ g | .scfl g | .chain _ _ g | .chconst _ _ g | .vopAdd _ _ _ g _ | .vopSub _ _ _ g _ | .vopMul _ _ _ g _
  | .vopFma _ _ _ g _ | .vopFnma _ _ _ g _ | .vopMin _ _ _ g _ | .vopMax _ _ _ g _ | .vopAbs _ _ g _ | .vopNeg _ _ g _
  | .vopRsqs _ _ g _ | .vopRcps _ _ g _ | .vopExp2s _ _ g _ | .vopLog2s _ _ g _ | .vopRelu _ _ g _ | .vopClamp _ _ _ g _
  | .vopSel _ _ _ g _ | .vopCmpeq _ _ _ g _ | .vopCmplt _ _ _ g _ | .vopCmple _ _ _ g _ | .vopMov _ _ g _
  | .vopAmaxu _ _ g _ | .vcvt _ _ g _ _ | .vsum _ _ g | .vmax _ _ g | .vmin _ _ g | .vamax _ _ g | .vbcast _ _ g
  | .vext _ _ _ g | .vshuf _ _ _ g | .vins _ _ _ g | .fscAdd _ _ _ g | .fscSub _ _ _ g | .fscMul _ _ _ g
  | .fscFma _ _ _ g | .fscFnma _ _ _ g | .fscMin _ _ _ g | .fscMax _ _ _ g | .fscAbs _ _ g | .fscNeg _ _ g
  | .fscRsqs _ _ g | .fscRcps _ _ g | .fscExp2s _ _ g | .fscLog2s _ _ g | .fscRelu _ _ g | .fscClamp _ _ _ g
  | .fscSel _ _ _ g | .fscCmpeq _ _ _ g | .fscCmplt _ _ _ g | .fscCmple _ _ _ g | .fscMov _ _ g | .vqnt _ _ g _
  | .vsaccE2m1 _ _ _ g | .vsaccE4m3 _ _ _ g => some g
  | _ => none

/-- The instructions that FORKED = 1 forbids (06 R151). -/
def forkedForbids : Instr → Bool
  | .fork _ | .amoAadd _ _ _ _ _ _ | .amoAmin _ _ _ _ _ _ | .amoAmax _ _ _ _ _ _ | .amoAminn _ _ _ _ _ _
  | .amoAmaxn _ _ _ _ _ _ | .amoAand _ _ _ _ _ _ | .amoAor _ _ _ _ _ _ | .amoAxor _ _ _ _ _ _ | .amoAswap _ _ _ _ _ _
  | .amoAcas _ _ _ _ _ _ | .amoAfadd _ _ _ _ _ _ | .fence _ _ | .fenceLd _ _ | .fenceSt _ _ | .wfence _ | .mfence _
  | .ifence _ | .binit _ _ _ | .barr _ _ _ _ | .bwait _ _ _ | .bleave _ _ _ | .bqry _ _ _ _ | .qsend _ _ _ _
  | .qrecv _ _ _ _ | .qpoll _ _ _ | .collAllred _ _ _ _ _ | .collRedscat _ _ _ _ _ | .collAllgath _ _ _ _
  | .collBcast _ _ _ _ | .collA2a _ _ _ _ | .lrpatch _ _ _ | .lrarm _ _ | .lrqry _ _ _ | .cntadd _ _ _ | .vcnt _ _ _
  | .cntrd _ _ _ | .cntsnap _ _ _ | .wtrd _ _ | .atset _ _ _ _ | .atcan _ _ _ | .atwait _ _ _ | .bwph _ _ _
  | .bwqry _ _ _ | .cfg _ | .cfgwait _ | .cfgwaitQ _ | .start _ | .stopp _ | .stoppNow _ | .splarm _ | .splice
  | .bypmap _ | .bypmapCol _ | .dlyset _ | .holdtab _ | .slset _ _ | .slput _ _ | .sltake _ _ | .slqry _ _ | .slqryD _ _
  | .slwaitData _ _ | .slwaitRoom _ _ | .trap _ | .eret | .mwr _ _ | .yield | .halt | .brk _ | .dbgh _ | .seed _ => true
  | _ => false

/-- The value that MRD gives of an assigned register (05 R112, R113; 01 R10; 02 R33, R47). -/
def registerValue (s : State) : Nat → Option Word
  | 0x000 => some (BitVec.ofNat 64 ((if isRmc s.cur then 0 else hgnOf s.cur) * 2 ^ 14 + (if s.me.bound.isSome then 2 ^ 13 else 0)
      + s.me.loops.length % 8 * 2 ^ 8 + (if s.me.qb then 2 ^ 4 else 0) + (if s.me.forked then 2 ^ 3 else 0) + if s.me.sys then 1 else 0))
  | 0x001 => some (s.coreid s.cur)
  | 0x010 => some s.me.fmode
  | 0x011 => some (BitVec.ofNat 64 s.me.amax)
  | 0x012 => some (if s.me.nseen then 1 else 0)
  | 0x013 => some s.me.g
  | 0x100 => some s.me.epc
  | 0x101 => some s.me.ecause
  | 0x102 => some s.me.tvec
  | 0x103 => some s.me.escr
  | 0x110 => some ((s.core (unitCore s.cur)).pendRole0.getD (s.core (unitCore s.cur)).role0)
  | 0x111 => some ((s.core (unitCore s.cur)).pendRole1.getD (s.core (unitCore s.cur)).role1)
  | _ => none

/-- What MWR leaves of the issuing headgate when a register takes a value (02 R33, R34, R47; 05 R112, R114; 06 R159). -/
def registerWritten (h : Hg) (v : Word) : Nat → Option Hg
  | 0x010 => some { h with fmode := v &&& 0xFF17#64 }
  | 0x011 => some (if 0x7F800000 < v.toNat % 2 ^ 31 then { h with amax := 0, nseen := true } else { h with amax := v.toNat % 2 ^ 31 })
  | 0x012 => some { h with nseen := h.nseen && v.toNat % 2 == 0 }
  | 0x100 => some { h with epc := v }
  | 0x101 => some { h with ecause := v &&& 0xFFFFFFFF0003FFFF#64 }
  | 0x102 => some { h with tvec := v &&& 0xFFFFFFFFFFFFFFFC#64 }
  | 0x103 => some { h with escr := v }
  | _ => none

/-- No line that an L2 slice holds stands for bytes that its DRAM bank has lost (13 R312; log 11): an access then changes no other byte
when a line makes room for its own. -/
def noLineLost (s : State) : Prop := ∀ cl line x, SMap.get? (s.cluster cl).l2 line = some x → x.lost = false

/-- A headgate that keeps nothing forked. -/
abbrev unforkedHg (h : Hg) : Hg := { h with forked := false, qb := false, bank0 := [], bank1 := [] }

end Sys2Proof.Claims

/-! ## Guards and FORKED -/

/-- A false guard: the instruction has no effect and the headgate goes on (05 R124). -/
def Obligations.FalseGuardHasNoEffect : Prop :=
  ∀ (i : Instr) (g : PReg) (s : State),
    guardOf i = some g → s.getP g = false → s.me.forked = false → goesOn i s s

/-- While FORKED = 1 every instruction of the groups of 06 R151 raises ILLEGAL, whatever its guard and the mode. -/
def Obligations.ForkedForbidsTheListedGroups : Prop :=
  ∀ (i : Instr) (s : State), forkedForbids i = true → s.me.forked = true → traps i s 0x01 []

/-! ## Control transfers and hardware loops -/

/-- BR, CALL, JR, JALR, RET and JTAB: the target, the link, the branch not taken, and ALIGN for a misaligned target, which
writes no link (06 R141 to R144). -/
def Obligations.TransfersGoToTheirTargets : Prop :=
  ∀ (s : State) (g : PReg) (inv : Bool) (o : BitVec 22) (d a : SReg) (n : BitVec 16),
    (s.getP g ≠ inv → exec (.br g inv o) s = .next (s.setPc (s.me.pc + 4 * o.signExtend 64)) ∧
      exec (.call g inv o) s = .next ((s.setS 31 (s.me.pc + 4)).setPc (s.me.pc + 4 * o.signExtend 64))) ∧
    (s.getP g = inv → goesOn (.br g inv o) s s ∧ goesOn (.call g inv o) s s) ∧
    (s.getP g = true → (s.getS a).toNat % 4 = 0 → exec (.jr a g) s = .next (s.setPc (s.getS a)) ∧
      exec (.jalr d a g) s = .next ((s.setS d (s.me.pc + 4)).setPc (s.getS a))) ∧
    (s.getP g = true → (s.getS a).toNat % 4 ≠ 0 → traps (.jr a g) s 0x04 [] ∧ traps (.jalr d a g) s 0x04 []) ∧
    (s.getP g = true → (s.getS 31).toNat % 4 = 0 → exec (.ret g) s = .next (s.setPc (s.getS 31))) ∧
    (s.getP g = true → (s.getS 31).toNat % 4 ≠ 0 → traps (.ret g) s 0x04 []) ∧
    (∀ (t : State) (e : Nat),
      let q := s.getS a + BitVec.ofNat 64 (4 * min (s.getS d).toNat n.toNat)
      s.loadVia s.cur q 4 false = .ok (t, e) →
      exec (.jtab d a n) s = .next (t.setPc (s.getS a + 4 * (BitVec.ofNat 32 (s.overlay q 4 e)).signExtend 64)))

/-- LOOP, LOOPI and LBRK (06 R145, R148): a count of 0 skips the body, another pushes a level and goes on; too deep, too
long or too large raises ILLEGAL; LBRK pops the innermost level and goes on behind its body; a level that ends at the word of an LBRK or
of a LOOP that skips its body counts (06 R146). The readings of the model that it rests on: log 21. -/
def Obligations.LoopsBeginAndBreak : Prop :=
  ∀ (s : State) (a : SReg) (len : BitVec 16) (l10 : BitVec 10) (c : BitVec 16) (g : PReg),
    (s.getS a = 0 → exec (.loop a len) s = .next (s.setMe (s.me.retireTo (s.me.pc + 4 + BitVec.ofNat 64 (4 * len.toNat))))) ∧
    (s.getS a ≠ 0 → (s.getS a).toNat < 2 ^ 32 → len ≠ 0 → s.me.loops.length < 4 →
      (∀ l, s.me.loops.head? = some l → (s.me.pc + BitVec.ofNat 64 (4 * len.toNat)).toNat ≤ l.stop.toNat) →
      exec (.loop a len) s = .next (s.setMe { s.me with
        pc := s.me.pc + 4
        loops := ⟨s.me.pc + 4, s.me.pc + BitVec.ofNat 64 (4 * len.toNat), (s.getS a).toNat⟩ :: s.me.loops })) ∧
    (2 ^ 32 ≤ (s.getS a).toNat → traps (.loop a len) s 0x01 []) ∧
    (s.getS a ≠ 0 → 4 ≤ s.me.loops.length → traps (.loop a len) s 0x01 []) ∧
    (c = 0 → exec (.loopi l10 c) s = .next (s.setMe (s.me.retireTo (s.me.pc + 4 + BitVec.ofNat 64 (4 * l10.toNat))))) ∧
    (c ≠ 0 → l10 ≠ 0 → s.me.loops.length < 4 →
      (∀ l, s.me.loops.head? = some l → (s.me.pc + BitVec.ofNat 64 (4 * l10.toNat)).toNat ≤ l.stop.toNat) →
      exec (.loopi l10 c) s = .next (s.setMe { s.me with
        pc := s.me.pc + 4
        loops := ⟨s.me.pc + 4, s.me.pc + BitVec.ofNat 64 (4 * l10.toNat), c.toNat⟩ :: s.me.loops })) ∧
    (c ≠ 0 → 4 ≤ s.me.loops.length → traps (.loopi l10 c) s 0x01 []) ∧
    (∀ l r, s.me.loops = l :: r →
      (s.getS a ≠ 0 → l.stop.toNat < (s.me.pc + BitVec.ofNat 64 (4 * len.toNat)).toNat → traps (.loop a len) s 0x01 []) ∧
      (c ≠ 0 → l.stop.toNat < (s.me.pc + BitVec.ofNat 64 (4 * l10.toNat)).toNat → traps (.loopi l10 c) s 0x01 [])) ∧
    (s.me.forked = false → s.getP g = false → goesOn (.lbrk g) s s) ∧
    (∀ l r, s.me.loops = l :: r → s.getP g = true →
      let u := s.setMe { s.me with loops := r }
      exec (.lbrk g) s = .next (u.setMe (u.me.retireTo (l.stop + 4)))) ∧
    (s.me.loops = [] → s.getP g = true → traps (.lbrk g) s 0x01 [])

/-- After an instruction at the last word of a body: the level counts, and either the body repeats or the level pops and the
next one counts; at any other word the PC goes on, to the next word or where an LBRK or a skipped body leads (06 R146). -/
def Obligations.LoopLevelsCountAtTheirLastWord : Prop :=
  ∀ (h : Hg) (l : Loop) (r : List Loop),
    (h.loops = [] → h.retire = { h with pc := h.pc + 4 }) ∧
    (h.loops = l :: r → h.pc ≠ l.stop → h.retire = { h with pc := h.pc + 4 }) ∧
    (h.loops = l :: r → h.pc = l.stop → 1 < l.rem →
      h.retire = { h with pc := l.start, loops := { l with rem := l.rem - 1 } :: r }) ∧
    (h.loops = l :: r → h.pc = l.stop → l.rem ≤ 1 → h.retire = { h with loops := r }.retire) ∧
    (∀ q : Word,
      (h.loops = [] → h.retireTo q = { h with pc := q }) ∧
      (h.loops = l :: r → h.pc ≠ l.stop → h.retireTo q = { h with pc := q }) ∧
      (h.loops = l :: r → h.pc = l.stop → 1 < l.rem →
        h.retireTo q = { h with pc := l.start, loops := { l with rem := l.rem - 1 } :: r }) ∧
      (h.loops = l :: r → h.pc = l.stop → l.rem ≤ 1 → h.retireTo q = { h with loops := r }.retireTo q)) ∧
    (∀ s : State, s.retire = s.setMe s.me.retire)

/-! ## Forked issue -/

/-- FORK empties both banks; SWQ changes the bank; PICK of a bank whose held instructions all perform keeps their effects and
empties both banks; an empty bank has none; a kept instruction that fails traps at the PICK with its address in D0. Out of place
each raises ILLEGAL (06 R149, R153, R154). The readings of the model that it rests on: log 38. -/
def Obligations.ForkSwqAndPickKeepOneBank : Prop :=
  ∀ (s : State) (g p : PReg),
    (s.me.forked = false → s.getP g = true →
      goesOn (.fork g) s (s.setMe { s.me with forked := true, qb := false, bank0 := [], bank1 := [] })) ∧
    (s.me.forked = true → traps (.fork g) s 0x01 []) ∧
    (s.me.forked = true → s.getP g = true → goesOn (.swq g) s (s.setMe { s.me with qb := !s.me.qb })) ∧
    (s.me.forked = true → s.getP g = false → goesOn (.swq g) s s ∧ goesOn (.pick p g) s s) ∧
    (s.me.forked = false → traps (.swq g) s 0x01 [] ∧ traps (.pick p g) s 0x01 []) ∧
    (s.me.forked = true → s.getP g = true → (if s.getP p then s.me.bank1 else s.me.bank0) = [] →
      goesOn (.pick p g) s (s.setMe (unforkedHg s.me))) ∧
    (∀ t, s.me.forked = true → s.getP g = true →
      s.pickRun (s.getP p) (if s.getP p then s.me.bank1 else s.me.bank0) = (t, none) →
      goesOn (.pick p g) s (t.setMe (unforkedHg t.me))) ∧
    (∀ t x c d, s.me.forked = true → s.getP g = true →
      s.pickRun (s.getP p) (if s.getP p then s.me.bank1 else s.me.bank0) = (t, some (x, .fault c d)) →
      exec (.pick p g) s = .next ((t.heldRefused x).precise c (x.addr.toNat :: d.drop 1)))

/-! ## The SYS group -/

/-- NOP, SEED, WAIT and YIELD (06 R156, R160, R161, R164; 02 R39): SEED replaces 0; WAIT takes the selected events and clears
them, waits while there are none and refuses a bad mask; YIELD makes a switch that is pending cooperative, and else changes
nothing. The readings of the model that it rests on: logs 27 and 39. -/
def Obligations.NopSeedWaitAndYield : Prop :=
  ∀ (s : State) (a d : SReg),
    goesOn .nop s s ∧
    (s.me.forked = false → goesOn (.seed a) s
      (s.setMe { s.me with g := if s.getS a = 0 then 0x9E3779B97F4A7C15#64 else s.getS a })) ∧
    (s.getS a ≠ 0 → (s.getS a).toNat < 32 → s.me.pev &&& (s.getS a).setWidth 5 ≠ 0 →
      goesOn (.wait d a) s
        ((s.setMe { s.me with pev := s.me.pev &&& ~~~(s.me.pev &&& (s.getS a).setWidth 5) }).setS d
          ((s.me.pev &&& (s.getS a).setWidth 5).setWidth 64))) ∧
    (s.getS a ≠ 0 → (s.getS a).toNat < 32 → s.me.pev &&& (s.getS a).setWidth 5 = 0 → waits (.wait d a) s) ∧
    (s.getS a = 0 ∨ 32 ≤ (s.getS a).toNat → traps (.wait d a) s 0x01 []) ∧
    (s.me.forked = false → s.partOfHg s.cur = none → goesOn .yield s s) ∧
    (∀ p inc at_ dl, s.me.forked = false → s.partOfHg s.cur = some p → (s.part p).sw = .requested inc at_ dl false → s.wt ≤ dl →
      goesOn .yield s (s.modPart p fun q => { q with
        sw := .requested inc at_ dl true
        plots := q.plots.map fun e => (e.1, if e.2.active then { e.2 with yield := 1 } else e.2) })) ∧
    (∀ p, s.me.forked = false → s.partOfHg s.cur = some p → (s.part p).sw = .none → goesOn .yield s (s.modPart p id))

/-- MRD reads every assigned register, those from 0x100 on in system mode only; an unassigned number raises ILLEGAL (05 R112; 06
R159). The readings of the model that it rests on: log 39. -/
def Obligations.MrdReadsEveryRegister : Prop :=
  ∀ (s : State) (r : BitVec 10) (d : SReg),
    (∀ v, registerValue s r.toNat = some v → (r.toNat < 0x100 ∨ s.me.sys = true) → goesOn (.mrd r d) s (s.setS d v)) ∧
    (∀ v, registerValue s r.toNat = some v → 0x100 ≤ r.toNat → s.me.sys = false → traps (.mrd r d) s 0x02 []) ∧
    (registerValue s r.toNat = none → traps (.mrd r d) s 0x01 [])

/-- MWR writes every register that can be written, by its type, those from 0x100 on in system mode only; a read-only or
unassigned number, a rounding mode above 4 and a role code above 4 raise ILLEGAL; a role image waits as pending (05 R112; 06 R159;
01 R15; 02 R33, R47). The readings of the model that it rests on: logs 39 and 59. -/
def Obligations.MwrWritesEveryRegister : Prop :=
  ∀ (s : State) (r : BitVec 10) (a : SReg), s.me.forked = false →
    (∀ h, registerWritten s.me (s.getS a) r.toNat = some h → (r.toNat < 0x100 ∨ s.me.sys = true) →
      (r.toNat = 0x010 → (s.getS a).toNat % 8 ≤ 4) → goesOn (.mwr r a) s (s.setMe h)) ∧
    (r.toNat = 0x010 → 4 < (s.getS a).toNat % 8 → traps (.mwr r a) s 0x01 []) ∧
    (r.toNat = 0x110 → s.me.sys = true → (∀ k, k < 16 → (s.getS a).toNat / 16 ^ k % 16 ≤ 4) →
      goesOn (.mwr r a) s (s.modCore (unitCore s.cur) fun k => { k with pendRole0 := some (s.getS a) })) ∧
    (r.toNat = 0x111 → s.me.sys = true → (∀ k, k < 16 → (s.getS a).toNat / 16 ^ k % 16 ≤ 4) →
      goesOn (.mwr r a) s (s.modCore (unitCore s.cur) fun k => { k with pendRole1 := some (s.getS a) })) ∧
    (r.toNat = 0x110 ∨ r.toNat = 0x111 → s.me.sys = true → (∃ k, k < 16 ∧ 4 < (s.getS a).toNat / 16 ^ k % 16) →
      traps (.mwr r a) s 0x01 []) ∧
    ((∃ h, registerWritten s.me (s.getS a) r.toNat = some h) ∨ r.toNat = 0x110 ∨ r.toNat = 0x111 →
      0x100 ≤ r.toNat → s.me.sys = false → traps (.mwr r a) s 0x02 []) ∧
    (registerWritten s.me (s.getS a) r.toNat = none → r.toNat ≠ 0x110 → r.toNat ≠ 0x111 → traps (.mwr r a) s 0x01 [])

/-- TRAP enters system code: EPC, ECAUSE, the mode and the PC; at a headgate that is in system mode it raises ILLEGAL, at an
RMC it does not (06 R157). -/
def Obligations.TrapEntersSystemMode : Prop :=
  ∀ (s : State) (n : BitVec 10), s.me.forked = false →
    (isRmc s.cur = true ∨ s.me.sys = false →
      exec (.trap n) s = .next (s.setMe { s.me with
        epc := s.me.pc + 4, ecause := BitVec.ofNat 64 (n.toNat * 2 ^ 8), sys := true, pc := s.me.tvec })) ∧
    (isRmc s.cur = false → s.me.sys = true → traps (.trap n) s 0x01 [])

/-- ERET goes back to EPC and leaves system mode, except on an RMC; a misaligned EPC raises ALIGN with the mode kept; in user
mode it raises PRIV (06 R158). -/
def Obligations.EretLeavesSystemMode : Prop :=
  ∀ (s : State), s.me.forked = false →
    (s.me.sys = true → s.me.epc.toNat % 4 = 0 → exec .eret s = .next (s.setMe { s.me with pc := s.me.epc, sys := isRmc s.cur })) ∧
    (s.me.sys = true → s.me.epc.toNat % 4 ≠ 0 → traps .eret s 0x04 []) ∧
    (s.me.sys = false → traps .eret s 0x02 [])

/-- BRK and DBGH raise DEBUG_HALT at their own address with the code in the stop record, and count as completed: the stop
record's PC is the one that follows. DBGH with 1 halts the wafer too, on an RMC only that; any other value raises ILLEGAL, and user
mode PRIV (06 R163; 26 R458). The readings of the model that it rests on: log 39. -/
def Obligations.BrkAndDbghRaiseDebugHalt : Prop :=
  ∀ (s : State) (n : BitVec 10) (a : SReg), s.me.forked = false →
    exec (.brk n) s = .next (s.retire.trapAt s.cur 0x1F s.me.pc s.me.retire.pc n.toNat []) ∧
    (s.me.sys = true → s.getS a = 0 → isRmc s.cur = false →
      exec (.dbgh a) s = .next (s.retire.trapAt s.cur 0x1F s.me.pc s.me.retire.pc 0 [])) ∧
    (s.me.sys = true → s.getS a = 1 → isRmc s.cur = false →
      exec (.dbgh a) s = .next ((s.retire.trapAt s.cur 0x1F s.me.pc s.me.retire.pc 1 []).waferHalt 1)) ∧
    (s.me.sys = true → s.getS a = 0 → isRmc s.cur = true → exec (.dbgh a) s = .next s.retire) ∧
    (s.me.sys = true → s.getS a = 1 → isRmc s.cur = true → exec (.dbgh a) s = .next (s.retire.waferHalt 1)) ∧
    (s.me.sys = true → 1 < (s.getS a).toNat → traps (.dbgh a) s 0x01 []) ∧
    (s.me.sys = false → traps (.dbgh a) s 0x02 [])

/-- HALT waits for the headgate's accesses, engines and background reads; then a program's headgate is free, its loop stack discarded, a task gives
up its claims, and an RMC stops unless a wake event is latched (06 R162; 10 R260; 24 R433). The readings of the model that it
rests on: log 39. -/
def Obligations.HaltEndsTheProgramOrTask : Prop :=
  ∀ (s : State), s.me.forked = false →
    (¬(s.storesDone s.cur .domain = true ∧ s.me.enginesIdle = true ∧ s.me.readsDone = true) → waits .halt s) ∧
    (s.storesDone s.cur .domain = true → s.me.enginesIdle = true → s.me.readsDone = true →
      (isRmc s.cur = false → s.me.run = .program → s.me.pendStart = none →
        exec .halt s = .next (s.setMe { s.me with loops := [], run := .idle, pc := s.me.pc + 4 })) ∧
      (∀ l, isRmc s.cur = false → s.me.run = .task l → s.me.pendStart = none →
        exec .halt s = .next ((s.dropClaims (coreOf s.cur) l).modHg s.cur fun h => { h with loops := [], run := .idle, pc := h.pc + 4 })) ∧
      (isRmc s.cur = true → (s.reticle (s.cur - rmcBase)).rmc.wakepend = false →
        exec .halt s = .next (s.retire.modMe fun h => { h with run := .idle, wait := .halt })) ∧
      (isRmc s.cur = true → (s.reticle (s.cur - rmcBase)).rmc.wakepend = true →
        exec .halt s = .next (s.retire.modReticle (s.cur - rmcBase) fun t => { t with rmc := { t.rmc with wakepend := false } })))

/-! ## Taking a precise trap -/

/-- A precise trap of a headgate writes its record at the ring's write pointer, stops the headgate with its PC unmoved, and
raises the partition's halt line; no register but EPC, which names a word of a loop body that faults, no predicate and no byte outside
the record changes, as long as no L2 line is left over whose DRAM bank has lost its bytes. A detail word that the manual does not state is
a free value (log 12) (05 R123; 06 R147; 14 R327, R337; 18 R384, R385). -/
def Obligations.PreciseTrapIsRecorded : Prop :=
  ∀ (s : State) (p cause : Nat) (d : List Nat), Memory.wf s.mem = true → isRmc s.cur = false → s.partOf (coreOf s.cur) = some p →
    (s.part p).compat = false → (s.part p).ringbase ≠ 0 →
    ((s.part p).wr + 2 ^ 32 - (s.part p).rd) % 2 ^ 32 < 2 ^ (s.part p).logsize →
    (s.part p).halted = false → noLineLost s →
    let t := s.precise cause d
    let a := region5 (s.part p).ringbase + 64 * ((s.part p).wr % 2 ^ (s.part p).logsize)
    let r : TrapRec := {
      cause, repeat_ := false, unit := 0, hg := hgnOf s.cur, x := coreX (coreOf s.cur), y := coreY (coreOf s.cur)
      ctx := (s.part p).active, lcore := s.lcore (coreOf s.cur), plot := 0xFFFF, seq := (s.core (coreOf s.cur)).seq
      iaddr := s.me.pc, wt := s.wt, d }
    t.readN a 64 = r.image % 2 ^ 512 ∧
    (∀ x, x < a ∨ a + 64 ≤ x → t.byte x = s.byte x) ∧
    (t.part p).wr = ((s.part p).wr + 1) % 2 ^ 32 ∧
    (t.part p).halted = true ∧ (t.part p).done = false ∧ (t.part p).haltWt = s.wt ∧
    t.me = { s.me with
      stopped := true
      stop := ⟨cause, 0, s.wt, s.me.pc.toNat, 0⟩
      epc := if ∃ l ∈ s.me.loops, l.start.toNat ≤ s.me.pc.toNat ∧ s.me.pc.toNat ≤ l.stop.toNat then s.me.pc else s.me.epc } ∧
    (∀ k, k ≠ s.cur → t.hg k = s.hg k) ∧
    (t.core (coreOf s.cur)).seq = ((s.core (coreOf s.cur)).seq + 1) % 2 ^ 32

namespace Sys2Proof.Claims

/-- A scratchpad pointer into the issuing core (05 R117): space 0x4, index 0xFFFF, an offset of 22 bits. -/
def ownScratch (off : Nat) : Word := BitVec.ofNat 64 (0x4 * 2 ^ 60 + 0xFFFF * 2 ^ 32 + off)

/-- An offset of the issuing core's scratchpad lies at home address a: its headgate is in a partition, and the SCRATCH bank that
holds the offset is allocated, awake and restored (01 R18; 05 R118; 13 R311). -/
def scratchAt (s : State) (off a : Nat) : Prop :=
  isRmc s.cur = false ∧ (∃ p, s.partOf (coreOf s.cur) = some p) ∧ off < 2 ^ 22 ∧
  ∃ b, ((s.core (coreOf s.cur)).banksOf 2)[off / bankBytes]? = some b ∧
    (s.core (coreOf s.cur)).unrestored.contains b = false ∧
    ((s.cluster (clusterOf (coreOf s.cur))).bank (32 * cicOf (coreOf s.cur) + b)).cls ≠ 0 ∧
    ((s.cluster (clusterOf (coreOf s.cur))).bank (32 * cicOf (coreOf s.cur) + b)).state = 0 ∧
    a = bankAddr (coreOf s.cur) b (off % bankBytes)

/-- The issuing sequencer's release at a scope leaves a state (07 R169; 12 R294); without one nothing changes. -/
abbrev releases (s u : State) (rel : Bool) (sc : Scope) : Prop := if rel then s.release s.cur sc = .ok u else u = s

/-- The bank at a home address serves an access of the issuing headgate in this cycle: it has granted none, and headgates have not had
the three cycles before (10 R265). The grant is noted. -/
def bankGrants (s u : State) (a : Nat) : Prop :=
  ∃ cl n, s.bankOfAddr a = some (cl, n) ∧ n < 256 ∧
    let x := (s.bank cl n).arb
    let now := s.cycleOf cl
    x.used ≠ some now ∧ x.spent now = false ∧ u = s.modBank cl n fun b => { b with arb := x.grant (24 + hgnOf s.cur) now }

/-- What an acquire at a scope does to the issuing core's L1 (12 R294). -/
abbrev acquired (s : State) (acq : Bool) (sc : Scope) : State :=
  if acq && wideScope sc && !isRmc s.cur then s.selfInval (coreOf s.cur) else s

/-- A memory access of an atomic operation: its registers, scope, semantics, width in bytes, and the new value from the old one
and the operand (07 R170). -/
structure AtomicForm where
  d : SReg
  a : SReg
  b : SReg
  sc : Scope
  ra : Bool
  z : Bool
  new : State → Nat → Nat → Nat

/-- The bytes of an atomic operation. -/
abbrev AtomicForm.n (x : AtomicForm) : Nat := if x.z then 8 else 4

/-- The signed value of n bytes. -/
def signedOf (n x : Nat) : Int := if x % 256 ^ n < 256 ^ n / 2 then (x % 256 ^ n : Nat) else (x % 256 ^ n : Nat) - (256 ^ n : Nat)

/-- The atomic operations (07 R170). -/
def atomicForm : Instr → Option AtomicForm
  | .amoAadd d a b sc r z => some ⟨d, a, b, sc, r, z, fun _ old x => old + x⟩
  | .amoAmin d a b sc r z => some ⟨d, a, b, sc, r, z, fun _ old x =>
      if signedOf (if z then 8 else 4) x < signedOf (if z then 8 else 4) old then x else old⟩
  | .amoAmax d a b sc r z => some ⟨d, a, b, sc, r, z, fun _ old x =>
      if signedOf (if z then 8 else 4) old < signedOf (if z then 8 else 4) x then x else old⟩
  | .amoAminn d a b sc r z => some ⟨d, a, b, sc, r, z, fun _ old x => min old x⟩
  | .amoAmaxn d a b sc r z => some ⟨d, a, b, sc, r, z, fun _ old x => max old x⟩
  | .amoAand d a b sc r z => some ⟨d, a, b, sc, r, z, fun _ old x => old &&& x⟩
  | .amoAor d a b sc r z => some ⟨d, a, b, sc, r, z, fun _ old x => old ||| x⟩
  | .amoAxor d a b sc r z => some ⟨d, a, b, sc, r, z, fun _ old x => old ^^^ x⟩
  | .amoAswap d a b sc r z => some ⟨d, a, b, sc, r, z, fun _ _ x => x⟩
  | .amoAcas d a b sc r z => some ⟨d, a, b, sc, r, z, fun s old x =>
      if old = x then (s.getS (b + 1)).toNat % 256 ^ (if z then 8 else 4) else old⟩
  | .amoAfadd d a b sc r z => some ⟨d, a, b, sc, r, z, fun _ old x => elemOp 0 .f32 .add old x 0⟩
  | _ => none

/-- The 256 bits of a barrier record: EXP, ARR, GEN and the reserved bits above (07 R177). -/
abbrev barrierImage (e r g high : Nat) : Nat := e + r * 2 ^ 64 + g * 2 ^ 128 + high * 2 ^ 160

/-- A record after its slots may be complete: when every expected slot has arrived, ARR becomes 0 and GEN advances (07 R178). -/
abbrev barrierComplete (e r g high : Nat) : Nat :=
  if r = e then barrierImage e 0 ((g + 1) % 2 ^ 32) high else barrierImage e r g high

end Sys2Proof.Claims

/-! ## Memory -/

/-- PADD, and with it every effective address: the sum stays in the pointer's offset field with every other bit unchanged, or the
pointer is poisoned: its space becomes 0xE, its low 60 bits are unchanged. The field is the one of the pointer's space; a space
without one always poisons (06 R138; 07 R166). -/
def Obligations.PointersAdvanceInTheirFieldOrPoison : Prop :=
  (∀ (s : State) (d a b : SReg) (g : PReg), s.getP g = true →
    goesOn (.padd d a b g) s (s.setS d (padd (s.getS a) (s.getS b).toInt))) ∧
  (∀ p : Word, offWidth (space p) =
    if space p = 0 ∨ space p = 1 ∨ space p = 2 ∨ space p = 8 ∨ space p = 0xC ∨ space p = 0xF then some 48
    else if space p = 4 then some 22 else if space p = 5 then some 25 else if space p = 6 then some 32
    else if space p = 7 then some 14 else none) ∧
  (∀ (p : Word) (d : Int) (w : Nat),
    (offWidth (space p) = some w → 0 ≤ ((p.toNat % 2 ^ w : Nat) : Int) + d → ((p.toNat % 2 ^ w : Nat) : Int) + d < 2 ^ w →
      ((padd p d).toNat : Int) = p.toNat + d ∧ (padd p d).toNat / 2 ^ w = p.toNat / 2 ^ w) ∧
    (offWidth (space p) = some w → ((p.toNat % 2 ^ w : Nat) : Int) + d < 0 ∨ (2 ^ w : Int) ≤ ((p.toNat % 2 ^ w : Nat) : Int) + d →
      space (padd p d) = 0xE ∧ (padd p d).toNat % 2 ^ 60 = p.toNat % 2 ^ 60) ∧
    (offWidth (space p) = none → space (padd p d) = 0xE ∧ (padd p d).toNat % 2 ^ 60 = p.toNat % 2 ^ 60)) ∧
  (∀ p : Word, space p = 0xE → zeroOk p = false)

/-- An access through a pointer of an unassigned space, poisoned ones among them, or with a reserved bit set raises ADDR; an access to
space 0xF in user mode raises PRIV; a misaligned one ALIGN. A pointer of the issuing core's own scratchpad reaches its byte in the
SCRATCH bank that holds the offset, for every kind and size of an aligned access (01 R18; 05 R117, R118). -/
def Obligations.PointersReachTheirBankOrFault : Prop :=
  (∀ (s : State) (p : Word) (n : Nat) (k : Kind), s.cur < 65536 →
     (space p = 0xF → s.me.sys = false → s.resolve s.cur p n k = .error (.fault 0x02 [])) ∧
     (space p ≠ 0xF → zeroOk p = false → s.resolve s.cur p n k = .error (.fault 0x03 [])) ∧
     (space p = 0x3 ∨ space p = 0x9 ∨ space p = 0xA ∨ space p = 0xB ∨ space p = 0xD ∨ space p = 0xE → zeroOk p = false) ∧
     (space p = 0x4 ∨ space p = 0x5 ∨ space p = 0x6 → zeroOk p = true → p.toNat % n ≠ 0 →
       s.resolve s.cur p n k = .error (.fault 0x04 []))) ∧
  (∀ (s : State) (off a n : Nat) (k : Kind), scratchAt s off a → n = 1 ∨ n = 2 ∨ n = 4 ∨ n = 8 ∨ n = 16 ∨ n = 32 ∨ n = 64 →
     off % n = 0 → s.resolve s.cur (ownScratch off) n k = .ok (.home a))

/-- LD and LDV, through any pointer: whatever the access gives is zero-extended into the destination, after the stores held in
the issuing bank; an acquire of a wide scope invalidates the L1; a fault of the access is the instruction's precise trap (07 R166,
R169; 06 R152). -/
def Obligations.LoadsWriteTheirDestination : Prop :=
  ∀ (s t : State) (d a : SReg) (dv : VReg) (o : BitVec 8) (z : Size) (zv : VSize) (sc : Scope) (acq : Bool) (v c : Nat) (dt : List Nat),
    let ea := effAddr (s.getS a) o (sizeBytes z)
    let eav := effAddr (s.getS a) o (vsizeBytes zv)
    (s.loadVia s.cur ea (sizeBytes z) (acq && wideScope sc) true = .ok (t, v) → t.cur = s.cur →
      goesOn (.ld d a o z sc acq) s ((acquired t acq sc).setS d (BitVec.ofNat 64 (s.overlay ea (sizeBytes z) v)))) ∧
    (s.loadVia s.cur ea (sizeBytes z) (acq && wideScope sc) true = .error (.fault c dt) → traps (.ld d a o z sc acq) s c dt) ∧
    (s.loadVia s.cur eav (vsizeBytes zv) (acq && wideScope sc) true = .ok (t, v) → t.cur = s.cur →
      goesOn (.ldv dv a o zv sc acq) s ((acquired t acq sc).setV dv (BitVec.ofNat 512 (s.overlay eav (vsizeBytes zv) v)))) ∧
    (s.loadVia s.cur eav (vsizeBytes zv) (acq && wideScope sc) true = .error (.fault c dt) → traps (.ldv dv a o zv sc acq) s c dt) ∧
    (s.me.forked = false → s.overlay ea (sizeBytes z) v = v ∧ s.overlay eav (vsizeBytes zv) v = v)

/-- A load from the own scratchpad: the bytes at its home, lowest first, whenever no word is poisoned and the bank serves the headgate in
this cycle; nothing but the destination, the bank's arbiter and its time of access changes (00 R3; 07 R166; 10 R265; 25 R442). -/
def Obligations.ScratchLoadsReadTheirBytes : Prop :=
  ∀ (s u : State) (off a : Nat) (d r : SReg) (dv : VReg) (o : BitVec 8) (z : Size) (zv : VSize) (sc : Scope),
    s.me.forked = false → scratchAt s off a → bankGrants s u a →
    (off % sizeBytes z = 0 → s.poisoned a (sizeBytes z) = false → effAddr (s.getS r) o (sizeBytes z) = ownScratch off →
      goesOn (.ld d r o z sc false) s ((u.touch a).setS d (BitVec.ofNat 64 (s.readN a (sizeBytes z))))) ∧
    (off % vsizeBytes zv = 0 → s.poisoned a (vsizeBytes zv) = false → effAddr (s.getS r) o (vsizeBytes zv) = ownScratch off →
      goesOn (.ldv dv r o zv sc false) s ((u.touch a).setV dv (BitVec.ofNat 512 (s.readN a (vsizeBytes zv)))))

/-- A store to the own scratchpad, while FORKED = 0 and when the bank serves the headgate in this cycle (10 R265): the low bytes of the register stand at its home, lowest first, every other
byte of memory reads as before, and no register changes (00 R3; 07 R166). The address is the one the effective address resolves to. -/
def Obligations.ScratchStoresWriteExactlyTheirBytes : Prop :=
  ∀ (s u : State) (off a : Nat) (d r : SReg) (dv : VReg) (o : BitVec 8) (z : Size) (zv : VSize) (sc : Scope),
    Memory.wf s.mem = true → s.me.forked = false → scratchAt s off a → bankGrants s u a →
    (off % sizeBytes z = 0 → effAddr (s.getS r) o (sizeBytes z) = ownScratch off →
      ∃ t, goesOn (.st d r o z sc false) s t ∧
        t.readN a (sizeBytes z) = (s.getS d).toNat % 256 ^ sizeBytes z ∧
        (∀ x, x < a ∨ a + sizeBytes z ≤ x → t.byte x = s.byte x) ∧ t.hgs = s.hgs) ∧
    (off % vsizeBytes zv = 0 → effAddr (s.getS r) o (vsizeBytes zv) = ownScratch off →
      ∃ t, goesOn (.stv dv r o zv sc false) s t ∧
        t.readN a (vsizeBytes zv) = (s.getV dv).toNat % 256 ^ vsizeBytes zv ∧
        (∀ x, x < a ∨ a + vsizeBytes zv ≤ x → t.byte x = s.byte x) ∧ t.hgs = s.hgs)

/-- A store through any pointer while FORKED = 0 performs at once, after the release of a releasing store; a fault of the access
is the precise trap (07 R166, R169). -/
def Obligations.StoresPerformThroughTheirPointer : Prop :=
  ∀ (s u t : State) (d a : SReg) (dv : VReg) (o : BitVec 8) (z : Size) (zv : VSize) (sc : Scope) (rel : Bool) (c : Nat) (dt : List Nat),
    s.me.forked = false → releases s u rel sc →
    let ea := effAddr (s.getS a) o (sizeBytes z)
    let eav := effAddr (s.getS a) o (vsizeBytes zv)
    (u.storeVia s.cur ea (sizeBytes z) ((s.getS d).toNat % 256 ^ sizeBytes z) (rel && wideScope sc) true = .ok t →
      goesOn (.st d a o z sc rel) s t) ∧
    (u.storeVia s.cur ea (sizeBytes z) ((s.getS d).toNat % 256 ^ sizeBytes z) (rel && wideScope sc) true = .error (.fault c dt) →
      traps (.st d a o z sc rel) s c dt) ∧
    (u.storeVia s.cur eav (vsizeBytes zv) ((s.getV dv).toNat % 256 ^ vsizeBytes zv) (rel && wideScope sc) true = .ok t →
      goesOn (.stv dv a o zv sc rel) s t) ∧
    (u.storeVia s.cur eav (vsizeBytes zv) ((s.getV dv).toNat % 256 ^ vsizeBytes zv) (rel && wideScope sc) true = .error (.fault c dt) →
      traps (.stv dv a o zv sc rel) s c dt)

/-- What a waiter stores at a home it reads back at once, whether its core's L1 holds the bytes or not (07 R167; 12 R293, R294). The
readings of the model that it rests on: logs 9 and 11. -/
def Obligations.ACoreReadsBackItsOwnStore : Prop :=
  ∀ (s : State) (w sp a n v : Nat), Memory.wf s.mem = true → s.mod.poison = [] → noLineLost s →
    n = 1 ∨ n = 2 ∨ n = 4 ∨ n = 8 ∨ n = 16 ∨ n = 32 ∨ n = 64 → a % n = 0 → v < 256 ^ n →
    ∃ t, (s.storeAt w sp a n v false).loadAt w sp a n false = .ok (t, v)

/-- Every atomic operation at a home: s[d] takes the old value, zero-extended; the bytes take the new one, computed by the
operation's rule from the old value and the operand; an operation that leaves the value writes nothing. With FN[7] it releases
before and acquires after; its access takes its turn at the bank (07 R170 to R172; 10 R265). -/
def Obligations.AtomicOperationsSwapInOneStep : Prop :=
  ∀ (i : Instr) (x : AtomicForm) (s u y : State) (a : Nat), atomicForm i = some x →
    s.me.forked = false → isRmc s.cur = false → releases s u x.ra x.sc →
    let sp := space (s.getS x.a)
    u.resolve s.cur (s.getS x.a) x.n .amo = .ok (.home a) → u.homeReady s.cur sp a x.n true = .ok () →
    u.turnAt s.cur sp a true true = .ok y →
    let w := if isDram a then y.l1Bypass (coreOf s.cur) s.cur a x.n else y
    w.poisoned a x.n = false →
    let old := w.readN a x.n
    let new := x.new s old ((s.getS x.b).toNat % 256 ^ x.n) % 256 ^ x.n
    let t := (if new = old then w else w.homeWrite a x.n new).touchAs sp a s.cur (new != old)
    goesOn i s ((if x.ra then t.acquire s.cur x.sc else t).setS x.d (BitVec.ofNat 64 old))

/-! ## Fences and barriers -/

/-- FENCE, FENCE.LD and FENCE.ST at each scope, WFENCE, MFENCE and IFENCE: what each waits for, and what it does to the L1 and the
instruction cache. MFENCE at a headgate whose plot runs waits for the next mark commit, STOPP or unbinding; then, and at a headgate
whose plot does not run, it is a FENCE at partition scope (07 R173 to R176; 12 R294). -/
def Obligations.FencesWaitAndOrder : Prop :=
  (∀ (s : State) (sc : Scope) (g : PReg), s.me.forked = false → s.getP g = true →
     let wide := wideScope sc = true ∧ isRmc s.cur = false
     let home := s.flushReady s.cur [coreOf s.cur] = .ok ()
     let back := s.writeBackAll s.cur (coreOf s.cur)
     (s.storesDone s.cur sc = true →
       (wide → home → s.release s.cur sc = .ok back) ∧ (¬wide → s.release s.cur sc = .ok s)) ∧
     (s.storesDone s.cur sc = false → s.release s.cur sc = .error (.wait .busy)) ∧
     (s.me.commandsDone = true → s.storesDone s.cur sc = true →
       (wide → home → goesOn (.fence sc g) s (back.selfInval (coreOf s.cur))) ∧ (¬wide → goesOn (.fence sc g) s s)) ∧
     (s.me.commandsDone = false ∨ s.storesDone s.cur sc = false → waits (.fence sc g) s) ∧
     ((wide → goesOn (.fenceLd sc g) s (s.selfInval (coreOf s.cur))) ∧ (¬wide → goesOn (.fenceLd sc g) s s)) ∧
     (s.storesDone s.cur sc = true →
       (wide → home → goesOn (.fenceSt sc g) s back) ∧ (¬wide → goesOn (.fenceSt sc g) s s)) ∧
     (s.storesDone s.cur sc = false → waits (.fenceSt sc g) s) ∧
     (s.remoteClear s.cur = true → goesOn (.wfence g) s (s.setMe { s.me with lastWin := none })) ∧
     (s.remoteClear s.cur = false → waits (.wfence g) s) ∧
     (s.wakesDone s.cur = true →
       ∃ u, u = (if isRmc s.cur then s else s.selfInval (coreOf s.cur)) ∧ goesOn (.ifence g) s (u.setMe { u.me with icache := [] }))) ∧
  (∀ (s u : State) (g : PReg), s.me.forked = false → s.getP g = true →
     (s.me.wait = .mfence false → waits (.mfence g) s) ∧
     (s.me.wait = .none → s.boundActive s.cur = true → exec (.mfence g) s = .next (s.setMe { s.me with wait := .mfence false })) ∧
     (s.me.wait = .none → s.boundActive s.cur = false → s.me.commandsDone = true → s.storesDone s.cur .partition = true →
       s.fenceL1 s.cur .partition true true = .ok u → goesOn (.mfence g) s u) ∧
     (s.me.wait = .mfence true → s.me.commandsDone = true → s.storesDone s.cur .partition = true →
       s.fenceL1 s.cur .partition true true = .ok u → goesOn (.mfence g) s (u.setMe { u.me with wait := .none })))

/-- The barrier instructions on a record that can be read (07 R177 to R179): BINIT sets EXP and keeps GEN; BARR arrives with a
release and gives the generation before; BWAIT waits for another generation and acquires; BLEAVE leaves; BQRY reads a field. An
arrival of a slot that is not expected or has arrived raises ILLEGAL. -/
def Obligations.BarriersCountTheirSlots : Prop :=
  ∀ (s u : State) (d a b : SReg) (g : PReg) (h e r gen high : Nat), s.me.forked = false → s.getP g = true →
    e < 2 ^ 64 → r < 2 ^ 64 → gen < 2 ^ 32 → high < 2 ^ 96 →
    (s.barRead (s.getS a) = .ok (h, barrierImage e r gen high) →
      goesOn (.binit a b g) s (s.barWrite h (barrierImage (s.getS b).toNat 0 gen 0)) ∧
      ((s.getS b).toNat % 2 ^ 32 ≠ gen → goesOn (.bwait a b g) s (acquired (s.touch h) true .partition)) ∧
      ((s.getS b).toNat % 2 ^ 32 = gen → waits (.bwait a b g) s) ∧
      ((s.getS b).toNat < 64 → e / 2 ^ (s.getS b).toNat % 2 = 1 →
        let m := 2 ^ (s.getS b).toNat
        goesOn (.bleave a b g) s (s.barWrite h (barrierComplete (e - m) (if r / m % 2 = 1 then r - m else r) gen high))) ∧
      ((s.getS b).toNat < 64 → e / 2 ^ (s.getS b).toNat % 2 = 0 →
        goesOn (.bleave a b g) s (s.barWrite h (barrierImage e r gen high))) ∧
      (s.getS b = 0 → goesOn (.bqry d a b g) s ((s.touch h).setS d (BitVec.ofNat 64 e))) ∧
      (s.getS b = 1 → goesOn (.bqry d a b g) s ((s.touch h).setS d (BitVec.ofNat 64 r))) ∧
      (s.getS b = 2 → goesOn (.bqry d a b g) s ((s.touch h).setS d (BitVec.ofNat 64 gen)))) ∧
    (2 < (s.getS b).toNat → traps (.bqry d a b g) s 0x01 []) ∧
    (63 < (s.getS b).toNat → traps (.barr d a b g) s 0x01 [] ∧ traps (.bleave a b g) s 0x01 []) ∧
    (releases s u true .partition → u.barRead (s.getS a) = .ok (h, barrierImage e r gen high) → (s.getS b).toNat < 64 →
      (e / 2 ^ (s.getS b).toNat % 2 = 1 → r / 2 ^ (s.getS b).toNat % 2 = 0 →
        goesOn (.barr d a b g) s
          ((u.barWrite h (barrierComplete e (r + 2 ^ (s.getS b).toNat) gen high)).setS d (BitVec.ofNat 64 gen))) ∧
      (e / 2 ^ (s.getS b).toNat % 2 = 0 ∨ r / 2 ^ (s.getS b).toNat % 2 = 1 → traps (.barr d a b g) s 0x01 []))

namespace Sys2Proof.Claims

/-- e is the holder that a hash finds on a key ring of tokens by holder: the smallest token at or above it, or the smallest of
all when none is that large (19 R403). -/
def ringHolds (l : List (Nat × Nat)) (h : Nat) (e : Nat × Nat) : Prop :=
  e ∈ l ∧ ((h ≤ e.2 ∧ ∀ x ∈ l, h ≤ x.2 → e.2 ≤ x.2) ∨ ((∀ x ∈ l, x.2 < h) ∧ ∀ x ∈ l, e.2 ≤ x.2))

/-- The destination of a QSEND in a partition: 0xFFFF is the issuing core (07 R180; 01 R8). -/
def sendTarget (s : State) (p i dst : Nat) : Prop :=
  (i = 0xFFFF ∧ dst = coreOf s.cur) ∨ (i ≠ 0xFFFF ∧ (s.part p).cores[i]? = some dst)

/-- A collective's operands: source and destination slots, the register, the kind, the reduction, the format (07 R183). -/
def collForm : Instr → Option (ShReg × ShReg × SReg × Nat × Nat × Fmt)
  | .collAllred x y a r f => some (x, y, a, 0, r.code, f)
  | .collRedscat x y a r f => some (x, y, a, 1, r.code, f)
  | .collAllgath x y a f => some (x, y, a, 2, 0, f)
  | .collBcast x y a f => some (x, y, a, 3, 0, f)
  | .collA2a x y a f => some (x, y, a, 4, 0, f)
  | _ => none

/-- A launch record's owner: the context of [57:48] of word 1 (17 R349). -/
abbrev ownerOf (l : Launch) : Nat := bits (l.words.get 1).toNat 48 10

/-- The context active on the issuing sequencer's partition is a record's owner. -/
def owns (s : State) (l : Launch) : Prop :=
  ∃ p, s.partOfHg s.cur = some p ∧ (s.part p).av = true ∧ (s.part p).active = ownerOf l

/-- The states in which a record may be patched and armed: READY, DONE, CANCELLED (07 R185). -/
abbrev mayArm (l : Launch) : Prop := l.state = 1 ∨ l.state = 4 ∨ l.state = 5

/-- An addition to a counter: modulo 2^32, a carry out kept in CNTOVF (07 R187). -/
def counted (k : Core) (i : Fin 64) (n : Nat) : Core :=
  { k with
    counters := k.counters.set i ((k.counters.get i + n) % 2 ^ 32)
    cntovf := if 2 ^ 32 ≤ k.counters.get i + n ∧ k.cntovf / 2 ^ i.val % 2 = 0 then k.cntovf + 2 ^ i.val else k.cntovf }

/-- The slot that an ATSET arms: its tick, its descriptor, and the FMODE and G sampled (07 R189). -/
abbrev armedSlot (s : State) (a b : SReg) : TimedSlot :=
  { busy := true, wt := (s.getS a).toNat, desc := s.getS b, fmode := s.me.fmode, g := s.me.g }

/-- A slot's status word (07 R190). -/
abbrev slotStatus (x : TimedSlot) : Nat :=
  x.cause % 256 * 2 ^ 8 + (if x.err then 4 else 0) + (if x.late then 2 else 0) + if x.fired then 1 else 0

/-- A descriptor's kind is 0 to 4 and its bits [59:16] are zero (07 R189). -/
abbrev slotLegal (b : Word) : Prop := b.toNat / 2 ^ 60 ≤ 4 ∧ b.toNat / 2 ^ 16 % 2 ^ 44 = 0

end Sys2Proof.Claims

/-- KEYLK: s[d] points into the core that holds the key's place on the ring of the active context, at the offset in s[b]; the
counter of free values moves too, which is the model's own (log 12) (06 R140; 19 R403). -/
def Obligations.KeylkPointsIntoTheOwner : Prop :=
  ∀ (s : State) (d a b : SReg) (g : PReg) (p : Nat), s.getP g = true → s.partOfHg s.cur = some p →
    let l := (s.ctx (s.part p).active).tokens
    l ≠ [] → ∃ e, ringHolds l ((s.getS a).toNat % 2 ^ 32 * 0x9E3779B9 % 2 ^ 32) e ∧
      goesOn (.keylk d a b g) s { s.setS d
        (BitVec.ofNat 64 (4 * 2 ^ 60 + s.lcore e.1 % 2 ^ 16 * 2 ^ 32 + (s.getS b).toNat % 2 ^ 22)) with fresh := s.fresh + 1 }

/-- QSEND hands its message to the network interface, which holds eight, after a release; QRECV takes the oldest entry of a
queue with its header and stamps, and acquires; QPOLL counts (07 R180 to R182). The readings of the model that it rests on:
log 45. -/
def Obligations.MessagesPassThroughTheirQueues : Prop :=
  ∀ (s u : State) (d : VReg) (e a b : SReg) (g : PReg) (p dst : Nat) (q : Fin 8) (m : Msg) (rest : List Msg),
    s.me.forked = false → s.getP g = true →
    let x := (s.getS a).toNat
    let c := unitCore s.cur
    let me := coreOf s.cur
    (bits x 48 16 = 0 → bits x 3 29 = 0 → s.partOfHg s.cur = some p → sendTarget s p (bits x 32 16) dst →
      (clusterOf dst = clusterOf me ∨ s.leaving (clusterOf me) = .ok ()) →
      let msg : Msg :=
        { payload := (s.getV d).toNat, header := BitVec.ofNat 64 (s.lcore me * 2 ^ 48 + (s.getS b).toNat % 2 ^ 48), sent := s.wt, arrived := 0 }
      ((s.mod.packets.filter fun y => y.src == me && y.place == .source).length < 8 →
        releases s u true .partition → goesOn (.qsend d a b g) s (u.modMod fun y =>
          { y with packets := y.packets ++ [{ cls := 2, src := me, seqr := s.cur, dst, queue := x % 8, msg, ready := s.wt + 6 }] })) ∧
      (8 ≤ (s.mod.packets.filter fun y => y.src == me && y.place == .source).length → waits (.qsend d a b g) s)) ∧
    (bits x 48 16 ≠ 0 ∨ bits x 3 29 ≠ 0 → traps (.qsend d a b g) s 0x01 []) ∧
    (bits x 48 16 = 0 → bits x 3 29 = 0 → s.partOfHg s.cur = some p → bits x 32 16 ≠ 0xFFFF → (s.part p).cores.length ≤ bits x 32 16 →
      traps (.qsend d a b g) s 0x03 []) ∧
    (x = q.val → (s.core c).tqmask.testBit q.val = false →
      ((s.core c).queues.get q = m :: rest →
        goesOn (.qrecv d a b g) s ((((acquired (s.modCore c fun k => { k with queues := k.queues.set q rest }) true .partition).setV d
          (BitVec.ofNat 512 m.payload)).setS b m.header).setS (b + 1)
            (BitVec.ofNat 64 (m.sent % 2 ^ 32 * 2 ^ 32 + m.arrived % 2 ^ 32)))) ∧
      ((s.core c).queues.get q = [] → waits (.qrecv d a b g) s) ∧
      goesOn (.qpoll e a g) s (s.setS e (BitVec.ofNat 64 ((s.core c).queues.get q).length))) ∧
    (8 ≤ x → traps (.qrecv d a b g) s 0x01 [] ∧ traps (.qpoll e a g) s 0x01 []) ∧
    (x = q.val → (s.core c).tqmask.testBit q.val = true → traps (.qrecv d a b g) s 0x06 [] ∧ traps (.qpoll e a g) s 0x06 [])

/-- COLL of every kind arrives, stalls until its collective is complete, and retires with an acquire; a headgate that is no
participant, an empty slot, or a slot of another format raises ILLEGAL; COLL_COMPLETE writes the destinations once all have arrived.
What each rank receives: a broadcast gives the root's source, an all-gather block j rank j's source, an all-to-all block j the
rank's block of rank j's source, and an i32 all-reduce the sums modulo 2^32 (07 R183, R184). The
readings of the model that it rests on: log 28. -/
def Obligations.CollectivesArriveAndRetire : Prop :=
  ((∀ (i : Instr) (x y : ShReg) (a : SReg) (kind red : Nat) (f : Fmt) (s t : State) (p key : Nat) (c : Collective),
     collForm i = some (x, y, a, kind, red, f) → s.me.forked = false → s.partOfHg s.cur = some p →
     (s.me.wait = .coll key → SMap.get? (s.part p).colls key = some c →
       (c.done = false → waits i s) ∧
       (c.done = true →
         let rest := c.arrived.filter fun z => z.lhg != 4 * s.lcore (coreOf s.cur) + hgnOf s.cur
         let u := s.modPart p fun q =>
           { q with colls := if rest.isEmpty then SMap.erase q.colls key else SMap.set q.colls key { c with arrived := rest } }
         goesOn i s (acquired (u.setMe { u.me with wait := .none }) true (if c.group ≥ 0x80 then .domain else .partition)))) ∧
     (s.me.wait = .none → s.collArrive kind red f (s.me.getSh x) (s.me.getSh y) (s.getS a) = .ok t →
       exec i s = .next t ∧ t.me.pc = s.me.pc ∧ ∃ k z, t.me.wait = .coll k ∧
         SMap.get? (t.part p).colls k = some z ∧ z.done = false ∧ z.kind = kind ∧ z.red = red ∧ z.fmt = f ∧
         z.group = (s.getS a).toNat % 256 ∧ z.ex = shCount (s.me.getSh x) ∧ z.ey = shCount (s.me.getSh y) ∧
         ∃ w n r, z.arrived.getLast? = some w ∧ w.dst = s.me.getSh y ∧ s.rankIn s.cur ((s.getS a).toNat % 256) = some (n, r) ∧ w.rank = r) ∧
     (s.me.wait = .none → s.rankIn s.cur ((s.getS a).toNat % 256) = none ∨ shEmpty (s.me.getSh x) = true ∨
       shEmpty (s.me.getSh y) = true ∨ shFmt (s.me.getSh x) ≠ f.code ∨ shFmt (s.me.getSh y) ≠ f.code ∨ 2 ^ 24 ≤ (s.getS a).toNat →
       traps i s 0x01 [])) ∧
   (∀ (s t : State) (c : Collective), SMap.get? (s.part s.inp.unit).colls s.inp.idx = some c → c.done = false → c.group < 0x80 →
     (c.arrived.length < c.size → exec .collComplete s = .next s) ∧
     (c.size ≤ c.arrived.length → s.collWrite s.inp.unit c (c.sources s.inp.data) c.arrived = .ok t →
       exec .collComplete s = .next (t.modPart s.inp.unit fun q => { q with colls := SMap.set q.colls s.inp.idx { c with done := true } })))) ∧
  (∀ (c : Collective) (srcs : List (List Nat)) (rank j t : Nat), c.size = srcs.length → (∀ l ∈ srcs, l.length = c.ex) →
     (c.kind = 3 → collResult c srcs rank = srcs.getD c.root []) ∧
     (c.kind = 2 → j < c.size → t < c.ex → (collResult c srcs rank).getD (j * c.ex + t) 0 = (srcs.getD j []).getD t 0) ∧
     (c.kind = 4 → j < c.size → t < c.ex / c.size →
       (collResult c srcs rank).getD (j * (c.ex / c.size) + t) 0 = (srcs.getD j []).getD (rank * (c.ex / c.size) + t) 0) ∧
     (c.kind = 0 → c.red = 0 → c.fmt = .i32 → t < c.ey → (∀ l ∈ srcs, ∀ x ∈ l, x < 2 ^ 32) →
       (collResult c srcs rank).getD t 0 = (srcs.map fun l => l.getD t 0).sum % 2 ^ 32))

/-- LRPATCH, LRARM and LRQRY in every state of a record: a patch through the mask, an arming with its release that goes to the
dispatcher, the status word; another owner's record and a masked word raise PROT, a state that forbids it LAUNCH_STATE, and a
reserved bit ILLEGAL (07 R185; 17 R349, R351). The readings of the model that it rests on: log 53. -/
def Obligations.LaunchRecordsFollowTheirStates : Prop :=
  ∀ (s u : State) (d a b : SReg) (g : PReg), s.me.forked = false → s.getP g = true →
    let x := (s.getS a).toNat
    let r := bits x 0 12
    let w := bits x 16 4
    let l := s.launch r
    (bits x 20 44 = 0 → bits x 12 4 = 0 →
      (owns s l → mayArm l → bit (bits (l.words.get 1).toNat 32 16) w = true →
        goesOn (.lrpatch a b g) s (s.modLaunch r fun y => { y with words := y.words.set (Fin.ofNat 16 w) (s.getS b) })) ∧
      (¬owns s l → traps (.lrpatch a b g) s 0x06 []) ∧
      (owns s l → ¬mayArm l → traps (.lrpatch a b g) s 0x1B []) ∧
      (owns s l → mayArm l → bit (bits (l.words.get 1).toNat 32 16) w = false → traps (.lrpatch a b g) s 0x06 [])) ∧
    (bits x 20 44 ≠ 0 ∨ bits x 12 4 ≠ 0 → traps (.lrpatch a b g) s 0x01 []) ∧
    (x < 4096 →
      (owns s l → mayArm l → releases s u true .partition →
        goesOn (.lrarm a g) s ((u.modLaunch x fun y =>
          { y with state := 2, via := y.port, order := s.mod.armSeq, accepted := false, armedWt := s.wt }).modMod fun m =>
            { m with armSeq := m.armSeq + 1, dcmds := m.dcmds ++ [(x, 0)] })) ∧
      (¬owns s l → (releases s u true .partition → traps (.lrarm a g) s 0x06 []) ∧ traps (.lrqry d a g) s 0x06 []) ∧
      (owns s l → ¬mayArm l → releases s u true .partition → traps (.lrarm a g) s 0x1B []) ∧
      (owns s l → goesOn (.lrqry d a g) s
        (s.setS d (BitVec.ofNat 64 (l.count % 2 ^ 32 * 2 ^ 32 + l.code % 2 ^ 8 * 2 ^ 8 + l.state % 2 ^ 4))))) ∧
    (4096 ≤ x → traps (.lrarm a g) s 0x01 [] ∧ traps (.lrqry d a g) s 0x01 [])

/-- CNTADD, VCNT, CNTRD and CNTSNAP (07 R187, R188): additions modulo 2^32 with the carry kept, once for each lane that names a
counter; the snapshot stores the counters, gives CNTOVF and clears both, and a store that fails clears nothing. The readings
of the model that it rests on: log 53. -/
def Obligations.RouteCountersCountAndClear : Prop :=
  ∀ (s t : State) (d a b : SReg) (v : VReg) (g : PReg) (i : Fin 64) (c : Nat) (dt : List Nat), s.me.forked = false → s.getP g = true →
    let k := unitCore s.cur
    let n := (s.getS b).toNat % 2 ^ 32
    ((s.getS a).toNat = i.val →
      goesOn (.cntadd a b g) s (s.modCore k fun y => counted y i n) ∧
      goesOn (.cntrd d a g) s (s.setS d (BitVec.ofNat 64 ((s.core k).counters.get i)))) ∧
    (64 ≤ (s.getS a).toNat → traps (.cntadd a b g) s 0x01 [] ∧ traps (.cntrd d a g) s 0x01 []) ∧
    goesOn (.vcnt v b g) s (s.modCore k fun y =>
      ((lanes (s.getV v) 32).filter (· < 64)).foldl (fun y j => counted y (Fin.ofNat 64 j) n) y) ∧
    (s.storePieces s.cur (s.getS a) 4 (pack 32 (s.core k).counters.toList) = .ok t →
      goesOn (.cntsnap d a g) s
        ((t.modCore k fun y => { y with counters := Vector.replicate 64 0, cntovf := 0 }).setS d (BitVec.ofNat 64 (s.core k).cntovf))) ∧
    (s.storePieces s.cur (s.getS a) 4 (pack 32 (s.core k).counters.toList) = .error (.fault c dt) → traps (.cntsnap d a g) s c dt)

/-- WTRD, ATSET, ATCAN, ATWAIT and the firing of a slot: ATSET arms the first free slot, at once when its tick has passed; ATCAN and
ATWAIT give the status and free the slot; a firing latches PEV bit 1 and opens the gate it names, and a failed one is only recorded.
BWPH writes both registers of its partition and applies them; BWQRY reads the first, the second or the status word; a reserved bit
and another selector raise ILLEGAL (07 R189 to R192). The readings of the model that it rests on: logs 12, 27 and 37. -/
def Obligations.TimedActionsAndBandwidthPhases : Prop :=
  (∀ (s : State) (d a b : SReg) (g : PReg) (i : Fin 8), s.me.forked = false → s.getP g = true →
     let x := armedSlot s a b
     let y := s.me.timed.get i
     let u := s.setMe { s.me with timed := s.me.timed.set i x }
     goesOn (.wtrd d g) s (s.setS d (BitVec.ofNat 64 s.wt)) ∧
     (slotLegal (s.getS b) → y.busy = false → (∀ j, j < i → (s.me.timed.get j).busy = true) →
       ((s.getS b).toNat / 2 ^ 60 ≠ 1 → s.wt ≤ x.wt → goesOn (.atset d a b g) s (u.setS d (BitVec.ofNat 64 i.val))) ∧
       ((s.getS b).toNat / 2 ^ 60 = 1 → s.wt < x.wt → ∀ q, s.plot? (s.hgPart s.cur) ((s.getS b).toNat % 2 ^ 16) = some q →
         goesOn (.atset d a b g) s ((u.armBallast q x.wt).setS d (BitVec.ofNat 64 i.val))) ∧
       (x.wt < s.wt → goesOn (.atset d a b g) s ((u.fireSlot s.cur i.val x true).setS d (BitVec.ofNat 64 i.val)))) ∧
     (¬slotLegal (s.getS b) → traps (.atset d a b g) s 0x01 []) ∧
     ((∀ j : Fin 8, (s.me.timed.get j).busy = true) → traps (.atset d a b g) s 0x01 []) ∧
     ((s.getS a).toNat = i.val →
       (y.desc.toNat / 2 ^ 60 ≠ 1 ∨ y.busy = false ∨ y.fired = true →
         goesOn (.atcan d a g) s ((s.setMe { s.me with timed := s.me.timed.set i {} }).setS d
           (BitVec.ofNat 64 (if y.fired then slotStatus y else 0)))) ∧
       (y.desc.toNat / 2 ^ 60 = 1 → y.busy = true → y.fired = false → ∀ q, s.plot? (s.hgPart s.cur) (y.desc.toNat % 2 ^ 16) = some q →
         goesOn (.atcan d a g) s (((s.endBallast q false).modMe fun h => { h with timed := h.timed.set i {} }).setS d 0)) ∧
       (y.busy = false ∨ y.fired = true →
         goesOn (.atwait d a g) s ((s.setMe { s.me with timed := s.me.timed.set i {} }).setS d
           (BitVec.ofNat 64 (if y.busy then slotStatus y else 0)))) ∧
       (y.busy = true → y.fired = false → waits (.atwait d a g) s)) ∧
     (8 ≤ (s.getS a).toNat → traps (.atcan d a g) s 0x01 [] ∧ traps (.atwait d a g) s 0x01 []) ∧
     (∀ (w : State) (z : TimedSlot) (late : Bool), isRmc s.inp.unit = false →
       (z = (s.hg s.inp.unit).timed.get i → s.inp.idx = i.val → z.busy = true → z.fired = false → z.wt ≤ s.wt →
         s.timersOn s.inp.unit = true → exec .timedActionFire s = .next (s.fireSlot s.inp.unit i.val z false)) ∧
       (z.wt > s.wt → z = (s.hg s.inp.unit).timed.get i → s.inp.idx = i.val → exec .timedActionFire s = .next s) ∧
       (z.desc.toNat / 2 ^ 60 = 0 → w.fireSlot s.inp.unit i.val z late = w.modHg s.inp.unit fun h =>
         { h with timed := h.timed.set i { z with fired := true, late }, pev := h.pev ||| 2 }) ∧
       (z.desc.toNat / 2 ^ 60 = 3 → let n := Fin.ofNat 16 (z.desc.toNat % 2 ^ 16)
         ((w.core (unitCore s.inp.unit)).sluices.get n).set = false → w.fireSlot s.inp.unit i.val z late = w.modHg s.inp.unit fun h =>
           { h with timed := h.timed.set i { z with fired := true, late, err := true, cause := 0x1A }, pev := h.pev ||| 2 }))) ∧
  (∀ (s : State) (d a b : SReg) (g : PReg) (p : Nat), s.me.forked = false → s.getP g = true → s.partOfHg s.cur = some p →
     let q := s.part p
     (bits (s.getS a).toNat 51 5 = 0 → bits (s.getS a).toNat 32 16 = 0 →
       goesOn (.bwph a b g) s
         ((s.modPart p fun y => { y with bwphase := s.getS a, bwphwt := s.getS b, bwHold := y.holds s.wt }).applyPhase p)) ∧
     (bits (s.getS a).toNat 51 5 ≠ 0 ∨ bits (s.getS a).toNat 32 16 ≠ 0 → traps (.bwph a b g) s 0x01 []) ∧
     (s.getS a = 0 → goesOn (.bwqry d a g) s (s.setS d q.bwphase)) ∧
     (s.getS a = 1 → goesOn (.bwqry d a g) s (s.setS d q.bwphwt)) ∧
     (s.getS a = 2 → goesOn (.bwqry d a g) s (s.setS d (BitVec.ofNat 64
       ((if q.lostBw then 4 else 0) + (if q.short then 2 else 0) + if s.wt < q.bwphwt.toNat then 1 else 0)))) ∧
     (2 < (s.getS a).toNat → traps (.bwqry d a g) s 0x01 []))

namespace Sys2Proof.Claims

/-- The plot id that a register names, whose bits [63:16] are zero (08 R204). -/
abbrev namesPlot (s : State) (a : SReg) (id : Nat) : Prop := (s.getS a).toNat = id ∧ id < 65536

/-- The lanes of its segment that a delay record sets: those that the plot has (08 R211). -/
abbrev dlyLanes (q : Plot) (x : Nat) : List Nat :=
  (List.range 24).filter fun k => decide (24 * bits x 32 16 + k < q.sideLen (bits x 24 2))

/-- The weight-store images of a splice's plots, read in turn by the headgate that armed it (08 R207). -/
abbrev spliceStores (t : State) (k : Nat) (l : Load) : Acc (State × SMap (SMap Nat)) :=
  l.plots.foldlM (fun (st : State × SMap (SMap Nat)) (e : Nat × Plot) => do
    let (t, y) ← st.1.readStores (waiterOf k 13) e.1 e.2
    .ok (t, y.foldl (fun m z => SMap.set m z.1 z.2) st.2)) (t, [])

/-- A descriptor that SLSET accepts: UNIT at most 9, KIND 0 or 1, bits [52:22] zero, OFFSET a multiple of the unit (08 R219). -/
abbrev slLegal (d : Word) : Prop :=
  bits d.toNat 60 4 ≤ 9 ∧ bits d.toNat 54 2 ≤ 1 ∧ bits d.toNat 22 31 = 0 ∧ bits d.toNat 0 22 % (16 * 2 ^ bits d.toNat 60 4) = 0

/-- The bytes of a sluice's region end here (08 R219). -/
abbrev slEnd (d : Word) : Nat := bits d.toNat 0 22 + 2 ^ bits d.toNat 56 4 * (16 * 2 ^ bits d.toNat 60 4)

/-- A sluice's units between its pointers, and those that consumers see (08 R220). -/
abbrev unitsIn (y : Sluice) : Nat := (y.p + 2 ^ 32 - y.c) % 2 ^ 32
abbrev unitsSeen (y : Sluice) : Nat := if y.open_ then unitsIn y else 0
abbrev unitsAll (y : Sluice) : Nat := 2 ^ bits y.desc.toNat 56 4

/-- The headgate with a node changed. -/
abbrev withNode (h : Hg) (n : NodeIx) (x : Node) : Hg := if n.val = 0 then { h with node0 := x } else { h with node1 := x }
abbrev nodeOf (h : Hg) (n : NodeIx) : Node := if n.val = 0 then h.node0 else h.node1

/-- The operands of STRM (08 R214), of CHAIN (08 R229), of TSTEP in both forms (08 R221). -/
abbrev strmOps (s : State) (x y : ShReg) (a : SReg) : Operands :=
  { va := s.getS a, sx := s.me.getSh x, sy := s.me.getSh y, fmode := s.me.fmode, g := s.me.g }
abbrev chainOps (s : State) (a b : SReg) : Operands := { va := s.getS a, vb := s.getS b, fmode := s.me.fmode, g := s.me.g }
abbrev tileOps (s : State) (x : ShReg) (a : SReg) : Operands :=
  { va := s.getS a, va1 := s.getS (a + 1), sx := s.me.getSh x, fmode := s.me.fmode }
abbrev tileOpsV (s : State) (x : ShReg) (z : VReg) : Operands := { vec := s.getV z, sx := s.me.getSh x, fmode := s.me.fmode }

/-- The tile-step row that a TSTEP queues, and the headgate after it (08 R221 to R223). -/
abbrev tileCmd (h : Hg) (o : Operands) (y : SlReg) (n : BitVec 9) (v : Option VWord) : TileCmd :=
  { serial := h.feed.nextSerial, shape := o.sx, sl := y.val, vec := v, base := o.va, step := o.va1, n := n.toNat, fmode := o.fmode
    dbase := h.drain.total }
abbrev tileQueued (h : Hg) (kind : Nat) (c : TileCmd) : Hg :=
  { h with
    feed := { h.feed with nextSerial := h.feed.nextSerial + 1, queue := if kind = 0 ∨ kind = 2 then h.feed.queue ++ [c] else h.feed.queue }
    drain := if kind = 1 ∨ kind = 2 then { h.drain with rows := h.drain.rows ++ [c], total := h.drain.total + c.n * shExt c.shape 1 } else h.drain }

/-- The command that CHAIN queues, and the state with it (08 R229). -/
abbrev chainCmd (s t : State) (r : BitVec 256) (b : SReg) : ChainCmd :=
  { slots := r, desc := s.getS b, left := bits (s.getS b).toNat 32 32, fmode := s.me.fmode, g := s.me.g, k := t.me.chain.k.toList }
abbrev chainQueued (t : State) (c : ChainCmd) : State :=
  t.modMe fun h => { h with chain := { h.chain with queue := h.chain.queue ++ [c] } }

/-- An instruction that is held while FORKED = 1 (06 R150): its guard, what it reads when it issues, its operand checks, and
whether its issue steps the headgate's own G (02 R39). -/
def heldForm : Instr → Option (PReg × (State → Operands) × (State → Prop) × Bool)
  | .st d a _ _ _ _ => some (0, fun s => { va := s.getS a, vd := s.getS d }, fun _ => True, false)
  | .stv d a _ _ _ _ => some (0, fun s => { va := s.getS a, vec := s.getV d }, fun _ => True, false)
  | .shld _ a => some (0, fun s => { va := s.getS a }, fun _ => True, false)
  | .shst x a => some (0, fun s => { va := s.getS a, sx := s.me.getSh x }, fun _ => True, false)
  | .xform _ a => some (0, fun s => { va := s.getS a }, fun s => xfOk (s.getS a) = true, false)
  | .strm x y n a => some (0, fun s => strmOps s x y a, fun s => s.strmOk (strmOps s x y a) (s.me.xformNow n.val) = true, true)
  | .strmq _ _ => some (0, fun _ => {}, fun _ => True, false)
  | .cbload a => some (0, fun s => { va := s.getS a }, fun _ => True, false)
  | .tstep x y a _ => some (0, fun s => tileOps s x a, fun s => s.tstepOk (tileOps s x a) y a.val 0 = .ok (), false)
  | .tstepV x y z _ => some (0, fun s => tileOpsV s x z, fun s => s.tstepOk (tileOpsV s x z) y 0 z.val = .ok (), false)
  | .wtbl a b g => some (g, fun s => { va := s.getS a, vb := s.getS b }, fun s => (s.getS b).toNat ≤ 1, false)
  | .wdec a g => some (g, fun s => { va := s.getS a, fmode := s.me.fmode, g := s.me.g }, fun _ => True, false)
  | .wseek a g => some (g, fun s => { va := s.getS a }, fun s => (s.getS a).toNat % 2 ^ 16 ≤ 8191, false)
  | .wdqry _ a g => some (g, fun s => { va := s.getS a }, fun s => (s.getS a).toNat ≤ 1, false)
  | .scset a b g => some (g, fun s => { va := s.getS a, vb := s.getS b },
      fun s => (s.getS a).toNat ≤ 3 ∧ ((s.getS a).toNat = 2 → (s.getS b).toNat ≤ 63), false)
  | .scfl g => some (g, fun _ => {}, fun _ => True, false)
  | .chain a b g => some (g, fun s => chainOps s a b, fun s => s.chainOk (s.getS b) = true, true)
  | .chconst a b g => some (g, fun s => { va := s.getS a, vb := s.getS b }, fun s => (s.getS a).toNat ≤ 3, false)
  | _ => none

end Sys2Proof.Claims

/-! ## The fabric -/

/-- START, STOPP, STOPP.NOW, CFGWAIT and its query in every state of a plot: which run, which raise ILLEGAL, which wait, and what the
plot is afterwards. BYPMAP and BYPMAP.COL write back the record they read with its bypassed lines; DLYSET and HOLDTAB set the delay
counters and the hold limits of a plot that does not run, and raise ILLEGAL at one that does and for a value out of range (08 R203,
R204, R209, R211, R212). The readings of the model that it rests on: logs 36, 53 and 61. -/
def Obligations.PlotsStartStopAndTakeTheirRecords : Prop :=
  (∀ (s : State) (a : SReg) (id k : Nat) (fm g : Word), s.me.forked = false → let p := s.hgPart s.cur
     (∀ q, namesPlot s a id → s.plot? p id = some q →
       (q.st = .ready ∨ q.st = .stopped → q.startable = true →
         goesOn (.start a) s (s.startPlot p id s.cur s.me.fmode s.me.g)) ∧
       (q.st = .ready ∨ q.st = .stopped → q.startable = false → waits (.start a) s) ∧
       (q.st = .unconf ∨ q.st = .running ∨ q.st = .stopping → traps (.start a) s 0x01 []) ∧
       (q.st = .running → goesOn (.stopp a) s (s.setPlot p id { q with st := .stopping })) ∧
       (q.st = .ready ∨ q.st = .stopping ∨ q.st = .stopped → goesOn (.stopp a) s s) ∧
       (q.st ≠ .unconf → goesOn (.stoppNow a) s (s.stopNow p id)) ∧
       (q.st = .unconf → traps (.stopp a) s 0x01 [] ∧ traps (.stoppNow a) s 0x01 []) ∧
       (q.active = false → s.stopNow p id = s) ∧
       (q.active = true → ∃ r, (s.stopNow p id).plot? p id = some r ∧ r.st = .stopped ∧ r.rc = r.rcMark ∧ r.pend = []) ∧
       (∃ r, (s.startPlot p id k fm g).plot? p id = some r ∧ r.st = .running ∧ r.fmode = fm ∧ r.starter = k ∧
         r.rc = (if q.st = .ready then 0 else q.rc)) ∧
       goesOn (.cfgwaitQ a) s (s.setS a (BitVec.ofNat 64 (q.rcMark % 2 ^ 32 * 2 ^ 32 + (if q.err then 8 else 0) + q.st.code)))) ∧
     (namesPlot s a id → s.plot? p id = none → traps (.start a) s 0x01 [] ∧ traps (.stopp a) s 0x01 [] ∧ traps (.stoppNow a) s 0x01 [] ∧
       goesOn (.cfgwaitQ a) s (s.setS a 0)) ∧
     (65536 ≤ (s.getS a).toNat → traps (.start a) s 0x01 [] ∧ traps (.stopp a) s 0x01 [] ∧ traps (.stoppNow a) s 0x01 [] ∧
       traps (.cfgwaitQ a) s 0x01 []) ∧
     (s.me.cfg.busy = false → goesOn (.cfgwait a) s (s.setS a (BitVec.ofNat 64 s.me.cfg.cause))) ∧
     (s.me.cfg.busy = true → waits (.cfgwait a) s)) ∧
  (∀ (s t u : State) (a : SReg) (x c : Nat) (dt : List Nat) (q : Plot), s.me.forked = false →
     let p := s.hgPart s.cur
     (s.loadVia s.cur (s.getS a) 64 false = .ok (t, x) →
       (t.storeVia s.cur (s.getS a) 64 (s.bypRecord p x false) false = .ok u → goesOn (.bypmap a) s u) ∧
       (t.storeVia s.cur (s.getS a) 64 (s.bypRecord p x true) false = .ok u → goesOn (.bypmapCol a) s u)) ∧
     (s.loadVia s.cur (s.getS a) 64 false = .error (.fault c dt) → traps (.bypmap a) s c dt ∧ traps (.bypmapCol a) s c dt) ∧
     (s.loadVia s.cur (s.getS a) 32 false = .ok (t, x) → s.plot? p (bits x 0 16) = some q →
       (q.active = false → q.st ≠ .unconf →
         (bits x 16 8 = 0 → bits x 26 6 = 0 → bits x 48 16 = 0 → let l := dlyLanes q x
           (∀ k ∈ l, bits x (64 + 8 * k) 8 ≤ 63) → goesOn (.dlyset a) s (t.setPlot p (bits x 0 16) { q with
             dly := l.foldl (fun m k => SMap.set m (laneKey (bits x 24 2) (24 * bits x 32 16 + k)) (bits x (64 + 8 * k) 8)) q.dly })) ∧
         (bits x 16 16 = 0 → (∀ k, k < 7 → 1 ≤ bits x (32 * (k + 1)) 32 ∧ bits x (32 * (k + 1)) 32 < 2 ^ 24) →
           goesOn (.holdtab a) s (t.setPlot p (bits x 0 16)
             { q with limits := 0 :: (List.range 7).map (fun k => bits x (32 * (k + 1)) 32) }))) ∧
       (q.active = true → traps (.dlyset a) s 0x01 [] ∧ traps (.holdtab a) s 0x01 []) ∧
       (bits x 16 8 ≠ 0 → traps (.dlyset a) s 0x01 [] ∧ traps (.holdtab a) s 0x01 [])) ∧
     (s.loadVia s.cur (s.getS a) 32 false = .ok (t, x) → s.plot? p (bits x 0 16) = none →
       traps (.dlyset a) s 0x01 [] ∧ traps (.holdtab a) s 0x01 []))

/-- CFG stages its image and stalls; a refused image traps and changes nothing else; the switching phase switches the load in one
step once its own headgate and those it unbinds have finished and the task tables of its cores can be read, and the CFG retires; the weight-store images follow plot by plot (08 R202; 12
R304). SPLARM arms one splice, its staging follows, and SPLICE waits for it or raises what it failed with (08 R207, R208). The
readings of the model that it rests on: logs 48 and 49. -/
def Obligations.FabricLoadsStageAndSwitch : Prop :=
  ∀ (s t : State) (a : SReg) (l : Load) (c : Nat) (dt : List Nat),
    let p := s.hgPart s.cur
    let k := s.inp.unit
    (s.me.forked = false → s.me.wait = .none →
      (s.stage p s.cur (s.getS a) false = .ok (t, l) →
        let u := t.discardStaging p 0x10000 l.plots
        exec (.cfg a) s = .next (u.setMe { u.me with staged := some l, wait := .cfg false })) ∧
      (s.stage p s.cur (s.getS a) false = .error (.fault c dt) → traps (.cfg a) s c dt)) ∧
    (s.me.forked = false → s.me.wait = .cfg false → waits (.cfg a) s) ∧
    ((s.hg k).wait = .cfg false → (s.hg k).staged = some l → (s.hg k).stopped = false →
      s.storesDone k .partition = true → (∀ j ∈ k :: boundHgs (s.overlapped (s.hgPart k) l.plots), (s.hg j).enginesDone = true) →
      (∀ e ∈ l.plots, ∀ n ∈ e.2.cores, s.tasksReady n = .ok ()) → s.fenceL1 k .partition true false = .ok t →
      exec .cfgSwitching s = .next ((t.switchLoad k (s.hgPart k) l).modHg k fun h =>
        Hg.retire { h with staged := none, wait := .none, icache := [], cfg := { plots := l.plots.map fun e => e.1, busy := true } })) ∧
    ((s.hg k).wait ≠ .cfg false → exec .cfgSwitching s = .next s) ∧
    ((s.part (s.hgPart k)).waves = [] →
      ((s.hg k).cfg.busy = false → exec .cfgBackgroundDone s = .next s) ∧
      ((s.hg k).cfg.busy = true → (s.hg k).cfg.plots = [] →
        exec .cfgBackgroundDone s = .next (s.modHg k fun h => { h with cfg := { h.cfg with busy := false } }))) ∧
    (∀ id rest q m n, (s.hg k).cfg.plots = id :: rest → (s.hg k).cfg.failed = false → s.plot? (s.hgPart k) id = some q →
      s.readStores (waiterOf k 12) id q = .ok (t, m) →
      s.cfgBackground k (s.hgPart k) (n + 1) =
        ((((t.putStores m).modPlot (s.hgPart k) id fun q => { q with startable := true }).modHg k fun h =>
          { h with cfg := { h.cfg with plots := rest } }).cfgBackground k (s.hgPart k) n)) ∧
    (s.me.forked = false →
      (∀ x, s.me.splice = none → s.readRec s.cur (s.getS a) 64 = .ok (t, x) →
        goesOn (.splarm a) s (t.setMe { t.me with splice := some { image := s.getS a } })) ∧
      (∀ x, s.me.splice = some x → traps (.splarm a) s 0x01 []) ∧
      (∀ x, s.me.splice = some x → x.staged = true → x.cause = 0 → goesOn .splice s (s.splice s.cur p x)) ∧
      (∀ x, s.me.splice = some x → x.staged = true → x.cause ≠ 0 →
        exec .splice s = .next ((s.setMe { s.me with splice := none }).precise x.cause x.detail)) ∧
      (∀ x, s.me.splice = some x → x.staged = false → waits .splice s) ∧
      (s.me.splice = none → traps .splice s 0x01 [])) ∧
    (∀ x, (s.hg k).splice = some x → x.staged = false → (s.part (s.hgPart k)).waves = [] →
      s.stage (s.hgPart k) (waiterOf k 13) x.image true = .error (.fault c dt) →
      exec .spliceStagingDone s = .next (s.modHg k fun h => { h with splice := some { x with staged := true, cause := c, detail := dt } })) ∧
    (∀ x u m, (s.hg k).splice = some x → x.staged = false →
      s.stage (s.hgPart k) (waiterOf k 13) x.image true = .ok (t, l) → spliceStores t k l = .ok (u, m) →
      exec .spliceStagingDone s = .next (((u.discardStaging (s.hgPart k) k l.plots).modHg k fun h =>
        { h with splice := some { x with
          staged := true, load := { l with stores := m }, preds := (u.overlapped (s.hgPart k) l.plots).map (·.1) } }).enterWaves (s.hgPart k)))

/-! ## Sluices -/

/-- The eight sluice instructions (08 R219, R220; 10 R260): what each moves or reads, when it waits, and each SLUICE_MISUSE.
The readings of the model that it rests on: logs 27 and 53. -/
def Obligations.SluicesCountTheirUnits : Prop :=
  ∀ (s : State) (x : SlReg) (a : SReg), s.me.forked = false →
    let c := unitCore s.cur
    let y := (s.core c).sluices.get x
    let d := s.getS a
    let n := d.toNat
    (slLegal d → slEnd d ≤ s.regionBytes s.cur (if bits d.toNat 54 2 = 1 then 3 else 2) →
      ((∀ h, h < 4 → (s.hg (4 * c + h)).namesSluice x.val = false) →
        goesOn (.slset x a) s (s.modCore c fun k => { k with
          sluices := k.sluices.set x { set := true, desc := d, p := 0, c := 0, open_ := !bit d.toNat 53, claim := y.claim } })) ∧
      ((∃ h, h < 4 ∧ (s.hg (4 * c + h)).namesSluice x.val = true) → traps (.slset x a) s 0x1A [])) ∧
    (¬slLegal d → traps (.slset x a) s 0x01 []) ∧
    (slLegal d → s.regionBytes s.cur (if bits d.toNat 54 2 = 1 then 3 else 2) < slEnd d → traps (.slset x a) s 0x03 []) ∧
    (y.set = true → bits y.desc.toNat 54 2 ≠ 1 →
      (n ≤ unitsAll y - unitsIn y → goesOn (.slput x a) s (if n = 0 then s else
        ((s.modCore c fun k => { k with sluices := k.sluices.set x { y with p := (y.p + n) % 2 ^ 32 } }).displace c x.val y.p n).latchCore c 2)) ∧
      (n ≤ unitsSeen y → (∀ l, s.me.run ≠ .task l) → goesOn (.sltake x a) s (if n = 0 then s else
        (s.modCore c fun k => { k with sluices := k.sluices.set x { y with c := (y.c + n) % 2 ^ 32 } }).latchCore c 2)) ∧
      (n ≤ unitsSeen y → goesOn (.sltake x a) s ((s.lowerClaim x.val n).advanceC c x.val n)) ∧
      (unitsAll y - unitsIn y < n → traps (.slput x a) s 0x1A []) ∧
      (unitsSeen y < n → traps (.sltake x a) s 0x1A [])) ∧
    (y.set = true → bits y.desc.toNat 54 2 = 1 → traps (.slput x a) s 0x1A [] ∧ traps (.sltake x a) s 0x1A []) ∧
    (y.set = true →
      goesOn (.slqry x a) s (s.setS a (BitVec.ofNat 64 (y.p % 2 ^ 32 * 2 ^ 32 + y.c % 2 ^ 32))) ∧
      goesOn (.slqryD x a) s (s.setS a (BitVec.ofNat 64 (setBits y.desc.toNat 52 1 (if y.open_ then 1 else 0)))) ∧
      (n ≤ unitsAll y → n ≤ unitsSeen y → goesOn (.slwaitData x a) s s) ∧
      (n ≤ unitsAll y → unitsSeen y < n → waits (.slwaitData x a) s) ∧
      (n ≤ unitsAll y → n ≤ unitsAll y - unitsIn y → goesOn (.slwaitRoom x a) s s) ∧
      (n ≤ unitsAll y → unitsAll y - unitsIn y < n → waits (.slwaitRoom x a) s) ∧
      (unitsAll y < n → traps (.slwaitData x a) s 0x1A [] ∧ traps (.slwaitRoom x a) s 0x1A [])) ∧
    (y.set = false → traps (.slput x a) s 0x1A [] ∧ traps (.sltake x a) s 0x1A [] ∧ traps (.slqry x a) s 0x1A [] ∧
      traps (.slqryD x a) s 0x1A [] ∧ traps (.slwaitData x a) s 0x1A [] ∧ traps (.slwaitRoom x a) s 0x1A [])

/-! ## Engine commands -/

/-- The stream, codebook, scale-cache and chain instructions while FORKED = 0 (08 R213 to R218, R226, R228, R229): the state each
sets, the queue it joins, the word it reads; a full queue waits, and an illegal operand raises ILLEGAL. The readings of the
model that it rests on: logs 34, 35, 50 and 61. -/
def Obligations.StreamAndChainCommandsPerform : Prop :=
  ∀ (s t : State) (x y : ShReg) (n : NodeIx) (a b : SReg) (g : PReg) (v c : Nat) (dt : List Nat),
    s.me.forked = false → s.getP g = true → let h := s.me
    (s.loadVia s.cur (s.getS a) 32 false = .ok (t, v) → let r := BitVec.ofNat 256 v
      (shEmpty r = true ∨ shValid r = true → goesOn (.shld x a) s (t.setMe (t.me.setSh x r))) ∧
      (shEmpty r = false → shValid r = false → traps (.shld x a) s 0x01 []) ∧
      (h.codebookFree = true →
        ((∀ k, k < 16 → v / 2 ^ (16 * k + 10) % 32 ≠ 31) →
          goesOn (.cbload a) s (t.setMe { t.me with codebook := Vector.ofFn fun k => v / 2 ^ (16 * k.val) % 2 ^ 16 })) ∧
        ((∃ k, k < 16 ∧ v / 2 ^ (16 * k + 10) % 32 = 31) → traps (.cbload a) s 0x01 [])) ∧
      (s.chainOk (s.getS b) = true → h.chain.queue.length < 2 →
        (chainRecordOk r = true → goesOn (.chain a b g) s
          (((chainQueued t (chainCmd s t r b)).chainTrim t.cur 2).modMe Hg.stepG)) ∧
        (chainRecordOk r = false → traps (.chain a b g) s 0x01 []))) ∧
    (s.loadVia s.cur (s.getS a) 32 false = .error (.fault c dt) → traps (.shld x a) s c dt ∧
      (h.codebookFree = true → traps (.cbload a) s c dt)) ∧
    (h.codebookFree = false → waits (.cbload a) s) ∧
    (s.chainOk (s.getS b) = false → traps (.chain a b g) s 0x01 []) ∧
    (s.chainOk (s.getS b) = true → 2 ≤ h.chain.queue.length → waits (.chain a b g) s) ∧
    (s.storeVia s.cur (s.getS a) 32 (h.getSh x).toNat false = .ok t → goesOn (.shst x a) s t) ∧
    (xfOk (s.getS a) = true → goesOn (.xform n a) s (s.setMe (withNode h n { nodeOf h n with xform := s.getS a }))) ∧
    (xfOk (s.getS a) = false → traps (.xform n a) s 0x01 []) ∧
    (s.strmOk (strmOps s x y a) (nodeOf h n).xform = true →
      ((nodeOf h n).queue.length < 4 → goesOn (.strm x y n a) s ((s.setMe (withNode h n { nodeOf h n with queue := (nodeOf h n).queue ++
        [{ src := h.getSh x, dst := h.getSh y, desc := s.getS a, xform := (nodeOf h n).xform, fmode := h.fmode, g := h.g }] })).modMe
          fun k => { k with g := (drawG k.g).1 })) ∧
      (4 ≤ (nodeOf h n).queue.length → waits (.strm x y n a) s)) ∧
    (s.strmOk (strmOps s x y a) (nodeOf h n).xform = false → traps (.strm x y n a) s 0x01 []) ∧
    goesOn (.strmq n a) s (s.setS a (BitVec.ofNat 64 ((nodeOf h n).left % 2 ^ 32 * 2 ^ 16 + (nodeOf h n).cause % 256 * 256 +
      (nodeOf h n).queue.length % 8 * 2 + if (nodeOf h n).queue = [] then 0 else 1))) ∧
    (h.scaleBusy = false →
      (s.getS a = 0 → goesOn (.scset a b g) s (s.setMe { h with scale := { h.scale with scbase := s.getS b, runs := [] } })) ∧
      (s.getS a = 1 → goesOn (.scset a b g) s (s.setMe { h with scale := { h.scale with elbase := s.getS b, runs := [] } })) ∧
      (s.getS a = 2 → (s.getS b).toNat ≤ 63 →
        goesOn (.scset a b g) s (s.setMe { h with scale := { h.scale with shift := (s.getS b).toNat, runs := [] } })) ∧
      (s.getS a = 3 → goesOn (.scset a b g) s (s.setMe { h with scale := { h.scale with bandbase := s.getS b, runs := [] } })) ∧
      goesOn (.scfl g) s (s.setMe { h with scale := { h.scale with runs := [] } })) ∧
    (h.scaleBusy = true → waits (.scfl g) s ∧ ((s.getS a).toNat ≤ 1 → waits (.scset a b g) s)) ∧
    (3 < (s.getS a).toNat ∨ (s.getS a = 2 ∧ 63 < (s.getS b).toNat) → traps (.scset a b g) s 0x01 []) ∧
    (∀ i : Fin 4, (s.getS a).toNat = i.val →
      goesOn (.chconst a b g) s (s.setMe { h with chain := { h.chain with k := h.chain.k.set i ((s.getS b).toNat % 2 ^ 32) } })) ∧
    (3 < (s.getS a).toNat → traps (.chconst a b g) s 0x01 [])

/-- TSTEP in both forms and the WD group while FORKED = 0 (08 R221 to R225; 11 R273, R285): the row or command each queues, the
table slot, the position as the cycle before left it; an image in a space that holds no coded part raises ADDR; a refused image raises WDEC_TABLE and leaves the slot invalid. The readings of the model that it
rests on: logs 33, 51, 52 and 61. -/
def Obligations.TileAndDecodeCommandsPerform : Prop :=
  ∀ (s t : State) (x : ShReg) (y : SlReg) (z : VReg) (a b d : SReg) (g : PReg) (n : BitVec 9) (v c : Nat) (dt : List Nat),
    s.me.forked = false → s.getP g = true → let h := s.me
    (∀ e, s.tstepBinding = .ok e → e.kind < 3 →
      (h.feed.queue.length < 8 → h.feed.replay.length < 16 → (e.kind = 1 → h.drain.queue.length < 8) →
        (s.tstepOk (tileOps s x a) y a.val 0 = .ok () →
          goesOn (.tstep x y a n) s (s.setMe (tileQueued h e.kind (tileCmd h (tileOps s x a) y n none)))) ∧
        (s.tstepOk (tileOpsV s x z) y 0 z.val = .ok () →
          goesOn (.tstepV x y z n) s (s.setMe (tileQueued h e.kind (tileCmd h (tileOpsV s x z) y n (some (s.getV z))))))) ∧
      (8 ≤ h.feed.queue.length ∨ 16 ≤ h.feed.replay.length →
        (s.tstepOk (tileOps s x a) y a.val 0 = .ok () → waits (.tstep x y a n) s) ∧
        (s.tstepOk (tileOpsV s x z) y 0 z.val = .ok () → waits (.tstepV x y z n) s))) ∧
    (h.bound = none → traps (.tstep x y a n) s 0x01 [] ∧ traps (.tstepV x y z n) s 0x01 []) ∧
    ((s.getS b).toNat ≤ 1 → h.dec.queue = [] →
      (space (s.getS a) = 0xF → h.sys = false → traps (.wtbl a b g) s 0x02 []) ∧
      ((space (s.getS a) = 0xF → h.sys = true) → codedSpace (s.getS a) = false → traps (.wtbl a b g) s 0x03 [])) ∧
    ((s.getS b).toNat ≤ 1 → h.dec.queue = [] → codedSpace (s.getS a) = true → s.readRec s.cur (s.getS a) 16448 = .ok (t, v) →
      ((tableSlot v).valid = true → goesOn (.wtbl a b g) s (t.setMe { t.me with
        dec := if s.getS b = 0 then { t.me.dec with t0 := tableSlot v } else { t.me.dec with t1 := tableSlot v } })) ∧
      ((tableSlot v).valid = false → exec (.wtbl a b g) s = .next ((t.setMe { t.me with
        dec := if s.getS b = 0 then { t.me.dec with t0 := tableSlot v } else { t.me.dec with t1 := tableSlot v } }).precise
          0x13 [unstated, unstated, unstated, (tableSlot v).tabid]))) ∧
    ((s.getS b).toNat ≤ 1 → h.dec.queue ≠ [] → waits (.wtbl a b g) s) ∧
    (1 < (s.getS b).toNat → traps (.wtbl a b g) s 0x01 []) ∧
    (s.performWdec { va := s.getS a, fmode := h.fmode, g := h.g } = .ok t →
      goesOn (.wdec a g) s t ∧ t.me.dec.seek = none ∧
      ∃ w, t.me.dec.queue.getLast? = some w ∧ w.fmode = h.fmode ∧ w.g = h.g ∧ w.ntiles ≠ 0) ∧
    (s.performWdec { va := s.getS a, fmode := h.fmode, g := h.g } = .error (.fault c dt) → traps (.wdec a g) s c dt) ∧
    (bits (s.getS a).toNat 0 16 ≤ 8191 → goesOn (.wseek a g) s (s.setMe { h with dec := { h.dec with
      seek := some (bits (s.getS a).toNat 32 32, bits (s.getS a).toNat 16 16, bits (s.getS a).toNat 0 16) } })) ∧
    (8191 < bits (s.getS a).toNat 0 16 → traps (.wseek a g) s 0x01 []) ∧
    (s.getS a = 0 → let x := if h.dec.posCycle = s.hgCycle s.cur then h.dec.posPrev else h.dec.pos
      goesOn (.wdqry d a g) s (s.setS d (BitVec.ofNat 64 (x.1 % 2 ^ 32 * 2 ^ 32 + x.2.1 % 2 ^ 16 * 2 ^ 16 + x.2.2 % 2 ^ 16)))) ∧
    (s.getS a = 1 → goesOn (.wdqry d a g) s (s.setS d (BitVec.ofNat 64
      ((if h.dec.seek.isSome then 2048 else 0) + (if h.dec.t1.valid then 1024 else 0) + (if h.dec.t0.valid then 512 else 0) +
        (if h.dec.queue = [] then 0 else 256) + h.dec.cause % 256)))) ∧
    (1 < (s.getS a).toNat → traps (.wdqry d a g) s 0x01 [])

/-- While FORKED = 1 a held instruction runs its operand checks and joins the issuing bank with its operands and its address, and
has no other effect than a draw from G that its issue makes; the 33rd of a bank raises ILLEGAL (06 R150; 02 R39). -/
def Obligations.HeldInstructionsJoinTheirBank : Prop :=
  ∀ (i : Instr) (g : PReg) (f : State → Operands) (ok : State → Prop) (steps : Bool) (s : State),
    heldForm i = some (g, f, ok, steps) → s.me.forked = true → s.getP g = true → ok s →
    let x : Held := ⟨i, f s, s.me.pc⟩
    let h := if s.me.qb then { s.me with bank1 := s.me.bank1 ++ [x] } else { s.me with bank0 := s.me.bank0 ++ [x] }
    ((if s.me.qb then s.me.bank1 else s.me.bank0).length < 32 →
      goesOn i s (s.setMe (if steps then { h with g := (drawG h.g).1 } else h))) ∧
    (32 ≤ (if s.me.qb then s.me.bank1 else s.me.bank0).length → traps i s 0x01 [])

namespace Sys2Proof.Claims

/-! ## Accesses from outside the device's cores -/

/-- A pointer of a region whose register stands at an offset (18 R363, R365; 26 R446). -/
abbrev partReg (o x : Nat) : Bool := bits x 56 4 == 1 && bits x 0 12 == o
abbrev clusterReg (o x : Nat) : Bool := bits x 56 4 == 2 && bits x 0 12 == o
abbrev coreReg (o x : Nat) : Bool := bits x 56 4 == 3 && bits x 0 12 == o
abbrev moduleReg (o x : Nat) : Bool := bits x 56 4 == 0 && bits x 0 24 == o
abbrev blockReg (b o x : Nat) : Bool := bits x 56 4 == 6 && bits x 40 8 == b && bits x 0 12 == o
abbrev semReg (x : Nat) : Bool := bits x 56 4 == 0 && decide (0x100 ≤ bits x 0 24) && decide (bits x 0 24 < 0x300)
abbrev ctxReg (x : Nat) : Bool :=
  bits x 56 4 == 0 && decide (0x10000 ≤ bits x 0 24) && decide (bits x 0 24 < 0x18000) && bits x 0 5 == 0
abbrev bpcReg (x : Nat) : Bool := bits x 56 4 == 2 && decide (0x100 ≤ bits x 0 12) && decide (bits x 0 12 < 0x1C8)
abbrev routeReg (x : Nat) : Bool :=
  bits x 56 4 == 6 && bits x 40 8 == 0x10 && decide (0x100 ≤ bits x 0 12) && decide (bits x 0 12 < 0x300) && bits x 0 12 % 8 == 0

/-- The events that are a write of one register: the pointer bits and the value that each is for. -/
def writesRegister : Instr → Option (Nat → Nat → Bool)
  | .semFree => some fun x v => semReg x && v == 0
  | .partitionEnable => some fun x _ => partReg 0x000 x
  | .pcmdResume => some fun x v => partReg 0x010 x && v % 4 == 1
  | .pcmdHalt => some fun x v => partReg 0x010 x && v % 4 == 2
  | .pcmdSwitch => some fun x v => partReg 0x010 x && v % 4 == 3
  | .pstopbaseWrite => some fun x _ => partReg 0x030 x
  | .pringbaseWrite => some fun x _ => partReg 0x038 x
  | .pringctlWrite => some fun x _ => partReg 0x040 x
  | .pringrdWrite => some fun x _ => partReg 0x050 x
  | .ctxCreate => some fun x v => ctxReg x && v % 8 == 1
  | .ctxDestroy => some fun x v => ctxReg x && v % 8 == 0
  | .xinvCtx => some fun x v => moduleReg 0x10 x && bits v 62 2 == 1
  | .xinvPage => some fun x v => moduleReg 0x10 x && bits v 62 2 == 2
  | .xinvAll => some fun x v => moduleReg 0x10 x && bits v 62 2 == 3
  | .retcmdTest => some fun x v => moduleReg 0x28 x && bits v 62 2 == 1
  | .retcmdRetire => some fun x v => moduleReg 0x28 x && bits v 62 2 == 2
  | .retcmdCellbad => some fun x v => moduleReg 0x28 x && bits v 62 2 == 3
  | .tskctlWrite => some fun x _ => coreReg 0x20 x
  | .ttbaseWrite => some fun x _ => coreReg 0x28 x
  | .routeTableWrite => some fun x _ => routeReg x
  | .bpcClassWrite => some fun x _ => bpcReg x
  | .clQreqWrite => some fun x _ => clusterReg 0x000 x
  | .clSwallowReqWrite => some fun x _ => clusterReg 0x010 x
  | .clRailReqWrite => some fun x _ => clusterReg 0x018 x
  | .clWakeWrite => some fun x _ => clusterReg 0x020 x
  | .rmcDoorbell => some fun x _ => blockReg 0x02 0x000 x
  | .dbgctlHaltall => some fun x v => blockReg 0x07 0x000 x && bit v 0
  | .dbgctlResumeall => some fun x v => blockReg 0x07 0x000 x && bit v 1
  | _ => none

/-- A register that no event of its own writes. -/
def plainRegister (x v : Nat) : Bool :=
  bits x 56 4 != 4 && bits x 56 4 != 5 &&
    !([0x000, 0x010, 0x030, 0x038, 0x040, 0x050].any fun o => partReg o x) &&
    !(ctxReg x || moduleReg 0x10 x || moduleReg 0x28 x || (semReg x && v == 0) || coreReg 0x20 x || coreReg 0x28 x || routeReg x ||
      bpcReg x || blockReg 0x02 0 x || blockReg 0x07 0 x) &&
    !([0x000, 0x010, 0x018, 0x020].any fun o => clusterReg o x)

/-- The agent of an event is one outside the device: a host port, I3C, the test port or the root monitor. -/
abbrev outside (s : State) : Prop := s.inp.sub ≠ 2 ∧ s.inp.sub ≠ 3
abbrev theAgent (s : State) : Agent := Agent.ofCode s.inp.sub

/-- The state with a completion delivered. -/
abbrev completes (t : State) (denied : Bool) (data : Nat) : State := { t with compl := ⟨denied, data⟩ }

/-- An event runs and its write is acknowledged. -/
abbrev acks (i : Instr) (s t : State) : Prop := exec i s = .next (completes t false 0)

/-- The root monitor's pointer names a register of a region, with its zero fields zero (18 R363; 26 R446). -/
abbrev rootAt (s : State) (region : Nat) : Prop :=
  let x := s.inp.addr.toNat
  s.inp.sub = 6 ∧ space s.inp.addr = 15 ∧ bits x 56 4 = region ∧ mgmtZeroOk x = true ∧ x % 8 = 0

/-- What a node of a graph says (17 R353). -/
abbrev nodeKind (x : Nat) : Nat := bits x 0 8
abbrev condTrue (x w : Nat) : Prop := w &&& bits x 128 64 = bits x 192 64

/-- The walker of a partition stands at node n of record r, and reads it as x. -/
abbrev walkerReads (s t : State) (p r n x : Nat) : Prop :=
  (s.part p).walker = .at_ r n ∧ s.walkerOn p = true ∧ n < (s.launch r).nnodes ∧
  s.loadVia (s.walkerW p) (padd (s.launch r).graph (64 * n : Nat)) 64 true = .ok (t, x) ∧
  nodeOk x (s.launch r).nnodes (s.part p).cores.length = true

/-- The walker's next node. -/
abbrev goesTo (t : State) (p r n : Nat) : State := t.modPart p fun q => { q with walker := .at_ r n }

end Sys2Proof.Claims

/-! ## The management space -/

/-- Every event that is a write of one register acts only for an agent outside the device and for its own register, and answers as
the write does: done, DENIED with nothing changed, or waiting; so do the events that are reads, which return what they read, or
zero when DENIED; the ports take a semaphore in their turn (17 R356; 18 R365; 26 R446, R447, R449). The readings of the model that it rests on: logs 23, 26, 40 and 54. -/
def Obligations.AgentsReachTheManagementSpace : Prop :=
  ∀ (s t u : State) (c n v : Nat) (d : List Nat) (wt : Wait),
    let a := theAgent s
    let w := agentWaiter a
    let x := s.inp.addr.toNat
    let size := s.inp.idx
    (∀ i f, (writesRegister i = some f ∨ (i = .registerWrite ∧ f = plainRegister)) →
      (outside s → space s.inp.addr = 15 → f x s.inp.val.toNat = true →
        (s.mgmtWrite a w s.inp.addr 8 s.inp.val.toNat = .ok t → acks i s t) ∧
        (s.mgmtWrite a w s.inp.addr 8 s.inp.val.toNat = .error (.fault c d) → exec i s = .next (completes s true 0)) ∧
        (s.mgmtWrite a w s.inp.addr 8 s.inp.val.toNat = .error (.wait wt) → exec i s = .next (s.startWait w wt))) ∧
      (¬outside s ∨ space s.inp.addr ≠ 15 ∨ f x s.inp.val.toNat = false → exec i s = .next s)) ∧
    (∀ i f, (i, f) ∈ [(Instr.semRead, semReg), (.kmfifoRead, coreReg 0x40)] →
      (outside s → space s.inp.addr = 15 → f x = true →
        (s.mgmtRead a w s.inp.addr 8 .load = .ok (t, v) → exec i s = .next (completes t false v)) ∧
        (s.mgmtRead a w s.inp.addr 8 .load = .error (.fault c d) → exec i s = .next (completes s true 0))) ∧
      (f x = false → exec i s = .next s)) ∧
    (outside s →
      (hostSizeOk s.inp.addr size = true →
        (s.mgmtRead a w s.inp.addr size .load = .ok (t, v) → exec .mread s = .next (completes t false v)) ∧
        (s.mgmtRead a w s.inp.addr size .load = .error (.fault c d) → exec .mread s = .next (completes s true 0)) ∧
        (s.inp.data = [] → s.mgmtWrite a w s.inp.addr size (s.inp.val.toNat % 256 ^ size) = .ok u → acks .mwrite s u) ∧
        (s.inp.data ≠ [] → s.mgmtWrite a w s.inp.addr size (pack 8 s.inp.data % 256 ^ size) = .ok u → acks .mwrite s u)) ∧
      (hostSizeOk s.inp.addr size = false → exec .mread s = .next (completes s true 0) ∧ exec .mwrite s = .next (completes s true 0))) ∧
    (∀ o : Fin 2, s.inp.sub = o.val → space s.inp.addr = 15 → semReg x = true → bits x 24 32 = 0 → x % 8 = 0 →
      let k := Fin.ofNat 64 ((bits x 0 24 - 0x100) / 8)
      let y := s.mod.sems.get k
      (s.mgmtAllowed a x .load = true → s.inTurn (.sem k.val) (o.val + 1) = true → let t := s.noteTurn (.sem k.val) (o.val + 1)
        (bit y.toNat 0 = true → exec .semRead s = .next (completes t false y.toNat)) ∧
        (bit y.toNat 0 = false → exec .semRead s = .next (completes
          (t.modMod fun m => { m with sems := m.sems.set k (BitVec.ofNat 64 ((o.val + 1) * 256 + 1)) }) false y.toNat))) ∧
      (s.mgmtAllowed a x .load = true → s.inTurn (.sem k.val) (o.val + 1) = false → exec .semRead s = .next s) ∧
      (s.mgmtAllowed a x .store = true → s.inp.val = 0 →
        (bit y.toNat 0 = true → bits y.toNat 8 2 = o.val + 1 →
          acks .semFree s (s.modMod fun m => { m with sems := m.sems.set k 0 })) ∧
        (bits y.toNat 8 2 ≠ o.val + 1 → acks .semFree s s))) ∧
    (n < 4096 → s.live n = true → s.inp.sub = 6 → space s.inp.addr = 15 → bits x 56 4 = 3 → bits x 44 4 = 0 → bits x 12 20 = 0 →
      bits x 32 12 = n → bits x 0 12 = 0x40 → bits x 48 8 = s.mod.placegen % 256 → (s.cluster (clusterOf n)).rail = 0 →
      (s.cluster (clusterOf n)).cur ≠ 0 → let k := s.core n
      (k.kmfifo = [] → exec .kmfifoRead s = .next (completes s false 0)) ∧
      (∀ r l, k.kmfifo = r :: l → k.kmpos < 3 → exec .kmfifoRead s = .next (completes
        (s.modCore n fun k => { k with kmpos := k.kmpos + 1 }) false (r / 2 ^ (64 * k.kmpos) % 2 ^ 64))))

/-- What the registers of a partition do when the root monitor writes them: PCTL enables, disables or sets ERR; PCMD resumes,
halts or asks for a switch; an enable gives the partition its cores, and the lines of the ways it carves leave the L2 (01 R20); the ring's registers and PSTOPBASE take the values they may hold (18 R366 to R368, R385, R460).
The readings of the model that it rests on: logs 42 and 55. -/
def Obligations.PartitionRegistersTakeEffect : Prop :=
  ∀ s : State, rootAt s 1 →
    let x := s.inp.addr.toNat
    let p := bits x 40 7
    let q := s.part p
    let v := s.inp.val
    let set := s.modPart p
    (bits x 0 12 = 0x000 → let u := set fun q => { q with nrect := bits v.toNat 1 3 }
      (q.en = false →
        (bit v.toNat 0 = false → acks .partitionEnable s u) ∧
        (bit v.toNat 0 = true → u.enableOk p = true →
          let l := u.coresOfRects (u.part p).rectList
          let w := u.modPart p fun q => { q with en := true, cores := l, waysNow := q.ways }
          acks .partitionEnable s (((w.lclusters p).foldl (fun s cl => s.l2Leave cl fun y => decide (y < (s.part p).waysNow)) w).modMod
            fun m => { m with placegen := (m.placegen + 1) % 2 ^ 32 })) ∧
        (bit v.toNat 0 = true → u.enableOk p = false → acks .partitionEnable s (u.modPart p fun q => { q with err := true }))) ∧
      (q.en = true →
        (bit v.toNat 0 = true ∨ q.av = true ∨ q.sv = true → acks .partitionEnable s s) ∧
        (bit v.toNat 0 = false → q.av = false → q.sv = false → acks .partitionEnable s
          ((set fun q => { q with en := false, cores := [] }).modMod fun m => { m with placegen := (m.placegen + 1) % 2 ^ 32 })))) ∧
    (bits x 0 12 = 0x010 →
      (v.toNat % 4 = 1 → q.halted = true → q.done = true → ∃ t, acks .pcmdResume s t ∧ t.mem = s.mem ∧ t.wt = s.wt ∧
        (t.part p).halted = false ∧ (t.part p).done = false ∧ (∀ k ∈ s.partHgs p, (t.hg k).stopped = false ∧ (t.hg k).pc = (s.hg k).pc) ∧
        (∀ k, k ∉ s.partHgs p → t.hg k = s.hg k) ∧ (∀ n, n ≠ p → t.part n = s.part n)) ∧
      (v.toNat % 4 = 1 → (q.halted = false ∨ q.done = false) → acks .pcmdResume s s) ∧
      (v.toNat % 4 = 2 → q.halted = false →
        acks .pcmdHalt s (set fun q => { q with halted := true, done := false, haltWt := s.wt })) ∧
      (v.toNat % 4 = 2 → q.halted = true → acks .pcmdHalt s s) ∧
      (v.toNat % 4 = 3 → q.sv = true → (q.av = true → q.shadow ≠ q.active) →
        acks .pcmdSwitch s (set fun q => { q with preq := q.preq ++ [1024 + q.shadow] })) ∧
      (v.toNat % 4 = 3 → q.sv = false ∨ (q.av = true ∧ q.shadow = q.active) → acks .pcmdSwitch s s)) ∧
    (bits x 0 12 = 0x030 →
      (s.areaOk v (32768 + 1024 * 4032) = true → acks .pstopbaseWrite s (set fun q => { q with stopbase := v })) ∧
      (s.areaOk v (32768 + 1024 * 4032) = false → acks .pstopbaseWrite s s)) ∧
    (bits x 0 12 = 0x038 →
      (s.areaOk v (64 * 2 ^ q.logsize) = true → acks .pringbaseWrite s
        ((set fun q => { q with ringbase := v, wr := 0, rd := 0, ovf := false }).flushPending p)) ∧
      (s.areaOk v (64 * 2 ^ q.logsize) = false → acks .pringbaseWrite s s)) ∧
    (bits x 0 12 = 0x040 → let n := bits v.toNat 0 5
      let u := set fun q => { q with ovf := q.ovf && !bit v.toNat 7, compat := bit v.toNat 6 }
      (6 ≤ n → n ≤ 16 → s.areaOk q.ringbase (64 * 2 ^ n) = true → acks .pringctlWrite s
        ((u.modPart p fun q => { q with logsize := n, wr := 0, rd := 0, ovf := false }).flushPending p)) ∧
      (n < 6 ∨ 16 < n ∨ s.areaOk q.ringbase (64 * 2 ^ n) = false → acks .pringctlWrite s (u.flushPending p))) ∧
    (bits x 0 12 = 0x050 → let r := bits v.toNat 0 32
      ((r + 2 ^ 32 - q.rd) % 2 ^ 32 ≤ (q.wr + 2 ^ 32 - q.rd) % 2 ^ 32 →
        acks .pringrdWrite s ((set fun q => { q with rd := r }).flushPending p)) ∧
      ((q.wr + 2 ^ 32 - q.rd) % 2 ^ 32 < (r + 2 ^ 32 - q.rd) % 2 ^ 32 → acks .pringrdWrite s s))

/-- What the root monitor's writes of context descriptors, XINV, TSKCTL, TTBASE and routing entries do (18 R369, R375; 10 R255,
R256; 19 R393), and how a page walk and an invalidation end (18 R373 to R375). The readings of the model that it rests on:
logs 26 and 55. -/
def Obligations.ContextsTranslationsAndRoutesFollowTheirRegisters : Prop :=
  ∀ s : State,
    let x := s.inp.addr.toNat
    let v := s.inp.val
    (rootAt s 0 → ctxReg x = true →
      let k := (bits x 0 24 - 0x10000) / 32
      let c := s.ctx k
      let d := { c with part := bits v.toNat 34 7, sys := bit v.toNat 33 }
      (v.toNat % 8 = 1 →
        (c.state = 0 → acks .ctxCreate s (s.setCtx k { d with
          state := 1, saved := { placement := (s.part d.part).cores }, parked := false, tokens := newTokens (s.part d.part).cores })) ∧
        (c.state = 1 → acks .ctxCreate s (s.setCtx k d)) ∧ (1 < c.state → acks .ctxCreate s s)) ∧
      (v.toNat % 8 = 0 →
        (c.state = 1 → acks .ctxDestroy s (s.setCtx k { d with state := 0, saved := {}, parked := false, tokens := [] })) ∧
        (c.state = 0 → acks .ctxDestroy s (s.setCtx k d)) ∧ (1 < c.state → acks .ctxDestroy s s))) ∧
    (rootAt s 0 → moduleReg 0x10 x = true → ∀ i op, (i, op) ∈ [(Instr.xinvCtx, 1), (.xinvPage, 2), (.xinvAll, 3)] →
      bits v.toNat 62 2 = op →
      (s.mod.xinvBusy = true → acks i s (s.modMod fun m => { m with xinvLost := true })) ∧
      (s.mod.xinvBusy = false → ∃ t, acks i s t ∧ t.mod = { s.mod with xinvBusy := true, xinv := v } ∧ t.mem = s.mem ∧
        ∀ cl e, e ∈ (t.cluster cl).tlb ↔ e ∈ (s.cluster cl).tlb ∧
          ¬(op = 3 ∨ (e.ctx = bits v.toNat 48 10 ∧ (op = 1 ∨ (e.va ≤ bits v.toNat 16 32 * 65536 ∧ bits v.toNat 16 32 * 65536 < e.va + e.size)))))) ∧
    (s.mod.xinvBusy = false → exec .xinvComplete s = .next s) ∧
    (s.mod.xinvBusy = true → let r := s.flushReady (walkWaiter 512) (s.cores.map (·.1))
      (r = .ok () → ∃ t, exec .xinvComplete s = .next t ∧ t.mod.xinvBusy = false) ∧
      (∀ wt, r = .error (.wait wt) → exec .xinvComplete s = .next (s.startWait (walkWaiter 512) wt))) ∧
    (∀ w, (s.cluster s.inp.unit).walks[s.inp.idx]? = some w →
      let cl := s.inp.unit
      let left := fun (t : State) => t.modCluster cl fun c => { c with walks := c.walks.eraseIdx s.inp.idx }
      (∀ t e, s.walk cl w.ctx w.va = (t, .leaf e) → exec .translationWalkDone s = .next ((left t).modCluster cl fun c => c.cacheLeaf e)) ∧
      (∀ t wt, s.walk cl w.ctx w.va = (t, .wait wt) → exec .translationWalkDone s = .next (t.startWait (walkWaiter cl) wt)) ∧
      (∀ t c p j l, s.walk cl w.ctx w.va = (t, .fail c) → w.joined = j :: l → (left t).partOf (coreOf (seqOf j.waiter)) = some p →
        exec .translationWalkDone s = .next (w.joined.foldl (fun s j => s.walkFailed c j)
          (((left t).record p (coreOf (seqOf j.waiter)) 8 0 c 0xFFFF 0 [w.va, w.ctx, l.length]).haltLine p)))) ∧
    ((s.cluster s.inp.unit).walks[s.inp.idx]? = none → exec .translationWalkDone s = .next s) ∧
    (rootAt s 3 → bits x 48 8 = s.mod.placegen % 256 → let c := bits x 32 12
      s.live c = true → (s.cluster (clusterOf c)).rail = 0 → (s.cluster (clusterOf c)).cur ≠ 0 →
      (bits x 0 12 = 0x20 → let t := s.modCore c fun k => { k with tskctl := v &&& 0xFF00FF#64 }
        (t.tasksReady c = .ok () → acks .tskctlWrite s (t.copyTasks c)) ∧
        (∀ wt, t.tasksReady c = .error (.wait wt) → exec .tskctlWrite s = .next (s.startWait (agentWaiter .root) wt))) ∧
      (bits x 0 12 = 0x28 → let t := s.modCore c fun k => { k with ttbase := v }
        (ttbaseOk v = true → t.tasksReady c = .ok () → acks .ttbaseWrite s (t.copyTasks c)) ∧
        (∀ wt, ttbaseOk v = true → t.tasksReady c = .error (.wait wt) → exec .ttbaseWrite s = .next (s.startWait (agentWaiter .root) wt)) ∧
        (ttbaseOk v = false → exec .ttbaseWrite s = .next (completes s true 0)))) ∧
    (∀ c, let u := (s.taskBanks c).foldl (fun s b => s.touchBank (clusterOf c) (coreBank c b)) s
      u.cores = s.cores ∧ u.mem = s.mem ∧ s.copyTasks c = u.modCore c fun k => { k with
        table := (List.range k.ttcount).map fun i => u.readTask c (padd k.ttbase ((32 * i : Nat) : Int)) }) ∧
    (rootAt s 6 → routeReg x = true → let c := bits x 28 12
      let cls : Fin 4 := Fin.ofNat 4 ((bits x 0 12 - 0x100) / 128)
      let e : Fin 16 := Fin.ofNat 16 ((bits x 0 12 - 0x100) % 128 / 8)
      let put := (s.pinOuts c).modCore c fun k => { k with routes := k.routes.set cls ((k.routes.get cls).set e (v &&& 0xFF8FFFFFF#64)) }
      s.live c = true →
      (bit v.toNat 35 = false ∨ s.rteRefusal c v.toNat = none → acks .routeTableWrite s put) ∧
      (∀ r, bit v.toNat 35 = true → s.rteRefusal c v.toNat = some r → acks .routeTableWrite s
        (s.modCore c fun k => { k with rtstat := BitVec.ofNat 64 (cls.val * 2 ^ 12 + e.val * 2 ^ 8 + r * 2 + 1) })))

namespace Sys2Proof.Claims

/-- A good command with an operation waits at the port of an event, and the dispatcher may accept it (17 R355, R357). -/
abbrev hostReady (s : State) (op v : Nat) : Prop :=
  s.mod.cmdAt (s.inp.unit % 2) = some v ∧ s.mayAccept (s.inp.unit % 2) = true ∧ cmdBad v = false ∧ cmdOp v = op

/-- A host command runs and is accepted with a result. -/
abbrev accepts (i : Instr) (s t : State) (result : Nat) : Prop := exec i s = .next (t.accept (s.inp.unit % 2) result)

/-- The partition of an event, its switch. -/
abbrev evPart (s : State) : Part := s.part s.inp.unit

/-- A plot that the rows of its partition may attempt: it runs, is released, its island's clock runs, its next cycle has come
(09 R237, R242, R243, R245; 12 R304; 18 R377). -/
abbrev rowDue (s : State) (q : Plot) : Prop :=
  q.active = true ∧ q.waiting = false ∧ q.stopCause = 0 ∧ s.coreOn q.swCore = true ∧ q.yield ≠ 2 ∧ q.next ≤ s.plotCycle q ∧
  q.allSwitched = false ∧ s.pastLimit q = false ∧ ¬((q.pend.getLast?.map (·.rc)) = some q.rc ∧ q.stopsAt q.rc = true)

end Sys2Proof.Claims

/-! ## Launches -/

/-- The dispatcher's commands: each acts on the record that its word names in the states that allow it, and answers with the
result that the spec gives otherwise; device launches, and the launch that runs next (17 R350 to R352, R355, R357 to R359).
The readings of the model that it rests on: log 42. -/
def Obligations.DispatcherCommandsAndLaunches : Prop :=
  ∀ (s t : State) (v : Nat),
    let port := s.inp.unit % 2
    let r := v % 4096
    let l := s.launch r
    let w := (s.mod.port port).lstage
    (s.mod.stage = 5 → s.mod.cmdAt (1 - port) = none → s.preemptWaits = false → s.mayAccept port = true) ∧
    (∀ n, ((t.accept port n).mod.port port).dcmd = none ∧
      ((t.accept port n).mod.port port).dstat = ((t.mod.port port).dstat &&& 2#64) ||| BitVec.ofNat 64 (n * 256) ∧
      (t.accept port n).mem = t.mem ∧ (t.accept port n).launches = t.launches ∧ (t.accept port n).parts = t.parts ∧
      (t.accept port n).mod.port (1 - port) = t.mod.port (1 - port)) ∧
    (∀ i ∈ [Instr.hostBuild, .hostLaunch, .hostCancel, .hostClear, .hostTeardown],
      (s.mod.cmdAt port = none → exec i s = .next s) ∧
      (s.mod.cmdAt port = some v → s.mayAccept port = true → cmdBad v = true → accepts i s s 1) ∧
      (s.mod.cmdAt port = some v → s.mayAccept port = false → exec i s = .next s)) ∧
    (hostReady s 1 v →
      (l.state = 2 ∨ l.state = 3 → accepts .hostBuild s s 2) ∧
      (l.state ≠ 2 → l.state ≠ 3 →
        (s.imageOk w = true → accepts .hostBuild s (s.setLaunch r { l with words := w, state := 1, count := 0, code := 0, port }) 0) ∧
        (shapeOk w = false → accepts .hostBuild s s 3) ∧
        (shapeOk w = true → s.known (imageOwner w) = false → accepts .hostBuild s s 4))) ∧
    (hostReady s 2 v →
      (l.state = 1 ∨ l.state = 4 ∨ l.state = 5 → accepts .hostLaunch s ((s.setLaunch r
        { l with state := 2, via := port, order := s.mod.armSeq, accepted := true, armedWt := s.wt }).modMod fun m =>
          { m with armSeq := m.armSeq + 1 }) 0) ∧
      (l.state = 0 ∨ l.state = 2 ∨ l.state = 3 → accepts .hostLaunch s s 2)) ∧
    (hostReady s 3 v →
      (l.state = 2 ∨ l.state = 3 → s.endLaunch r 5 2 = .ok t → accepts .hostCancel s t 0) ∧
      (l.state ≠ 2 → l.state ≠ 3 → accepts .hostCancel s s 2)) ∧
    (hostReady s 4 v →
      (l.state = 1 ∨ l.state = 4 ∨ l.state = 5 → accepts .hostClear s (s.setLaunch r { l with state := 0 }) 0) ∧
      (l.state = 0 ∨ l.state = 2 ∨ l.state = 3 → accepts .hostClear s s 2)) ∧
    (hostReady s 5 v → let c := bits v 32 10
      ((s.ctx c).state ≠ 0 → s.tearDown c = .ok t → accepts .hostTeardown s t 0 ∧ (t.ctx c).state = 0 ∧ (t.ctx c).tokens = []) ∧
      ((s.ctx c).state = 0 → accepts .hostTeardown s s 4)) ∧
    (∀ n st code u, s.endLaunch n st code = .ok u → (u.launch n).state = st ∧
      (u.launch n).count = (if st = 4 then ((s.launch n).count + 1) % 2 ^ 32 else (s.launch n).count)) ∧
    (∀ n b rest, s.mod.dcmds = (n, b) :: rest → s.mod.stage = 5 → s.mod.cmdAt 0 = none → s.mod.cmdAt 1 = none →
      s.preemptWaits = false → let u := s.modMod fun m => { m with dcmds := rest }
      ((s.launch n).state = 2 → exec .deviceLaunch s = .next (u.setLaunch n { s.launch n with accepted := true })) ∧
      ((s.launch n).state ≠ 2 → exec .deviceLaunch s = .next u)) ∧
    (let p := s.inp.unit
      let q := s.part p
      q.en = true → q.sw = .none → q.preq = [] → s.mod.stage = 5 → q.av = true → s.runningOf q.active = none →
      (∀ c n, s.bestCand p (s.cands p) = some c → c.rec_ = some n → s.imageOk (s.launch n).words = true →
        (c.ctx = q.active → let u := q.cores.foldl (fun s k => s.selfInval k) s
          exec .launchDispatch s = .next (((u.modPart p fun q => { q with served := SMap.set q.served c.level c.ctx }).modLaunch n fun l =>
            { l with state := 3, runWt := s.wt }).modPart p fun q => { q with walker := .at_ n 0, iters := [], load := none })) ∧
        (c.ctx ≠ q.active → exec .launchDispatch s = .next (s.modPart p fun q => { q with preq := q.preq ++ [c.ctx] }))) ∧
      (s.cands p = [] → exec .launchDispatch s = .next s))

/-- The nodes of a graph: what the walker of a partition does at each kind, at a node that is malformed and past the last node;
a LOAD's headgates start, and its end is the boundary between loads (17 R353, R354, R360, R361; 12 R302, R303). The readings
of the model that it rests on: logs 43 and 59. -/
def Obligations.GraphNodesDoWhatTheirKindsSay : Prop :=
  ∀ (s t u : State) (r n x w : Nat), let p := s.inp.unit
    (walkerReads s t p r n x →
      (nodeKind x = 0 → t.endLaunch r 4 0 = .ok u → exec .graphNodeEnd s = .next u) ∧
      (t.loadVia (t.walkerW p) (BitVec.ofNat 64 (bits x 64 64)) 8 true = .ok (u, w) →
        (nodeKind x = 2 → exec .graphNodeCond s =
          .next (goesTo u p r (if condTrue x w then bits x 16 16 else bits x 32 16))) ∧
        (nodeKind x = 3 → let k := SMap.getD (u.part p).iters n 0 + 1
          (condTrue x w → bits x 48 16 = 0 ∨ k ≤ bits x 48 16 →
            exec .graphNodeWhile s = .next (goesTo (u.modPart p fun q => { q with iters := SMap.set q.iters n k }) p r (bits x 16 16))) ∧
          (¬condTrue x w → exec .graphNodeWhile s = .next (goesTo u p r (bits x 32 16))) ∧
          (∀ v, condTrue x w → bits x 48 16 ≠ 0 → bits x 48 16 < k → u.endLaunch r 5 5 = .ok v → exec .graphNodeWhile s = .next v)) ∧
        (nodeKind x = 4 →
          (condTrue x w → exec .graphNodeHold s = .next (goesTo u p r (bits x 16 16))) ∧
          (¬condTrue x w → exec .graphNodeHold s = .next (u.modPart p fun q => { q with walker := .holding r n u.wt x })))) ∧
      (nodeKind x = 5 →
        (t.armRecord (bits x 64 64) (some (t.launch r).owner) = .ok u → exec .graphNodeArm s = .next (goesTo u p r (bits x 16 16))) ∧
        (∀ e, t.armRecord (bits x 64 64) (some (t.launch r).owner) = .error e → t.endLaunch r 5 6 = .ok u → exec .graphNodeArm s = .next u)) ∧
      (nodeKind x = 1 → (∀ c ∈ t.loadCores p x, t.quiescing (clusterOf c) = false) →
        (bits x 64 64 = 0 → (t.pendingRoles p).loadTasks p r x = .ok u → exec .graphNodeLoad s = .next (u.startLoad p r n x)) ∧
        (∀ v, bits x 64 64 ≠ 0 → t.walkerCfg p (BitVec.ofNat 64 (bits x 64 64)) = .ok u → (u.pendingRoles p).loadTasks p r x = .ok v →
          exec .graphNodeLoad s = .next (v.startLoad p r n x))) ∧
      (nodeKind x = 1 → (∃ c ∈ t.loadCores p x, t.quiescing (clusterOf c) = true) → exec .graphNodeLoad s = .next s)) ∧
    (∀ i ∈ [Instr.graphNodeEnd, .graphNodeLoad, .graphNodeCond, .graphNodeWhile, .graphNodeHold, .graphNodeArm],
      ((s.part p).walker = .at_ r n → s.walkerOn p = true →
        ((s.launch r).nnodes ≤ n → s.endLaunch r 5 4 = .ok u → exec i s = .next u) ∧
        (n < (s.launch r).nnodes → s.loadVia (s.walkerW p) (padd (s.launch r).graph (64 * n : Nat)) 64 true = .ok (t, x) →
          nodeOk x (s.launch r).nnodes (s.part p).cores.length = false → t.endLaunch r 5 4 = .ok u → exec i s = .next u)) ∧
      (s.walkerOn p = false → (∀ r n, (s.part p).walker = .at_ r n → i = .graphNodeEnd → s.notifyLost r = false) → exec i s = .next s)) ∧
    (∀ since, (s.part p).walker = .holding r n since x → s.walkerOn p = true → since + 1600 ≤ s.wt →
      s.loadVia (s.walkerW p) (BitVec.ofNat 64 (bits x 64 64)) 8 true = .ok (u, w) →
      (condTrue x w → exec .holdNodeReread s = .next (goesTo u p r (bits x 16 16))) ∧
      (¬condTrue x w → exec .holdNodeReread s = .next (u.modPart p fun q => { q with walker := .holding r n u.wt x }))) ∧
    (∀ since, (s.part p).walker = .holding r n since x → s.wt < since + 1600 → exec .holdNodeReread s = .next s) ∧
    (∀ c h, c ∈ s.loadCores p x → h < 4 → bit (bits x 160 4) h = true → s.isFree (4 * c + h) = true → (s.loadCores p x).Nodup →
      let k := (s.startLoad p r n x).hg (4 * c + h)
      k.run = .program ∧ k.pc = BitVec.ofNat 64 (bits x (256 + 64 * h) 64 / 4 * 4) ∧ k.sys = (s.ctx (s.launch r).owner).sys ∧
      k.getS 1 = BitVec.ofNat 64 (r * 2 ^ 16 + n) ∧ (∀ j : Fin 8, k.getS ⟨2 + j.val, by omega⟩ = (s.launch r).word (8 + j.val))) ∧
    (∀ next, (s.part p).walker = .loading r n next → s.walkerOn p = true →
      (s.loadEnded p = true →
        (s.loadBoundaryAt p = .ok u → exec .loadEnd s = .next (goesTo (u.modPart p fun q => { q with load := none }) p r next)) ∧
        (∀ wt, s.loadBoundaryAt p = .error (.wait wt) → exec .loadEnd s = .next (s.startWait (s.walkerW p) wt))) ∧
      (s.loadEnded p = false → exec .loadEnd s = .next s))

/-! ## Switches, halts and tasks -/

/-- A pre-emption is taken, its switch reaches its flip by the deadline or by the agreement of its plots, the flip restores, the
banks come back one by one; the halt line stops a core and its records are written; the task scheduler starts, refuses or leaves
the heads of its queues (18 R376 to R381; 14 R337, R338; 10 R256 to R261). The readings of the model that it rests on: logs 44
and 47. -/
def Obligations.SwitchesHaltsAndTasks : Prop :=
  ∀ (s t : State), let p := s.inp.unit
    let q := s.part p
    (∀ x rest, q.preq = x :: rest → q.en = true → q.sw = .none → s.mod.stage = 5 → s.mod.tearAt 0 = false → s.mod.tearAt 1 = false →
      let inc := x % 1024
      ((s.ctx inc).state = 1 → (s.ctx inc).part = p → ¬(q.av = true ∧ q.active = inc) →
        ∃ u, exec .preemptRequest s = .next u ∧ (u.part p).sw = .requested inc s.wt (s.wt + q.yield_) false ∧ (u.part p).preq = rest ∧
          (u.part p).switch = true ∧ (u.ctx inc).state = 2 ∧ u.mem = s.mem ∧ u.wt = s.wt) ∧
      ((s.ctx inc).state ≠ 1 ∨ (s.ctx inc).part ≠ p ∨ (q.av = true ∧ q.active = inc) →
        exec .preemptRequest s = .next (s.modPart p fun q => { q with preq := rest }))) ∧
    (∀ inc a d,
      (q.sw = .requested inc a d false →
        (d < s.wt → exec .yieldDeadline s = .next (s.beginFlip p inc)) ∧ (s.wt ≤ d → exec .yieldDeadline s = .next s)) ∧
      (q.sw = .requested inc a d true →
        ((q.plots.all fun e => !e.2.active || e.2.yield == 2) = true → exec .cooperativeStop s = .next (s.beginFlip p inc)) ∧
        ((q.plots.all fun e => !e.2.active || e.2.yield == 2) = false → exec .cooperativeStop s = .next s) ∧
        (2 * d - a ≤ s.wt → exec .cooperativeTimeout s = .next (s.beginFlip p inc)) ∧
        (s.wt < 2 * d - a → exec .cooperativeTimeout s = .next s))) ∧
    (∀ inc, ((s.beginFlip p inc).part p).sw = .flip inc s.wt ∧ (q.av = true → ((s.beginFlip p inc).ctx q.active).state = 4)) ∧
    (∀ inc a, q.sw = .flip inc a →
      (s.flip p inc = .ok t → exec .contextFlip s = .next t ∧ (t.part p).sw = .none ∧ (t.part p).restoring = some (inc, s.outgoing p)) ∧
      (q.restoring ≠ none → exec .contextFlip s = .next s)) ∧
    (∀ inc out c pp b rest, s.inp.unit = c → s.partOf c = some pp → (s.part pp).restoring = some (inc, out) →
      (s.core c).unrestored = b :: rest →
      (s.spillRestore pp inc out c = .ok t → exec .bankSpillRestore s = .next (t.endSwitch pp inc out) ∧ (t.core c).unrestored = rest ∧
        (rest = [] → (∀ k ∈ (s.part pp).cores, k ≠ c → (s.core k).unrestored = []) → let u := (t.endSwitch pp inc out).part pp
          u.restoring = none ∧ u.switch = (u.sw != .none))) ∧
      (∀ wt, s.spillRestore pp inc out c = .error (.wait wt) → exec .bankSpillRestore s = .next (s.startWait (4 * c) wt))) ∧
    (∀ c pp, s.inp.unit = c → s.partOf c = some pp →
      ((s.part pp).halted = true → (s.core c).halted = false →
        ∃ u, exec .haltLineArrival s = .next u ∧ (u.core c).halted = true ∧ (u.core c).haltWt = s.wt ∧
          ((∀ e ∈ (s.part pp).plots, e.2.swCore ≠ c) → u.mem = s.mem ∧ ∀ h, h < 4 → (u.hg (4 * c + h)).stopped = true)) ∧
      ((s.part pp).halted = false ∨ (s.core c).halted = true → exec .haltLineArrival s = .next s) ∧
      (s.coreOn c = true → (s.part pp).halted = false → (s.part pp).av = true → let k := s.core c
        (k.ttcount = 0 → exec .taskSchedulerCycle s = .next s) ∧
        (∀ n m, k.ttcount ≠ 0 → k.heads = [(n, m)] → let e := k.taskEntry (bits m.header.toNat 0 16)
          (∀ h, k.taskFault (bits m.header.toNat 0 16) = none → s.taskPasses c e = true → s.taskHg c e = some h →
            let u := (s.wakeNamed c e).modCore c fun k => { k with taskReady := 2 ^ n }
            (s.quiescing (clusterOf c) = false → exec .taskSchedulerCycle s = .next (u.startTask c n h m e)) ∧
            (s.quiescing (clusterOf c) = true → exec .taskSchedulerCycle s = .next u)) ∧
          (k.taskFault (bits m.header.toNat 0 16) = none → s.taskPasses c e = false →
            exec .taskSchedulerCycle s = .next ((s.wakeNamed c e).modCore c fun k => { k with taskReady := 0 })) ∧
          (∀ cause, k.taskFault (bits m.header.toNat 0 16) = some cause → exec .taskSchedulerCycle s =
            .next ((((s.modCore c fun k => { k with taskReady := 0 }).modCore c fun k =>
              k.setQueue n ((k.queue n).drop 1)).record pp c 6 0 cause 0xFFFF 0
              [n, bits m.header.toNat 0 16]).haltLine pp))))) ∧
    (∀ c n h m e, let k := (s.startTask c n h m e).hg (4 * c + h)
      k.pc = BitVec.ofNat 64 (bits e 192 64 / 4 * 4) ∧ k.startAt = s.cycleOf (clusterOf c) + 2 ∧ k.getS 1 = m.header ∧ k.getS 3 = BitVec.ofNat 64 n ∧ k.stopped = false ∧ k.loops = [] ∧
      k.getS 2 = BitVec.ofNat 64 (m.sent % 2 ^ 32 * 2 ^ 32 + m.arrived % 2 ^ 32) ∧ k.getV 0 = BitVec.ofNat 512 m.payload) ∧
    (q.en = true → q.halted = true → q.done = false → (∀ c ∈ q.cores, (s.core c).halted = true) →
      exec .stopRecordsDone s = .next ((s.writeStops p).modPart p fun q => { q with done := true }) ∧
      (q.stopbase = 0 → s.writeStops p = s))

/-! ## Plots and engines -/

/-- What the rows of plots and the engines of headgates do at one event: a row that is due executes, is held or stops its plot;
marks commit; a held row past its limit raises TIMING; a feed presents a lane row; a node moves one element or unit; the chain
fires; the decoder decodes and delivers; a scale run fills; an old dirty sector is written back (03; 09 R237, R242 to R247; 10
R263, R266 to R269; 11 R279, R281; 12 R294, R301; 14 R331 to R333). The readings of the model that it rests on: logs 33, 35,
36, 50, 51, 52 and 61. -/
def Obligations.PlotsAndEnginesAdvance : Prop :=
  ∀ (s t : State), let p := s.inp.unit
    let id := s.inp.idx
    let k := s.inp.unit
    let h := s.hg k
    let nd := h.node (s.inp.sub % 2)
    let n := s.inp.sub % 2
    (s.plot? p id = none → ∀ i ∈ [Instr.plotRowAttempt, .markCommit, .timingLimit, .plotRelease], exec i s = .next s) ∧
    (∀ q, s.plot? p id = some q →
      (rowDue s q → let c := s.plotCycle q
        let x := s.rowHolders p q (q.cells.map fun e => s.runCell p id q c e.1 e.2) c
        (x.1 = [] → x.2.2.2.mismatch = none → exec .plotRowAttempt s = .next (s.doRow p id q c x.2.1 x.2.2.1 x.2.2.2)) ∧
        (x.1 ≠ [] → exec .plotRowAttempt s = .next (s.holdRow p id c x.1 x.2.2.2.faults)) ∧
        (∀ j lane, x.1 = [] → x.2.2.2.mismatch = some (j, lane) → exec .plotRowAttempt s = .next (s.redunFault p id q j lane))) ∧
      (¬rowDue s q → exec .plotRowAttempt s = .next s) ∧
      (∀ m l, q.pend = m :: l →
        (s.coreOn q.swCore = true → q.stopCause = 0 → s.markReady q m = true →
          exec .markCommit s = .next ((s.commitMark p id q).endPredecessor p id)) ∧
        (s.markReady q m = true → m.ready ≤ s.plotCycle q) ∧
        (s.plotCycle q < m.ready → exec .markCommit s = .next s)) ∧
      (q.pend = [] → exec .markCommit s = .next s) ∧
      (s.plotOn q = true →
        (s.pastLimit q = true → exec .timingLimit s = .next (s.timing p id q)) ∧
        (s.pastLimit q = false → exec .timingLimit s = .next s)) ∧
      (q.active = true → q.waiting = true → s.coreOn q.swCore = true → q.waits.all s.holdEnded = true →
        exec .plotRelease s = .next (s.setPlot p id { q with waiting := false, waits := [], held := 0, next := s.plotCycle q + 4 })) ∧
      (q.waiting = false → exec .plotRelease s = .next s)) ∧
    (∀ a id' q b c l r, s.fedSegment k = some (a, id', q, b) → h.feed.queue = c :: l → s.mayPresent k q b = true →
      h.tileFirst c = true → h.tileHere c = true → h.replayFree c = true → s.tileRow k c h.feed.k h.feed.r = .ok (t, r) →
      exec .tstepFeedPresent s = .next ((t.presentRow k a id' q b (.tile c.serial h.feed.k h.feed.r) r).modHg k Hg.feedStep)) ∧
    (h.feed.queue = [] → exec .tstepFeedPresent s = .next s) ∧
    (nd.queue = [] → exec .streamNodeRead s = .next s ∧ exec .streamNodeWriteWalk s = .next s ∧ exec .streamNodeFire s = .next s) ∧
    (∀ c l, nd.queue = c :: l → s.engineOn k = true → nd.cause = 0 → let now := s.hgCycle k
      let f := (shFormat c.src).getD .f32
      let f' := (shFormat c.dst).getD .f32
      (∀ v, strmIn c.desc = false → c.rd < shCount c.src → c.stages = true → nd.rdRate.room now (fmtWidth f) = true →
        s.loadElem (waiterOf k (n + 1)) c.src f c.rd = .ok (t, v) →
        exec .streamNodeRead s = .next ((t.nodeTake k n [v]).modHg k fun h => h.modNode n fun y =>
          { y.modCmd (fun d => if strmIn c.desc then { d with xoff := d.xoff + 1 } else d) with rdRate := y.rdRate.move now (fmtWidth f) })) ∧
      (∀ v vs, strmOut c.desc = false → c.staged = v :: vs → c.scales = [] → nd.wrRate.room now (fmtWidth f') = true →
        s.storeElem (waiterOf k (n + 1)) c.dst f' c.wr v = .ok t →
        exec .streamNodeWriteWalk s = .next ((t.modHg k fun h => h.modNode n fun y =>
          { y.modCmd StreamCmd.wrote with wrRate := y.wrRate.move now (fmtWidth f') }).nodeEnd k n)) ∧
      (nd.rdRate.room now (fmtWidth f) = false → exec .streamNodeRead s = .next s) ∧
      (s.inp.idx = 0 → strmIn c.desc = true → exec .streamNodeFire s = .next (s.nodeFireIn k n c)) ∧
      (s.inp.idx = 1 → strmOut c.desc = true → exec .streamNodeFire s = .next (s.nodeFireOut k n c))) ∧
    (∀ c l, h.chain.queue = c :: l → s.engineOn k = true → h.chain.cause = 0 → s.chainStep k c = .ok t → exec .chainFire s = .next t) ∧
    (h.chain.queue = [] → exec .chainFire s = .next s) ∧
    (∀ c l d, h.dec.queue = c :: l → s.engineOn k = true → h.dec.parked = false → s.decBlocked k c = false →
      (h.dec.started = true → h.dec.walkFail = none → h.dec.bufs.length < 2 → h.dec.allDecoded c = false → s.nextSegment k c h.dec = .ok (t, d) →
        exec .decoderSegmentDecode s = .next (t.modHg k fun h => { h with dec := d })) ∧
      (h.dec.started = true → h.dec.walkFail = none → 2 ≤ h.dec.bufs.length → exec .decoderSegmentDecode s = .next s) ∧
      (h.dec.started = true → c.dest = 0 → exec .decoderWordDeliver s = .next ((s.deliverLanes k c).decFinish k)) ∧
      (h.dec.started = true → c.dest = 1 → exec .decoderWordDeliver s = .next ((s.deliverStore k c).decFinish k))) ∧
    (h.dec.queue = [] → exec .decoderSegmentDecode s = .next s ∧ exec .decoderWordDeliver s = .next s) ∧
    (∀ run eng v, h.scale.misses[s.inp.idx]? = some (run, eng) → s.engineOn k = true →
      s.loadVia (waiterOf k eng) run 16 false = .ok (t, v) →
      exec .scaleCacheFill s = .next ((t.modHg k fun h => { h with scale := { h.scale with misses := h.scale.misses.filter fun m => m.1 != run } }).modHg k
        fun h => { h with scale := { h.scale with runs := SMap.set h.scale.runs (bits run.toNat 4 8) (run, v) } })) ∧
    (h.scale.misses[s.inp.idx]? = none → exec .scaleCacheFill s = .next s) ∧
    (∀ x, SMap.get? (s.core s.inp.unit).l1 s.inp.idx = some x → let a := s.inp.idx
      (x.dirty ≠ 0 → x.since + 16384 ≤ s.cycleOf (clusterOf k) → s.sectorsReady (4 * k) k [a] = .ok () →
        exec .l1SectorAgeWriteback s = .next (s.l1WriteBack k (4 * k) [a])) ∧
      (x.dirty = 0 ∨ s.cycleOf (clusterOf k) < x.since + 16384 → exec .l1SectorAgeWriteback s = .next s))

namespace Sys2Proof.Claims

/-- The cluster of an event, its bank, and the bank with another content. -/
abbrev evBank (s : State) : Nat := s.inp.idx % 400
abbrev withBank (s : State) (cl n : Nat) (b : Bank) : State := s.modCluster cl fun c => { c with banks := SMap.set c.banks n b }

/-- The output that dimension order takes for a packet (19 R389): east or west first, then north or south, then the core. -/
abbrev xThenY (c dst : Nat) : Nat :=
  if coreX dst < coreX c then 3 else if coreX c < coreX dst then 1 else if coreY dst < coreY c then 2 else if coreY c < coreY dst then 0 else 4

/-- A command of the mailbox stands for an operation (26 R453). -/
abbrev mailReady (s : State) (op : Nat) : Prop :=
  bit s.mod.mbstat.toNat 0 = true ∧ bits s.mod.mbcmd.toNat 56 8 = op ∧ bits s.mod.mbcmd.toNat 32 24 = 0

/-- A mailbox command ends with a result. -/
abbrev mailEnds (i : Instr) (s t : State) (result : Nat) : Prop :=
  exec i s = .next (t.modMod fun m => { m with mbstat := (m.mbstat &&& 2#64) ||| BitVec.ofNat 64 (result * 256) })

/-- A packet on the mesh, at its place. -/
abbrev packetAt (s : State) (x : Packet) : Prop := s.mod.packets[s.inp.idx]? = some x
abbrev putAt (s : State) (x : Packet) : State := s.modMod fun m => { m with packets := m.packets.set s.inp.idx x }

end Sys2Proof.Claims

/-! ## The mesh, domain time, other modules -/

/-- A packet takes one hop, is delivered, and becomes a message of its queue; SYNC takes effect at a window; the servo; the Ethernet
ports; an access of another module, and the answer to one of ours (07 R180; 12 R306; 19 R389 to R394, R398, R399; 23 R424; 26 R450,
R451). The readings of the model that it rests on: logs 13, 29, 45 and 46. -/
def Obligations.PacketsTimeAndOtherModules : Prop :=
  ∀ (s t : State),
    let port := s.inp.unit % 32
    let e := (SMap.getD s.mod.eth port 0).toNat
    let setEth := fun (v : Nat) => s.modMod fun m => { m with eth := SMap.set m.eth port (BitVec.ofNat 64 v) }
    (∀ x, packetAt s x →
      (∀ c input, (x.place = .source ∧ c = x.src ∧ input = 4) ∨ x.place = .router c input →
        (∀ o, s.takesOut c input x = some o → x.ready ≤ s.wt →
          (((s.core c).link x.cls o).2 ≠ some s.wt → s.comesFirst s.inp.idx c input o x = true → exec .routerForward s = .next
            (putAt (s.modCore c fun k => { k with links := SMap.set k.links (8 * x.cls + o) (input, s.wt) })
              { x with place := nextHop c o, ready := s.wt + hopCycles c (nextHop c o), out := none })) ∧
          (((s.core c).link x.cls o).2 = some s.wt ∨ s.comesFirst s.inp.idx c input o x = false → exec .routerForward s = .next s)) ∧
        (s.takesOut c input x = none ∨ s.wt < x.ready → exec .routerForward s = .next s) ∧
        (x.out = none → ∀ o, s.takesOut c input x = some o ↔ s.routeOut c x.cls input x.dst = some o ∧ s.openOut c o = true)) ∧
      (x.place = .leaving →
        exec .routerForward s = .next s ∧
        ((s.cluster (clusterOf x.dst)).cur ≠ 0 → (s.cluster (clusterOf x.dst)).rail = 0 →
          x.ready ≤ s.wt → exec .packetDeliver s = .next (putAt s { x with place := .arrived, ready := s.wt + 1 })) ∧
        (s.wt < x.ready → exec .packetDeliver s = .next s) ∧
        ((s.cluster (clusterOf x.dst)).cur = 0 ∨ (s.cluster (clusterOf x.dst)).rail ≠ 0 → x.ready ≤ s.wt →
          exec .packetDeliver s = .next
            (if x.knocked then s else (putAt s { x with knocked := true }).setKnock (clusterOf x.dst)))) ∧
      (s.inp.sub = 0 → x.place = .arrived → ((s.core x.dst).queue x.queue).length < 64 →
        (s.core x.dst).arrivals.get (Fin.ofNat 8 x.queue) = [] → (∀ y ∈ s.mod.packets.take s.inp.idx, y.sameStream x = false) →
        x.ready ≤ s.wt → exec .queueMessageArrival s = .next
          (((s.modCore x.dst fun k => k.setQueue x.queue (k.queue x.queue ++ [{ x.msg with arrived := s.wt }])).modMod fun m =>
            { m with packets := m.packets.eraseIdx s.inp.idx }).latchCore x.dst 0)) ∧
      (s.inp.sub = 0 → 64 ≤ ((s.core x.dst).queue x.queue).length → exec .queueMessageArrival s = .next s)) ∧
    (s.mod.packets[s.inp.idx]? = none → exec .routerForward s = .next s ∧ exec .packetDeliver s = .next s) ∧
    (∀ c o, s.openOut c o = true ↔ o = 4 ∨ ∃ n, neighbour c o = some n ∧ s.live n = true) ∧
    (∀ c cls input dst, (∀ e : Fin 16, bit ((s.core c).rte cls e).toNat 35 = false) → input = 4 ∨ input = 1 →
      s.routeOut c cls input dst = some (xThenY c dst)) ∧
    (s.wt % s.mod.window = 0 → exec .domainWindowBoundary s = .next (s.modMod fun m => { m with sync := m.syncNow })) ∧
    (s.wt % s.mod.window ≠ 0 → exec .domainWindowBoundary s = .next s) ∧
    (s.mod.locked = true → s.wt % 4096 = 0 → s.inp.val = 1 → let u := { s with wt := (s.wt + 1) % 2 ^ 64, turns := [] }
      exec .servoAdjust s = .next (if u.wt % u.mod.window = 0 then u.modMod fun m => { m with sync := m.syncNow } else u)) ∧
    (s.mod.locked = false ∨ s.wt % 4096 ≠ 0 ∨ s.inp.val ≠ 1 → exec .servoAdjust s = .next s) ∧
    (s.inp.idx < 2 ^ 32 → ∃ u, exec .servoLockChange s = .next u ∧ u.mod.locked = bit s.inp.val.toNat 0 ∧ u.mod.offb = s.inp.idx) ∧
    exec .ptpEvent s = .next (setEth (setBits e 1 1 1)) ∧
    exec .ethLinkEvent s = .next (setEth (setBits (setBits e 0 1 (s.inp.val.toNat % 2)) 16 4 s.inp.idx)) ∧
    exec .ethFrameRetransmit s = .next (setEth (setBits e 4 12 (min 0xFFF (bits e 4 12 + 1)))) ∧
    (let d := (SMap.getD s.mod.domtab (domKey (s.inp.unit % 128) (s.inp.sub % 16)) 0).toNat
      let go := s.remoteAccess (32784 + s.inp.sub % 16) (bits d 0 10) s.inp.idx (bits s.inp.addr.toNat 0 48) s.inp.val.toNat
        (pack 8 s.inp.data)
      (bit d 63 = true → s.known (bits d 0 10) = true →
        (∀ v, go = .ok (t, v) → exec .remoteAccessArrival s = .next (completes t false v)) ∧
        (∀ c l, go = .error (.fault c l) → exec .remoteAccessArrival s = .next (completes s true c)) ∧
        (∀ w, go = .error (.wait w) → exec .remoteAccessArrival s = .next (s.startWait (32784 + s.inp.sub % 16) w)) ∧
        (∀ u w, go = .error (.held u w) → exec .remoteAccessArrival s = .next (u.startWait (32784 + s.inp.sub % 16) w))) ∧
      (bit d 63 = false ∨ s.known (bits d 0 10) = false → exec .remoteAccessArrival s = .next (completes s true 0x05))) ∧
    (∀ r, s.mod.remotes[s.inp.idx]? = some r → r.reply = none → s.mod.linked r.module_ = true →
      (∀ y ∈ s.mod.remotes.take s.inp.idx, seqOf y.seqr = seqOf r.seqr → y.module_ = r.module_ → y.reply ≠ none) →
      let drop := s.modMod fun m => { m with remotes := m.remotes.eraseIdx s.inp.idx }
      (s.inp.sub = 0 → r.blocking = true → s.inp.data = [] → exec .remoteAcknowledgement s = .next (s.modMod fun m =>
        { m with remotes := m.remotes.set s.inp.idx { r with reply := some (s.inp.val.toNat % 256 ^ r.size) } })) ∧
      (s.inp.sub = 0 → r.blocking = false → exec .remoteAcknowledgement s = .next drop) ∧
      (s.inp.sub ∈ remoteCauses → r.passed = false → engOf r.seqr = 0 → exec .remoteAcknowledgement s = .next
        (drop.trapAt (seqOf r.seqr) s.inp.sub r.iaddr (s.hg (seqOf r.seqr)).pc 0 [])) ∧
      (s.inp.sub = 256 → exec .remoteAcknowledgement s = .next (s.modMod fun m =>
        { m with remotes := m.remotes.set s.inp.idx { r with passed := true } })) ∧
      (s.inp.sub ≠ 0 → s.inp.sub ≠ 256 → s.inp.sub ∉ remoteCauses ∨ r.passed = true → exec .remoteAcknowledgement s = .next s)) ∧
    remoteCauses = [0x03, 0x04, 0x05, 0x06, 0x08, 0x09] ∧
    (s.mod.remotes[s.inp.idx]? = none → exec .remoteAcknowledgement s = .next s)

/-! ## Power -/

/-- Banks sleep, wake and keep their declared phases; budgets restart at their intervals; energy is charged at its (13 R310 to R319,
R321, R324, R325; 23 R429). The readings of the model that it rests on: logs 11, 13 and 55. -/
def Obligations.BanksSleepWakeAndAreBudgeted : Prop :=
  ∀ s : State,
    let cl := s.inp.unit
    let c := s.cluster cl
    let n := evBank s
    let b := c.bank n
    let p := s.inp.unit
    let q := s.part p
    (let lower := idleTarget c.idle (s.demand cl) (floorOf b.cls) (c.cycles s.wt - b.last)
      let may := b.state < lower ∧ b.wake = none ∧ c.cur ≠ 0 ∧ c.rail = 0 ∧ s.phaseHolds cl n = false ∧ s.unalloc cl n = false
      (may → lower ≠ 3 → exec .bankIdleLower s =
        .next (withBank s cl n { b with state := lower, lowered := some (c.cycles s.wt) })) ∧
      (may → lower = 3 → s.leaveReady cl n = .ok () → ∃ t, exec .bankIdleLower s = .next t ∧ ((t.cluster cl).bank n).state = 3 ∧
        ∀ a, s.bankOfAddr a = some (cl, n) → n < 272 ∨ SMap.get? c.l2 (a % 2 ^ 32 / 64) = none → t.byte a = 0) ∧
      (∀ w, may → lower = 3 → s.leaveReady cl n = .error (.wait w) → exec .bankIdleLower s = .next (s.startWait (bpcWaiter cl) w)) ∧
      (¬may → exec .bankIdleLower s = .next s)) ∧
    (∀ w, b.wake = some w →
      (w ≤ (if n < 272 then s.cycleOf cl else s.wt) → exec .bankWakeComplete s = .next (withBank s cl n
        { b with state := 0, wake := none, last := s.cycleOf cl, lost := b.lost || decide (b.state = 3 ∧ b.cls = 3) })) ∧
      ((if n < 272 then s.cycleOf cl else s.wt) < w → exec .bankWakeComplete s = .next s)) ∧
    (b.wake = none → exec .bankWakeComplete s = .next s) ∧
    (q.bwDue = true → exec .bwphApply s = .next (s.applyPhase p) ∧ ((s.applyPhase p).part p).bwDue = false ∧
      ((s.applyPhase p).part p).bwSet = some s.wt ∧ ((s.applyPhase p).part p).lostBw = (q.lostBw && decide (q.lostBwWt = s.wt))) ∧
    (q.bwDue = false → exec .bwphApply s = .next s) ∧
    (s.unalloc cl n = false → (∃ e ∈ s.parts, e.2.en = true ∧ e.2.names e.2.hot cl n = true) →
      exec .bankPhaseWakeStart s = .next (s.beginWake cl n)) ∧
    (s.unalloc cl n = true ∨ (∀ e ∈ s.parts, e.2.names e.2.hot cl n = false) → exec .bankPhaseWakeStart s = .next s) ∧
    (q.bwSet ≠ none → q.bwphwt.toNat ≤ s.wt →
      (s.namedBanks p = [] → exec .bwphPhaseTime s = .next s) ∧
      (∀ x y, s.namedBanks p = [(x, y)] →
        (((s.cluster x).bank y).state = 0 → exec .bwphPhaseTime s = .next s) ∧
        (((s.cluster x).bank y).state ≠ 0 → q.short = true → exec .bwphPhaseTime s = .next (s.beginWake x y)) ∧
        (((s.cluster x).bank y).state ≠ 0 → q.short = false → exec .bwphPhaseTime s = .next (s.bankUp x y)))) ∧
    (q.bwSet = none ∨ s.wt < q.bwphwt.toNat → exec .bwphPhaseTime s = .next s) ∧
    (rootAt s 2 → bpcReg s.inp.addr.toNat = true → let d := bits s.inp.addr.toNat 32 9
      (s.cluster d).rail = 0 → (s.cluster d).cur ≠ 0 →
      acks .bpcClassWrite s ((List.range 16).foldl (fun s k => s.classWrite d (16 * ((bits s.inp.addr.toNat 0 12 - 0x100) / 8) + k)
        (bits s.inp.val.toNat (4 * k) 2)) s)) ∧
    (∀ d m cls, ((bankCore d m).map s.live).getD true = true → (cls = 0 ∨ ((s.cluster d).bank m).state ≤ floorOf cls →
      s.classWrite d m cls = withBank s d m { (s.cluster d).bank m with cls })) ∧
    (let iv := bits c.budget.toNat 32 16
      let bd := bits c.budget.toNat 0 32
      let eff := if s.thermal cl 1 then (if bd = 0 then 75 * iv / 4 else 3 * bd / 4) else bd
      (s.wt % c.interval = 0 → c.boundWt ≠ some s.wt → exec .budgetIntervalBoundary s = .next (s.setCluster cl { c with
        interval := iv, eff, granted := (grantTransfers eff 0 c.transfers).1, transfers := (grantTransfers eff 0 c.transfers).2,
        boundWt := some s.wt })) ∧
      (s.wt % c.interval ≠ 0 ∨ c.boundWt = some s.wt → exec .budgetIntervalBoundary s = .next s)) ∧
    (∀ x y z k, s.inp.data = [x, y, k, z] → s.wt % 1600 = 0 → s.live s.inp.unit = true →
      ∃ t, exec .energyInterval s = .next t ∧ t.mem = s.mem ∧
        (k = 0 → s.activeCtx s.inp.unit = none →
          t.mod = { s.mod with ensys := s.mod.ensys + BitVec.ofNat 64 x + BitVec.ofNat 64 y + BitVec.ofNat 64 z }) ∧
        (∀ a, k = 0 → s.activeCtx s.inp.unit = some a → t.mod.ensys = s.mod.ensys + BitVec.ofNat 64 x + BitVec.ofNat 64 y ∧
          SMap.getD t.mod.enacc a 0 = SMap.getD s.mod.enacc a 0 + BitVec.ofNat 64 z)) ∧
    (s.wt % 1600 ≠ 0 ∨ s.live s.inp.unit = false → exec .energyInterval s = .next s)

/-- The registers of a cluster: QREQ, the clock pattern and its quiesce point, the rail and its transitions, the wake; the sensors
and the levels; ballast (23 R417 to R428; 24 R431, R432). The readings of the model that it rests on: logs 13, 16 and 55. -/
def Obligations.ClustersFollowTheirClockAndRail : Prop :=
  ∀ s : State,
    let v := s.inp.val
    (rootAt s 2 →
      let cl := bits s.inp.addr.toNat 32 9
      let c := s.cluster cl
      let r := bits v.toNat 0 16
      let refuse := fun (code : Nat) => s.modCluster cl fun c => { c with err := true, errcode := code }
      (bits s.inp.addr.toNat 0 12 = 0x000 → acks .clQreqWrite s (s.modCluster cl fun c => { c with ctl := v &&& 3 })) ∧
      (bits s.inp.addr.toNat 0 12 = 0x010 →
        (r = 0 → s.isQuiet cl = false → acks .clSwallowReqWrite s (refuse 1)) ∧
        (r ≠ 0 ∨ s.isQuiet cl = true → ∃ t, acks .clSwallowReqWrite s t ∧ (t.cluster cl).req = r ∧ (t.cluster cl).cur = c.cur ∧
          ((t.cluster cl).swpend = none ↔ c.cur = (if s.thermal cl 2 then r &&& 0x5555 else r)) ∧
          ∀ d, d ≠ cl → t.cluster d = s.cluster d)) ∧
      (bits s.inp.addr.toNat 0 12 = 0x018 → let x := bits v.toNat 0 2
        (c.railTo = none → x = c.rail → acks .clRailReqWrite s s) ∧
        (¬(c.railTo = none ∧ x = c.rail) →
          (∀ e, s.railRefusal cl x = some e → acks .clRailReqWrite s (refuse e)) ∧
          (s.railRefusal cl x = none → acks .clRailReqWrite s
            (s.modCluster cl fun c => { c with railReq := x, railTo := some x, railAt := s.wt })))) ∧
      (bits s.inp.addr.toNat 0 12 = 0x020 →
        (bit v.toNat 16 = false → acks .clWakeWrite s s) ∧
        (bit v.toNat 16 = true →
          (c.railTo = some 0 → acks .clWakeWrite s (s.modCluster cl fun c => { c with wakePat := some r })) ∧
          (∀ y, c.railTo = some y → y ≠ 0 → acks .clWakeWrite s (s.modCluster cl fun c => { c with wakePat := some r, wakeBy := none })) ∧
          (c.railTo = none →
            (s.thermal cl 3 = true → acks .clWakeWrite s ((refuse 5).modCluster cl fun c => { c with wakePat := none, wakeBy := none })) ∧
            (s.thermal cl 3 = false → c.rail = 0 → acks .clWakeWrite s (s.wakeFinish cl r)) ∧
            (s.thermal cl 3 = false → c.rail ≠ 0 → acks .clWakeWrite s (s.modCluster cl fun c =>
              { c with railReq := 0, railTo := some 0, railAt := s.wt, wakePat := some r, wakeBy := none })))))) ∧
    (∀ cl x, let t := s.railRefusal cl x
      (x = 3 → t = some 4) ∧
      (x = 1 → (s.cluster cl).cur ≠ 0 → t = some 2) ∧ (x = 1 → (s.cluster cl).cur = 0 → (s.cluster cl).railTo = none → t = none)) ∧
    (let cl := s.inp.unit
      let c := s.cluster cl
      (c.changing = true ↔ c.swpend ≠ none ∧ c.rail = 0 ∧ c.railTo = none) ∧
      (s.wt % 16 = 0 → c.changing = true → (∀ d ∈ s.concerned cl, s.inFlight d = false) →
        exec .quiescePointChange s = .next ((s.concerned cl).foldl (fun s d => s.modCluster d fun x => { x with forced := false })
          (s.setCur cl (s.effPattern cl)))) ∧
      (s.wt % 16 ≠ 0 ∨ c.changing = false → exec .quiescePointChange s = .next s) ∧
      (∀ w, ((s.setCur cl w).cluster cl).cur = w ∧ ((s.setCur cl w).cluster cl).swpend = none) ∧
      (∀ w, c.changing = true → c.swpend = some w →
        (w + 4096 ≤ s.wt → exec .swallowForceTimeout s = .next
          ((s.concerned cl).foldl (fun s d => s.modCluster d fun x => { x with forced := true }) s)) ∧
        (s.wt < w + 4096 → exec .swallowForceTimeout s = .next s)) ∧
      (c.changing = false → exec .swallowForceTimeout s = .next s) ∧
      (c.railTo = some 1 → c.wakePat = none →
        (c.railAt + 320 ≤ s.wt → exec .railTransitionDone s = .next (s.modCluster cl fun c => { c with rail := 1, railTo := none })) ∧
        (s.wt < c.railAt + 320 → exec .railTransitionDone s = .next s)) ∧
      (c.railTo = some 2 → c.wakePat = none → s.offReady cl = .ok () →
        exec .railTransitionDone s = .next ((s.enterOff cl).modCluster cl fun c => { c with rail := 2, railTo := none })) ∧
      (∀ w, c.railTo = some 0 → c.wakePat = some w →
        (c.rail = 1 → c.railAt + 800 ≤ s.wt → exec .clusterWakeDone s = .next (s.wakeFinish cl w)) ∧
        (c.rail = 1 → s.wt < c.railAt + 800 → exec .clusterWakeDone s = .next s) ∧
        (∀ t, c.rail = 2 → s.readRetention cl = .ok t → exec .clusterWakeDone s = .next (t.wakeFinish cl w))) ∧
      (∀ w, ((s.wakeFinish cl w).cluster cl).rail = 0 ∧ ((s.wakeFinish cl w).cluster cl).req = w ∧
        ((s.wakeFinish cl w).cluster cl).railTo = none ∧ bit ((s.wakeFinish cl w).cluster cl).ctl.toNat 0 = false ∧
        ((s.wakeFinish cl w).cluster cl).cur = (if s.thermal cl 2 then w &&& 0x5555 else w)) ∧
      exec .ballastStep s = .next (s.modCluster cl fun c => { c with ballast := c.ballastLevel s.wt }) ∧
      (∀ x, c.ballastAt = some x → s.wt < x → x ≤ s.wt + 3200 → c.ballastLevel s.wt = 16 - (x - s.wt + 199) / 200) ∧
      (∀ x l, c.ballastAt = none → c.ballastFall = some (x, l) → c.ballastLevel s.wt = l - (s.wt - x) / 200) ∧
      (c.ballastAt = none → c.ballastFall = none → c.ballastLevel s.wt = 0)) ∧
    (s.wt % 1600 = 0 → exec .thermalSample s = .next (s.thermalSample (s.inp.unit % 64) s.inp.data)) ∧
    (s.wt % 1600 ≠ 0 → exec .thermalSample s = .next s) ∧
    (∀ (l : SensorLevel) (x th wt : Nat),
      (l.on = false → (th ≤ x → (l.sample x th wt).on = true ∧ (l.sample x th wt).entered = wt) ∧
        (x < th → (l.sample x th wt).on = false)) ∧
      (l.on = true → ((l.sample x th wt).on = false ↔ x + 4 ≤ th ∧ 1000 ≤ l.low + 1 ∧ l.entered + 3200000 ≤ wt)))

/-! ## Boot, firmware, health, debug -/

/-- Power-on reset leads to stage 2 of the boot; port training; the six mailbox commands; the RMCs' wake and doorbell (26 R446, R449,
R452, R453, R458; 24 R433). The readings of the model that it rests on: logs 24 and 41. -/
def Obligations.BootMailboxAndFirmware : Prop :=
  ∀ s : State,
    (∃ t, exec .powerOnReset s = .next t ∧ bits t.mod.bootstat.toNat 0 8 = 2 ∧ t.mod.fwbase = s.inp.addr ∧ t.mod.fwsize = s.inp.val ∧
      t.hgs = [] ∧ t.parts = [] ∧ t.wt = 0 ∧ t.agenda = s.agenda) ∧
    exec .hostPortTraining s = .next (s.modMod fun m =>
      if s.inp.unit % 2 = 0 then { m with portA := { m.portA with mods := s.inp.val &&& 0xFF#64 } }
      else { m with portB := { m.portB with mods := s.inp.val &&& 0xFF#64 } }) ∧
    (∀ i op, (i, op) ∈ [(Instr.mbBoot, 1), (.mbAttest, 2), (.mbPubkey, 3), (.mbManifest, 4), (.mbInstall, 5), (.mbCmap, 6)] →
      (bit s.mod.mbstat.toNat 0 = false → exec i s = .next s) ∧
      (bit s.mod.mbstat.toNat 0 = true →
        (bits s.mod.mbcmd.toNat 56 8 = 0 ∨ 6 < bits s.mod.mbcmd.toNat 56 8 ∨ bits s.mod.mbcmd.toNat 32 24 ≠ 0 → mailEnds i s s 1) ∧
        (bits s.mod.mbcmd.toNat 56 8 ≠ op → 1 ≤ bits s.mod.mbcmd.toNat 56 8 → bits s.mod.mbcmd.toNat 56 8 ≤ 6 →
          bits s.mod.mbcmd.toNat 32 24 = 0 → exec i s = .next s))) ∧
    (mailReady s 1 → (bits s.mod.bootstat.toNat 0 8 ≠ 2 → mailEnds .mbBoot s s 1) ∧
      (bits s.mod.bootstat.toNat 0 8 = 2 → ∃ t r, mailEnds .mbBoot s t r ∧ (r = 0 → bits t.mod.bootstat.toNat 0 8 = 4) ∧
        (r ≠ 0 → bits t.mod.bootstat.toNat 0 8 = 2))) ∧
    (mailReady s 2 → ∃ t, mailEnds .mbAttest s t 0 ∧ t = { s with mod := { s.mod with mbdata := t.mod.mbdata } }) ∧
    (mailReady s 3 → let slot := bits s.mod.mbcmd.toNat 0 32
      (slot < 8 → mailEnds .mbPubkey s (s.modMod fun m => { m with pubkeys := SMap.set m.pubkeys slot (m.mbNum 0 64) }) 0) ∧
      (8 ≤ slot → mailEnds .mbPubkey s s 1)) ∧
    (mailReady s 4 → mailEnds .mbManifest s (s.manifest).1 (s.manifest).2 ∧
      ((s.manifest).2 ≠ 0 → (s.manifest).1 = s) ∧ ((s.manifest).2 = 0 → ∃ l, (s.manifest).1 = s.modMod fun m => { m with manifest := some l })) ∧
    (mailReady s 5 → mailEnds .mbInstall s (s.install).1 (s.install).2 ∧ ((s.install).2 ≠ 0 → (s.install).1 = s) ∧
      (s.mod.manifest = none → bits (s.mod.mbNum 0 4) 64 8 ≤ 2 → (s.install).2 = 4)) ∧
    (mailReady s 6 → let p := s.mod.mbWord 0
      let g := bits p.toNat 21 20
      let n := bits s.mod.mbcmd.toNat 0 32
      (p.toNat / 2 ^ 56 = 0xF5 → bits p.toNat 41 15 = 0 → g + n ≤ 2 ^ 20 → ∃ t, mailEnds .mbCmap s t 0 ∧ t.mem = s.mem ∧
        ∀ k, k ∈ t.mod.cmap ↔ (if g ≤ k ∧ k < g + n then bit (s.mod.mbWord 1).toNat 63 = true else k ∈ s.mod.cmap)) ∧
      (p.toNat / 2 ^ 56 ≠ 0xF5 ∨ 2 ^ 20 < g + n → mailEnds .mbCmap s s 5)) ∧
    (let r := s.inp.unit % 64
      let m := (s.reticle r).rmc
      let h := s.hg (16384 + r)
      let halted := h.run = .idle ∧ h.wait = .halt
      (m.wakepend = true → m.fault = false → halted → exec .rmcWake s = .next
        ((s.modReticle r fun t => { t with rmc := { t.rmc with wakepend := false } }).modHg (16384 + r) fun h =>
          { h with run := .program, wait := .none })) ∧
      (m.wakepend = false ∨ m.fault = true ∨ ¬halted → exec .rmcWake s = .next s)) ∧
    (rootAt s 6 → blockReg 2 0 s.inp.addr.toNat = true → let r := bits s.inp.addr.toNat 28 12
      let m := (s.reticle r).rmc
      let h := s.hg (16384 + r)
      let halted := h.run = .idle ∧ h.wait = .halt
      r < 64 →
      (m.fault = false → halted → acks .rmcDoorbell s (s.modHg (16384 + r) fun h => { h with run := .program, wait := .none })) ∧
      (m.fault = false → ¬halted → acks .rmcDoorbell s (s.modReticle r fun t => { t with rmc := { t.rmc with wakepend := true } })) ∧
      (m.fault = true → ∃ t, acks .rmcDoorbell s t ∧ (t.reticle r).rmc.fault = false ∧ (t.hg (16384 + r)).pc = (m.pc &&& 0xFFFFFFFFFFFFFFFC#64) ∧
        (t.hg (16384 + r)).run = .program))

/-- RETCMD and what follows it, patrol and row remapping, the whole-wafer halt and its end, and the two steps of a sequencer that
has no instruction to issue (25 R440 to R444; 26 R454, R455; 05 R118, R120, R124). The readings of the model that it rests on:
logs 13, 25 and 56. -/
def Obligations.HealthDebugAndFaultSteps : Prop :=
  ∀ s : State,
    let v := s.inp.val
    (rootAt s 0 → moduleReg 0x28 s.inp.addr.toNat = true → ∀ i op, (i, op) ∈ [(Instr.retcmdTest, 1), (.retcmdRetire, 2), (.retcmdCellbad, 3)] →
      bits v.toNat 62 2 = op → let lost := s.mod.retstat &&& 4#64
      let c := bits v.toNat 0 12
      let done := fun (t : State) => t.modMod fun m => { m with retstat := m.retstat ||| lost }
      (bit s.mod.retstat.toNat 0 = true → acks i s (s.modMod fun m => { m with retstat := m.retstat ||| 4#64 })) ∧
      (bit s.mod.retstat.toNat 0 = false →
        (∀ e, s.retRefusal v = some e → acks i s (s.modMod fun m => { m with retstat := BitVec.ofNat 64 (e * 256 + 2) ||| lost })) ∧
        (s.retRefusal v = none →
          (op = 1 → acks i s (done (s.beginTest c))) ∧ (op = 2 → acks i s (done (s.beginRetire c))) ∧
          (op = 3 → acks i s (done (s.cellBad c (bits v.toNat 16 10))))))) ∧
    (∀ x : Word, bits x.toNat 26 36 = 0 → bits x.toNat 12 4 = 0 → (bits x.toNat 62 2 = 3 → bits x.toNat 16 10 ≤ 575) →
      s.live (bits x.toNat 0 12) = false → s.retRefusal x = some 3) ∧
    (s.mod.retOp ≠ 1 → exec .testComplete s = .next s) ∧
    (s.mod.retOp = 1 → ∃ t, exec .testComplete s = .next t ∧ t.mod.retOp = 0 ∧ bit t.mod.retstat.toNat 0 = false) ∧
    (s.mod.retOp ≠ 2 → exec .retireComplete s = .next s) ∧
    (s.mod.retOp = 2 → ∃ t, exec .retireComplete s = .next t ∧ t.mod.retOp = 0 ∧ bit t.mod.retstat.toNat 0 = false ∧
      t.mod.placegen = (s.mod.placegen + 1) % 2 ^ 32 ∧ t.mod.mapgen = (s.mod.mapgen + 1) % 2 ^ 32) ∧
    (∀ cl n, s.bankOfAddr s.inp.addr.toNat = some (cl, n) → s.mod.scrubctl ≠ 0 → ((s.cluster cl).bank n).state < 2 →
      (s.inp.idx = 0 → exec .patrolScrub s = .next (s.touchBank cl n)) ∧
      (s.inp.idx = 1 → exec .patrolScrub s = .next ((s.touchBank cl n).eccLog false s.inp.addr.toNat)) ∧
      (s.inp.idx = 2 → ∃ t, exec .patrolScrub s = .next t ∧ t.mod.eccu = min 0xFFFF (s.mod.eccu + 1) ∧
        s.inp.addr.toNat / 8 ∈ t.mod.poison)) ∧
    (s.mod.scrubctl = 0 → exec .patrolScrub s = .next s) ∧
    (let c := s.inp.unit % 4096
      let b := s.inp.idx % 16
      let d := s.mod.defects
      let set := fun (d : Defects) => s.modMod fun m => { m with defects := d }
      (s.live c = false → exec .sliceRowRemap s = .next s) ∧
      (s.live c = true → 0 < SMap.getD d.spares (16 * c + b) 0 → exec .sliceRowRemap s =
        .next ((set { d with spares := SMap.set d.spares (16 * c + b) (SMap.getD d.spares (16 * c + b) 0 - 1) }).writeEntry c)) ∧
      (s.live c = true → SMap.getD d.spares (16 * c + b) 0 = 0 → ∃ t, exec .sliceRowRemap s = .next t ∧ t.mod.replaceReq = true ∧
        SMap.getD t.mod.defects.usable c 480 = min v.toNat (min 479 (SMap.getD d.usable c 480 - 1)))) ∧
    (rootAt s 6 → blockReg 7 0 s.inp.addr.toNat = true → bits s.inp.addr.toNat 28 12 = 0 → let u := s.modMod fun m => { m with dbgctl := v &&& 4#64 }
      (bit v.toNat 0 = true → bit v.toNat 1 = false → acks .dbgctlHaltall s (u.waferHalt 2)) ∧
      (bit v.toNat 1 = true → bit v.toNat 0 = false →
        (u.dbgDone = false → acks .dbgctlResumeall s u) ∧
        (u.dbgDone = true → ∃ t, acks .dbgctlResumeall s t ∧ t.mod.dbgstat = 0))) ∧
    exec .testPortHalt s = .next (s.waferHalt 3) ∧
    (∀ code, bit s.mod.dbgstat.toNat 0 = false → let t := s.waferHalt code
      t.mod.dbgstat = BitVec.ofNat 64 (code * 256 + 1) ∧ t.mem = s.mem ∧
        ∀ p, (s.part p).en = true → p ∈ s.parts.map (·.1) → (t.part p).halted = true) ∧
    exec .illegalEncoding s = .next (s.precise 0x01 []) ∧
    exec .instructionFetchFault s = .next (s.precise s.inp.idx s.inp.data)

namespace Sys2Proof.Claims

/-- Words and the instructions they stand for, from the spec's own worked encodings (05, 06, 07, 08, 11, 16, 21, 22). -/
def workedWords : List (IWord × Instr) :=
  [(0x04A63B00#32, .add 5 6 7 3), (0x61240449#32, .ld 9 4 4 .b4 .cluster true), (0x2080FFFE#32, .li 4 0xFFFE),
   (0x417FFFFD#32, .br 2 true 0x3FFFFD), (0xC0432003#32, .vopFma 2 3 4 0 .f32), (0xFC101803#32, .mrd 0x010 3),
   (0x24807F4A#32, .lis 4 0x7F4A), (0xFC00010A#32, .seed 4)] ++
  [(0x50060003#32, .loop 6 3), (0x2C250015#32, .setpiEq 1 5 21), (0x58000100#32, .lbrk 1), (0x4CE80003#32, .jtab 7 8 3),
   (0x5C000000#32, .fork 0), (0x5C001002#32, .pick 2 0), (0x6422016E#32, .st 1 2 1 .b8 .partition true),
   (0x70A63BC0#32, .amoAadd 5 6 7 .partition true true)] ++
  [(0x71245409#32, .amoAcas 9 4 10 .wafer false false), (0x74001800#32, .fence .partition 0), (0x78642801#32, .barr 3 4 5 0),
   (0x80480A00#32, .collAllred 1 2 5 .sum .f32), (0x892A0003#32, .cntsnap 9 10 0), (0xA0000A02#32, .start 5),
   (0xA4484E02#32, .strm 1 2 1 7), (0xAC8C0C10#32, .tstep 2 3 6 16)] ++
  [(0xA9404604#32, .slwaitRoom 5 3), (0xB0060001#32, .wdec 6 0), (0xC4620008#32, .vcvt 3 2 0 .f32 .i32), (0xCC210000#32, .vbcast 1 1 0)]

/-- Words that decode to no instruction (05, 07). -/
def illegalWords : List IWord :=
  [0x00000000#32, 0x0400001C#32, 0x612404E9#32, 0x40400005#32, 0xC04320E3#32, 0x6422016F#32, 0x64220162#32, 0x70A63FC0#32,
   0x70A63B4A#32, 0x74003800#32]

end Sys2Proof.Claims

/-! ## Words -/

/-- The spec's own worked words decode to the instructions that it gives for them, and those it names as no instruction to none
(05 R119 to R121). -/
def Obligations.WorkedWordsDecode : Prop :=
  (workedWords.all fun e => decide (decode e.1 = .ok e.2)) = true ∧ (illegalWords.all fun w => match decode w with | .ok _ => false | .error _ => true) = true

/-- The word of every well-formed instruction decodes to that instruction, with every operand at every value that its encoding
admits; and what decodes is well formed (05 R119 to R121, R125, R126). -/
def Obligations.EveryEncodedInstructionDecodesBack : Prop :=
  (∀ (i : Instr) (w : IWord), encode i = some w → i.wellFormed = true → decode w = .ok i) ∧
  (∀ (i : Instr) (w : IWord), decode w = .ok i → i.wellFormed = true)

/-! ## Steps -/

/-- A step of the machine, when no event takes place by itself: with an empty agenda the current sequencer issues the instruction that its
fetched word decodes to, and the step is that instruction's; a word that decodes to nothing raises ILLEGAL, a fetch that fails its cause, one
that waits waits; a sequencer that cannot issue lets a tick pass. With an item on the agenda, its ticks pass and its action is the step. A
step of a sequencer or an event takes its places in the order of the tick, and one that is out of turn does nothing; an event that takes place
by itself comes first. What a step leaves to settle follows it (05 R110, R118, R119, R124; 06 R143; logs 1, 10, 58 and 61). -/
def Obligations.StepRunsTheDecodedInstruction : Prop :=
  ∀ (s t : State) (w : IWord) (i : Instr) (k n c a : Nat) (b : Bool) (act : Action) (d : List Nat) (inp : Inp) (rest : List Item) (x : Wait),
    let u := { s with agenda := rest }
    let v := { u with cur := k }
    let l := s.issuePlaces s.cur i
    let m := v.issuePlaces k i
    let e := u.eventPlaces i inp
    (SMap.get? s.me.icache s.me.pc.toNat = some w → s.fetch = .ok (s, w)) ∧
    settled (.next t) = .next t.settle.endSweep.unforce ∧
    (∀ z, s.forced = some z → step s = settled (exec z.1 { s.noted (s.eventPlaces z.1 z.2) with inp := z.2 })) ∧
    (s.forced = none →
      (s.agenda = [] →
        (s.issues s.cur = true →
          (s.fetch = .ok (t, w) → decode w = .ok i →
            (s.allows l = true → step s = settled (exec i (t.noted l))) ∧
            (s.allows l = false → step s = settled (.next (s.noteTurn (.seqr s.cur) 0)))) ∧
          (s.fetch = .ok (t, w) → (∀ i, decode w ≠ .ok i) → i = .illegalEncoding → s.allows l = true →
            step s = settled (.next ((t.noted l).precise 0x01 []))) ∧
          (s.fetch = .error (.fault c d) → i = .instructionFetchFault → s.allows l = true →
            step s = settled (.next (({ s with inp := { idx := c, data := d } }.noted l).precise c d))) ∧
          (s.fetch = .error (.wait x) → step s = settled (.next ((s.startWait s.cur x).noteTurn (.seqr s.cur) 0))) ∧
          (s.fetch = .error (.held t x) → step s = settled (.next ((t.startWait s.cur x).noteTurn (.seqr s.cur) 0)))) ∧
        (s.issues s.cur = false → step s = settled (.next s.tick))) ∧
      (s.agenda = ⟨0, .issue k⟩ :: rest →
        (u.issues k = true → v.fetch = .ok (t, w) → decode w = .ok i →
          (v.allows m = true → step s = settled (exec i (t.noted m))) ∧
          (v.allows m = false → step s = settled (.next (v.noteTurn (.seqr k) 0)))) ∧
        (u.issues k = false → step s = settled (.next u))) ∧
      (s.agenda = ⟨0, .event i inp⟩ :: rest →
        (encode i = none → i ≠ .illegalEncoding → i ≠ .instructionFetchFault →
          (u.allows e = true → step s = settled (exec i { u.noted e with inp })) ∧
          (u.allows e = false → step s = settled (.next u))) ∧
        (∀ y, encode i = some y → step s = settled (.next u))) ∧
      (s.agenda = ⟨0, .evict k a⟩ :: rest → step s = settled (.next (u.evictSector k a))) ∧
      (s.agenda = ⟨0, .evictI k a⟩ :: rest →
        step s = settled (.next (u.modHg k fun h => { h with icache := SMap.erase h.icache a }))) ∧
      (s.agenda = ⟨0, .evictL2 k a⟩ :: rest → step s = settled (.next (u.evictLine k a))) ∧
      (s.agenda = ⟨0, .pick n⟩ :: rest → step s = settled (.next { u with pick := n })) ∧
      (s.agenda = ⟨0, .ecc b a⟩ :: rest → step s = settled (.next (u.eccError b a))) ∧
      (s.agenda = ⟨n + 1, act⟩ :: rest → step s = settled (.next ({ s with agenda := ⟨n, act⟩ :: rest } : State).tick))) ∧
    let y : State := { s with wt := (s.wt + 1) % 2 ^ 64, turns := [] }
    s.tick = if y.wt % y.mod.window = 0 then y.modMod (fun m => { m with sync := m.syncNow }) else y

/-- The state right after reset: headgates in user mode, RMCs in system mode, with the register values that the spec gives, no loop,
no bank forked, nothing bound; the roles of a core's banks; nothing in any queue, task table, sluice or plot; no partition enabled, no
context, every launch record EMPTY; the module's counts; WT zero and no byte of memory listed. What the spec gives no value for
stands as log 6 says (05 R110 to R113; 01 R14; 02 R33, R39, R47; 17 R350; 18 R364; 23 R426, R429; 26 R452, R454). -/
def Obligations.ResetLeaves : Prop :=
  let s := State.reset
  s.mem = [] ∧ Memory.wf s.mem = true ∧ s.wt = 0 ∧
  (∀ k, let h := s.hg k
    h.sys = decide (16384 ≤ k) ∧ h.fmode = 0 ∧ h.amax = 0 ∧ h.nseen = false ∧ h.g = 0x9E3779B97F4A7C15#64 ∧ h.epc = 0 ∧ h.ecause = 0 ∧
    h.tvec = 0 ∧ h.escr = 0 ∧ h.loops = [] ∧ h.qb = false ∧ h.forked = false ∧ h.bound = none ∧ h.pev = 0 ∧ h.run = .idle) ∧
  (∀ c, (s.core c).role0 = 0x1111111111111111#64 ∧ (s.core c).role1 = 0x4444333322222222#64 ∧ (∀ q, (s.core c).queue q = []) ∧
    (s.core c).tskctl = 0 ∧ (∀ n, ((s.core c).sluice n).set = false) ∧ (s.core c).kmfifo = []) ∧
  (∀ p, (s.part p).en = false ∧ (s.part p).av = false ∧ (s.part p).halted = false ∧ (s.part p).plots = []) ∧
  (∀ c, (s.ctx c).state = 0) ∧ (∀ r, (s.launch r).state = 0) ∧
  s.mod.placegen = 0 ∧ s.mod.bootstat = 0 ∧ s.mod.dbgctl = 0 ∧ s.mod.dbgstat = 0 ∧ s.mod.enacc = [] ∧ s.mod.ensys = 0 ∧
  s.mod.thcfg = 0xD2BEAA#64

/-- Memory keeps its canonical form: every step that answers a next state leaves it so, whatever the state, the instruction and the
agenda's item (log 4). -/
def Obligations.StepKeepsMemoryCanonical : Prop :=
  ∀ s t : State, Memory.wf s.mem = true → step s = .next t → Memory.wf t.mem = true

/-- No step of the machine stops: every state takes a next one (log 2). -/
def Obligations.EveryStepAnswersANextState : Prop := ∀ s : State, ∃ t, step s = .next t
end

