-- ==== Sys2Proof/Laws/State.lean ====
section
/-! SUPPORT. What the accessors of the state give after each update: one lemma per field per update, all simp lemmas. -/

namespace Sys2Proof.Machine

/-! ## Sparse tables -/

theorem smap_get_set {α : Type} (m : SMap α) (i j : Nat) (v : α) :
    SMap.get? (SMap.set m i v) j = if j = i then some v else SMap.get? m j := by
  induction m with
  | nil => simp [SMap.set, SMap.get?, eq_comm]
  | cons e t ih =>
    obtain ⟨k, w⟩ := e
    simp only [SMap.set]
    (repeat' split) <;> simp only [SMap.get?, ih] <;> (repeat' split) <;> first | rfl | (exfalso; omega)

@[simp] theorem smap_getD_set {α : Type} (m : SMap α) (i j : Nat) (v d : α) :
    SMap.getD (SMap.set m i v) j d = if j = i then v else SMap.getD m j d := by
  unfold SMap.getD; rw [smap_get_set]; split <;> rfl

theorem vector_get_set {α : Type} {n : Nat} (v : Vector α n) (i j : Fin n) (x : α) :
    (v.set i x).get j = if j = i then x else v.get j := by
  show (v.set i x)[j.val] = if j = i then x else v[j.val]
  rw [Vector.getElem_set]
  simp only [Fin.ext_iff, eq_comm]

variable (s : State)

/-! ## hg -/

@[simp] theorem modHg_eq (k : Nat) (f : Hg → Hg) : s.modHg k f = s.setHg k (f (s.hg k)) := rfl
@[simp] theorem hg_setHg (k j : Nat) (x : Hg) : (s.setHg k x).hg j = if j = k then x else s.hg j := by
  simp [State.hg, State.setHg]
@[simp] theorem mem_setHg (k : Nat) (x : Hg) : (s.setHg k x).mem = s.mem := rfl
@[simp] theorem wt_setHg (k : Nat) (x : Hg) : (s.setHg k x).wt = s.wt := rfl
@[simp] theorem cur_setHg (k : Nat) (x : Hg) : (s.setHg k x).cur = s.cur := rfl
@[simp] theorem inp_setHg (k : Nat) (x : Hg) : (s.setHg k x).inp = s.inp := rfl
@[simp] theorem compl_setHg (k : Nat) (x : Hg) : (s.setHg k x).compl = s.compl := rfl
@[simp] theorem agenda_setHg (k : Nat) (x : Hg) : (s.setHg k x).agenda = s.agenda := rfl
@[simp] theorem fresh_setHg (k : Nat) (x : Hg) : (s.setHg k x).fresh = s.fresh := rfl
@[simp] theorem pick_setHg (k : Nat) (x : Hg) : (s.setHg k x).pick = s.pick := rfl
@[simp] theorem turns_setHg (k : Nat) (x : Hg) : (s.setHg k x).turns = s.turns := rfl
@[simp] theorem cores_setHg (k : Nat) (x : Hg) : (s.setHg k x).cores = s.cores := rfl
@[simp] theorem cells_setHg (k : Nat) (x : Hg) : (s.setHg k x).cells = s.cells := rfl
@[simp] theorem clusters_setHg (k : Nat) (x : Hg) : (s.setHg k x).clusters = s.clusters := rfl
@[simp] theorem reticles_setHg (k : Nat) (x : Hg) : (s.setHg k x).reticles = s.reticles := rfl
@[simp] theorem parts_setHg (k : Nat) (x : Hg) : (s.setHg k x).parts = s.parts := rfl
@[simp] theorem ctxs_setHg (k : Nat) (x : Hg) : (s.setHg k x).ctxs = s.ctxs := rfl
@[simp] theorem launches_setHg (k : Nat) (x : Hg) : (s.setHg k x).launches = s.launches := rfl
@[simp] theorem mod_setHg (k : Nat) (x : Hg) : (s.setHg k x).mod = s.mod := rfl
@[simp] theorem core_setHg (k j : Nat) (x : Hg) : (s.setHg k x).core j = s.core j := rfl
@[simp] theorem cell_setHg (k j : Nat) (x : Hg) : (s.setHg k x).cell j = s.cell j := rfl
@[simp] theorem cluster_setHg (k j : Nat) (x : Hg) : (s.setHg k x).cluster j = s.cluster j := rfl
@[simp] theorem reticle_setHg (k j : Nat) (x : Hg) : (s.setHg k x).reticle j = s.reticle j := rfl
@[simp] theorem part_setHg (k j : Nat) (x : Hg) : (s.setHg k x).part j = s.part j := rfl
@[simp] theorem ctx_setHg (k j : Nat) (x : Hg) : (s.setHg k x).ctx j = s.ctx j := rfl
@[simp] theorem launch_setHg (k j : Nat) (x : Hg) : (s.setHg k x).launch j = s.launch j := rfl

/-! ## core -/

@[simp] theorem modCore_eq (k : Nat) (f : Core → Core) : s.modCore k f = s.setCore k (f (s.core k)) := rfl
@[simp] theorem core_setCore (k j : Nat) (x : Core) : (s.setCore k x).core j = if j = k then x else s.core j := by
  simp [State.core, State.setCore]
@[simp] theorem mem_setCore (k : Nat) (x : Core) : (s.setCore k x).mem = s.mem := rfl
@[simp] theorem wt_setCore (k : Nat) (x : Core) : (s.setCore k x).wt = s.wt := rfl
@[simp] theorem cur_setCore (k : Nat) (x : Core) : (s.setCore k x).cur = s.cur := rfl
@[simp] theorem inp_setCore (k : Nat) (x : Core) : (s.setCore k x).inp = s.inp := rfl
@[simp] theorem compl_setCore (k : Nat) (x : Core) : (s.setCore k x).compl = s.compl := rfl
@[simp] theorem agenda_setCore (k : Nat) (x : Core) : (s.setCore k x).agenda = s.agenda := rfl
@[simp] theorem fresh_setCore (k : Nat) (x : Core) : (s.setCore k x).fresh = s.fresh := rfl
@[simp] theorem pick_setCore (k : Nat) (x : Core) : (s.setCore k x).pick = s.pick := rfl
@[simp] theorem turns_setCore (k : Nat) (x : Core) : (s.setCore k x).turns = s.turns := rfl
@[simp] theorem hgs_setCore (k : Nat) (x : Core) : (s.setCore k x).hgs = s.hgs := rfl
@[simp] theorem cells_setCore (k : Nat) (x : Core) : (s.setCore k x).cells = s.cells := rfl
@[simp] theorem clusters_setCore (k : Nat) (x : Core) : (s.setCore k x).clusters = s.clusters := rfl
@[simp] theorem reticles_setCore (k : Nat) (x : Core) : (s.setCore k x).reticles = s.reticles := rfl
@[simp] theorem parts_setCore (k : Nat) (x : Core) : (s.setCore k x).parts = s.parts := rfl
@[simp] theorem ctxs_setCore (k : Nat) (x : Core) : (s.setCore k x).ctxs = s.ctxs := rfl
@[simp] theorem launches_setCore (k : Nat) (x : Core) : (s.setCore k x).launches = s.launches := rfl
@[simp] theorem mod_setCore (k : Nat) (x : Core) : (s.setCore k x).mod = s.mod := rfl
@[simp] theorem hg_setCore (k j : Nat) (x : Core) : (s.setCore k x).hg j = s.hg j := rfl
@[simp] theorem cell_setCore (k j : Nat) (x : Core) : (s.setCore k x).cell j = s.cell j := rfl
@[simp] theorem cluster_setCore (k j : Nat) (x : Core) : (s.setCore k x).cluster j = s.cluster j := rfl
@[simp] theorem reticle_setCore (k j : Nat) (x : Core) : (s.setCore k x).reticle j = s.reticle j := rfl
@[simp] theorem part_setCore (k j : Nat) (x : Core) : (s.setCore k x).part j = s.part j := rfl
@[simp] theorem ctx_setCore (k j : Nat) (x : Core) : (s.setCore k x).ctx j = s.ctx j := rfl
@[simp] theorem launch_setCore (k j : Nat) (x : Core) : (s.setCore k x).launch j = s.launch j := rfl

/-! ## cell -/

@[simp] theorem modCell_eq (k : Nat) (f : Cell → Cell) : s.modCell k f = s.setCell k (f (s.cell k)) := rfl
@[simp] theorem cell_setCell (k j : Nat) (x : Cell) : (s.setCell k x).cell j = if j = k then x else s.cell j := by
  simp [State.cell, State.setCell]
@[simp] theorem mem_setCell (k : Nat) (x : Cell) : (s.setCell k x).mem = s.mem := rfl
@[simp] theorem wt_setCell (k : Nat) (x : Cell) : (s.setCell k x).wt = s.wt := rfl
@[simp] theorem cur_setCell (k : Nat) (x : Cell) : (s.setCell k x).cur = s.cur := rfl
@[simp] theorem inp_setCell (k : Nat) (x : Cell) : (s.setCell k x).inp = s.inp := rfl
@[simp] theorem compl_setCell (k : Nat) (x : Cell) : (s.setCell k x).compl = s.compl := rfl
@[simp] theorem agenda_setCell (k : Nat) (x : Cell) : (s.setCell k x).agenda = s.agenda := rfl
@[simp] theorem fresh_setCell (k : Nat) (x : Cell) : (s.setCell k x).fresh = s.fresh := rfl
@[simp] theorem pick_setCell (k : Nat) (x : Cell) : (s.setCell k x).pick = s.pick := rfl
@[simp] theorem turns_setCell (k : Nat) (x : Cell) : (s.setCell k x).turns = s.turns := rfl
@[simp] theorem hgs_setCell (k : Nat) (x : Cell) : (s.setCell k x).hgs = s.hgs := rfl
@[simp] theorem cores_setCell (k : Nat) (x : Cell) : (s.setCell k x).cores = s.cores := rfl
@[simp] theorem clusters_setCell (k : Nat) (x : Cell) : (s.setCell k x).clusters = s.clusters := rfl
@[simp] theorem reticles_setCell (k : Nat) (x : Cell) : (s.setCell k x).reticles = s.reticles := rfl
@[simp] theorem parts_setCell (k : Nat) (x : Cell) : (s.setCell k x).parts = s.parts := rfl
@[simp] theorem ctxs_setCell (k : Nat) (x : Cell) : (s.setCell k x).ctxs = s.ctxs := rfl
@[simp] theorem launches_setCell (k : Nat) (x : Cell) : (s.setCell k x).launches = s.launches := rfl
@[simp] theorem mod_setCell (k : Nat) (x : Cell) : (s.setCell k x).mod = s.mod := rfl
@[simp] theorem hg_setCell (k j : Nat) (x : Cell) : (s.setCell k x).hg j = s.hg j := rfl
@[simp] theorem core_setCell (k j : Nat) (x : Cell) : (s.setCell k x).core j = s.core j := rfl
@[simp] theorem cluster_setCell (k j : Nat) (x : Cell) : (s.setCell k x).cluster j = s.cluster j := rfl
@[simp] theorem reticle_setCell (k j : Nat) (x : Cell) : (s.setCell k x).reticle j = s.reticle j := rfl
@[simp] theorem part_setCell (k j : Nat) (x : Cell) : (s.setCell k x).part j = s.part j := rfl
@[simp] theorem ctx_setCell (k j : Nat) (x : Cell) : (s.setCell k x).ctx j = s.ctx j := rfl
@[simp] theorem launch_setCell (k j : Nat) (x : Cell) : (s.setCell k x).launch j = s.launch j := rfl

/-! ## cluster -/

@[simp] theorem modCluster_eq (k : Nat) (f : Cluster → Cluster) : s.modCluster k f = s.setCluster k (f (s.cluster k)) := rfl
@[simp] theorem cluster_setCluster (k j : Nat) (x : Cluster) : (s.setCluster k x).cluster j = if j = k then x else s.cluster j := by
  simp [State.cluster, State.setCluster]
@[simp] theorem mem_setCluster (k : Nat) (x : Cluster) : (s.setCluster k x).mem = s.mem := rfl
@[simp] theorem wt_setCluster (k : Nat) (x : Cluster) : (s.setCluster k x).wt = s.wt := rfl
@[simp] theorem cur_setCluster (k : Nat) (x : Cluster) : (s.setCluster k x).cur = s.cur := rfl
@[simp] theorem inp_setCluster (k : Nat) (x : Cluster) : (s.setCluster k x).inp = s.inp := rfl
@[simp] theorem compl_setCluster (k : Nat) (x : Cluster) : (s.setCluster k x).compl = s.compl := rfl
@[simp] theorem agenda_setCluster (k : Nat) (x : Cluster) : (s.setCluster k x).agenda = s.agenda := rfl
@[simp] theorem fresh_setCluster (k : Nat) (x : Cluster) : (s.setCluster k x).fresh = s.fresh := rfl
@[simp] theorem pick_setCluster (k : Nat) (x : Cluster) : (s.setCluster k x).pick = s.pick := rfl
@[simp] theorem turns_setCluster (k : Nat) (x : Cluster) : (s.setCluster k x).turns = s.turns := rfl
@[simp] theorem hgs_setCluster (k : Nat) (x : Cluster) : (s.setCluster k x).hgs = s.hgs := rfl
@[simp] theorem cores_setCluster (k : Nat) (x : Cluster) : (s.setCluster k x).cores = s.cores := rfl
@[simp] theorem cells_setCluster (k : Nat) (x : Cluster) : (s.setCluster k x).cells = s.cells := rfl
@[simp] theorem reticles_setCluster (k : Nat) (x : Cluster) : (s.setCluster k x).reticles = s.reticles := rfl
@[simp] theorem parts_setCluster (k : Nat) (x : Cluster) : (s.setCluster k x).parts = s.parts := rfl
@[simp] theorem ctxs_setCluster (k : Nat) (x : Cluster) : (s.setCluster k x).ctxs = s.ctxs := rfl
@[simp] theorem launches_setCluster (k : Nat) (x : Cluster) : (s.setCluster k x).launches = s.launches := rfl
@[simp] theorem mod_setCluster (k : Nat) (x : Cluster) : (s.setCluster k x).mod = s.mod := rfl
@[simp] theorem hg_setCluster (k j : Nat) (x : Cluster) : (s.setCluster k x).hg j = s.hg j := rfl
@[simp] theorem core_setCluster (k j : Nat) (x : Cluster) : (s.setCluster k x).core j = s.core j := rfl
@[simp] theorem cell_setCluster (k j : Nat) (x : Cluster) : (s.setCluster k x).cell j = s.cell j := rfl
@[simp] theorem reticle_setCluster (k j : Nat) (x : Cluster) : (s.setCluster k x).reticle j = s.reticle j := rfl
@[simp] theorem part_setCluster (k j : Nat) (x : Cluster) : (s.setCluster k x).part j = s.part j := rfl
@[simp] theorem ctx_setCluster (k j : Nat) (x : Cluster) : (s.setCluster k x).ctx j = s.ctx j := rfl
@[simp] theorem launch_setCluster (k j : Nat) (x : Cluster) : (s.setCluster k x).launch j = s.launch j := rfl

/-! ## reticle -/

@[simp] theorem modReticle_eq (k : Nat) (f : Reticle → Reticle) : s.modReticle k f = s.setReticle k (f (s.reticle k)) := rfl
@[simp] theorem reticle_setReticle (k j : Nat) (x : Reticle) : (s.setReticle k x).reticle j = if j = k then x else s.reticle j := by
  simp [State.reticle, State.setReticle]
@[simp] theorem mem_setReticle (k : Nat) (x : Reticle) : (s.setReticle k x).mem = s.mem := rfl
@[simp] theorem wt_setReticle (k : Nat) (x : Reticle) : (s.setReticle k x).wt = s.wt := rfl
@[simp] theorem cur_setReticle (k : Nat) (x : Reticle) : (s.setReticle k x).cur = s.cur := rfl
@[simp] theorem inp_setReticle (k : Nat) (x : Reticle) : (s.setReticle k x).inp = s.inp := rfl
@[simp] theorem compl_setReticle (k : Nat) (x : Reticle) : (s.setReticle k x).compl = s.compl := rfl
@[simp] theorem agenda_setReticle (k : Nat) (x : Reticle) : (s.setReticle k x).agenda = s.agenda := rfl
@[simp] theorem fresh_setReticle (k : Nat) (x : Reticle) : (s.setReticle k x).fresh = s.fresh := rfl
@[simp] theorem pick_setReticle (k : Nat) (x : Reticle) : (s.setReticle k x).pick = s.pick := rfl
@[simp] theorem turns_setReticle (k : Nat) (x : Reticle) : (s.setReticle k x).turns = s.turns := rfl
@[simp] theorem hgs_setReticle (k : Nat) (x : Reticle) : (s.setReticle k x).hgs = s.hgs := rfl
@[simp] theorem cores_setReticle (k : Nat) (x : Reticle) : (s.setReticle k x).cores = s.cores := rfl
@[simp] theorem cells_setReticle (k : Nat) (x : Reticle) : (s.setReticle k x).cells = s.cells := rfl
@[simp] theorem clusters_setReticle (k : Nat) (x : Reticle) : (s.setReticle k x).clusters = s.clusters := rfl
@[simp] theorem parts_setReticle (k : Nat) (x : Reticle) : (s.setReticle k x).parts = s.parts := rfl
@[simp] theorem ctxs_setReticle (k : Nat) (x : Reticle) : (s.setReticle k x).ctxs = s.ctxs := rfl
@[simp] theorem launches_setReticle (k : Nat) (x : Reticle) : (s.setReticle k x).launches = s.launches := rfl
@[simp] theorem mod_setReticle (k : Nat) (x : Reticle) : (s.setReticle k x).mod = s.mod := rfl
@[simp] theorem hg_setReticle (k j : Nat) (x : Reticle) : (s.setReticle k x).hg j = s.hg j := rfl
@[simp] theorem core_setReticle (k j : Nat) (x : Reticle) : (s.setReticle k x).core j = s.core j := rfl
@[simp] theorem cell_setReticle (k j : Nat) (x : Reticle) : (s.setReticle k x).cell j = s.cell j := rfl
@[simp] theorem cluster_setReticle (k j : Nat) (x : Reticle) : (s.setReticle k x).cluster j = s.cluster j := rfl
@[simp] theorem part_setReticle (k j : Nat) (x : Reticle) : (s.setReticle k x).part j = s.part j := rfl
@[simp] theorem ctx_setReticle (k j : Nat) (x : Reticle) : (s.setReticle k x).ctx j = s.ctx j := rfl
@[simp] theorem launch_setReticle (k j : Nat) (x : Reticle) : (s.setReticle k x).launch j = s.launch j := rfl

/-! ## part -/

@[simp] theorem modPart_eq (k : Nat) (f : Part → Part) : s.modPart k f = s.setPart k (f (s.part k)) := rfl
@[simp] theorem part_setPart (k j : Nat) (x : Part) : (s.setPart k x).part j = if j = k then x else s.part j := by
  simp [State.part, State.setPart]
@[simp] theorem mem_setPart (k : Nat) (x : Part) : (s.setPart k x).mem = s.mem := rfl
@[simp] theorem wt_setPart (k : Nat) (x : Part) : (s.setPart k x).wt = s.wt := rfl
@[simp] theorem cur_setPart (k : Nat) (x : Part) : (s.setPart k x).cur = s.cur := rfl
@[simp] theorem inp_setPart (k : Nat) (x : Part) : (s.setPart k x).inp = s.inp := rfl
@[simp] theorem compl_setPart (k : Nat) (x : Part) : (s.setPart k x).compl = s.compl := rfl
@[simp] theorem agenda_setPart (k : Nat) (x : Part) : (s.setPart k x).agenda = s.agenda := rfl
@[simp] theorem fresh_setPart (k : Nat) (x : Part) : (s.setPart k x).fresh = s.fresh := rfl
@[simp] theorem pick_setPart (k : Nat) (x : Part) : (s.setPart k x).pick = s.pick := rfl
@[simp] theorem turns_setPart (k : Nat) (x : Part) : (s.setPart k x).turns = s.turns := rfl
@[simp] theorem hgs_setPart (k : Nat) (x : Part) : (s.setPart k x).hgs = s.hgs := rfl
@[simp] theorem cores_setPart (k : Nat) (x : Part) : (s.setPart k x).cores = s.cores := rfl
@[simp] theorem cells_setPart (k : Nat) (x : Part) : (s.setPart k x).cells = s.cells := rfl
@[simp] theorem clusters_setPart (k : Nat) (x : Part) : (s.setPart k x).clusters = s.clusters := rfl
@[simp] theorem reticles_setPart (k : Nat) (x : Part) : (s.setPart k x).reticles = s.reticles := rfl
@[simp] theorem ctxs_setPart (k : Nat) (x : Part) : (s.setPart k x).ctxs = s.ctxs := rfl
@[simp] theorem launches_setPart (k : Nat) (x : Part) : (s.setPart k x).launches = s.launches := rfl
@[simp] theorem mod_setPart (k : Nat) (x : Part) : (s.setPart k x).mod = s.mod := rfl
@[simp] theorem hg_setPart (k j : Nat) (x : Part) : (s.setPart k x).hg j = s.hg j := rfl
@[simp] theorem core_setPart (k j : Nat) (x : Part) : (s.setPart k x).core j = s.core j := rfl
@[simp] theorem cell_setPart (k j : Nat) (x : Part) : (s.setPart k x).cell j = s.cell j := rfl
@[simp] theorem cluster_setPart (k j : Nat) (x : Part) : (s.setPart k x).cluster j = s.cluster j := rfl
@[simp] theorem reticle_setPart (k j : Nat) (x : Part) : (s.setPart k x).reticle j = s.reticle j := rfl
@[simp] theorem ctx_setPart (k j : Nat) (x : Part) : (s.setPart k x).ctx j = s.ctx j := rfl
@[simp] theorem launch_setPart (k j : Nat) (x : Part) : (s.setPart k x).launch j = s.launch j := rfl

/-! ## ctx -/

@[simp] theorem modCtx_eq (k : Nat) (f : Ctx → Ctx) : s.modCtx k f = s.setCtx k (f (s.ctx k)) := rfl
@[simp] theorem ctx_setCtx (k j : Nat) (x : Ctx) : (s.setCtx k x).ctx j = if j = k then x else s.ctx j := by
  simp [State.ctx, State.setCtx]
@[simp] theorem mem_setCtx (k : Nat) (x : Ctx) : (s.setCtx k x).mem = s.mem := rfl
@[simp] theorem wt_setCtx (k : Nat) (x : Ctx) : (s.setCtx k x).wt = s.wt := rfl
@[simp] theorem cur_setCtx (k : Nat) (x : Ctx) : (s.setCtx k x).cur = s.cur := rfl
@[simp] theorem inp_setCtx (k : Nat) (x : Ctx) : (s.setCtx k x).inp = s.inp := rfl
@[simp] theorem compl_setCtx (k : Nat) (x : Ctx) : (s.setCtx k x).compl = s.compl := rfl
@[simp] theorem agenda_setCtx (k : Nat) (x : Ctx) : (s.setCtx k x).agenda = s.agenda := rfl
@[simp] theorem fresh_setCtx (k : Nat) (x : Ctx) : (s.setCtx k x).fresh = s.fresh := rfl
@[simp] theorem pick_setCtx (k : Nat) (x : Ctx) : (s.setCtx k x).pick = s.pick := rfl
@[simp] theorem turns_setCtx (k : Nat) (x : Ctx) : (s.setCtx k x).turns = s.turns := rfl
@[simp] theorem hgs_setCtx (k : Nat) (x : Ctx) : (s.setCtx k x).hgs = s.hgs := rfl
@[simp] theorem cores_setCtx (k : Nat) (x : Ctx) : (s.setCtx k x).cores = s.cores := rfl
@[simp] theorem cells_setCtx (k : Nat) (x : Ctx) : (s.setCtx k x).cells = s.cells := rfl
@[simp] theorem clusters_setCtx (k : Nat) (x : Ctx) : (s.setCtx k x).clusters = s.clusters := rfl
@[simp] theorem reticles_setCtx (k : Nat) (x : Ctx) : (s.setCtx k x).reticles = s.reticles := rfl
@[simp] theorem parts_setCtx (k : Nat) (x : Ctx) : (s.setCtx k x).parts = s.parts := rfl
@[simp] theorem launches_setCtx (k : Nat) (x : Ctx) : (s.setCtx k x).launches = s.launches := rfl
@[simp] theorem mod_setCtx (k : Nat) (x : Ctx) : (s.setCtx k x).mod = s.mod := rfl
@[simp] theorem hg_setCtx (k j : Nat) (x : Ctx) : (s.setCtx k x).hg j = s.hg j := rfl
@[simp] theorem core_setCtx (k j : Nat) (x : Ctx) : (s.setCtx k x).core j = s.core j := rfl
@[simp] theorem cell_setCtx (k j : Nat) (x : Ctx) : (s.setCtx k x).cell j = s.cell j := rfl
@[simp] theorem cluster_setCtx (k j : Nat) (x : Ctx) : (s.setCtx k x).cluster j = s.cluster j := rfl
@[simp] theorem reticle_setCtx (k j : Nat) (x : Ctx) : (s.setCtx k x).reticle j = s.reticle j := rfl
@[simp] theorem part_setCtx (k j : Nat) (x : Ctx) : (s.setCtx k x).part j = s.part j := rfl
@[simp] theorem launch_setCtx (k j : Nat) (x : Ctx) : (s.setCtx k x).launch j = s.launch j := rfl

/-! ## launch -/

@[simp] theorem modLaunch_eq (k : Nat) (f : Launch → Launch) : s.modLaunch k f = s.setLaunch k (f (s.launch k)) := rfl
@[simp] theorem launch_setLaunch (k j : Nat) (x : Launch) : (s.setLaunch k x).launch j = if j = k then x else s.launch j := by
  simp [State.launch, State.setLaunch]
@[simp] theorem mem_setLaunch (k : Nat) (x : Launch) : (s.setLaunch k x).mem = s.mem := rfl
@[simp] theorem wt_setLaunch (k : Nat) (x : Launch) : (s.setLaunch k x).wt = s.wt := rfl
@[simp] theorem cur_setLaunch (k : Nat) (x : Launch) : (s.setLaunch k x).cur = s.cur := rfl
@[simp] theorem inp_setLaunch (k : Nat) (x : Launch) : (s.setLaunch k x).inp = s.inp := rfl
@[simp] theorem compl_setLaunch (k : Nat) (x : Launch) : (s.setLaunch k x).compl = s.compl := rfl
@[simp] theorem agenda_setLaunch (k : Nat) (x : Launch) : (s.setLaunch k x).agenda = s.agenda := rfl
@[simp] theorem fresh_setLaunch (k : Nat) (x : Launch) : (s.setLaunch k x).fresh = s.fresh := rfl
@[simp] theorem pick_setLaunch (k : Nat) (x : Launch) : (s.setLaunch k x).pick = s.pick := rfl
@[simp] theorem turns_setLaunch (k : Nat) (x : Launch) : (s.setLaunch k x).turns = s.turns := rfl
@[simp] theorem hgs_setLaunch (k : Nat) (x : Launch) : (s.setLaunch k x).hgs = s.hgs := rfl
@[simp] theorem cores_setLaunch (k : Nat) (x : Launch) : (s.setLaunch k x).cores = s.cores := rfl
@[simp] theorem cells_setLaunch (k : Nat) (x : Launch) : (s.setLaunch k x).cells = s.cells := rfl
@[simp] theorem clusters_setLaunch (k : Nat) (x : Launch) : (s.setLaunch k x).clusters = s.clusters := rfl
@[simp] theorem reticles_setLaunch (k : Nat) (x : Launch) : (s.setLaunch k x).reticles = s.reticles := rfl
@[simp] theorem parts_setLaunch (k : Nat) (x : Launch) : (s.setLaunch k x).parts = s.parts := rfl
@[simp] theorem ctxs_setLaunch (k : Nat) (x : Launch) : (s.setLaunch k x).ctxs = s.ctxs := rfl
@[simp] theorem mod_setLaunch (k : Nat) (x : Launch) : (s.setLaunch k x).mod = s.mod := rfl
@[simp] theorem hg_setLaunch (k j : Nat) (x : Launch) : (s.setLaunch k x).hg j = s.hg j := rfl
@[simp] theorem core_setLaunch (k j : Nat) (x : Launch) : (s.setLaunch k x).core j = s.core j := rfl
@[simp] theorem cell_setLaunch (k j : Nat) (x : Launch) : (s.setLaunch k x).cell j = s.cell j := rfl
@[simp] theorem cluster_setLaunch (k j : Nat) (x : Launch) : (s.setLaunch k x).cluster j = s.cluster j := rfl
@[simp] theorem reticle_setLaunch (k j : Nat) (x : Launch) : (s.setLaunch k x).reticle j = s.reticle j := rfl
@[simp] theorem part_setLaunch (k j : Nat) (x : Launch) : (s.setLaunch k x).part j = s.part j := rfl
@[simp] theorem ctx_setLaunch (k j : Nat) (x : Launch) : (s.setLaunch k x).ctx j = s.ctx j := rfl

/-! ## The module's own registers -/

@[simp] theorem mod_modMod (f : Module → Module) : (s.modMod f).mod = f s.mod := rfl
@[simp] theorem mem_modMod (f : Module → Module) : (s.modMod f).mem = s.mem := rfl
@[simp] theorem wt_modMod (f : Module → Module) : (s.modMod f).wt = s.wt := rfl
@[simp] theorem cur_modMod (f : Module → Module) : (s.modMod f).cur = s.cur := rfl
@[simp] theorem inp_modMod (f : Module → Module) : (s.modMod f).inp = s.inp := rfl
@[simp] theorem compl_modMod (f : Module → Module) : (s.modMod f).compl = s.compl := rfl
@[simp] theorem agenda_modMod (f : Module → Module) : (s.modMod f).agenda = s.agenda := rfl
@[simp] theorem fresh_modMod (f : Module → Module) : (s.modMod f).fresh = s.fresh := rfl
@[simp] theorem pick_modMod (f : Module → Module) : (s.modMod f).pick = s.pick := rfl
@[simp] theorem turns_modMod (f : Module → Module) : (s.modMod f).turns = s.turns := rfl
@[simp] theorem hgs_modMod (f : Module → Module) : (s.modMod f).hgs = s.hgs := rfl
@[simp] theorem cores_modMod (f : Module → Module) : (s.modMod f).cores = s.cores := rfl
@[simp] theorem cells_modMod (f : Module → Module) : (s.modMod f).cells = s.cells := rfl
@[simp] theorem clusters_modMod (f : Module → Module) : (s.modMod f).clusters = s.clusters := rfl
@[simp] theorem reticles_modMod (f : Module → Module) : (s.modMod f).reticles = s.reticles := rfl
@[simp] theorem parts_modMod (f : Module → Module) : (s.modMod f).parts = s.parts := rfl
@[simp] theorem ctxs_modMod (f : Module → Module) : (s.modMod f).ctxs = s.ctxs := rfl
@[simp] theorem launches_modMod (f : Module → Module) : (s.modMod f).launches = s.launches := rfl
@[simp] theorem hg_modMod (f : Module → Module) (j : Nat) : (s.modMod f).hg j = s.hg j := rfl
@[simp] theorem core_modMod (f : Module → Module) (j : Nat) : (s.modMod f).core j = s.core j := rfl
@[simp] theorem cell_modMod (f : Module → Module) (j : Nat) : (s.modMod f).cell j = s.cell j := rfl
@[simp] theorem cluster_modMod (f : Module → Module) (j : Nat) : (s.modMod f).cluster j = s.cluster j := rfl
@[simp] theorem reticle_modMod (f : Module → Module) (j : Nat) : (s.modMod f).reticle j = s.reticle j := rfl
@[simp] theorem part_modMod (f : Module → Module) (j : Nat) : (s.modMod f).part j = s.part j := rfl
@[simp] theorem ctx_modMod (f : Module → Module) (j : Nat) : (s.modMod f).ctx j = s.ctx j := rfl
@[simp] theorem launch_modMod (f : Module → Module) (j : Nat) : (s.modMod f).launch j = s.launch j := rfl

/-! ## The issuing sequencer -/

@[simp] theorem me_setMe (h : Hg) : (s.setMe h).me = h := by simp [State.me, State.setMe]
@[simp] theorem modMe_eq (f : Hg → Hg) : s.modMe f = s.setMe (f s.me) := rfl
theorem hg_setMe (h : Hg) (j : Nat) : (s.setMe h).hg j = if j = s.cur then h else s.hg j := by simp [State.setMe]
@[simp] theorem me_setS (r : SReg) (x : Word) : (s.setS r x).me = s.me.setS r x := by simp [State.setS]
@[simp] theorem me_setP (r : PReg) (x : Bool) : (s.setP r x).me = s.me.setP r x := by simp [State.setP]
@[simp] theorem me_setV (r : VReg) (x : VWord) : (s.setV r x).me = s.me.setV r x := by simp [State.setV]
@[simp] theorem me_setPc (x : Word) : (s.setPc x).me = { s.me with pc := x } := by simp [State.setPc]
@[simp] theorem me_retire : s.retire.me = s.me.retire := by simp [State.retire]
@[simp] theorem mem_setMe (h : Hg) : (s.setMe h).mem = s.mem := rfl
@[simp] theorem wt_setMe (h : Hg) : (s.setMe h).wt = s.wt := rfl
@[simp] theorem cur_setMe (h : Hg) : (s.setMe h).cur = s.cur := rfl
@[simp] theorem inp_setMe (h : Hg) : (s.setMe h).inp = s.inp := rfl
@[simp] theorem compl_setMe (h : Hg) : (s.setMe h).compl = s.compl := rfl
@[simp] theorem agenda_setMe (h : Hg) : (s.setMe h).agenda = s.agenda := rfl
@[simp] theorem fresh_setMe (h : Hg) : (s.setMe h).fresh = s.fresh := rfl
@[simp] theorem pick_setMe (h : Hg) : (s.setMe h).pick = s.pick := rfl
@[simp] theorem turns_setMe (h : Hg) : (s.setMe h).turns = s.turns := rfl
@[simp] theorem cores_setMe (h : Hg) : (s.setMe h).cores = s.cores := rfl
@[simp] theorem cells_setMe (h : Hg) : (s.setMe h).cells = s.cells := rfl
@[simp] theorem clusters_setMe (h : Hg) : (s.setMe h).clusters = s.clusters := rfl
@[simp] theorem reticles_setMe (h : Hg) : (s.setMe h).reticles = s.reticles := rfl
@[simp] theorem parts_setMe (h : Hg) : (s.setMe h).parts = s.parts := rfl
@[simp] theorem ctxs_setMe (h : Hg) : (s.setMe h).ctxs = s.ctxs := rfl
@[simp] theorem launches_setMe (h : Hg) : (s.setMe h).launches = s.launches := rfl
@[simp] theorem mod_setMe (h : Hg) : (s.setMe h).mod = s.mod := rfl
@[simp] theorem core_setMe (h : Hg) (j : Nat) : (s.setMe h).core j = s.core j := rfl
@[simp] theorem cell_setMe (h : Hg) (j : Nat) : (s.setMe h).cell j = s.cell j := rfl
@[simp] theorem cluster_setMe (h : Hg) (j : Nat) : (s.setMe h).cluster j = s.cluster j := rfl
@[simp] theorem reticle_setMe (h : Hg) (j : Nat) : (s.setMe h).reticle j = s.reticle j := rfl
@[simp] theorem part_setMe (h : Hg) (j : Nat) : (s.setMe h).part j = s.part j := rfl
@[simp] theorem ctx_setMe (h : Hg) (j : Nat) : (s.setMe h).ctx j = s.ctx j := rfl
@[simp] theorem launch_setMe (h : Hg) (j : Nat) : (s.setMe h).launch j = s.launch j := rfl
@[simp] theorem mem_setS (r : SReg) (x : Word) : (s.setS r x).mem = s.mem := rfl
@[simp] theorem wt_setS (r : SReg) (x : Word) : (s.setS r x).wt = s.wt := rfl
@[simp] theorem cur_setS (r : SReg) (x : Word) : (s.setS r x).cur = s.cur := rfl
@[simp] theorem inp_setS (r : SReg) (x : Word) : (s.setS r x).inp = s.inp := rfl
@[simp] theorem compl_setS (r : SReg) (x : Word) : (s.setS r x).compl = s.compl := rfl
@[simp] theorem agenda_setS (r : SReg) (x : Word) : (s.setS r x).agenda = s.agenda := rfl
@[simp] theorem fresh_setS (r : SReg) (x : Word) : (s.setS r x).fresh = s.fresh := rfl
@[simp] theorem pick_setS (r : SReg) (x : Word) : (s.setS r x).pick = s.pick := rfl
@[simp] theorem turns_setS (r : SReg) (x : Word) : (s.setS r x).turns = s.turns := rfl
@[simp] theorem cores_setS (r : SReg) (x : Word) : (s.setS r x).cores = s.cores := rfl
@[simp] theorem cells_setS (r : SReg) (x : Word) : (s.setS r x).cells = s.cells := rfl
@[simp] theorem clusters_setS (r : SReg) (x : Word) : (s.setS r x).clusters = s.clusters := rfl
@[simp] theorem reticles_setS (r : SReg) (x : Word) : (s.setS r x).reticles = s.reticles := rfl
@[simp] theorem parts_setS (r : SReg) (x : Word) : (s.setS r x).parts = s.parts := rfl
@[simp] theorem ctxs_setS (r : SReg) (x : Word) : (s.setS r x).ctxs = s.ctxs := rfl
@[simp] theorem launches_setS (r : SReg) (x : Word) : (s.setS r x).launches = s.launches := rfl
@[simp] theorem mod_setS (r : SReg) (x : Word) : (s.setS r x).mod = s.mod := rfl
@[simp] theorem core_setS (r : SReg) (x : Word) (j : Nat) : (s.setS r x).core j = s.core j := rfl
@[simp] theorem cell_setS (r : SReg) (x : Word) (j : Nat) : (s.setS r x).cell j = s.cell j := rfl
@[simp] theorem cluster_setS (r : SReg) (x : Word) (j : Nat) : (s.setS r x).cluster j = s.cluster j := rfl
@[simp] theorem reticle_setS (r : SReg) (x : Word) (j : Nat) : (s.setS r x).reticle j = s.reticle j := rfl
@[simp] theorem part_setS (r : SReg) (x : Word) (j : Nat) : (s.setS r x).part j = s.part j := rfl
@[simp] theorem ctx_setS (r : SReg) (x : Word) (j : Nat) : (s.setS r x).ctx j = s.ctx j := rfl
@[simp] theorem launch_setS (r : SReg) (x : Word) (j : Nat) : (s.setS r x).launch j = s.launch j := rfl
@[simp] theorem mem_setP (r : PReg) (x : Bool) : (s.setP r x).mem = s.mem := rfl
@[simp] theorem wt_setP (r : PReg) (x : Bool) : (s.setP r x).wt = s.wt := rfl
@[simp] theorem cur_setP (r : PReg) (x : Bool) : (s.setP r x).cur = s.cur := rfl
@[simp] theorem inp_setP (r : PReg) (x : Bool) : (s.setP r x).inp = s.inp := rfl
@[simp] theorem compl_setP (r : PReg) (x : Bool) : (s.setP r x).compl = s.compl := rfl
@[simp] theorem agenda_setP (r : PReg) (x : Bool) : (s.setP r x).agenda = s.agenda := rfl
@[simp] theorem fresh_setP (r : PReg) (x : Bool) : (s.setP r x).fresh = s.fresh := rfl
@[simp] theorem pick_setP (r : PReg) (x : Bool) : (s.setP r x).pick = s.pick := rfl
@[simp] theorem turns_setP (r : PReg) (x : Bool) : (s.setP r x).turns = s.turns := rfl
@[simp] theorem cores_setP (r : PReg) (x : Bool) : (s.setP r x).cores = s.cores := rfl
@[simp] theorem cells_setP (r : PReg) (x : Bool) : (s.setP r x).cells = s.cells := rfl
@[simp] theorem clusters_setP (r : PReg) (x : Bool) : (s.setP r x).clusters = s.clusters := rfl
@[simp] theorem reticles_setP (r : PReg) (x : Bool) : (s.setP r x).reticles = s.reticles := rfl
@[simp] theorem parts_setP (r : PReg) (x : Bool) : (s.setP r x).parts = s.parts := rfl
@[simp] theorem ctxs_setP (r : PReg) (x : Bool) : (s.setP r x).ctxs = s.ctxs := rfl
@[simp] theorem launches_setP (r : PReg) (x : Bool) : (s.setP r x).launches = s.launches := rfl
@[simp] theorem mod_setP (r : PReg) (x : Bool) : (s.setP r x).mod = s.mod := rfl
@[simp] theorem core_setP (r : PReg) (x : Bool) (j : Nat) : (s.setP r x).core j = s.core j := rfl
@[simp] theorem cell_setP (r : PReg) (x : Bool) (j : Nat) : (s.setP r x).cell j = s.cell j := rfl
@[simp] theorem cluster_setP (r : PReg) (x : Bool) (j : Nat) : (s.setP r x).cluster j = s.cluster j := rfl
@[simp] theorem reticle_setP (r : PReg) (x : Bool) (j : Nat) : (s.setP r x).reticle j = s.reticle j := rfl
@[simp] theorem part_setP (r : PReg) (x : Bool) (j : Nat) : (s.setP r x).part j = s.part j := rfl
@[simp] theorem ctx_setP (r : PReg) (x : Bool) (j : Nat) : (s.setP r x).ctx j = s.ctx j := rfl
@[simp] theorem launch_setP (r : PReg) (x : Bool) (j : Nat) : (s.setP r x).launch j = s.launch j := rfl
@[simp] theorem mem_setV (r : VReg) (x : VWord) : (s.setV r x).mem = s.mem := rfl
@[simp] theorem wt_setV (r : VReg) (x : VWord) : (s.setV r x).wt = s.wt := rfl
@[simp] theorem cur_setV (r : VReg) (x : VWord) : (s.setV r x).cur = s.cur := rfl
@[simp] theorem inp_setV (r : VReg) (x : VWord) : (s.setV r x).inp = s.inp := rfl
@[simp] theorem compl_setV (r : VReg) (x : VWord) : (s.setV r x).compl = s.compl := rfl
@[simp] theorem agenda_setV (r : VReg) (x : VWord) : (s.setV r x).agenda = s.agenda := rfl
@[simp] theorem fresh_setV (r : VReg) (x : VWord) : (s.setV r x).fresh = s.fresh := rfl
@[simp] theorem pick_setV (r : VReg) (x : VWord) : (s.setV r x).pick = s.pick := rfl
@[simp] theorem turns_setV (r : VReg) (x : VWord) : (s.setV r x).turns = s.turns := rfl
@[simp] theorem cores_setV (r : VReg) (x : VWord) : (s.setV r x).cores = s.cores := rfl
@[simp] theorem cells_setV (r : VReg) (x : VWord) : (s.setV r x).cells = s.cells := rfl
@[simp] theorem clusters_setV (r : VReg) (x : VWord) : (s.setV r x).clusters = s.clusters := rfl
@[simp] theorem reticles_setV (r : VReg) (x : VWord) : (s.setV r x).reticles = s.reticles := rfl
@[simp] theorem parts_setV (r : VReg) (x : VWord) : (s.setV r x).parts = s.parts := rfl
@[simp] theorem ctxs_setV (r : VReg) (x : VWord) : (s.setV r x).ctxs = s.ctxs := rfl
@[simp] theorem launches_setV (r : VReg) (x : VWord) : (s.setV r x).launches = s.launches := rfl
@[simp] theorem mod_setV (r : VReg) (x : VWord) : (s.setV r x).mod = s.mod := rfl
@[simp] theorem core_setV (r : VReg) (x : VWord) (j : Nat) : (s.setV r x).core j = s.core j := rfl
@[simp] theorem cell_setV (r : VReg) (x : VWord) (j : Nat) : (s.setV r x).cell j = s.cell j := rfl
@[simp] theorem cluster_setV (r : VReg) (x : VWord) (j : Nat) : (s.setV r x).cluster j = s.cluster j := rfl
@[simp] theorem reticle_setV (r : VReg) (x : VWord) (j : Nat) : (s.setV r x).reticle j = s.reticle j := rfl
@[simp] theorem part_setV (r : VReg) (x : VWord) (j : Nat) : (s.setV r x).part j = s.part j := rfl
@[simp] theorem ctx_setV (r : VReg) (x : VWord) (j : Nat) : (s.setV r x).ctx j = s.ctx j := rfl
@[simp] theorem launch_setV (r : VReg) (x : VWord) (j : Nat) : (s.setV r x).launch j = s.launch j := rfl
@[simp] theorem mem_setPc (x : Word) : (s.setPc x).mem = s.mem := rfl
@[simp] theorem wt_setPc (x : Word) : (s.setPc x).wt = s.wt := rfl
@[simp] theorem cur_setPc (x : Word) : (s.setPc x).cur = s.cur := rfl
@[simp] theorem inp_setPc (x : Word) : (s.setPc x).inp = s.inp := rfl
@[simp] theorem compl_setPc (x : Word) : (s.setPc x).compl = s.compl := rfl
@[simp] theorem agenda_setPc (x : Word) : (s.setPc x).agenda = s.agenda := rfl
@[simp] theorem fresh_setPc (x : Word) : (s.setPc x).fresh = s.fresh := rfl
@[simp] theorem pick_setPc (x : Word) : (s.setPc x).pick = s.pick := rfl
@[simp] theorem turns_setPc (x : Word) : (s.setPc x).turns = s.turns := rfl
@[simp] theorem cores_setPc (x : Word) : (s.setPc x).cores = s.cores := rfl
@[simp] theorem cells_setPc (x : Word) : (s.setPc x).cells = s.cells := rfl
@[simp] theorem clusters_setPc (x : Word) : (s.setPc x).clusters = s.clusters := rfl
@[simp] theorem reticles_setPc (x : Word) : (s.setPc x).reticles = s.reticles := rfl
@[simp] theorem parts_setPc (x : Word) : (s.setPc x).parts = s.parts := rfl
@[simp] theorem ctxs_setPc (x : Word) : (s.setPc x).ctxs = s.ctxs := rfl
@[simp] theorem launches_setPc (x : Word) : (s.setPc x).launches = s.launches := rfl
@[simp] theorem mod_setPc (x : Word) : (s.setPc x).mod = s.mod := rfl
@[simp] theorem core_setPc (x : Word) (j : Nat) : (s.setPc x).core j = s.core j := rfl
@[simp] theorem cell_setPc (x : Word) (j : Nat) : (s.setPc x).cell j = s.cell j := rfl
@[simp] theorem cluster_setPc (x : Word) (j : Nat) : (s.setPc x).cluster j = s.cluster j := rfl
@[simp] theorem reticle_setPc (x : Word) (j : Nat) : (s.setPc x).reticle j = s.reticle j := rfl
@[simp] theorem part_setPc (x : Word) (j : Nat) : (s.setPc x).part j = s.part j := rfl
@[simp] theorem ctx_setPc (x : Word) (j : Nat) : (s.setPc x).ctx j = s.ctx j := rfl
@[simp] theorem launch_setPc (x : Word) (j : Nat) : (s.setPc x).launch j = s.launch j := rfl
@[simp] theorem mem_retire : s.retire.mem = s.mem := rfl
@[simp] theorem wt_retire : s.retire.wt = s.wt := rfl
@[simp] theorem cur_retire : s.retire.cur = s.cur := rfl
@[simp] theorem inp_retire : s.retire.inp = s.inp := rfl
@[simp] theorem compl_retire : s.retire.compl = s.compl := rfl
@[simp] theorem agenda_retire : s.retire.agenda = s.agenda := rfl
@[simp] theorem fresh_retire : s.retire.fresh = s.fresh := rfl
@[simp] theorem pick_retire : s.retire.pick = s.pick := rfl
@[simp] theorem turns_retire : s.retire.turns = s.turns := rfl
@[simp] theorem cores_retire : s.retire.cores = s.cores := rfl
@[simp] theorem cells_retire : s.retire.cells = s.cells := rfl
@[simp] theorem clusters_retire : s.retire.clusters = s.clusters := rfl
@[simp] theorem reticles_retire : s.retire.reticles = s.reticles := rfl
@[simp] theorem parts_retire : s.retire.parts = s.parts := rfl
@[simp] theorem ctxs_retire : s.retire.ctxs = s.ctxs := rfl
@[simp] theorem launches_retire : s.retire.launches = s.launches := rfl
@[simp] theorem mod_retire : s.retire.mod = s.mod := rfl
@[simp] theorem core_retire (j : Nat) : s.retire.core j = s.core j := rfl
@[simp] theorem cell_retire (j : Nat) : s.retire.cell j = s.cell j := rfl
@[simp] theorem cluster_retire (j : Nat) : s.retire.cluster j = s.cluster j := rfl
@[simp] theorem reticle_retire (j : Nat) : s.retire.reticle j = s.reticle j := rfl
@[simp] theorem part_retire (j : Nat) : s.retire.part j = s.part j := rfl
@[simp] theorem ctx_retire (j : Nat) : s.retire.ctx j = s.ctx j := rfl
@[simp] theorem launch_retire (j : Nat) : s.retire.launch j = s.launch j := rfl

/-! ## What has taken place in a tick -/

@[simp] theorem mem_noteTurn (t : Turn) (r : Nat) : (s.noteTurn t r).mem = s.mem := by unfold State.noteTurn; split <;> rfl
@[simp] theorem wt_noteTurn (t : Turn) (r : Nat) : (s.noteTurn t r).wt = s.wt := by unfold State.noteTurn; split <;> rfl
@[simp] theorem cur_noteTurn (t : Turn) (r : Nat) : (s.noteTurn t r).cur = s.cur := by unfold State.noteTurn; split <;> rfl
@[simp] theorem inp_noteTurn (t : Turn) (r : Nat) : (s.noteTurn t r).inp = s.inp := by unfold State.noteTurn; split <;> rfl
@[simp] theorem compl_noteTurn (t : Turn) (r : Nat) : (s.noteTurn t r).compl = s.compl := by unfold State.noteTurn; split <;> rfl
@[simp] theorem agenda_noteTurn (t : Turn) (r : Nat) : (s.noteTurn t r).agenda = s.agenda := by unfold State.noteTurn; split <;> rfl
@[simp] theorem fresh_noteTurn (t : Turn) (r : Nat) : (s.noteTurn t r).fresh = s.fresh := by unfold State.noteTurn; split <;> rfl
@[simp] theorem pick_noteTurn (t : Turn) (r : Nat) : (s.noteTurn t r).pick = s.pick := by unfold State.noteTurn; split <;> rfl
@[simp] theorem hgs_noteTurn (t : Turn) (r : Nat) : (s.noteTurn t r).hgs = s.hgs := by unfold State.noteTurn; split <;> rfl
@[simp] theorem cores_noteTurn (t : Turn) (r : Nat) : (s.noteTurn t r).cores = s.cores := by unfold State.noteTurn; split <;> rfl
@[simp] theorem cells_noteTurn (t : Turn) (r : Nat) : (s.noteTurn t r).cells = s.cells := by unfold State.noteTurn; split <;> rfl
@[simp] theorem clusters_noteTurn (t : Turn) (r : Nat) : (s.noteTurn t r).clusters = s.clusters := by unfold State.noteTurn; split <;> rfl
@[simp] theorem reticles_noteTurn (t : Turn) (r : Nat) : (s.noteTurn t r).reticles = s.reticles := by unfold State.noteTurn; split <;> rfl
@[simp] theorem parts_noteTurn (t : Turn) (r : Nat) : (s.noteTurn t r).parts = s.parts := by unfold State.noteTurn; split <;> rfl
@[simp] theorem ctxs_noteTurn (t : Turn) (r : Nat) : (s.noteTurn t r).ctxs = s.ctxs := by unfold State.noteTurn; split <;> rfl
@[simp] theorem launches_noteTurn (t : Turn) (r : Nat) : (s.noteTurn t r).launches = s.launches := by unfold State.noteTurn; split <;> rfl
@[simp] theorem mod_noteTurn (t : Turn) (r : Nat) : (s.noteTurn t r).mod = s.mod := by unfold State.noteTurn; split <;> rfl
@[simp] theorem hg_noteTurn (t : Turn) (r j : Nat) : (s.noteTurn t r).hg j = s.hg j := by unfold State.noteTurn; split <;> rfl
@[simp] theorem core_noteTurn (t : Turn) (r j : Nat) : (s.noteTurn t r).core j = s.core j := by unfold State.noteTurn; split <;> rfl
@[simp] theorem cell_noteTurn (t : Turn) (r j : Nat) : (s.noteTurn t r).cell j = s.cell j := by unfold State.noteTurn; split <;> rfl
@[simp] theorem cluster_noteTurn (t : Turn) (r j : Nat) : (s.noteTurn t r).cluster j = s.cluster j := by unfold State.noteTurn; split <;> rfl
@[simp] theorem reticle_noteTurn (t : Turn) (r j : Nat) : (s.noteTurn t r).reticle j = s.reticle j := by unfold State.noteTurn; split <;> rfl
@[simp] theorem part_noteTurn (t : Turn) (r j : Nat) : (s.noteTurn t r).part j = s.part j := by unfold State.noteTurn; split <;> rfl
@[simp] theorem ctx_noteTurn (t : Turn) (r j : Nat) : (s.noteTurn t r).ctx j = s.ctx j := by unfold State.noteTurn; split <;> rfl
@[simp] theorem launch_noteTurn (t : Turn) (r j : Nat) : (s.noteTurn t r).launch j = s.launch j := by unfold State.noteTurn; split <;> rfl
@[simp] theorem me_noteTurn (t : Turn) (r : Nat) : (s.noteTurn t r).me = s.me := by unfold State.noteTurn; split <;> rfl

/-! ## Registers of a headgate -/

variable (h : Hg)

@[simp] theorem getS_zero : h.getS 0 = 0 := rfl
@[simp] theorem getP_zero : h.getP 0 = true := rfl
@[simp] theorem state_getS_zero : s.getS 0 = 0 := rfl
@[simp] theorem state_getP_zero : s.getP 0 = true := rfl
@[simp] theorem setS_zero (x : Word) : h.setS 0 x = h := rfl
@[simp] theorem setP_zero (x : Bool) : h.setP 0 x = h := rfl
@[simp] theorem getS_setS (r q : SReg) (x : Word) : (h.setS r x).getS q = if q = r ∧ r ≠ 0 then x else h.getS q := by
  unfold Hg.setS Hg.getS
  by_cases hr : r = 0 <;> by_cases hq : q = 0 <;> by_cases he : q = r <;> simp_all [vector_get_set, eq_comm]
@[simp] theorem getP_setP (r q : PReg) (x : Bool) : (h.setP r x).getP q = if q = r ∧ r ≠ 0 then x else h.getP q := by
  unfold Hg.setP Hg.getP
  by_cases hr : r = 0 <;> by_cases hq : q = 0 <;> by_cases he : q = r <;> simp_all [vector_get_set, eq_comm]
@[simp] theorem getV_setV (r q : VReg) (x : VWord) : (h.setV r x).getV q = if q = r then x else h.getV q := by
  unfold Hg.setV Hg.getV
  exact vector_get_set h.v r q x
@[simp] theorem getS_setP (r : PReg) (x : Bool) (q : SReg) : (h.setP r x).getS q = h.getS q := by unfold Hg.setP; split <;> rfl
@[simp] theorem getS_setV (r : VReg) (x : VWord) (q : SReg) : (h.setV r x).getS q = h.getS q := rfl
@[simp] theorem getS_retire (q : SReg) : h.retire.getS q = h.getS q := rfl
@[simp] theorem getP_setS (r : SReg) (x : Word) (q : PReg) : (h.setS r x).getP q = h.getP q := by unfold Hg.setS; split <;> rfl
@[simp] theorem getP_setV (r : VReg) (x : VWord) (q : PReg) : (h.setV r x).getP q = h.getP q := rfl
@[simp] theorem getP_retire (q : PReg) : h.retire.getP q = h.getP q := rfl
@[simp] theorem getV_setS (r : SReg) (x : Word) (q : VReg) : (h.setS r x).getV q = h.getV q := by unfold Hg.setS; split <;> rfl
@[simp] theorem getV_setP (r : PReg) (x : Bool) (q : VReg) : (h.setP r x).getV q = h.getV q := by unfold Hg.setP; split <;> rfl
@[simp] theorem getV_retire (q : VReg) : h.retire.getV q = h.getV q := rfl
@[simp] theorem pc_hg_setS (r : SReg) (x : Word) : (h.setS r x).pc = h.pc := by unfold Hg.setS; split <;> rfl
@[simp] theorem pc_hg_setP (r : PReg) (x : Bool) : (h.setP r x).pc = h.pc := by unfold Hg.setP; split <;> rfl
@[simp] theorem pc_hg_setV (r : VReg) (x : VWord) : (h.setV r x).pc = h.pc := rfl
@[simp] theorem sys_hg_setS (r : SReg) (x : Word) : (h.setS r x).sys = h.sys := by unfold Hg.setS; split <;> rfl
@[simp] theorem sys_hg_setP (r : PReg) (x : Bool) : (h.setP r x).sys = h.sys := by unfold Hg.setP; split <;> rfl
@[simp] theorem sys_hg_setV (r : VReg) (x : VWord) : (h.setV r x).sys = h.sys := rfl
@[simp] theorem sys_hg_retire : h.retire.sys = h.sys := rfl
@[simp] theorem forked_hg_setS (r : SReg) (x : Word) : (h.setS r x).forked = h.forked := by unfold Hg.setS; split <;> rfl
@[simp] theorem forked_hg_setP (r : PReg) (x : Bool) : (h.setP r x).forked = h.forked := by unfold Hg.setP; split <;> rfl
@[simp] theorem forked_hg_setV (r : VReg) (x : VWord) : (h.setV r x).forked = h.forked := rfl
@[simp] theorem forked_hg_retire : h.retire.forked = h.forked := rfl
@[simp] theorem qb_hg_setS (r : SReg) (x : Word) : (h.setS r x).qb = h.qb := by unfold Hg.setS; split <;> rfl
@[simp] theorem qb_hg_setP (r : PReg) (x : Bool) : (h.setP r x).qb = h.qb := by unfold Hg.setP; split <;> rfl
@[simp] theorem qb_hg_setV (r : VReg) (x : VWord) : (h.setV r x).qb = h.qb := rfl
@[simp] theorem qb_hg_retire : h.retire.qb = h.qb := rfl
@[simp] theorem bank0_hg_setS (r : SReg) (x : Word) : (h.setS r x).bank0 = h.bank0 := by unfold Hg.setS; split <;> rfl
@[simp] theorem bank0_hg_setP (r : PReg) (x : Bool) : (h.setP r x).bank0 = h.bank0 := by unfold Hg.setP; split <;> rfl
@[simp] theorem bank0_hg_setV (r : VReg) (x : VWord) : (h.setV r x).bank0 = h.bank0 := rfl
@[simp] theorem bank0_hg_retire : h.retire.bank0 = h.bank0 := rfl
@[simp] theorem bank1_hg_setS (r : SReg) (x : Word) : (h.setS r x).bank1 = h.bank1 := by unfold Hg.setS; split <;> rfl
@[simp] theorem bank1_hg_setP (r : PReg) (x : Bool) : (h.setP r x).bank1 = h.bank1 := by unfold Hg.setP; split <;> rfl
@[simp] theorem bank1_hg_setV (r : VReg) (x : VWord) : (h.setV r x).bank1 = h.bank1 := rfl
@[simp] theorem bank1_hg_retire : h.retire.bank1 = h.bank1 := rfl
@[simp] theorem loops_hg_setS (r : SReg) (x : Word) : (h.setS r x).loops = h.loops := by unfold Hg.setS; split <;> rfl
@[simp] theorem loops_hg_setP (r : PReg) (x : Bool) : (h.setP r x).loops = h.loops := by unfold Hg.setP; split <;> rfl
@[simp] theorem loops_hg_setV (r : VReg) (x : VWord) : (h.setV r x).loops = h.loops := rfl
@[simp] theorem fmode_hg_setS (r : SReg) (x : Word) : (h.setS r x).fmode = h.fmode := by unfold Hg.setS; split <;> rfl
@[simp] theorem fmode_hg_setP (r : PReg) (x : Bool) : (h.setP r x).fmode = h.fmode := by unfold Hg.setP; split <;> rfl
@[simp] theorem fmode_hg_setV (r : VReg) (x : VWord) : (h.setV r x).fmode = h.fmode := rfl
@[simp] theorem fmode_hg_retire : h.retire.fmode = h.fmode := rfl
@[simp] theorem amax_hg_setS (r : SReg) (x : Word) : (h.setS r x).amax = h.amax := by unfold Hg.setS; split <;> rfl
@[simp] theorem amax_hg_setP (r : PReg) (x : Bool) : (h.setP r x).amax = h.amax := by unfold Hg.setP; split <;> rfl
@[simp] theorem amax_hg_setV (r : VReg) (x : VWord) : (h.setV r x).amax = h.amax := rfl
@[simp] theorem amax_hg_retire : h.retire.amax = h.amax := rfl
@[simp] theorem nseen_hg_setS (r : SReg) (x : Word) : (h.setS r x).nseen = h.nseen := by unfold Hg.setS; split <;> rfl
@[simp] theorem nseen_hg_setP (r : PReg) (x : Bool) : (h.setP r x).nseen = h.nseen := by unfold Hg.setP; split <;> rfl
@[simp] theorem nseen_hg_setV (r : VReg) (x : VWord) : (h.setV r x).nseen = h.nseen := rfl
@[simp] theorem nseen_hg_retire : h.retire.nseen = h.nseen := rfl
@[simp] theorem g_hg_setS (r : SReg) (x : Word) : (h.setS r x).g = h.g := by unfold Hg.setS; split <;> rfl
@[simp] theorem g_hg_setP (r : PReg) (x : Bool) : (h.setP r x).g = h.g := by unfold Hg.setP; split <;> rfl
@[simp] theorem g_hg_setV (r : VReg) (x : VWord) : (h.setV r x).g = h.g := rfl
@[simp] theorem g_hg_retire : h.retire.g = h.g := rfl
@[simp] theorem epc_hg_setS (r : SReg) (x : Word) : (h.setS r x).epc = h.epc := by unfold Hg.setS; split <;> rfl
@[simp] theorem epc_hg_setP (r : PReg) (x : Bool) : (h.setP r x).epc = h.epc := by unfold Hg.setP; split <;> rfl
@[simp] theorem epc_hg_setV (r : VReg) (x : VWord) : (h.setV r x).epc = h.epc := rfl
@[simp] theorem epc_hg_retire : h.retire.epc = h.epc := rfl
@[simp] theorem ecause_hg_setS (r : SReg) (x : Word) : (h.setS r x).ecause = h.ecause := by unfold Hg.setS; split <;> rfl
@[simp] theorem ecause_hg_setP (r : PReg) (x : Bool) : (h.setP r x).ecause = h.ecause := by unfold Hg.setP; split <;> rfl
@[simp] theorem ecause_hg_setV (r : VReg) (x : VWord) : (h.setV r x).ecause = h.ecause := rfl
@[simp] theorem ecause_hg_retire : h.retire.ecause = h.ecause := rfl
@[simp] theorem tvec_hg_setS (r : SReg) (x : Word) : (h.setS r x).tvec = h.tvec := by unfold Hg.setS; split <;> rfl
@[simp] theorem tvec_hg_setP (r : PReg) (x : Bool) : (h.setP r x).tvec = h.tvec := by unfold Hg.setP; split <;> rfl
@[simp] theorem tvec_hg_setV (r : VReg) (x : VWord) : (h.setV r x).tvec = h.tvec := rfl
@[simp] theorem tvec_hg_retire : h.retire.tvec = h.tvec := rfl
@[simp] theorem escr_hg_setS (r : SReg) (x : Word) : (h.setS r x).escr = h.escr := by unfold Hg.setS; split <;> rfl
@[simp] theorem escr_hg_setP (r : PReg) (x : Bool) : (h.setP r x).escr = h.escr := by unfold Hg.setP; split <;> rfl
@[simp] theorem escr_hg_setV (r : VReg) (x : VWord) : (h.setV r x).escr = h.escr := rfl
@[simp] theorem escr_hg_retire : h.retire.escr = h.escr := rfl
@[simp] theorem pev_hg_setS (r : SReg) (x : Word) : (h.setS r x).pev = h.pev := by unfold Hg.setS; split <;> rfl
@[simp] theorem pev_hg_setP (r : PReg) (x : Bool) : (h.setP r x).pev = h.pev := by unfold Hg.setP; split <;> rfl
@[simp] theorem pev_hg_setV (r : VReg) (x : VWord) : (h.setV r x).pev = h.pev := rfl
@[simp] theorem pev_hg_retire : h.retire.pev = h.pev := rfl
@[simp] theorem timed_hg_setS (r : SReg) (x : Word) : (h.setS r x).timed = h.timed := by unfold Hg.setS; split <;> rfl
@[simp] theorem timed_hg_setP (r : PReg) (x : Bool) : (h.setP r x).timed = h.timed := by unfold Hg.setP; split <;> rfl
@[simp] theorem timed_hg_setV (r : VReg) (x : VWord) : (h.setV r x).timed = h.timed := rfl
@[simp] theorem timed_hg_retire : h.retire.timed = h.timed := rfl
@[simp] theorem run_hg_setS (r : SReg) (x : Word) : (h.setS r x).run = h.run := by unfold Hg.setS; split <;> rfl
@[simp] theorem run_hg_setP (r : PReg) (x : Bool) : (h.setP r x).run = h.run := by unfold Hg.setP; split <;> rfl
@[simp] theorem run_hg_setV (r : VReg) (x : VWord) : (h.setV r x).run = h.run := rfl
@[simp] theorem run_hg_retire : h.retire.run = h.run := rfl
@[simp] theorem stopped_hg_setS (r : SReg) (x : Word) : (h.setS r x).stopped = h.stopped := by unfold Hg.setS; split <;> rfl
@[simp] theorem stopped_hg_setP (r : PReg) (x : Bool) : (h.setP r x).stopped = h.stopped := by unfold Hg.setP; split <;> rfl
@[simp] theorem stopped_hg_setV (r : VReg) (x : VWord) : (h.setV r x).stopped = h.stopped := rfl
@[simp] theorem stopped_hg_retire : h.retire.stopped = h.stopped := rfl

/-- A headgate outside every hardware loop goes on with the next word. -/
theorem retire_noLoop (h0 : h.loops = []) : h.retire = { h with pc := h.pc + 4 } := by
  cases h; simp_all [Hg.retire, loopEnd]

end Sys2Proof.Machine
end

