-- ==== Sys2Proof/Laws/Memory.lean ====
section
/-! SUPPORT. Memory: read after write, what a write leaves alone, and that every memory operation keeps the canonical form. -/

namespace Sys2Proof.Machine

/-! ## The byte list -/

theorem memGet_memSet (m : List Host.Cell) (a : Nat) (b : Byte) (h : memWf m = true) (x : Nat) :
    memGet (memSet m a b) x = if x = a then b else memGet m x := by
  suffices H : ∀ lo, memWfFrom lo m = true → memGet (memSet m a b) x = if x = a then b else memGet m x from H 0 h
  clear h
  induction m with
  | nil =>
    intro lo _
    by_cases hb : b = 0
    · simp only [memSet, if_pos hb, memGet]; split <;> simp_all
    · simp only [memSet, if_neg hb, memGet]
      by_cases hx : x = a
      · simp only [hx, if_true]
      · simp only [if_neg hx, if_neg (Ne.symm hx)]
  | cons e t ih =>
    obtain ⟨k, v⟩ := e
    intro lo h
    simp only [memWfFrom, Bool.and_eq_true, decide_eq_true_eq] at h
    have ht : ∀ y, y ≤ k → memGet t y = 0 := by
      have h2 := h.2
      clear ih h
      intro y hy
      have : ∀ (l : List Host.Cell) (lo : Nat), y < lo → memWfFrom lo l = true → memGet l y = 0 := by
        intro l
        induction l with
        | nil => intros; rfl
        | cons f l ih =>
          obtain ⟨q, w⟩ := f
          intro lo hl hw
          simp only [memWfFrom, Bool.and_eq_true, decide_eq_true_eq] at hw
          simp only [memGet, if_neg (show ¬q = y by omega)]
          exact ih (q + 1) (by omega) hw.2
      exact this t (k + 1) (by omega) h2
    have ih := ih (k + 1) h.2
    simp only [memSet]
    by_cases h1 : a < k
    · simp only [if_pos h1]
      by_cases hb : b = 0
      · simp only [if_pos hb, memGet]
        by_cases hx : x = a
        · subst hx; simp [hb, show ¬k = x by omega, ht x (by omega)]
        · simp [hx]
      · simp only [if_neg hb, memGet]
        by_cases hx : x = a
        · simp [hx]
        · simp [hx, Ne.symm hx]
    · simp only [if_neg h1]
      by_cases h2 : a = k
      · subst h2
        simp only [if_true]
        by_cases hb : b = 0
        · simp only [if_pos hb, memGet]
          by_cases hx : x = a
          · subst hx; simp [hb, ht x (by omega)]
          · simp [hx, Ne.symm hx]
        · simp only [if_neg hb, memGet]
          by_cases hx : x = a
          · simp [hx]
          · simp [hx, Ne.symm hx]
      · simp only [if_neg h2, memGet, ih]
        by_cases hx : k = x
        · subst hx; simp [Ne.symm h2]
        · simp [hx]

theorem memWfFrom_le (l : List Host.Cell) (a b : Nat) (hb : b ≤ a) (hw : memWfFrom a l = true) : memWfFrom b l = true := by
  cases l with
  | nil => rfl
  | cons f l =>
    simp only [memWfFrom, Bool.and_eq_true, decide_eq_true_eq] at hw ⊢
    exact ⟨⟨by omega, hw.1.2⟩, hw.2⟩

theorem memWfFrom_memSet (a : Nat) (b : Byte) (m : List Host.Cell) (lo : Nat) (h : memWfFrom lo m = true) (ha : lo ≤ a) :
    memWfFrom lo (memSet m a b) = true := by
  have hne : ∀ {b : Byte}, ¬b = 0 → (b != 0) = true := fun h => by simpa using h
  induction m generalizing lo with
  | nil =>
    by_cases hb : b = 0
    · simp only [memSet, if_pos hb, memWfFrom]
    · simp only [memSet, if_neg hb, memWfFrom, Bool.and_eq_true, decide_eq_true_eq]
      exact ⟨⟨ha, hne hb⟩, trivial⟩
  | cons e t ih =>
    obtain ⟨k, v⟩ := e
    simp only [memWfFrom, Bool.and_eq_true, decide_eq_true_eq] at h
    simp only [memSet]
    by_cases h1 : a < k
    · by_cases hb : b = 0
      · simp only [if_pos h1, if_pos hb, memWfFrom, Bool.and_eq_true, decide_eq_true_eq]; exact h
      · simp only [if_pos h1, if_neg hb, memWfFrom, Bool.and_eq_true, decide_eq_true_eq]
        exact ⟨⟨ha, hne hb⟩, ⟨by omega, h.1.2⟩, h.2⟩
    · by_cases h2 : a = k
      · by_cases hb : b = 0
        · simp only [if_neg h1, if_pos h2, if_pos hb]
          exact memWfFrom_le t (k + 1) lo (by omega) h.2
        · simp only [if_neg h1, if_pos h2, if_neg hb, memWfFrom, Bool.and_eq_true, decide_eq_true_eq]
          exact ⟨⟨ha, hne hb⟩, h2 ▸ h.2⟩
      · simp only [if_neg h1, if_neg h2, memWfFrom, Bool.and_eq_true, decide_eq_true_eq]
        exact ⟨h.1, ih (k + 1) h.2 (by omega)⟩

/-- A write keeps the canonical form. -/
theorem memWf_memSet (m : List Host.Cell) (a : Nat) (b : Byte) (h : memWf m = true) : memWf (memSet m a b) = true :=
  memWfFrom_memSet a b m 0 h (Nat.zero_le a)

/-- Dropping entries keeps the canonical form. -/
theorem memWf_filter (m : List Host.Cell) (p : Host.Cell → Bool) (h : memWf m = true) : memWf (m.filter p) = true := by
  suffices H : ∀ (l : List Host.Cell) (lo : Nat), memWfFrom lo l = true → memWfFrom lo (l.filter p) = true from H m 0 h
  intro l
  induction l with
  | nil => intros; rfl
  | cons e t ih =>
    obtain ⟨k, v⟩ := e
    intro lo hw
    simp only [memWfFrom, Bool.and_eq_true, decide_eq_true_eq] at hw
    by_cases hp : p (k, v)
    · simp only [List.filter_cons, hp, if_true, memWfFrom, Bool.and_eq_true, decide_eq_true_eq]
      exact ⟨hw.1, ih (k + 1) hw.2⟩
    · simp only [List.filter_cons, hp]
      exact memWfFrom_le _ (k + 1) lo (by omega) (ih (k + 1) hw.2)

/-! ## The memory of a state -/

variable (s : State)

/-- The canonical form of a state's memory. -/
def State.memOk : Prop := memWf s.mem = true

@[simp] theorem mod_setByte (a : Nat) (b : Byte) : (s.setByte a b).mod = s.mod := rfl

theorem byte_setByte (h : s.memOk) (a : Nat) (b : Byte) (x : Nat) :
    (s.setByte a b).byte x = if x = a then b else s.byte x := by
  simp only [State.byte, State.setByte, memGet_memSet _ _ _ h]
  split
  · next e => subst e; simp
  · rfl

theorem memOk_setByte (h : s.memOk) (a : Nat) (b : Byte) : (s.setByte a b).memOk := memWf_memSet _ _ _ h

theorem writeN_memOk (n : Nat) : ∀ (s : State) (a v : Nat), s.memOk → (s.writeN a n v).memOk := by
  induction n with
  | zero => intro s a v h; exact h
  | succ n ih => intro s a v h; exact ih _ _ _ (memOk_setByte s h _ _)

/-- Bytes outside the written range stay. -/
theorem byte_writeN_outside (n : Nat) :
    ∀ (s : State) (a v x : Nat), s.memOk → (x < a ∨ a + n ≤ x) → (s.writeN a n v).byte x = s.byte x := by
  induction n with
  | zero => intro s a v x _ _; rfl
  | succ n ih =>
    intro s a v x h hx
    simp only [State.writeN]
    rw [ih _ _ _ _ (memOk_setByte s h _ _) (by omega), byte_setByte s h]
    simp [show ¬x = a by omega]

/-- Read after write: the low n bytes of the value. -/
theorem readN_writeN (n : Nat) : ∀ (s : State) (a v : Nat), s.memOk → (s.writeN a n v).readN a n = v % 256 ^ n := by
  induction n with
  | zero => intro s a v _; simp [State.readN, Nat.mod_one]
  | succ n ih =>
    intro s a v h
    have hb : ((s.writeN a (n + 1) v).byte a).toNat = v % 256 := by
      simp only [State.writeN]
      rw [byte_writeN_outside n _ _ _ _ (memOk_setByte s h _ _) (by omega), byte_setByte s h]
      simp only [if_true, BitVec.toNat_ofNat]
      omega
    simp only [State.readN, hb]
    rw [show (s.writeN a (n + 1) v).readN (a + 1) n = v / 256 % 256 ^ n from
      ih (s.setByte a (BitVec.ofNat 8 (v % 256))) (a + 1) (v / 256) (memOk_setByte s h _ _)]
    rw [Nat.pow_succ', Nat.mod_mul]

theorem writeBytes_memOk (l : List Byte) : ∀ (s : State) (a : Nat), s.memOk → (s.writeBytes a l).memOk := by
  induction l with
  | nil => intro s a h; exact h
  | cons b t ih => intro s a h; exact ih _ _ (memOk_setByte s h _ _)

theorem byte_writeBytes_outside (l : List Byte) :
    ∀ (s : State) (a x : Nat), s.memOk → (x < a ∨ a + l.length ≤ x) → (s.writeBytes a l).byte x = s.byte x := by
  induction l with
  | nil => intro s a x _ _; rfl
  | cons b t ih =>
    intro s a x h hx
    simp only [List.length_cons] at hx
    simp only [State.writeBytes]
    rw [ih _ _ _ (memOk_setByte s h _ _) (by omega), byte_setByte s h]
    simp [show ¬x = a by omega]

theorem writeMasked_memOk (n : Nat) : ∀ (s : State) (a m v : Nat), s.memOk → (s.writeMasked a m v n).memOk := by
  induction n with
  | zero => intro s a m v h; exact h
  | succ n ih =>
    intro s a m v h
    simp only [State.writeMasked]
    split
    · exact ih _ _ _ _ (memOk_setByte s h _ _)
    · exact ih _ _ _ _ h

theorem clearRange_memOk (h : s.memOk) (lo n : Nat) : (s.clearRange lo n).memOk := memWf_filter _ _ h

@[simp] theorem mem_unpoison (a n : Nat) : (s.unpoison a n).mem = s.mem := by unfold State.unpoison; split <;> rfl

theorem homeWrite_memOk (h : s.memOk) (a n v : Nat) : (s.homeWrite a n v).memOk := by
  show memWf ((s.writeN a n v).unpoison a n).mem = true
  rw [mem_unpoison]
  exact writeN_memOk n s a v h

/-- The memory after reset has the canonical form. -/
theorem reset_memOk : State.reset.memOk := rfl

/-- Every byte reads as 0 after reset. -/
theorem reset_byte (a : Nat) : State.reset.byte a = 0 := by
  simp [State.byte, State.reset, memGet, undefMask]

end Sys2Proof.Machine
end

