-- ==== Sys2Proof/Laws/Issue.lean ====
section
/-! SUPPORT. What the issue of an instruction can do (05 R124): one lemma per way it ends, and one that says them all. -/

namespace Sys2Proof.Machine

variable (s : State)

/-- The issue of an instruction always answers a next state, and this is every way it ends. -/
theorem issue_cases (fk : Forked) (so : Bool) (g : PReg) (body : Eff) :
    (s.me.forked = true ∧ fk = .banned ∧ s.issue fk so g body = .next (s.precise cIllegal [])) ∨
    (so = true ∧ s.me.sys = false ∧ s.issue fk so g body = .next (s.precise cPriv [])) ∨
    (s.getP g = false ∧ s.issue fk so g body = .next s.retire) ∨
    (s.getP g = true ∧ s.issue fk so g body = .next (s.finish body)) := by
  unfold State.issue
  cases hf : s.me.forked <;> cases hs : s.me.sys <;> cases so <;> cases hg : s.getP g <;> by_cases hk : fk = .banned <;> simp_all

theorem issue_next (fk : Forked) (so : Bool) (g : PReg) (body : Eff) : ∃ t, s.issue fk so g body = .next t := by
  rcases issue_cases s fk so g body with h | h | h | h
  · exact ⟨_, h.2.2⟩
  · exact ⟨_, h.2.2⟩
  · exact ⟨_, h.2⟩
  · exact ⟨_, h.2⟩

/-- The issue of an instruction that nothing forbids. -/
theorem issue_run {fk : Forked} {so : Bool} {g : PReg} {body : Eff} (hf : fk = .banned → s.me.forked = false)
    (hs : so = true → s.me.sys = true) (hg : s.getP g = true) : s.issue fk so g body = .next (s.finish body) := by
  rcases issue_cases s fk so g body with h | h | h | h
  · simp_all
  · simp_all
  · simp_all
  · exact h.2

/-- A guarded instruction whose guard is true. -/
theorem plain_run {g : PReg} {body : Eff} (hg : s.getP g = true) : s.plain g body = .next (s.finish body) :=
  issue_run s (by simp) (by simp) hg

/-- A guarded instruction that FORKED forbids, while FORKED = 0 and its guard is true. -/
theorem unforked_run {g : PReg} {body : Eff} (hf : s.me.forked = false) (hg : s.getP g = true) :
    s.unforked g body = .next (s.finish body) := issue_run s (fun _ => hf) (by simp) hg

/-- A false guard: no effect (05 R124; 06 R130). -/
theorem plain_skip {g : PReg} {body : Eff} (hg : s.getP g = false) : s.plain g body = .next s.retire := by
  unfold State.plain State.issue; simp [hg]

theorem unforked_skip {g : PReg} {body : Eff} (hf : s.me.forked = false) (hg : s.getP g = false) :
    s.unforked g body = .next s.retire := by
  unfold State.unforked State.issue; simp [hg, hf]

theorem unforked_banned {g : PReg} {body : Eff} (hf : s.me.forked = true) :
    s.unforked g body = .next (s.precise cIllegal []) := by
  unfold State.unforked State.issue; simp [hf]

@[simp] theorem finish_done (t : State) : s.finish (done t) = t.retire := rfl
@[simp] theorem finish_seq (t : State) : s.finish (.ok (t, .seq)) = t.retire := rfl
@[simp] theorem finish_jump (t : State) (pc : Word) : s.finish (.ok (t, .jump pc)) = t.setPc pc := rfl
@[simp] theorem finish_skip (t : State) (pc : Word) : s.finish (.ok (t, .skip pc)) = t.setMe (t.me.retireTo pc) := rfl
@[simp] theorem finish_stay (t : State) : s.finish (.ok (t, .stay)) = t := rfl
@[simp] theorem finish_fault (c : Nat) (d : List Nat) : s.finish (.error (.fault c d)) = s.precise c d := rfl
@[simp] theorem finish_wait (w : Wait) : s.finish (.error (.wait w)) = s.startWait s.cur w := rfl
@[simp] theorem finish_held (t : State) (w : Wait) : s.finish (.error (.held t w)) = t.startWait s.cur w := rfl

@[simp] theorem flt_eq {α : Type} (c : Nat) : (flt c : Acc α) = .error (.fault c []) := rfl
@[simp] theorem chk_true (c : Nat) : chk true c = .ok () := rfl
@[simp] theorem chk_false (c : Nat) : chk false c = .error (.fault c []) := rfl
@[simp] theorem waitFor_true : waitFor true = .ok () := rfl
@[simp] theorem waitFor_false : waitFor false = .error (.wait .busy) := rfl
@[simp] theorem acc_bind_ok {α β : Type} (x : α) (f : α → Acc β) : (Except.ok x >>= f : Acc β) = f x := rfl
@[simp] theorem acc_bind_error {α β : Type} (e : Stop) (f : α → Acc β) : (Except.error e >>= f : Acc β) = .error e := rfl
@[simp] theorem acc_pure {α : Type} (x : α) : (pure x : Acc α) = .ok x := rfl

/-- An answer of a sequence of two accesses comes of an answer of the first. -/
theorem acc_bind_cases {α β : Type} {x : Acc α} {f : α → Acc β} {r : β} (h : x >>= f = .ok r) :
    ∃ a, x = .ok a ∧ f a = .ok r := by
  cases x with
  | ok a => exact ⟨a, rfl, h⟩
  | error e => simp at h

end Sys2Proof.Machine
end

