-- ==== Sys2Proof/Laws/PerInstr.lean ====
section
/-! SUPPORT. The encoding family, instruction by instruction: decoding an instruction's word gives the instruction back
(05 R119 to R121). -/

namespace Sys2Proof.Laws.Encoding

open Sys2Proof

/-- The word of a well-formed instruction decodes to it; an event has no word. -/
def Statement (i : Instr) : Prop := ∀ w : IWord, encode i = some w → i.wellFormed = true → decode w = .ok i

theorem sregVal (d : SReg) : sreg d.val = d := by simp [sreg]
theorem pregVal (d : PReg) : preg d.val = d := by simp [preg]
theorem reg16Val (d : Fin 16) : reg16 d.val = d := by simp [reg16]
theorem pregVal? (d : PReg) : preg? d.val = some d := by simp [preg?, pregVal, d.isLt]
theorem vregVal? (d : VReg) : vreg? d.val = some d := by simp [vreg?, reg16Val, d.isLt]
theorem nodeVal? (d : NodeIx) : node? d.val = some d := by simp [node?, d.isLt]
theorem acqVal? (b : Bool) : acq? b.toNat = some b := by cases b <;> rfl
theorem relVal? (b : Bool) : rel? (b.toNat * 2) = some b := by cases b <;> rfl
theorem bitsVal {n : Nat} (x : BitVec n) : BitVec.ofNat n x.toNat = x := by simp
theorem scopeVal (x : Scope) : Scope.ofCode x.code = some x := by cases x <;> rfl
theorem sizeVal (x : Size) : Size.ofCode x.code = some x := by cases x <;> rfl
theorem vsizeVal (x : VSize) : VSize.ofCode x.code = some x := by cases x <;> rfl
theorem fmtVal (x : Fmt) : Fmt.ofCode x.code = some x := by cases x <;> rfl
theorem laneVal (x : LaneType) : LaneType.ofCode x.code = some x := by cases x <;> rfl
theorem redVal (x : CollRed) : CollRed.ofCode x.code = some x := by cases x <;> rfl
theorem scopeLt (x : Scope) : x.code < 8 := by cases x <;> decide
theorem sizeLt (x : Size) : x.code < 8 := by cases x <;> decide
theorem vsizeLt (x : VSize) : x.code < 8 := by cases x <;> decide
theorem fmtLt (x : Fmt) : x.code < 16 := by cases x <;> decide
theorem laneLt (x : LaneType) : x.code < 8 := by cases x <;> decide
theorem redLt (x : CollRed) : x.code < 4 := by cases x <;> decide
theorem boolLt (b : Bool) : b.toNat < 2 := by cases b <;> decide

/-- An instruction whose number parses to it decodes. -/
theorem ofParse {i : Instr} {n : Nat} (he : encodeNat i = some n) (hn : n < 2 ^ 32) (hp : parse n = .ok i) : Statement i := by
  intro w hw hwf
  simp only [encode, he, Option.map_some, Option.some.injEq] at hw
  subst hw
  have : (BitVec.ofNat 32 n).toNat = n := by simp only [BitVec.toNat_ofNat]; omega
  simp only [decode, this, hp, hwf, if_true]

/-- An event has no word. -/
theorem ofEvent {i : Instr} (he : encodeNat i = none) : Statement i := by
  intro w hw
  simp [encode, he] at hw

theorem add (d : SReg) (a : SReg) (b : SReg) (g : PReg) : Statement (.add d a b g) := by
  have := d.isLt
  have := a.isLt
  have := b.isLt
  have := g.isLt
  obtain ⟨N, hn⟩ : ∃ N, N = 0x04000000 + d.val * 2097152 + a.val * 65536 + b.val * 2048 + g.val * 256 := ⟨_, rfl⟩
  have f0_8 : fld N 0 8 = 0 := by simp only [fld]; omega
  have f8_3 : fld N 8 3 = g.val := by simp only [fld]; omega
  have f11_5 : fld N 11 5 = b.val := by simp only [fld]; omega
  have f16_5 : fld N 16 5 = a.val := by simp only [fld]; omega
  have f21_5 : fld N 21 5 = d.val := by simp only [fld]; omega
  have f26_6 : fld N 26 6 = 1 := by simp only [fld]; omega
  refine ofParse (n := N) (by rw [hn]; rfl) (by omega) ?_
  simp [parse, decodeAlu, f0_8, f8_3, f11_5, f16_5, f21_5, f26_6, sregVal, pregVal]
theorem sub (d : SReg) (a : SReg) (b : SReg) (g : PReg) : Statement (.sub d a b g) := by
  have := d.isLt
  have := a.isLt
  have := b.isLt
  have := g.isLt
  obtain ⟨N, hn⟩ : ∃ N, N = 0x04000001 + d.val * 2097152 + a.val * 65536 + b.val * 2048 + g.val * 256 := ⟨_, rfl⟩
  have f0_8 : fld N 0 8 = 1 := by simp only [fld]; omega
  have f8_3 : fld N 8 3 = g.val := by simp only [fld]; omega
  have f11_5 : fld N 11 5 = b.val := by simp only [fld]; omega
  have f16_5 : fld N 16 5 = a.val := by simp only [fld]; omega
  have f21_5 : fld N 21 5 = d.val := by simp only [fld]; omega
  have f26_6 : fld N 26 6 = 1 := by simp only [fld]; omega
  refine ofParse (n := N) (by rw [hn]; rfl) (by omega) ?_
  simp [parse, decodeAlu, f0_8, f8_3, f11_5, f16_5, f21_5, f26_6, sregVal, pregVal]
theorem and (d : SReg) (a : SReg) (b : SReg) (g : PReg) : Statement (.and d a b g) := by
  have := d.isLt
  have := a.isLt
  have := b.isLt
  have := g.isLt
  obtain ⟨N, hn⟩ : ∃ N, N = 0x04000002 + d.val * 2097152 + a.val * 65536 + b.val * 2048 + g.val * 256 := ⟨_, rfl⟩
  have f0_8 : fld N 0 8 = 2 := by simp only [fld]; omega
  have f8_3 : fld N 8 3 = g.val := by simp only [fld]; omega
  have f11_5 : fld N 11 5 = b.val := by simp only [fld]; omega
  have f16_5 : fld N 16 5 = a.val := by simp only [fld]; omega
  have f21_5 : fld N 21 5 = d.val := by simp only [fld]; omega
  have f26_6 : fld N 26 6 = 1 := by simp only [fld]; omega
  refine ofParse (n := N) (by rw [hn]; rfl) (by omega) ?_
  simp [parse, decodeAlu, f0_8, f8_3, f11_5, f16_5, f21_5, f26_6, sregVal, pregVal]
theorem or (d : SReg) (a : SReg) (b : SReg) (g : PReg) : Statement (.or d a b g) := by
  have := d.isLt
  have := a.isLt
  have := b.isLt
  have := g.isLt
  obtain ⟨N, hn⟩ : ∃ N, N = 0x04000003 + d.val * 2097152 + a.val * 65536 + b.val * 2048 + g.val * 256 := ⟨_, rfl⟩
  have f0_8 : fld N 0 8 = 3 := by simp only [fld]; omega
  have f8_3 : fld N 8 3 = g.val := by simp only [fld]; omega
  have f11_5 : fld N 11 5 = b.val := by simp only [fld]; omega
  have f16_5 : fld N 16 5 = a.val := by simp only [fld]; omega
  have f21_5 : fld N 21 5 = d.val := by simp only [fld]; omega
  have f26_6 : fld N 26 6 = 1 := by simp only [fld]; omega
  refine ofParse (n := N) (by rw [hn]; rfl) (by omega) ?_
  simp [parse, decodeAlu, f0_8, f8_3, f11_5, f16_5, f21_5, f26_6, sregVal, pregVal]
theorem xor (d : SReg) (a : SReg) (b : SReg) (g : PReg) : Statement (.xor d a b g) := by
  have := d.isLt
  have := a.isLt
  have := b.isLt
  have := g.isLt
  obtain ⟨N, hn⟩ : ∃ N, N = 0x04000004 + d.val * 2097152 + a.val * 65536 + b.val * 2048 + g.val * 256 := ⟨_, rfl⟩
  have f0_8 : fld N 0 8 = 4 := by simp only [fld]; omega
  have f8_3 : fld N 8 3 = g.val := by simp only [fld]; omega
  have f11_5 : fld N 11 5 = b.val := by simp only [fld]; omega
  have f16_5 : fld N 16 5 = a.val := by simp only [fld]; omega
  have f21_5 : fld N 21 5 = d.val := by simp only [fld]; omega
  have f26_6 : fld N 26 6 = 1 := by simp only [fld]; omega
  refine ofParse (n := N) (by rw [hn]; rfl) (by omega) ?_
  simp [parse, decodeAlu, f0_8, f8_3, f11_5, f16_5, f21_5, f26_6, sregVal, pregVal]
theorem andn (d : SReg) (a : SReg) (b : SReg) (g : PReg) : Statement (.andn d a b g) := by
  have := d.isLt
  have := a.isLt
  have := b.isLt
  have := g.isLt
  obtain ⟨N, hn⟩ : ∃ N, N = 0x04000005 + d.val * 2097152 + a.val * 65536 + b.val * 2048 + g.val * 256 := ⟨_, rfl⟩
  have f0_8 : fld N 0 8 = 5 := by simp only [fld]; omega
  have f8_3 : fld N 8 3 = g.val := by simp only [fld]; omega
  have f11_5 : fld N 11 5 = b.val := by simp only [fld]; omega
  have f16_5 : fld N 16 5 = a.val := by simp only [fld]; omega
  have f21_5 : fld N 21 5 = d.val := by simp only [fld]; omega
  have f26_6 : fld N 26 6 = 1 := by simp only [fld]; omega
  refine ofParse (n := N) (by rw [hn]; rfl) (by omega) ?_
  simp [parse, decodeAlu, f0_8, f8_3, f11_5, f16_5, f21_5, f26_6, sregVal, pregVal]
theorem shl (d : SReg) (a : SReg) (b : SReg) (g : PReg) : Statement (.shl d a b g) := by
  have := d.isLt
  have := a.isLt
  have := b.isLt
  have := g.isLt
  obtain ⟨N, hn⟩ : ∃ N, N = 0x04000006 + d.val * 2097152 + a.val * 65536 + b.val * 2048 + g.val * 256 := ⟨_, rfl⟩
  have f0_8 : fld N 0 8 = 6 := by simp only [fld]; omega
  have f8_3 : fld N 8 3 = g.val := by simp only [fld]; omega
  have f11_5 : fld N 11 5 = b.val := by simp only [fld]; omega
  have f16_5 : fld N 16 5 = a.val := by simp only [fld]; omega
  have f21_5 : fld N 21 5 = d.val := by simp only [fld]; omega
  have f26_6 : fld N 26 6 = 1 := by simp only [fld]; omega
  refine ofParse (n := N) (by rw [hn]; rfl) (by omega) ?_
  simp [parse, decodeAlu, f0_8, f8_3, f11_5, f16_5, f21_5, f26_6, sregVal, pregVal]
theorem shr (d : SReg) (a : SReg) (b : SReg) (g : PReg) : Statement (.shr d a b g) := by
  have := d.isLt
  have := a.isLt
  have := b.isLt
  have := g.isLt
  obtain ⟨N, hn⟩ : ∃ N, N = 0x04000007 + d.val * 2097152 + a.val * 65536 + b.val * 2048 + g.val * 256 := ⟨_, rfl⟩
  have f0_8 : fld N 0 8 = 7 := by simp only [fld]; omega
  have f8_3 : fld N 8 3 = g.val := by simp only [fld]; omega
  have f11_5 : fld N 11 5 = b.val := by simp only [fld]; omega
  have f16_5 : fld N 16 5 = a.val := by simp only [fld]; omega
  have f21_5 : fld N 21 5 = d.val := by simp only [fld]; omega
  have f26_6 : fld N 26 6 = 1 := by simp only [fld]; omega
  refine ofParse (n := N) (by rw [hn]; rfl) (by omega) ?_
  simp [parse, decodeAlu, f0_8, f8_3, f11_5, f16_5, f21_5, f26_6, sregVal, pregVal]
theorem sra (d : SReg) (a : SReg) (b : SReg) (g : PReg) : Statement (.sra d a b g) := by
  have := d.isLt
  have := a.isLt
  have := b.isLt
  have := g.isLt
  obtain ⟨N, hn⟩ : ∃ N, N = 0x04000008 + d.val * 2097152 + a.val * 65536 + b.val * 2048 + g.val * 256 := ⟨_, rfl⟩
  have f0_8 : fld N 0 8 = 8 := by simp only [fld]; omega
  have f8_3 : fld N 8 3 = g.val := by simp only [fld]; omega
  have f11_5 : fld N 11 5 = b.val := by simp only [fld]; omega
  have f16_5 : fld N 16 5 = a.val := by simp only [fld]; omega
  have f21_5 : fld N 21 5 = d.val := by simp only [fld]; omega
  have f26_6 : fld N 26 6 = 1 := by simp only [fld]; omega
  refine ofParse (n := N) (by rw [hn]; rfl) (by omega) ?_
  simp [parse, decodeAlu, f0_8, f8_3, f11_5, f16_5, f21_5, f26_6, sregVal, pregVal]
theorem ror (d : SReg) (a : SReg) (b : SReg) (g : PReg) : Statement (.ror d a b g) := by
  have := d.isLt
  have := a.isLt
  have := b.isLt
  have := g.isLt
  obtain ⟨N, hn⟩ : ∃ N, N = 0x04000009 + d.val * 2097152 + a.val * 65536 + b.val * 2048 + g.val * 256 := ⟨_, rfl⟩
  have f0_8 : fld N 0 8 = 9 := by simp only [fld]; omega
  have f8_3 : fld N 8 3 = g.val := by simp only [fld]; omega
  have f11_5 : fld N 11 5 = b.val := by simp only [fld]; omega
  have f16_5 : fld N 16 5 = a.val := by simp only [fld]; omega
  have f21_5 : fld N 21 5 = d.val := by simp only [fld]; omega
  have f26_6 : fld N 26 6 = 1 := by simp only [fld]; omega
  refine ofParse (n := N) (by rw [hn]; rfl) (by omega) ?_
  simp [parse, decodeAlu, f0_8, f8_3, f11_5, f16_5, f21_5, f26_6, sregVal, pregVal]
theorem min (d : SReg) (a : SReg) (b : SReg) (g : PReg) : Statement (.min d a b g) := by
  have := d.isLt
  have := a.isLt
  have := b.isLt
  have := g.isLt
  obtain ⟨N, hn⟩ : ∃ N, N = 0x0400000A + d.val * 2097152 + a.val * 65536 + b.val * 2048 + g.val * 256 := ⟨_, rfl⟩
  have f0_8 : fld N 0 8 = 10 := by simp only [fld]; omega
  have f8_3 : fld N 8 3 = g.val := by simp only [fld]; omega
  have f11_5 : fld N 11 5 = b.val := by simp only [fld]; omega
  have f16_5 : fld N 16 5 = a.val := by simp only [fld]; omega
  have f21_5 : fld N 21 5 = d.val := by simp only [fld]; omega
  have f26_6 : fld N 26 6 = 1 := by simp only [fld]; omega
  refine ofParse (n := N) (by rw [hn]; rfl) (by omega) ?_
  simp [parse, decodeAlu, f0_8, f8_3, f11_5, f16_5, f21_5, f26_6, sregVal, pregVal]
theorem max (d : SReg) (a : SReg) (b : SReg) (g : PReg) : Statement (.max d a b g) := by
  have := d.isLt
  have := a.isLt
  have := b.isLt
  have := g.isLt
  obtain ⟨N, hn⟩ : ∃ N, N = 0x0400000B + d.val * 2097152 + a.val * 65536 + b.val * 2048 + g.val * 256 := ⟨_, rfl⟩
  have f0_8 : fld N 0 8 = 11 := by simp only [fld]; omega
  have f8_3 : fld N 8 3 = g.val := by simp only [fld]; omega
  have f11_5 : fld N 11 5 = b.val := by simp only [fld]; omega
  have f16_5 : fld N 16 5 = a.val := by simp only [fld]; omega
  have f21_5 : fld N 21 5 = d.val := by simp only [fld]; omega
  have f26_6 : fld N 26 6 = 1 := by simp only [fld]; omega
  refine ofParse (n := N) (by rw [hn]; rfl) (by omega) ?_
  simp [parse, decodeAlu, f0_8, f8_3, f11_5, f16_5, f21_5, f26_6, sregVal, pregVal]
theorem minn (d : SReg) (a : SReg) (b : SReg) (g : PReg) : Statement (.minn d a b g) := by
  have := d.isLt
  have := a.isLt
  have := b.isLt
  have := g.isLt
  obtain ⟨N, hn⟩ : ∃ N, N = 0x0400000C + d.val * 2097152 + a.val * 65536 + b.val * 2048 + g.val * 256 := ⟨_, rfl⟩
  have f0_8 : fld N 0 8 = 12 := by simp only [fld]; omega
  have f8_3 : fld N 8 3 = g.val := by simp only [fld]; omega
  have f11_5 : fld N 11 5 = b.val := by simp only [fld]; omega
  have f16_5 : fld N 16 5 = a.val := by simp only [fld]; omega
  have f21_5 : fld N 21 5 = d.val := by simp only [fld]; omega
  have f26_6 : fld N 26 6 = 1 := by simp only [fld]; omega
  refine ofParse (n := N) (by rw [hn]; rfl) (by omega) ?_
  simp [parse, decodeAlu, f0_8, f8_3, f11_5, f16_5, f21_5, f26_6, sregVal, pregVal]
theorem maxn (d : SReg) (a : SReg) (b : SReg) (g : PReg) : Statement (.maxn d a b g) := by
  have := d.isLt
  have := a.isLt
  have := b.isLt
  have := g.isLt
  obtain ⟨N, hn⟩ : ∃ N, N = 0x0400000D + d.val * 2097152 + a.val * 65536 + b.val * 2048 + g.val * 256 := ⟨_, rfl⟩
  have f0_8 : fld N 0 8 = 13 := by simp only [fld]; omega
  have f8_3 : fld N 8 3 = g.val := by simp only [fld]; omega
  have f11_5 : fld N 11 5 = b.val := by simp only [fld]; omega
  have f16_5 : fld N 16 5 = a.val := by simp only [fld]; omega
  have f21_5 : fld N 21 5 = d.val := by simp only [fld]; omega
  have f26_6 : fld N 26 6 = 1 := by simp only [fld]; omega
  refine ofParse (n := N) (by rw [hn]; rfl) (by omega) ?_
  simp [parse, decodeAlu, f0_8, f8_3, f11_5, f16_5, f21_5, f26_6, sregVal, pregVal]
theorem mul (d : SReg) (a : SReg) (b : SReg) (g : PReg) : Statement (.mul d a b g) := by
  have := d.isLt
  have := a.isLt
  have := b.isLt
  have := g.isLt
  obtain ⟨N, hn⟩ : ∃ N, N = 0x0400000E + d.val * 2097152 + a.val * 65536 + b.val * 2048 + g.val * 256 := ⟨_, rfl⟩
  have f0_8 : fld N 0 8 = 14 := by simp only [fld]; omega
  have f8_3 : fld N 8 3 = g.val := by simp only [fld]; omega
  have f11_5 : fld N 11 5 = b.val := by simp only [fld]; omega
  have f16_5 : fld N 16 5 = a.val := by simp only [fld]; omega
  have f21_5 : fld N 21 5 = d.val := by simp only [fld]; omega
  have f26_6 : fld N 26 6 = 1 := by simp only [fld]; omega
  refine ofParse (n := N) (by rw [hn]; rfl) (by omega) ?_
  simp [parse, decodeAlu, f0_8, f8_3, f11_5, f16_5, f21_5, f26_6, sregVal, pregVal]
theorem mulh (d : SReg) (a : SReg) (b : SReg) (g : PReg) : Statement (.mulh d a b g) := by
  have := d.isLt
  have := a.isLt
  have := b.isLt
  have := g.isLt
  obtain ⟨N, hn⟩ : ∃ N, N = 0x0400000F + d.val * 2097152 + a.val * 65536 + b.val * 2048 + g.val * 256 := ⟨_, rfl⟩
  have f0_8 : fld N 0 8 = 15 := by simp only [fld]; omega
  have f8_3 : fld N 8 3 = g.val := by simp only [fld]; omega
  have f11_5 : fld N 11 5 = b.val := by simp only [fld]; omega
  have f16_5 : fld N 16 5 = a.val := by simp only [fld]; omega
  have f21_5 : fld N 21 5 = d.val := by simp only [fld]; omega
  have f26_6 : fld N 26 6 = 1 := by simp only [fld]; omega
  refine ofParse (n := N) (by rw [hn]; rfl) (by omega) ?_
  simp [parse, decodeAlu, f0_8, f8_3, f11_5, f16_5, f21_5, f26_6, sregVal, pregVal]
theorem mulhn (d : SReg) (a : SReg) (b : SReg) (g : PReg) : Statement (.mulhn d a b g) := by
  have := d.isLt
  have := a.isLt
  have := b.isLt
  have := g.isLt
  obtain ⟨N, hn⟩ : ∃ N, N = 0x04000010 + d.val * 2097152 + a.val * 65536 + b.val * 2048 + g.val * 256 := ⟨_, rfl⟩
  have f0_8 : fld N 0 8 = 16 := by simp only [fld]; omega
  have f8_3 : fld N 8 3 = g.val := by simp only [fld]; omega
  have f11_5 : fld N 11 5 = b.val := by simp only [fld]; omega
  have f16_5 : fld N 16 5 = a.val := by simp only [fld]; omega
  have f21_5 : fld N 21 5 = d.val := by simp only [fld]; omega
  have f26_6 : fld N 26 6 = 1 := by simp only [fld]; omega
  refine ofParse (n := N) (by rw [hn]; rfl) (by omega) ?_
  simp [parse, decodeAlu, f0_8, f8_3, f11_5, f16_5, f21_5, f26_6, sregVal, pregVal]
theorem div (d : SReg) (a : SReg) (b : SReg) (g : PReg) : Statement (.div d a b g) := by
  have := d.isLt
  have := a.isLt
  have := b.isLt
  have := g.isLt
  obtain ⟨N, hn⟩ : ∃ N, N = 0x04000011 + d.val * 2097152 + a.val * 65536 + b.val * 2048 + g.val * 256 := ⟨_, rfl⟩
  have f0_8 : fld N 0 8 = 17 := by simp only [fld]; omega
  have f8_3 : fld N 8 3 = g.val := by simp only [fld]; omega
  have f11_5 : fld N 11 5 = b.val := by simp only [fld]; omega
  have f16_5 : fld N 16 5 = a.val := by simp only [fld]; omega
  have f21_5 : fld N 21 5 = d.val := by simp only [fld]; omega
  have f26_6 : fld N 26 6 = 1 := by simp only [fld]; omega
  refine ofParse (n := N) (by rw [hn]; rfl) (by omega) ?_
  simp [parse, decodeAlu, f0_8, f8_3, f11_5, f16_5, f21_5, f26_6, sregVal, pregVal]
theorem divn (d : SReg) (a : SReg) (b : SReg) (g : PReg) : Statement (.divn d a b g) := by
  have := d.isLt
  have := a.isLt
  have := b.isLt
  have := g.isLt
  obtain ⟨N, hn⟩ : ∃ N, N = 0x04000012 + d.val * 2097152 + a.val * 65536 + b.val * 2048 + g.val * 256 := ⟨_, rfl⟩
  have f0_8 : fld N 0 8 = 18 := by simp only [fld]; omega
  have f8_3 : fld N 8 3 = g.val := by simp only [fld]; omega
  have f11_5 : fld N 11 5 = b.val := by simp only [fld]; omega
  have f16_5 : fld N 16 5 = a.val := by simp only [fld]; omega
  have f21_5 : fld N 21 5 = d.val := by simp only [fld]; omega
  have f26_6 : fld N 26 6 = 1 := by simp only [fld]; omega
  refine ofParse (n := N) (by rw [hn]; rfl) (by omega) ?_
  simp [parse, decodeAlu, f0_8, f8_3, f11_5, f16_5, f21_5, f26_6, sregVal, pregVal]
theorem rem (d : SReg) (a : SReg) (b : SReg) (g : PReg) : Statement (.rem d a b g) := by
  have := d.isLt
  have := a.isLt
  have := b.isLt
  have := g.isLt
  obtain ⟨N, hn⟩ : ∃ N, N = 0x04000013 + d.val * 2097152 + a.val * 65536 + b.val * 2048 + g.val * 256 := ⟨_, rfl⟩
  have f0_8 : fld N 0 8 = 19 := by simp only [fld]; omega
  have f8_3 : fld N 8 3 = g.val := by simp only [fld]; omega
  have f11_5 : fld N 11 5 = b.val := by simp only [fld]; omega
  have f16_5 : fld N 16 5 = a.val := by simp only [fld]; omega
  have f21_5 : fld N 21 5 = d.val := by simp only [fld]; omega
  have f26_6 : fld N 26 6 = 1 := by simp only [fld]; omega
  refine ofParse (n := N) (by rw [hn]; rfl) (by omega) ?_
  simp [parse, decodeAlu, f0_8, f8_3, f11_5, f16_5, f21_5, f26_6, sregVal, pregVal]
theorem remn (d : SReg) (a : SReg) (b : SReg) (g : PReg) : Statement (.remn d a b g) := by
  have := d.isLt
  have := a.isLt
  have := b.isLt
  have := g.isLt
  obtain ⟨N, hn⟩ : ∃ N, N = 0x04000014 + d.val * 2097152 + a.val * 65536 + b.val * 2048 + g.val * 256 := ⟨_, rfl⟩
  have f0_8 : fld N 0 8 = 20 := by simp only [fld]; omega
  have f8_3 : fld N 8 3 = g.val := by simp only [fld]; omega
  have f11_5 : fld N 11 5 = b.val := by simp only [fld]; omega
  have f16_5 : fld N 16 5 = a.val := by simp only [fld]; omega
  have f21_5 : fld N 21 5 = d.val := by simp only [fld]; omega
  have f26_6 : fld N 26 6 = 1 := by simp only [fld]; omega
  refine ofParse (n := N) (by rw [hn]; rfl) (by omega) ?_
  simp [parse, decodeAlu, f0_8, f8_3, f11_5, f16_5, f21_5, f26_6, sregVal, pregVal]
theorem clz (d : SReg) (a : SReg) (g : PReg) : Statement (.clz d a g) := by
  have := d.isLt
  have := a.isLt
  have := g.isLt
  obtain ⟨N, hn⟩ : ∃ N, N = 0x04000015 + d.val * 2097152 + a.val * 65536 + g.val * 256 := ⟨_, rfl⟩
  have f0_8 : fld N 0 8 = 21 := by simp only [fld]; omega
  have f8_3 : fld N 8 3 = g.val := by simp only [fld]; omega
  have f11_5 : fld N 11 5 = 0 := by simp only [fld]; omega
  have f16_5 : fld N 16 5 = a.val := by simp only [fld]; omega
  have f21_5 : fld N 21 5 = d.val := by simp only [fld]; omega
  have f26_6 : fld N 26 6 = 1 := by simp only [fld]; omega
  refine ofParse (n := N) (by rw [hn]; rfl) (by omega) ?_
  simp [parse, decodeAlu, f0_8, f8_3, f11_5, f16_5, f21_5, f26_6, sregVal, pregVal]
theorem ctz (d : SReg) (a : SReg) (g : PReg) : Statement (.ctz d a g) := by
  have := d.isLt
  have := a.isLt
  have := g.isLt
  obtain ⟨N, hn⟩ : ∃ N, N = 0x04000016 + d.val * 2097152 + a.val * 65536 + g.val * 256 := ⟨_, rfl⟩
  have f0_8 : fld N 0 8 = 22 := by simp only [fld]; omega
  have f8_3 : fld N 8 3 = g.val := by simp only [fld]; omega
  have f11_5 : fld N 11 5 = 0 := by simp only [fld]; omega
  have f16_5 : fld N 16 5 = a.val := by simp only [fld]; omega
  have f21_5 : fld N 21 5 = d.val := by simp only [fld]; omega
  have f26_6 : fld N 26 6 = 1 := by simp only [fld]; omega
  refine ofParse (n := N) (by rw [hn]; rfl) (by omega) ?_
  simp [parse, decodeAlu, f0_8, f8_3, f11_5, f16_5, f21_5, f26_6, sregVal, pregVal]
theorem popc (d : SReg) (a : SReg) (g : PReg) : Statement (.popc d a g) := by
  have := d.isLt
  have := a.isLt
  have := g.isLt
  obtain ⟨N, hn⟩ : ∃ N, N = 0x04000017 + d.val * 2097152 + a.val * 65536 + g.val * 256 := ⟨_, rfl⟩
  have f0_8 : fld N 0 8 = 23 := by simp only [fld]; omega
  have f8_3 : fld N 8 3 = g.val := by simp only [fld]; omega
  have f11_5 : fld N 11 5 = 0 := by simp only [fld]; omega
  have f16_5 : fld N 16 5 = a.val := by simp only [fld]; omega
  have f21_5 : fld N 21 5 = d.val := by simp only [fld]; omega
  have f26_6 : fld N 26 6 = 1 := by simp only [fld]; omega
  refine ofParse (n := N) (by rw [hn]; rfl) (by omega) ?_
  simp [parse, decodeAlu, f0_8, f8_3, f11_5, f16_5, f21_5, f26_6, sregVal, pregVal]
theorem brev (d : SReg) (a : SReg) (g : PReg) : Statement (.brev d a g) := by
  have := d.isLt
  have := a.isLt
  have := g.isLt
  obtain ⟨N, hn⟩ : ∃ N, N = 0x04000018 + d.val * 2097152 + a.val * 65536 + g.val * 256 := ⟨_, rfl⟩
  have f0_8 : fld N 0 8 = 24 := by simp only [fld]; omega
  have f8_3 : fld N 8 3 = g.val := by simp only [fld]; omega
  have f11_5 : fld N 11 5 = 0 := by simp only [fld]; omega
  have f16_5 : fld N 16 5 = a.val := by simp only [fld]; omega
  have f21_5 : fld N 21 5 = d.val := by simp only [fld]; omega
  have f26_6 : fld N 26 6 = 1 := by simp only [fld]; omega
  refine ofParse (n := N) (by rw [hn]; rfl) (by omega) ?_
  simp [parse, decodeAlu, f0_8, f8_3, f11_5, f16_5, f21_5, f26_6, sregVal, pregVal]
theorem sext (d : SReg) (a : SReg) (b : SReg) (g : PReg) : Statement (.sext d a b g) := by
  have := d.isLt
  have := a.isLt
  have := b.isLt
  have := g.isLt
  obtain ⟨N, hn⟩ : ∃ N, N = 0x04000019 + d.val * 2097152 + a.val * 65536 + b.val * 2048 + g.val * 256 := ⟨_, rfl⟩
  have f0_8 : fld N 0 8 = 25 := by simp only [fld]; omega
  have f8_3 : fld N 8 3 = g.val := by simp only [fld]; omega
  have f11_5 : fld N 11 5 = b.val := by simp only [fld]; omega
  have f16_5 : fld N 16 5 = a.val := by simp only [fld]; omega
  have f21_5 : fld N 21 5 = d.val := by simp only [fld]; omega
  have f26_6 : fld N 26 6 = 1 := by simp only [fld]; omega
  refine ofParse (n := N) (by rw [hn]; rfl) (by omega) ?_
  simp [parse, decodeAlu, f0_8, f8_3, f11_5, f16_5, f21_5, f26_6, sregVal, pregVal]
theorem zext (d : SReg) (a : SReg) (b : SReg) (g : PReg) : Statement (.zext d a b g) := by
  have := d.isLt
  have := a.isLt
  have := b.isLt
  have := g.isLt
  obtain ⟨N, hn⟩ : ∃ N, N = 0x0400001A + d.val * 2097152 + a.val * 65536 + b.val * 2048 + g.val * 256 := ⟨_, rfl⟩
  have f0_8 : fld N 0 8 = 26 := by simp only [fld]; omega
  have f8_3 : fld N 8 3 = g.val := by simp only [fld]; omega
  have f11_5 : fld N 11 5 = b.val := by simp only [fld]; omega
  have f16_5 : fld N 16 5 = a.val := by simp only [fld]; omega
  have f21_5 : fld N 21 5 = d.val := by simp only [fld]; omega
  have f26_6 : fld N 26 6 = 1 := by simp only [fld]; omega
  refine ofParse (n := N) (by rw [hn]; rfl) (by omega) ?_
  simp [parse, decodeAlu, f0_8, f8_3, f11_5, f16_5, f21_5, f26_6, sregVal, pregVal]
theorem sel (d : SReg) (a : SReg) (b : SReg) (p : PReg) : Statement (.sel d a b p) := by
  have := d.isLt
  have := a.isLt
  have := b.isLt
  have := p.isLt
  obtain ⟨N, hn⟩ : ∃ N, N = 0x0400001B + d.val * 2097152 + a.val * 65536 + b.val * 2048 + p.val * 256 := ⟨_, rfl⟩
  have f0_8 : fld N 0 8 = 27 := by simp only [fld]; omega
  have f8_3 : fld N 8 3 = p.val := by simp only [fld]; omega
  have f11_5 : fld N 11 5 = b.val := by simp only [fld]; omega
  have f16_5 : fld N 16 5 = a.val := by simp only [fld]; omega
  have f21_5 : fld N 21 5 = d.val := by simp only [fld]; omega
  have f26_6 : fld N 26 6 = 1 := by simp only [fld]; omega
  refine ofParse (n := N) (by rw [hn]; rfl) (by omega) ?_
  simp [parse, decodeAlu, f0_8, f8_3, f11_5, f16_5, f21_5, f26_6, sregVal, pregVal]
theorem addi (d : SReg) (a : SReg) (i : BitVec 16) : Statement (.addi d a i) := by
  have := d.isLt
  have := a.isLt
  have := i.isLt
  obtain ⟨N, hn⟩ : ∃ N, N = 0x08000000 + d.val * 2097152 + a.val * 65536 + i.toNat := ⟨_, rfl⟩
  have f0_16 : fld N 0 16 = i.toNat := by simp only [fld]; omega
  have f16_5 : fld N 16 5 = a.val := by simp only [fld]; omega
  have f21_5 : fld N 21 5 = d.val := by simp only [fld]; omega
  have f26_6 : fld N 26 6 = 2 := by simp only [fld]; omega
  refine ofParse (n := N) (by rw [hn]; rfl) (by omega) ?_
  simp [parse, decodeAddi, f0_16, f16_5, f21_5, f26_6, sregVal]
theorem andi (d : SReg) (a : SReg) (i : BitVec 16) : Statement (.andi d a i) := by
  have := d.isLt
  have := a.isLt
  have := i.isLt
  obtain ⟨N, hn⟩ : ∃ N, N = 0x0C000000 + d.val * 2097152 + a.val * 65536 + i.toNat := ⟨_, rfl⟩
  have f0_16 : fld N 0 16 = i.toNat := by simp only [fld]; omega
  have f16_5 : fld N 16 5 = a.val := by simp only [fld]; omega
  have f21_5 : fld N 21 5 = d.val := by simp only [fld]; omega
  have f26_6 : fld N 26 6 = 3 := by simp only [fld]; omega
  refine ofParse (n := N) (by rw [hn]; rfl) (by omega) ?_
  simp [parse, decodeAndi, f0_16, f16_5, f21_5, f26_6, sregVal]
theorem ori (d : SReg) (a : SReg) (i : BitVec 16) : Statement (.ori d a i) := by
  have := d.isLt
  have := a.isLt
  have := i.isLt
  obtain ⟨N, hn⟩ : ∃ N, N = 0x10000000 + d.val * 2097152 + a.val * 65536 + i.toNat := ⟨_, rfl⟩
  have f0_16 : fld N 0 16 = i.toNat := by simp only [fld]; omega
  have f16_5 : fld N 16 5 = a.val := by simp only [fld]; omega
  have f21_5 : fld N 21 5 = d.val := by simp only [fld]; omega
  have f26_6 : fld N 26 6 = 4 := by simp only [fld]; omega
  refine ofParse (n := N) (by rw [hn]; rfl) (by omega) ?_
  simp [parse, decodeOri, f0_16, f16_5, f21_5, f26_6, sregVal]
theorem xori (d : SReg) (a : SReg) (i : BitVec 16) : Statement (.xori d a i) := by
  have := d.isLt
  have := a.isLt
  have := i.isLt
  obtain ⟨N, hn⟩ : ∃ N, N = 0x14000000 + d.val * 2097152 + a.val * 65536 + i.toNat := ⟨_, rfl⟩
  have f0_16 : fld N 0 16 = i.toNat := by simp only [fld]; omega
  have f16_5 : fld N 16 5 = a.val := by simp only [fld]; omega
  have f21_5 : fld N 21 5 = d.val := by simp only [fld]; omega
  have f26_6 : fld N 26 6 = 5 := by simp only [fld]; omega
  refine ofParse (n := N) (by rw [hn]; rfl) (by omega) ?_
  simp [parse, decodeXori, f0_16, f16_5, f21_5, f26_6, sregVal]
theorem shfiShl (d : SReg) (a : SReg) (c : BitVec 6) : Statement (.shfiShl d a c) := by
  have := d.isLt
  have := a.isLt
  have := c.isLt
  obtain ⟨N, hn⟩ : ∃ N, N = 0x18000000 + d.val * 2097152 + a.val * 65536 + c.toNat := ⟨_, rfl⟩
  have f0_6 : fld N 0 6 = c.toNat := by simp only [fld]; omega
  have f6_2 : fld N 6 2 = 0 := by simp only [fld]; omega
  have f8_8 : fld N 8 8 = 0 := by simp only [fld]; omega
  have f16_5 : fld N 16 5 = a.val := by simp only [fld]; omega
  have f21_5 : fld N 21 5 = d.val := by simp only [fld]; omega
  have f26_6 : fld N 26 6 = 6 := by simp only [fld]; omega
  refine ofParse (n := N) (by rw [hn]; rfl) (by omega) ?_
  simp [parse, decodeShfi, f0_6, f6_2, f8_8, f16_5, f21_5, f26_6, sregVal]
theorem shfiShr (d : SReg) (a : SReg) (c : BitVec 6) : Statement (.shfiShr d a c) := by
  have := d.isLt
  have := a.isLt
  have := c.isLt
  obtain ⟨N, hn⟩ : ∃ N, N = 0x18000040 + d.val * 2097152 + a.val * 65536 + c.toNat := ⟨_, rfl⟩
  have f0_6 : fld N 0 6 = c.toNat := by simp only [fld]; omega
  have f6_2 : fld N 6 2 = 1 := by simp only [fld]; omega
  have f8_8 : fld N 8 8 = 0 := by simp only [fld]; omega
  have f16_5 : fld N 16 5 = a.val := by simp only [fld]; omega
  have f21_5 : fld N 21 5 = d.val := by simp only [fld]; omega
  have f26_6 : fld N 26 6 = 6 := by simp only [fld]; omega
  refine ofParse (n := N) (by rw [hn]; rfl) (by omega) ?_
  simp [parse, decodeShfi, f0_6, f6_2, f8_8, f16_5, f21_5, f26_6, sregVal]
theorem shfiSra (d : SReg) (a : SReg) (c : BitVec 6) : Statement (.shfiSra d a c) := by
  have := d.isLt
  have := a.isLt
  have := c.isLt
  obtain ⟨N, hn⟩ : ∃ N, N = 0x18000080 + d.val * 2097152 + a.val * 65536 + c.toNat := ⟨_, rfl⟩
  have f0_6 : fld N 0 6 = c.toNat := by simp only [fld]; omega
  have f6_2 : fld N 6 2 = 2 := by simp only [fld]; omega
  have f8_8 : fld N 8 8 = 0 := by simp only [fld]; omega
  have f16_5 : fld N 16 5 = a.val := by simp only [fld]; omega
  have f21_5 : fld N 21 5 = d.val := by simp only [fld]; omega
  have f26_6 : fld N 26 6 = 6 := by simp only [fld]; omega
  refine ofParse (n := N) (by rw [hn]; rfl) (by omega) ?_
  simp [parse, decodeShfi, f0_6, f6_2, f8_8, f16_5, f21_5, f26_6, sregVal]
theorem shfiRor (d : SReg) (a : SReg) (c : BitVec 6) : Statement (.shfiRor d a c) := by
  have := d.isLt
  have := a.isLt
  have := c.isLt
  obtain ⟨N, hn⟩ : ∃ N, N = 0x180000C0 + d.val * 2097152 + a.val * 65536 + c.toNat := ⟨_, rfl⟩
  have f0_6 : fld N 0 6 = c.toNat := by simp only [fld]; omega
  have f6_2 : fld N 6 2 = 3 := by simp only [fld]; omega
  have f8_8 : fld N 8 8 = 0 := by simp only [fld]; omega
  have f16_5 : fld N 16 5 = a.val := by simp only [fld]; omega
  have f21_5 : fld N 21 5 = d.val := by simp only [fld]; omega
  have f26_6 : fld N 26 6 = 6 := by simp only [fld]; omega
  refine ofParse (n := N) (by rw [hn]; rfl) (by omega) ?_
  simp [parse, decodeShfi, f0_6, f6_2, f8_8, f16_5, f21_5, f26_6, sregVal]
theorem muli (d : SReg) (a : SReg) (i : BitVec 16) : Statement (.muli d a i) := by
  have := d.isLt
  have := a.isLt
  have := i.isLt
  obtain ⟨N, hn⟩ : ∃ N, N = 0x1C000000 + d.val * 2097152 + a.val * 65536 + i.toNat := ⟨_, rfl⟩
  have f0_16 : fld N 0 16 = i.toNat := by simp only [fld]; omega
  have f16_5 : fld N 16 5 = a.val := by simp only [fld]; omega
  have f21_5 : fld N 21 5 = d.val := by simp only [fld]; omega
  have f26_6 : fld N 26 6 = 7 := by simp only [fld]; omega
  refine ofParse (n := N) (by rw [hn]; rfl) (by omega) ?_
  simp [parse, decodeMuli, f0_16, f16_5, f21_5, f26_6, sregVal]
theorem li (d : SReg) (i : BitVec 16) : Statement (.li d i) := by
  have := d.isLt
  have := i.isLt
  obtain ⟨N, hn⟩ : ∃ N, N = 0x20000000 + d.val * 2097152 + i.toNat := ⟨_, rfl⟩
  have f0_16 : fld N 0 16 = i.toNat := by simp only [fld]; omega
  have f16_5 : fld N 16 5 = 0 := by simp only [fld]; omega
  have f21_5 : fld N 21 5 = d.val := by simp only [fld]; omega
  have f26_6 : fld N 26 6 = 8 := by simp only [fld]; omega
  refine ofParse (n := N) (by rw [hn]; rfl) (by omega) ?_
  simp [parse, decodeLi, f0_16, f16_5, f21_5, f26_6, sregVal]
theorem lis (d : SReg) (i : BitVec 16) : Statement (.lis d i) := by
  have := d.isLt
  have := i.isLt
  obtain ⟨N, hn⟩ : ∃ N, N = 0x24000000 + d.val * 2097152 + i.toNat := ⟨_, rfl⟩
  have f0_16 : fld N 0 16 = i.toNat := by simp only [fld]; omega
  have f16_5 : fld N 16 5 = 0 := by simp only [fld]; omega
  have f21_5 : fld N 21 5 = d.val := by simp only [fld]; omega
  have f26_6 : fld N 26 6 = 9 := by simp only [fld]; omega
  refine ofParse (n := N) (by rw [hn]; rfl) (by omega) ?_
  simp [parse, decodeLis, f0_16, f16_5, f21_5, f26_6, sregVal]
theorem setpEq (d : PReg) (a : SReg) (b : SReg) (g : PReg) : Statement (.setpEq d a b g) := by
  have := d.isLt
  have := a.isLt
  have := b.isLt
  have := g.isLt
  obtain ⟨N, hn⟩ : ∃ N, N = 0x28000000 + d.val * 2097152 + a.val * 65536 + b.val * 2048 + g.val * 256 := ⟨_, rfl⟩
  have f0_8 : fld N 0 8 = 0 := by simp only [fld]; omega
  have f8_3 : fld N 8 3 = g.val := by simp only [fld]; omega
  have f11_5 : fld N 11 5 = b.val := by simp only [fld]; omega
  have f16_5 : fld N 16 5 = a.val := by simp only [fld]; omega
  have f21_5 : fld N 21 5 = d.val := by simp only [fld]; omega
  have f26_6 : fld N 26 6 = 10 := by simp only [fld]; omega
  refine ofParse (n := N) (by rw [hn]; rfl) (by omega) ?_
  simp [parse, decodeSetp, f0_8, f8_3, f11_5, f16_5, f21_5, f26_6, need, sregVal, pregVal, pregVal?]
theorem setpNe (d : PReg) (a : SReg) (b : SReg) (g : PReg) : Statement (.setpNe d a b g) := by
  have := d.isLt
  have := a.isLt
  have := b.isLt
  have := g.isLt
  obtain ⟨N, hn⟩ : ∃ N, N = 0x28000001 + d.val * 2097152 + a.val * 65536 + b.val * 2048 + g.val * 256 := ⟨_, rfl⟩
  have f0_8 : fld N 0 8 = 1 := by simp only [fld]; omega
  have f8_3 : fld N 8 3 = g.val := by simp only [fld]; omega
  have f11_5 : fld N 11 5 = b.val := by simp only [fld]; omega
  have f16_5 : fld N 16 5 = a.val := by simp only [fld]; omega
  have f21_5 : fld N 21 5 = d.val := by simp only [fld]; omega
  have f26_6 : fld N 26 6 = 10 := by simp only [fld]; omega
  refine ofParse (n := N) (by rw [hn]; rfl) (by omega) ?_
  simp [parse, decodeSetp, f0_8, f8_3, f11_5, f16_5, f21_5, f26_6, need, sregVal, pregVal, pregVal?]
theorem setpLt (d : PReg) (a : SReg) (b : SReg) (g : PReg) : Statement (.setpLt d a b g) := by
  have := d.isLt
  have := a.isLt
  have := b.isLt
  have := g.isLt
  obtain ⟨N, hn⟩ : ∃ N, N = 0x28000002 + d.val * 2097152 + a.val * 65536 + b.val * 2048 + g.val * 256 := ⟨_, rfl⟩
  have f0_8 : fld N 0 8 = 2 := by simp only [fld]; omega
  have f8_3 : fld N 8 3 = g.val := by simp only [fld]; omega
  have f11_5 : fld N 11 5 = b.val := by simp only [fld]; omega
  have f16_5 : fld N 16 5 = a.val := by simp only [fld]; omega
  have f21_5 : fld N 21 5 = d.val := by simp only [fld]; omega
  have f26_6 : fld N 26 6 = 10 := by simp only [fld]; omega
  refine ofParse (n := N) (by rw [hn]; rfl) (by omega) ?_
  simp [parse, decodeSetp, f0_8, f8_3, f11_5, f16_5, f21_5, f26_6, need, sregVal, pregVal, pregVal?]
theorem setpGe (d : PReg) (a : SReg) (b : SReg) (g : PReg) : Statement (.setpGe d a b g) := by
  have := d.isLt
  have := a.isLt
  have := b.isLt
  have := g.isLt
  obtain ⟨N, hn⟩ : ∃ N, N = 0x28000003 + d.val * 2097152 + a.val * 65536 + b.val * 2048 + g.val * 256 := ⟨_, rfl⟩
  have f0_8 : fld N 0 8 = 3 := by simp only [fld]; omega
  have f8_3 : fld N 8 3 = g.val := by simp only [fld]; omega
  have f11_5 : fld N 11 5 = b.val := by simp only [fld]; omega
  have f16_5 : fld N 16 5 = a.val := by simp only [fld]; omega
  have f21_5 : fld N 21 5 = d.val := by simp only [fld]; omega
  have f26_6 : fld N 26 6 = 10 := by simp only [fld]; omega
  refine ofParse (n := N) (by rw [hn]; rfl) (by omega) ?_
  simp [parse, decodeSetp, f0_8, f8_3, f11_5, f16_5, f21_5, f26_6, need, sregVal, pregVal, pregVal?]
theorem setpLtn (d : PReg) (a : SReg) (b : SReg) (g : PReg) : Statement (.setpLtn d a b g) := by
  have := d.isLt
  have := a.isLt
  have := b.isLt
  have := g.isLt
  obtain ⟨N, hn⟩ : ∃ N, N = 0x28000004 + d.val * 2097152 + a.val * 65536 + b.val * 2048 + g.val * 256 := ⟨_, rfl⟩
  have f0_8 : fld N 0 8 = 4 := by simp only [fld]; omega
  have f8_3 : fld N 8 3 = g.val := by simp only [fld]; omega
  have f11_5 : fld N 11 5 = b.val := by simp only [fld]; omega
  have f16_5 : fld N 16 5 = a.val := by simp only [fld]; omega
  have f21_5 : fld N 21 5 = d.val := by simp only [fld]; omega
  have f26_6 : fld N 26 6 = 10 := by simp only [fld]; omega
  refine ofParse (n := N) (by rw [hn]; rfl) (by omega) ?_
  simp [parse, decodeSetp, f0_8, f8_3, f11_5, f16_5, f21_5, f26_6, need, sregVal, pregVal, pregVal?]
theorem setpGen (d : PReg) (a : SReg) (b : SReg) (g : PReg) : Statement (.setpGen d a b g) := by
  have := d.isLt
  have := a.isLt
  have := b.isLt
  have := g.isLt
  obtain ⟨N, hn⟩ : ∃ N, N = 0x28000005 + d.val * 2097152 + a.val * 65536 + b.val * 2048 + g.val * 256 := ⟨_, rfl⟩
  have f0_8 : fld N 0 8 = 5 := by simp only [fld]; omega
  have f8_3 : fld N 8 3 = g.val := by simp only [fld]; omega
  have f11_5 : fld N 11 5 = b.val := by simp only [fld]; omega
  have f16_5 : fld N 16 5 = a.val := by simp only [fld]; omega
  have f21_5 : fld N 21 5 = d.val := by simp only [fld]; omega
  have f26_6 : fld N 26 6 = 10 := by simp only [fld]; omega
  refine ofParse (n := N) (by rw [hn]; rfl) (by omega) ?_
  simp [parse, decodeSetp, f0_8, f8_3, f11_5, f16_5, f21_5, f26_6, need, sregVal, pregVal, pregVal?]
theorem setpiEq (p : PReg) (a : SReg) (i : BitVec 16) : Statement (.setpiEq p a i) := by
  have := p.isLt
  have := a.isLt
  have := i.isLt
  obtain ⟨N, hn⟩ : ∃ N, N = 0x2C000000 + p.val * 2097152 + a.val * 65536 + i.toNat := ⟨_, rfl⟩
  have f0_16 : fld N 0 16 = i.toNat := by simp only [fld]; omega
  have f16_5 : fld N 16 5 = a.val := by simp only [fld]; omega
  have f21_3 : fld N 21 3 = p.val := by simp only [fld]; omega
  have f24_2 : fld N 24 2 = 0 := by simp only [fld]; omega
  have f26_6 : fld N 26 6 = 11 := by simp only [fld]; omega
  refine ofParse (n := N) (by rw [hn]; rfl) (by omega) ?_
  simp [parse, decodeSetpi, f0_16, f16_5, f21_3, f24_2, f26_6, sregVal, pregVal]
theorem setpiNe (p : PReg) (a : SReg) (i : BitVec 16) : Statement (.setpiNe p a i) := by
  have := p.isLt
  have := a.isLt
  have := i.isLt
  obtain ⟨N, hn⟩ : ∃ N, N = 0x2D000000 + p.val * 2097152 + a.val * 65536 + i.toNat := ⟨_, rfl⟩
  have f0_16 : fld N 0 16 = i.toNat := by simp only [fld]; omega
  have f16_5 : fld N 16 5 = a.val := by simp only [fld]; omega
  have f21_3 : fld N 21 3 = p.val := by simp only [fld]; omega
  have f24_2 : fld N 24 2 = 1 := by simp only [fld]; omega
  have f26_6 : fld N 26 6 = 11 := by simp only [fld]; omega
  refine ofParse (n := N) (by rw [hn]; rfl) (by omega) ?_
  simp [parse, decodeSetpi, f0_16, f16_5, f21_3, f24_2, f26_6, sregVal, pregVal]
theorem setpiLt (p : PReg) (a : SReg) (i : BitVec 16) : Statement (.setpiLt p a i) := by
  have := p.isLt
  have := a.isLt
  have := i.isLt
  obtain ⟨N, hn⟩ : ∃ N, N = 0x2E000000 + p.val * 2097152 + a.val * 65536 + i.toNat := ⟨_, rfl⟩
  have f0_16 : fld N 0 16 = i.toNat := by simp only [fld]; omega
  have f16_5 : fld N 16 5 = a.val := by simp only [fld]; omega
  have f21_3 : fld N 21 3 = p.val := by simp only [fld]; omega
  have f24_2 : fld N 24 2 = 2 := by simp only [fld]; omega
  have f26_6 : fld N 26 6 = 11 := by simp only [fld]; omega
  refine ofParse (n := N) (by rw [hn]; rfl) (by omega) ?_
  simp [parse, decodeSetpi, f0_16, f16_5, f21_3, f24_2, f26_6, sregVal, pregVal]
theorem setpiGe (p : PReg) (a : SReg) (i : BitVec 16) : Statement (.setpiGe p a i) := by
  have := p.isLt
  have := a.isLt
  have := i.isLt
  obtain ⟨N, hn⟩ : ∃ N, N = 0x2F000000 + p.val * 2097152 + a.val * 65536 + i.toNat := ⟨_, rfl⟩
  have f0_16 : fld N 0 16 = i.toNat := by simp only [fld]; omega
  have f16_5 : fld N 16 5 = a.val := by simp only [fld]; omega
  have f21_3 : fld N 21 3 = p.val := by simp only [fld]; omega
  have f24_2 : fld N 24 2 = 3 := by simp only [fld]; omega
  have f26_6 : fld N 26 6 = 11 := by simp only [fld]; omega
  refine ofParse (n := N) (by rw [hn]; rfl) (by omega) ?_
  simp [parse, decodeSetpi, f0_16, f16_5, f21_3, f24_2, f26_6, sregVal, pregVal]
theorem pand (d : PReg) (a : PReg) (b : PReg) (g : PReg) : Statement (.pand d a b g) := by
  have := d.isLt
  have := a.isLt
  have := b.isLt
  have := g.isLt
  obtain ⟨N, hn⟩ : ∃ N, N = 0x30000000 + d.val * 2097152 + a.val * 65536 + b.val * 2048 + g.val * 256 := ⟨_, rfl⟩
  have f0_8 : fld N 0 8 = 0 := by simp only [fld]; omega
  have f8_3 : fld N 8 3 = g.val := by simp only [fld]; omega
  have f11_5 : fld N 11 5 = b.val := by simp only [fld]; omega
  have f16_5 : fld N 16 5 = a.val := by simp only [fld]; omega
  have f21_5 : fld N 21 5 = d.val := by simp only [fld]; omega
  have f26_6 : fld N 26 6 = 12 := by simp only [fld]; omega
  refine ofParse (n := N) (by rw [hn]; rfl) (by omega) ?_
  simp [parse, decodePlog, f0_8, f8_3, f11_5, f16_5, f21_5, f26_6, need, pregVal, pregVal?]
theorem por (d : PReg) (a : PReg) (b : PReg) (g : PReg) : Statement (.por d a b g) := by
  have := d.isLt
  have := a.isLt
  have := b.isLt
  have := g.isLt
  obtain ⟨N, hn⟩ : ∃ N, N = 0x30000001 + d.val * 2097152 + a.val * 65536 + b.val * 2048 + g.val * 256 := ⟨_, rfl⟩
  have f0_8 : fld N 0 8 = 1 := by simp only [fld]; omega
  have f8_3 : fld N 8 3 = g.val := by simp only [fld]; omega
  have f11_5 : fld N 11 5 = b.val := by simp only [fld]; omega
  have f16_5 : fld N 16 5 = a.val := by simp only [fld]; omega
  have f21_5 : fld N 21 5 = d.val := by simp only [fld]; omega
  have f26_6 : fld N 26 6 = 12 := by simp only [fld]; omega
  refine ofParse (n := N) (by rw [hn]; rfl) (by omega) ?_
  simp [parse, decodePlog, f0_8, f8_3, f11_5, f16_5, f21_5, f26_6, need, pregVal, pregVal?]
theorem pxor (d : PReg) (a : PReg) (b : PReg) (g : PReg) : Statement (.pxor d a b g) := by
  have := d.isLt
  have := a.isLt
  have := b.isLt
  have := g.isLt
  obtain ⟨N, hn⟩ : ∃ N, N = 0x30000002 + d.val * 2097152 + a.val * 65536 + b.val * 2048 + g.val * 256 := ⟨_, rfl⟩
  have f0_8 : fld N 0 8 = 2 := by simp only [fld]; omega
  have f8_3 : fld N 8 3 = g.val := by simp only [fld]; omega
  have f11_5 : fld N 11 5 = b.val := by simp only [fld]; omega
  have f16_5 : fld N 16 5 = a.val := by simp only [fld]; omega
  have f21_5 : fld N 21 5 = d.val := by simp only [fld]; omega
  have f26_6 : fld N 26 6 = 12 := by simp only [fld]; omega
  refine ofParse (n := N) (by rw [hn]; rfl) (by omega) ?_
  simp [parse, decodePlog, f0_8, f8_3, f11_5, f16_5, f21_5, f26_6, need, pregVal, pregVal?]
theorem pnot (d : PReg) (a : PReg) (g : PReg) : Statement (.pnot d a g) := by
  have := d.isLt
  have := a.isLt
  have := g.isLt
  obtain ⟨N, hn⟩ : ∃ N, N = 0x30000003 + d.val * 2097152 + a.val * 65536 + g.val * 256 := ⟨_, rfl⟩
  have f0_8 : fld N 0 8 = 3 := by simp only [fld]; omega
  have f8_3 : fld N 8 3 = g.val := by simp only [fld]; omega
  have f11_5 : fld N 11 5 = 0 := by simp only [fld]; omega
  have f16_5 : fld N 16 5 = a.val := by simp only [fld]; omega
  have f21_5 : fld N 21 5 = d.val := by simp only [fld]; omega
  have f26_6 : fld N 26 6 = 12 := by simp only [fld]; omega
  refine ofParse (n := N) (by rw [hn]; rfl) (by omega) ?_
  simp [parse, decodePlog, f0_8, f8_3, f11_5, f16_5, f21_5, f26_6, need, pregVal, pregVal?]
theorem pmov (d : PReg) (a : PReg) (g : PReg) : Statement (.pmov d a g) := by
  have := d.isLt
  have := a.isLt
  have := g.isLt
  obtain ⟨N, hn⟩ : ∃ N, N = 0x30000004 + d.val * 2097152 + a.val * 65536 + g.val * 256 := ⟨_, rfl⟩
  have f0_8 : fld N 0 8 = 4 := by simp only [fld]; omega
  have f8_3 : fld N 8 3 = g.val := by simp only [fld]; omega
  have f11_5 : fld N 11 5 = 0 := by simp only [fld]; omega
  have f16_5 : fld N 16 5 = a.val := by simp only [fld]; omega
  have f21_5 : fld N 21 5 = d.val := by simp only [fld]; omega
  have f26_6 : fld N 26 6 = 12 := by simp only [fld]; omega
  refine ofParse (n := N) (by rw [hn]; rfl) (by omega) ?_
  simp [parse, decodePlog, f0_8, f8_3, f11_5, f16_5, f21_5, f26_6, need, pregVal, pregVal?]
theorem ptos (d : SReg) (a : PReg) (g : PReg) : Statement (.ptos d a g) := by
  have := d.isLt
  have := a.isLt
  have := g.isLt
  obtain ⟨N, hn⟩ : ∃ N, N = 0x30000005 + d.val * 2097152 + a.val * 65536 + g.val * 256 := ⟨_, rfl⟩
  have f0_8 : fld N 0 8 = 5 := by simp only [fld]; omega
  have f8_3 : fld N 8 3 = g.val := by simp only [fld]; omega
  have f11_5 : fld N 11 5 = 0 := by simp only [fld]; omega
  have f16_5 : fld N 16 5 = a.val := by simp only [fld]; omega
  have f21_5 : fld N 21 5 = d.val := by simp only [fld]; omega
  have f26_6 : fld N 26 6 = 12 := by simp only [fld]; omega
  refine ofParse (n := N) (by rw [hn]; rfl) (by omega) ?_
  simp [parse, decodePlog, f0_8, f8_3, f11_5, f16_5, f21_5, f26_6, need, sregVal, pregVal, pregVal?]
theorem mkptr (d : SReg) (a : SReg) (b : SReg) (g : PReg) : Statement (.mkptr d a b g) := by
  have := d.isLt
  have := a.isLt
  have := b.isLt
  have := g.isLt
  obtain ⟨N, hn⟩ : ∃ N, N = 0x34000000 + d.val * 2097152 + a.val * 65536 + b.val * 2048 + g.val * 256 := ⟨_, rfl⟩
  have f0_8 : fld N 0 8 = 0 := by simp only [fld]; omega
  have f8_3 : fld N 8 3 = g.val := by simp only [fld]; omega
  have f11_5 : fld N 11 5 = b.val := by simp only [fld]; omega
  have f16_5 : fld N 16 5 = a.val := by simp only [fld]; omega
  have f21_5 : fld N 21 5 = d.val := by simp only [fld]; omega
  have f26_6 : fld N 26 6 = 13 := by simp only [fld]; omega
  refine ofParse (n := N) (by rw [hn]; rfl) (by omega) ?_
  simp [parse, decodePtr, f0_8, f8_3, f11_5, f16_5, f21_5, f26_6, sregVal, pregVal]
theorem pspc (d : SReg) (a : SReg) (g : PReg) : Statement (.pspc d a g) := by
  have := d.isLt
  have := a.isLt
  have := g.isLt
  obtain ⟨N, hn⟩ : ∃ N, N = 0x34000001 + d.val * 2097152 + a.val * 65536 + g.val * 256 := ⟨_, rfl⟩
  have f0_8 : fld N 0 8 = 1 := by simp only [fld]; omega
  have f8_3 : fld N 8 3 = g.val := by simp only [fld]; omega
  have f11_5 : fld N 11 5 = 0 := by simp only [fld]; omega
  have f16_5 : fld N 16 5 = a.val := by simp only [fld]; omega
  have f21_5 : fld N 21 5 = d.val := by simp only [fld]; omega
  have f26_6 : fld N 26 6 = 13 := by simp only [fld]; omega
  refine ofParse (n := N) (by rw [hn]; rfl) (by omega) ?_
  simp [parse, decodePtr, f0_8, f8_3, f11_5, f16_5, f21_5, f26_6, sregVal, pregVal]
theorem padd (d : SReg) (a : SReg) (b : SReg) (g : PReg) : Statement (.padd d a b g) := by
  have := d.isLt
  have := a.isLt
  have := b.isLt
  have := g.isLt
  obtain ⟨N, hn⟩ : ∃ N, N = 0x34000002 + d.val * 2097152 + a.val * 65536 + b.val * 2048 + g.val * 256 := ⟨_, rfl⟩
  have f0_8 : fld N 0 8 = 2 := by simp only [fld]; omega
  have f8_3 : fld N 8 3 = g.val := by simp only [fld]; omega
  have f11_5 : fld N 11 5 = b.val := by simp only [fld]; omega
  have f16_5 : fld N 16 5 = a.val := by simp only [fld]; omega
  have f21_5 : fld N 21 5 = d.val := by simp only [fld]; omega
  have f26_6 : fld N 26 6 = 13 := by simp only [fld]; omega
  refine ofParse (n := N) (by rw [hn]; rfl) (by omega) ?_
  simp [parse, decodePtr, f0_8, f8_3, f11_5, f16_5, f21_5, f26_6, sregVal, pregVal]
theorem pcore (d : SReg) (a : SReg) (b : SReg) (g : PReg) : Statement (.pcore d a b g) := by
  have := d.isLt
  have := a.isLt
  have := b.isLt
  have := g.isLt
  obtain ⟨N, hn⟩ : ∃ N, N = 0x34000003 + d.val * 2097152 + a.val * 65536 + b.val * 2048 + g.val * 256 := ⟨_, rfl⟩
  have f0_8 : fld N 0 8 = 3 := by simp only [fld]; omega
  have f8_3 : fld N 8 3 = g.val := by simp only [fld]; omega
  have f11_5 : fld N 11 5 = b.val := by simp only [fld]; omega
  have f16_5 : fld N 16 5 = a.val := by simp only [fld]; omega
  have f21_5 : fld N 21 5 = d.val := by simp only [fld]; omega
  have f26_6 : fld N 26 6 = 13 := by simp only [fld]; omega
  refine ofParse (n := N) (by rw [hn]; rfl) (by omega) ?_
  simp [parse, decodePtr, f0_8, f8_3, f11_5, f16_5, f21_5, f26_6, sregVal, pregVal]
theorem keylk (d : SReg) (a : SReg) (b : SReg) (g : PReg) : Statement (.keylk d a b g) := by
  have := d.isLt
  have := a.isLt
  have := b.isLt
  have := g.isLt
  obtain ⟨N, hn⟩ : ∃ N, N = 0x34000004 + d.val * 2097152 + a.val * 65536 + b.val * 2048 + g.val * 256 := ⟨_, rfl⟩
  have f0_8 : fld N 0 8 = 4 := by simp only [fld]; omega
  have f8_3 : fld N 8 3 = g.val := by simp only [fld]; omega
  have f11_5 : fld N 11 5 = b.val := by simp only [fld]; omega
  have f16_5 : fld N 16 5 = a.val := by simp only [fld]; omega
  have f21_5 : fld N 21 5 = d.val := by simp only [fld]; omega
  have f26_6 : fld N 26 6 = 13 := by simp only [fld]; omega
  refine ofParse (n := N) (by rw [hn]; rfl) (by omega) ?_
  simp [parse, decodePtr, f0_8, f8_3, f11_5, f16_5, f21_5, f26_6, sregVal, pregVal]
theorem br (g : PReg) (v : Bool) (o : BitVec 22) : Statement (.br g v o) := by
  have := g.isLt
  have := boolLt v
  have := o.isLt
  obtain ⟨N, hn⟩ : ∃ N, N = 0x40000000 + g.val * 8388608 + v.toNat * 4194304 + o.toNat := ⟨_, rfl⟩
  have f0_22 : fld N 0 22 = o.toNat := by simp only [fld]; omega
  have f22_1 : fld N 22 1 = v.toNat := by simp only [fld]; omega
  have f23_3 : fld N 23 3 = g.val := by simp only [fld]; omega
  have f26_6 : fld N 26 6 = 16 := by simp only [fld]; omega
  refine ofParse (n := N) (by rw [hn]; rfl) (by omega) ?_
  simp [parse, decodeBr, f0_22, f22_1, f23_3, f26_6, pregVal]
theorem call (g : PReg) (v : Bool) (o : BitVec 22) : Statement (.call g v o) := by
  have := g.isLt
  have := boolLt v
  have := o.isLt
  obtain ⟨N, hn⟩ : ∃ N, N = 0x44000000 + g.val * 8388608 + v.toNat * 4194304 + o.toNat := ⟨_, rfl⟩
  have f0_22 : fld N 0 22 = o.toNat := by simp only [fld]; omega
  have f22_1 : fld N 22 1 = v.toNat := by simp only [fld]; omega
  have f23_3 : fld N 23 3 = g.val := by simp only [fld]; omega
  have f26_6 : fld N 26 6 = 17 := by simp only [fld]; omega
  refine ofParse (n := N) (by rw [hn]; rfl) (by omega) ?_
  simp [parse, decodeCall, f0_22, f22_1, f23_3, f26_6, pregVal]
theorem jr (a : SReg) (g : PReg) : Statement (.jr a g) := by
  have := a.isLt
  have := g.isLt
  obtain ⟨N, hn⟩ : ∃ N, N = 0x48000000 + a.val * 65536 + g.val * 256 := ⟨_, rfl⟩
  have f0_8 : fld N 0 8 = 0 := by simp only [fld]; omega
  have f8_3 : fld N 8 3 = g.val := by simp only [fld]; omega
  have f11_5 : fld N 11 5 = 0 := by simp only [fld]; omega
  have f16_5 : fld N 16 5 = a.val := by simp only [fld]; omega
  have f21_5 : fld N 21 5 = 0 := by simp only [fld]; omega
  have f26_6 : fld N 26 6 = 18 := by simp only [fld]; omega
  refine ofParse (n := N) (by rw [hn]; rfl) (by omega) ?_
  simp [parse, decodeJr, f0_8, f8_3, f11_5, f16_5, f21_5, f26_6, sregVal, pregVal]
theorem jalr (d : SReg) (a : SReg) (g : PReg) : Statement (.jalr d a g) := by
  have := d.isLt
  have := a.isLt
  have := g.isLt
  obtain ⟨N, hn⟩ : ∃ N, N = 0x48000001 + d.val * 2097152 + a.val * 65536 + g.val * 256 := ⟨_, rfl⟩
  have f0_8 : fld N 0 8 = 1 := by simp only [fld]; omega
  have f8_3 : fld N 8 3 = g.val := by simp only [fld]; omega
  have f11_5 : fld N 11 5 = 0 := by simp only [fld]; omega
  have f16_5 : fld N 16 5 = a.val := by simp only [fld]; omega
  have f21_5 : fld N 21 5 = d.val := by simp only [fld]; omega
  have f26_6 : fld N 26 6 = 18 := by simp only [fld]; omega
  refine ofParse (n := N) (by rw [hn]; rfl) (by omega) ?_
  simp [parse, decodeJr, f0_8, f8_3, f11_5, f16_5, f21_5, f26_6, sregVal, pregVal]
theorem ret (g : PReg) : Statement (.ret g) := by
  have := g.isLt
  obtain ⟨N, hn⟩ : ∃ N, N = 0x48000002 + g.val * 256 := ⟨_, rfl⟩
  have f0_8 : fld N 0 8 = 2 := by simp only [fld]; omega
  have f8_3 : fld N 8 3 = g.val := by simp only [fld]; omega
  have f11_15 : fld N 11 15 = 0 := by simp only [fld]; omega
  have f26_6 : fld N 26 6 = 18 := by simp only [fld]; omega
  refine ofParse (n := N) (by rw [hn]; rfl) (by omega) ?_
  simp [parse, decodeJr, f0_8, f8_3, f11_15, f26_6, pregVal]
theorem jtab (d : SReg) (a : SReg) (n : BitVec 16) : Statement (.jtab d a n) := by
  have := d.isLt
  have := a.isLt
  have := n.isLt
  obtain ⟨N, hn⟩ : ∃ N, N = 0x4C000000 + d.val * 2097152 + a.val * 65536 + n.toNat := ⟨_, rfl⟩
  have f0_16 : fld N 0 16 = n.toNat := by simp only [fld]; omega
  have f16_5 : fld N 16 5 = a.val := by simp only [fld]; omega
  have f21_5 : fld N 21 5 = d.val := by simp only [fld]; omega
  have f26_6 : fld N 26 6 = 19 := by simp only [fld]; omega
  refine ofParse (n := N) (by rw [hn]; rfl) (by omega) ?_
  simp [parse, decodeJtab, f0_16, f16_5, f21_5, f26_6, sregVal]
theorem loop (a : SReg) (l : BitVec 16) : Statement (.loop a l) := by
  have := a.isLt
  have := l.isLt
  obtain ⟨N, hn⟩ : ∃ N, N = 0x50000000 + a.val * 65536 + l.toNat := ⟨_, rfl⟩
  have f0_16 : fld N 0 16 = l.toNat := by simp only [fld]; omega
  have f16_5 : fld N 16 5 = a.val := by simp only [fld]; omega
  have f21_5 : fld N 21 5 = 0 := by simp only [fld]; omega
  have f26_6 : fld N 26 6 = 20 := by simp only [fld]; omega
  refine ofParse (n := N) (by rw [hn]; rfl) (by omega) ?_
  simp [parse, decodeLoop, f0_16, f16_5, f21_5, f26_6, sregVal]
theorem loopi (l : BitVec 10) (c : BitVec 16) : Statement (.loopi l c) := by
  have := l.isLt
  have := c.isLt
  obtain ⟨N, hn⟩ : ∃ N, N = 0x54000000 + l.toNat * 65536 + c.toNat := ⟨_, rfl⟩
  have f0_16 : fld N 0 16 = c.toNat := by simp only [fld]; omega
  have f16_10 : fld N 16 10 = l.toNat := by simp only [fld]; omega
  have f26_6 : fld N 26 6 = 21 := by simp only [fld]; omega
  refine ofParse (n := N) (by rw [hn]; rfl) (by omega) ?_
  simp [parse, decodeLoopi, f0_16, f16_10, f26_6]
theorem lbrk (g : PReg) : Statement (.lbrk g) := by
  have := g.isLt
  obtain ⟨N, hn⟩ : ∃ N, N = 0x58000000 + g.val * 256 := ⟨_, rfl⟩
  have f0_8 : fld N 0 8 = 0 := by simp only [fld]; omega
  have f8_3 : fld N 8 3 = g.val := by simp only [fld]; omega
  have f11_15 : fld N 11 15 = 0 := by simp only [fld]; omega
  have f26_6 : fld N 26 6 = 22 := by simp only [fld]; omega
  refine ofParse (n := N) (by rw [hn]; rfl) (by omega) ?_
  simp [parse, decodeLbrk, f0_8, f8_3, f11_15, f26_6, pregVal]
theorem fork (g : PReg) : Statement (.fork g) := by
  have := g.isLt
  obtain ⟨N, hn⟩ : ∃ N, N = 0x5C000000 + g.val * 256 := ⟨_, rfl⟩
  have f0_8 : fld N 0 8 = 0 := by simp only [fld]; omega
  have f8_3 : fld N 8 3 = g.val := by simp only [fld]; omega
  have f11_15 : fld N 11 15 = 0 := by simp only [fld]; omega
  have f26_6 : fld N 26 6 = 23 := by simp only [fld]; omega
  refine ofParse (n := N) (by rw [hn]; rfl) (by omega) ?_
  simp [parse, decodeQbank, f0_8, f8_3, f11_15, f26_6, pregVal]
theorem swq (g : PReg) : Statement (.swq g) := by
  have := g.isLt
  obtain ⟨N, hn⟩ : ∃ N, N = 0x5C000001 + g.val * 256 := ⟨_, rfl⟩
  have f0_8 : fld N 0 8 = 1 := by simp only [fld]; omega
  have f8_3 : fld N 8 3 = g.val := by simp only [fld]; omega
  have f11_15 : fld N 11 15 = 0 := by simp only [fld]; omega
  have f26_6 : fld N 26 6 = 23 := by simp only [fld]; omega
  refine ofParse (n := N) (by rw [hn]; rfl) (by omega) ?_
  simp [parse, decodeQbank, f0_8, f8_3, f11_15, f26_6, pregVal]
theorem pick (p : PReg) (g : PReg) : Statement (.pick p g) := by
  have := p.isLt
  have := g.isLt
  obtain ⟨N, hn⟩ : ∃ N, N = 0x5C000002 + p.val * 2048 + g.val * 256 := ⟨_, rfl⟩
  have f0_8 : fld N 0 8 = 2 := by simp only [fld]; omega
  have f8_3 : fld N 8 3 = g.val := by simp only [fld]; omega
  have f11_5 : fld N 11 5 = p.val := by simp only [fld]; omega
  have f16_10 : fld N 16 10 = 0 := by simp only [fld]; omega
  have f26_6 : fld N 26 6 = 23 := by simp only [fld]; omega
  refine ofParse (n := N) (by rw [hn]; rfl) (by omega) ?_
  simp [parse, decodeQbank, f0_8, f8_3, f11_5, f16_10, f26_6, need, pregVal, pregVal?]
theorem ld (d : SReg) (a : SReg) (o : BitVec 8) (z : Size) (s : Scope) (m : Bool) : Statement (.ld d a o z s m) := by
  have := d.isLt
  have := a.isLt
  have := o.isLt
  have := sizeLt z
  have := scopeLt s
  have := boolLt m
  obtain ⟨N, hn⟩ : ∃ N, N = 0x60000000 + d.val * 2097152 + a.val * 65536 + o.toNat * 256 + z.code * 32 + s.code * 4 + m.toNat := ⟨_, rfl⟩
  have f0_2 : fld N 0 2 = m.toNat := by simp only [fld]; omega
  have f2_3 : fld N 2 3 = s.code := by simp only [fld]; omega
  have f5_3 : fld N 5 3 = z.code := by simp only [fld]; omega
  have f8_8 : fld N 8 8 = o.toNat := by simp only [fld]; omega
  have f16_5 : fld N 16 5 = a.val := by simp only [fld]; omega
  have f21_5 : fld N 21 5 = d.val := by simp only [fld]; omega
  have f26_6 : fld N 26 6 = 24 := by simp only [fld]; omega
  refine ofParse (n := N) (by rw [hn]; rfl) (by omega) ?_
  simp [parse, decodeLd, f0_2, f2_3, f5_3, f8_8, f16_5, f21_5, f26_6, need, sregVal, acqVal?, scopeVal, sizeVal]
theorem st (d : SReg) (a : SReg) (o : BitVec 8) (z : Size) (s : Scope) (m : Bool) : Statement (.st d a o z s m) := by
  have := d.isLt
  have := a.isLt
  have := o.isLt
  have := sizeLt z
  have := scopeLt s
  have := boolLt m
  obtain ⟨N, hn⟩ : ∃ N, N = 0x64000000 + d.val * 2097152 + a.val * 65536 + o.toNat * 256 + z.code * 32 + s.code * 4 + m.toNat * 2 := ⟨_, rfl⟩
  have f0_2 : fld N 0 2 = m.toNat * 2 := by simp only [fld]; omega
  have f2_3 : fld N 2 3 = s.code := by simp only [fld]; omega
  have f5_3 : fld N 5 3 = z.code := by simp only [fld]; omega
  have f8_8 : fld N 8 8 = o.toNat := by simp only [fld]; omega
  have f16_5 : fld N 16 5 = a.val := by simp only [fld]; omega
  have f21_5 : fld N 21 5 = d.val := by simp only [fld]; omega
  have f26_6 : fld N 26 6 = 25 := by simp only [fld]; omega
  refine ofParse (n := N) (by rw [hn]; rfl) (by omega) ?_
  simp [parse, decodeSt, f0_2, f2_3, f5_3, f8_8, f16_5, f21_5, f26_6, need, sregVal, relVal?, scopeVal, sizeVal]
theorem ldv (d : VReg) (a : SReg) (o : BitVec 8) (z : VSize) (s : Scope) (m : Bool) : Statement (.ldv d a o z s m) := by
  have := d.isLt
  have := a.isLt
  have := o.isLt
  have := vsizeLt z
  have := scopeLt s
  have := boolLt m
  obtain ⟨N, hn⟩ : ∃ N, N = 0x68000000 + d.val * 2097152 + a.val * 65536 + o.toNat * 256 + z.code * 32 + s.code * 4 + m.toNat := ⟨_, rfl⟩
  have f0_2 : fld N 0 2 = m.toNat := by simp only [fld]; omega
  have f2_3 : fld N 2 3 = s.code := by simp only [fld]; omega
  have f5_3 : fld N 5 3 = z.code := by simp only [fld]; omega
  have f8_8 : fld N 8 8 = o.toNat := by simp only [fld]; omega
  have f16_5 : fld N 16 5 = a.val := by simp only [fld]; omega
  have f21_5 : fld N 21 5 = d.val := by simp only [fld]; omega
  have f26_6 : fld N 26 6 = 26 := by simp only [fld]; omega
  refine ofParse (n := N) (by rw [hn]; rfl) (by omega) ?_
  simp [parse, decodeLdv, f0_2, f2_3, f5_3, f8_8, f16_5, f21_5, f26_6, need, sregVal, vregVal?, acqVal?, scopeVal, vsizeVal]
theorem stv (d : VReg) (a : SReg) (o : BitVec 8) (z : VSize) (s : Scope) (m : Bool) : Statement (.stv d a o z s m) := by
  have := d.isLt
  have := a.isLt
  have := o.isLt
  have := vsizeLt z
  have := scopeLt s
  have := boolLt m
  obtain ⟨N, hn⟩ : ∃ N, N = 0x6C000000 + d.val * 2097152 + a.val * 65536 + o.toNat * 256 + z.code * 32 + s.code * 4 + m.toNat * 2 := ⟨_, rfl⟩
  have f0_2 : fld N 0 2 = m.toNat * 2 := by simp only [fld]; omega
  have f2_3 : fld N 2 3 = s.code := by simp only [fld]; omega
  have f5_3 : fld N 5 3 = z.code := by simp only [fld]; omega
  have f8_8 : fld N 8 8 = o.toNat := by simp only [fld]; omega
  have f16_5 : fld N 16 5 = a.val := by simp only [fld]; omega
  have f21_5 : fld N 21 5 = d.val := by simp only [fld]; omega
  have f26_6 : fld N 26 6 = 27 := by simp only [fld]; omega
  refine ofParse (n := N) (by rw [hn]; rfl) (by omega) ?_
  simp [parse, decodeStv, f0_2, f2_3, f5_3, f8_8, f16_5, f21_5, f26_6, need, sregVal, vregVal?, relVal?, scopeVal, vsizeVal]
theorem amoAadd (d : SReg) (a : SReg) (b : SReg) (s : Scope) (r : Bool) (z : Bool) : Statement (.amoAadd d a b s r z) := by
  have := d.isLt
  have := a.isLt
  have := b.isLt
  have := scopeLt s
  have := boolLt r
  have := boolLt z
  obtain ⟨N, hn⟩ : ∃ N, N = 0x70000000 + d.val * 2097152 + a.val * 65536 + b.val * 2048 + s.code * 256 + r.toNat * 128 + z.toNat * 64 := ⟨_, rfl⟩
  have f0_6 : fld N 0 6 = 0 := by simp only [fld]; omega
  have f6_1 : fld N 6 1 = z.toNat := by simp only [fld]; omega
  have f7_1 : fld N 7 1 = r.toNat := by simp only [fld]; omega
  have f8_3 : fld N 8 3 = s.code := by simp only [fld]; omega
  have f11_5 : fld N 11 5 = b.val := by simp only [fld]; omega
  have f16_5 : fld N 16 5 = a.val := by simp only [fld]; omega
  have f21_5 : fld N 21 5 = d.val := by simp only [fld]; omega
  have f26_6 : fld N 26 6 = 28 := by simp only [fld]; omega
  refine ofParse (n := N) (by rw [hn]; rfl) (by omega) ?_
  simp [parse, decodeAmo, f0_6, f6_1, f7_1, f8_3, f11_5, f16_5, f21_5, f26_6, need, sregVal, scopeVal]
theorem amoAmin (d : SReg) (a : SReg) (b : SReg) (s : Scope) (r : Bool) (z : Bool) : Statement (.amoAmin d a b s r z) := by
  have := d.isLt
  have := a.isLt
  have := b.isLt
  have := scopeLt s
  have := boolLt r
  have := boolLt z
  obtain ⟨N, hn⟩ : ∃ N, N = 0x70000001 + d.val * 2097152 + a.val * 65536 + b.val * 2048 + s.code * 256 + r.toNat * 128 + z.toNat * 64 := ⟨_, rfl⟩
  have f0_6 : fld N 0 6 = 1 := by simp only [fld]; omega
  have f6_1 : fld N 6 1 = z.toNat := by simp only [fld]; omega
  have f7_1 : fld N 7 1 = r.toNat := by simp only [fld]; omega
  have f8_3 : fld N 8 3 = s.code := by simp only [fld]; omega
  have f11_5 : fld N 11 5 = b.val := by simp only [fld]; omega
  have f16_5 : fld N 16 5 = a.val := by simp only [fld]; omega
  have f21_5 : fld N 21 5 = d.val := by simp only [fld]; omega
  have f26_6 : fld N 26 6 = 28 := by simp only [fld]; omega
  refine ofParse (n := N) (by rw [hn]; rfl) (by omega) ?_
  simp [parse, decodeAmo, f0_6, f6_1, f7_1, f8_3, f11_5, f16_5, f21_5, f26_6, need, sregVal, scopeVal]
theorem amoAmax (d : SReg) (a : SReg) (b : SReg) (s : Scope) (r : Bool) (z : Bool) : Statement (.amoAmax d a b s r z) := by
  have := d.isLt
  have := a.isLt
  have := b.isLt
  have := scopeLt s
  have := boolLt r
  have := boolLt z
  obtain ⟨N, hn⟩ : ∃ N, N = 0x70000002 + d.val * 2097152 + a.val * 65536 + b.val * 2048 + s.code * 256 + r.toNat * 128 + z.toNat * 64 := ⟨_, rfl⟩
  have f0_6 : fld N 0 6 = 2 := by simp only [fld]; omega
  have f6_1 : fld N 6 1 = z.toNat := by simp only [fld]; omega
  have f7_1 : fld N 7 1 = r.toNat := by simp only [fld]; omega
  have f8_3 : fld N 8 3 = s.code := by simp only [fld]; omega
  have f11_5 : fld N 11 5 = b.val := by simp only [fld]; omega
  have f16_5 : fld N 16 5 = a.val := by simp only [fld]; omega
  have f21_5 : fld N 21 5 = d.val := by simp only [fld]; omega
  have f26_6 : fld N 26 6 = 28 := by simp only [fld]; omega
  refine ofParse (n := N) (by rw [hn]; rfl) (by omega) ?_
  simp [parse, decodeAmo, f0_6, f6_1, f7_1, f8_3, f11_5, f16_5, f21_5, f26_6, need, sregVal, scopeVal]
theorem amoAminn (d : SReg) (a : SReg) (b : SReg) (s : Scope) (r : Bool) (z : Bool) : Statement (.amoAminn d a b s r z) := by
  have := d.isLt
  have := a.isLt
  have := b.isLt
  have := scopeLt s
  have := boolLt r
  have := boolLt z
  obtain ⟨N, hn⟩ : ∃ N, N = 0x70000003 + d.val * 2097152 + a.val * 65536 + b.val * 2048 + s.code * 256 + r.toNat * 128 + z.toNat * 64 := ⟨_, rfl⟩
  have f0_6 : fld N 0 6 = 3 := by simp only [fld]; omega
  have f6_1 : fld N 6 1 = z.toNat := by simp only [fld]; omega
  have f7_1 : fld N 7 1 = r.toNat := by simp only [fld]; omega
  have f8_3 : fld N 8 3 = s.code := by simp only [fld]; omega
  have f11_5 : fld N 11 5 = b.val := by simp only [fld]; omega
  have f16_5 : fld N 16 5 = a.val := by simp only [fld]; omega
  have f21_5 : fld N 21 5 = d.val := by simp only [fld]; omega
  have f26_6 : fld N 26 6 = 28 := by simp only [fld]; omega
  refine ofParse (n := N) (by rw [hn]; rfl) (by omega) ?_
  simp [parse, decodeAmo, f0_6, f6_1, f7_1, f8_3, f11_5, f16_5, f21_5, f26_6, need, sregVal, scopeVal]
theorem amoAmaxn (d : SReg) (a : SReg) (b : SReg) (s : Scope) (r : Bool) (z : Bool) : Statement (.amoAmaxn d a b s r z) := by
  have := d.isLt
  have := a.isLt
  have := b.isLt
  have := scopeLt s
  have := boolLt r
  have := boolLt z
  obtain ⟨N, hn⟩ : ∃ N, N = 0x70000004 + d.val * 2097152 + a.val * 65536 + b.val * 2048 + s.code * 256 + r.toNat * 128 + z.toNat * 64 := ⟨_, rfl⟩
  have f0_6 : fld N 0 6 = 4 := by simp only [fld]; omega
  have f6_1 : fld N 6 1 = z.toNat := by simp only [fld]; omega
  have f7_1 : fld N 7 1 = r.toNat := by simp only [fld]; omega
  have f8_3 : fld N 8 3 = s.code := by simp only [fld]; omega
  have f11_5 : fld N 11 5 = b.val := by simp only [fld]; omega
  have f16_5 : fld N 16 5 = a.val := by simp only [fld]; omega
  have f21_5 : fld N 21 5 = d.val := by simp only [fld]; omega
  have f26_6 : fld N 26 6 = 28 := by simp only [fld]; omega
  refine ofParse (n := N) (by rw [hn]; rfl) (by omega) ?_
  simp [parse, decodeAmo, f0_6, f6_1, f7_1, f8_3, f11_5, f16_5, f21_5, f26_6, need, sregVal, scopeVal]
theorem amoAand (d : SReg) (a : SReg) (b : SReg) (s : Scope) (r : Bool) (z : Bool) : Statement (.amoAand d a b s r z) := by
  have := d.isLt
  have := a.isLt
  have := b.isLt
  have := scopeLt s
  have := boolLt r
  have := boolLt z
  obtain ⟨N, hn⟩ : ∃ N, N = 0x70000005 + d.val * 2097152 + a.val * 65536 + b.val * 2048 + s.code * 256 + r.toNat * 128 + z.toNat * 64 := ⟨_, rfl⟩
  have f0_6 : fld N 0 6 = 5 := by simp only [fld]; omega
  have f6_1 : fld N 6 1 = z.toNat := by simp only [fld]; omega
  have f7_1 : fld N 7 1 = r.toNat := by simp only [fld]; omega
  have f8_3 : fld N 8 3 = s.code := by simp only [fld]; omega
  have f11_5 : fld N 11 5 = b.val := by simp only [fld]; omega
  have f16_5 : fld N 16 5 = a.val := by simp only [fld]; omega
  have f21_5 : fld N 21 5 = d.val := by simp only [fld]; omega
  have f26_6 : fld N 26 6 = 28 := by simp only [fld]; omega
  refine ofParse (n := N) (by rw [hn]; rfl) (by omega) ?_
  simp [parse, decodeAmo, f0_6, f6_1, f7_1, f8_3, f11_5, f16_5, f21_5, f26_6, need, sregVal, scopeVal]
theorem amoAor (d : SReg) (a : SReg) (b : SReg) (s : Scope) (r : Bool) (z : Bool) : Statement (.amoAor d a b s r z) := by
  have := d.isLt
  have := a.isLt
  have := b.isLt
  have := scopeLt s
  have := boolLt r
  have := boolLt z
  obtain ⟨N, hn⟩ : ∃ N, N = 0x70000006 + d.val * 2097152 + a.val * 65536 + b.val * 2048 + s.code * 256 + r.toNat * 128 + z.toNat * 64 := ⟨_, rfl⟩
  have f0_6 : fld N 0 6 = 6 := by simp only [fld]; omega
  have f6_1 : fld N 6 1 = z.toNat := by simp only [fld]; omega
  have f7_1 : fld N 7 1 = r.toNat := by simp only [fld]; omega
  have f8_3 : fld N 8 3 = s.code := by simp only [fld]; omega
  have f11_5 : fld N 11 5 = b.val := by simp only [fld]; omega
  have f16_5 : fld N 16 5 = a.val := by simp only [fld]; omega
  have f21_5 : fld N 21 5 = d.val := by simp only [fld]; omega
  have f26_6 : fld N 26 6 = 28 := by simp only [fld]; omega
  refine ofParse (n := N) (by rw [hn]; rfl) (by omega) ?_
  simp [parse, decodeAmo, f0_6, f6_1, f7_1, f8_3, f11_5, f16_5, f21_5, f26_6, need, sregVal, scopeVal]
theorem amoAxor (d : SReg) (a : SReg) (b : SReg) (s : Scope) (r : Bool) (z : Bool) : Statement (.amoAxor d a b s r z) := by
  have := d.isLt
  have := a.isLt
  have := b.isLt
  have := scopeLt s
  have := boolLt r
  have := boolLt z
  obtain ⟨N, hn⟩ : ∃ N, N = 0x70000007 + d.val * 2097152 + a.val * 65536 + b.val * 2048 + s.code * 256 + r.toNat * 128 + z.toNat * 64 := ⟨_, rfl⟩
  have f0_6 : fld N 0 6 = 7 := by simp only [fld]; omega
  have f6_1 : fld N 6 1 = z.toNat := by simp only [fld]; omega
  have f7_1 : fld N 7 1 = r.toNat := by simp only [fld]; omega
  have f8_3 : fld N 8 3 = s.code := by simp only [fld]; omega
  have f11_5 : fld N 11 5 = b.val := by simp only [fld]; omega
  have f16_5 : fld N 16 5 = a.val := by simp only [fld]; omega
  have f21_5 : fld N 21 5 = d.val := by simp only [fld]; omega
  have f26_6 : fld N 26 6 = 28 := by simp only [fld]; omega
  refine ofParse (n := N) (by rw [hn]; rfl) (by omega) ?_
  simp [parse, decodeAmo, f0_6, f6_1, f7_1, f8_3, f11_5, f16_5, f21_5, f26_6, need, sregVal, scopeVal]
theorem amoAswap (d : SReg) (a : SReg) (b : SReg) (s : Scope) (r : Bool) (z : Bool) : Statement (.amoAswap d a b s r z) := by
  have := d.isLt
  have := a.isLt
  have := b.isLt
  have := scopeLt s
  have := boolLt r
  have := boolLt z
  obtain ⟨N, hn⟩ : ∃ N, N = 0x70000008 + d.val * 2097152 + a.val * 65536 + b.val * 2048 + s.code * 256 + r.toNat * 128 + z.toNat * 64 := ⟨_, rfl⟩
  have f0_6 : fld N 0 6 = 8 := by simp only [fld]; omega
  have f6_1 : fld N 6 1 = z.toNat := by simp only [fld]; omega
  have f7_1 : fld N 7 1 = r.toNat := by simp only [fld]; omega
  have f8_3 : fld N 8 3 = s.code := by simp only [fld]; omega
  have f11_5 : fld N 11 5 = b.val := by simp only [fld]; omega
  have f16_5 : fld N 16 5 = a.val := by simp only [fld]; omega
  have f21_5 : fld N 21 5 = d.val := by simp only [fld]; omega
  have f26_6 : fld N 26 6 = 28 := by simp only [fld]; omega
  refine ofParse (n := N) (by rw [hn]; rfl) (by omega) ?_
  simp [parse, decodeAmo, f0_6, f6_1, f7_1, f8_3, f11_5, f16_5, f21_5, f26_6, need, sregVal, scopeVal]
theorem amoAcas (d : SReg) (a : SReg) (b : SReg) (s : Scope) (r : Bool) (z : Bool) : Statement (.amoAcas d a b s r z) := by
  have := d.isLt
  have := a.isLt
  have := b.isLt
  have := scopeLt s
  have := boolLt r
  have := boolLt z
  obtain ⟨N, hn⟩ : ∃ N, N = 0x70000009 + d.val * 2097152 + a.val * 65536 + b.val * 2048 + s.code * 256 + r.toNat * 128 + z.toNat * 64 := ⟨_, rfl⟩
  have f0_6 : fld N 0 6 = 9 := by simp only [fld]; omega
  have f6_1 : fld N 6 1 = z.toNat := by simp only [fld]; omega
  have f7_1 : fld N 7 1 = r.toNat := by simp only [fld]; omega
  have f8_3 : fld N 8 3 = s.code := by simp only [fld]; omega
  have f11_5 : fld N 11 5 = b.val := by simp only [fld]; omega
  have f16_5 : fld N 16 5 = a.val := by simp only [fld]; omega
  have f21_5 : fld N 21 5 = d.val := by simp only [fld]; omega
  have f26_6 : fld N 26 6 = 28 := by simp only [fld]; omega
  refine ofParse (n := N) (by rw [hn]; rfl) (by omega) ?_
  simp [parse, decodeAmo, f0_6, f6_1, f7_1, f8_3, f11_5, f16_5, f21_5, f26_6, need, sregVal, scopeVal]
theorem amoAfadd (d : SReg) (a : SReg) (b : SReg) (s : Scope) (r : Bool) (z : Bool) : Statement (.amoAfadd d a b s r z) := by
  have := d.isLt
  have := a.isLt
  have := b.isLt
  have := scopeLt s
  have := boolLt r
  have := boolLt z
  obtain ⟨N, hn⟩ : ∃ N, N = 0x7000000A + d.val * 2097152 + a.val * 65536 + b.val * 2048 + s.code * 256 + r.toNat * 128 + z.toNat * 64 := ⟨_, rfl⟩
  have f0_6 : fld N 0 6 = 10 := by simp only [fld]; omega
  have f6_1 : fld N 6 1 = z.toNat := by simp only [fld]; omega
  have f7_1 : fld N 7 1 = r.toNat := by simp only [fld]; omega
  have f8_3 : fld N 8 3 = s.code := by simp only [fld]; omega
  have f11_5 : fld N 11 5 = b.val := by simp only [fld]; omega
  have f16_5 : fld N 16 5 = a.val := by simp only [fld]; omega
  have f21_5 : fld N 21 5 = d.val := by simp only [fld]; omega
  have f26_6 : fld N 26 6 = 28 := by simp only [fld]; omega
  refine ofParse (n := N) (by rw [hn]; rfl) (by omega) ?_
  simp [parse, decodeAmo, f0_6, f6_1, f7_1, f8_3, f11_5, f16_5, f21_5, f26_6, need, sregVal, scopeVal]
theorem fence (s : Scope) (g : PReg) : Statement (.fence s g) := by
  have := scopeLt s
  have := g.isLt
  obtain ⟨N, hn⟩ : ∃ N, N = 0x74000000 + s.code * 2048 + g.val * 256 := ⟨_, rfl⟩
  have f0_8 : fld N 0 8 = 0 := by simp only [fld]; omega
  have f8_3 : fld N 8 3 = g.val := by simp only [fld]; omega
  have f11_5 : fld N 11 5 = s.code := by simp only [fld]; omega
  have f16_10 : fld N 16 10 = 0 := by simp only [fld]; omega
  have f26_6 : fld N 26 6 = 29 := by simp only [fld]; omega
  refine ofParse (n := N) (by rw [hn]; rfl) (by omega) ?_
  simp [parse, decodeFence, f0_8, f8_3, f11_5, f16_10, f26_6, need, pregVal, scopeVal]
theorem fenceLd (s : Scope) (g : PReg) : Statement (.fenceLd s g) := by
  have := scopeLt s
  have := g.isLt
  obtain ⟨N, hn⟩ : ∃ N, N = 0x74000001 + s.code * 2048 + g.val * 256 := ⟨_, rfl⟩
  have f0_8 : fld N 0 8 = 1 := by simp only [fld]; omega
  have f8_3 : fld N 8 3 = g.val := by simp only [fld]; omega
  have f11_5 : fld N 11 5 = s.code := by simp only [fld]; omega
  have f16_10 : fld N 16 10 = 0 := by simp only [fld]; omega
  have f26_6 : fld N 26 6 = 29 := by simp only [fld]; omega
  refine ofParse (n := N) (by rw [hn]; rfl) (by omega) ?_
  simp [parse, decodeFence, f0_8, f8_3, f11_5, f16_10, f26_6, need, pregVal, scopeVal]
theorem fenceSt (s : Scope) (g : PReg) : Statement (.fenceSt s g) := by
  have := scopeLt s
  have := g.isLt
  obtain ⟨N, hn⟩ : ∃ N, N = 0x74000002 + s.code * 2048 + g.val * 256 := ⟨_, rfl⟩
  have f0_8 : fld N 0 8 = 2 := by simp only [fld]; omega
  have f8_3 : fld N 8 3 = g.val := by simp only [fld]; omega
  have f11_5 : fld N 11 5 = s.code := by simp only [fld]; omega
  have f16_10 : fld N 16 10 = 0 := by simp only [fld]; omega
  have f26_6 : fld N 26 6 = 29 := by simp only [fld]; omega
  refine ofParse (n := N) (by rw [hn]; rfl) (by omega) ?_
  simp [parse, decodeFence, f0_8, f8_3, f11_5, f16_10, f26_6, need, pregVal, scopeVal]
theorem wfence (g : PReg) : Statement (.wfence g) := by
  have := g.isLt
  obtain ⟨N, hn⟩ : ∃ N, N = 0x74000003 + g.val * 256 := ⟨_, rfl⟩
  have f0_8 : fld N 0 8 = 3 := by simp only [fld]; omega
  have f8_3 : fld N 8 3 = g.val := by simp only [fld]; omega
  have f11_15 : fld N 11 15 = 0 := by simp only [fld]; omega
  have f26_6 : fld N 26 6 = 29 := by simp only [fld]; omega
  refine ofParse (n := N) (by rw [hn]; rfl) (by omega) ?_
  simp [parse, decodeFence, f0_8, f8_3, f11_15, f26_6, pregVal]
theorem mfence (g : PReg) : Statement (.mfence g) := by
  have := g.isLt
  obtain ⟨N, hn⟩ : ∃ N, N = 0x74000004 + g.val * 256 := ⟨_, rfl⟩
  have f0_8 : fld N 0 8 = 4 := by simp only [fld]; omega
  have f8_3 : fld N 8 3 = g.val := by simp only [fld]; omega
  have f11_15 : fld N 11 15 = 0 := by simp only [fld]; omega
  have f26_6 : fld N 26 6 = 29 := by simp only [fld]; omega
  refine ofParse (n := N) (by rw [hn]; rfl) (by omega) ?_
  simp [parse, decodeFence, f0_8, f8_3, f11_15, f26_6, pregVal]
theorem ifence (g : PReg) : Statement (.ifence g) := by
  have := g.isLt
  obtain ⟨N, hn⟩ : ∃ N, N = 0x74000005 + g.val * 256 := ⟨_, rfl⟩
  have f0_8 : fld N 0 8 = 5 := by simp only [fld]; omega
  have f8_3 : fld N 8 3 = g.val := by simp only [fld]; omega
  have f11_15 : fld N 11 15 = 0 := by simp only [fld]; omega
  have f26_6 : fld N 26 6 = 29 := by simp only [fld]; omega
  refine ofParse (n := N) (by rw [hn]; rfl) (by omega) ?_
  simp [parse, decodeFence, f0_8, f8_3, f11_15, f26_6, pregVal]
theorem binit (a : SReg) (b : SReg) (g : PReg) : Statement (.binit a b g) := by
  have := a.isLt
  have := b.isLt
  have := g.isLt
  obtain ⟨N, hn⟩ : ∃ N, N = 0x78000000 + a.val * 65536 + b.val * 2048 + g.val * 256 := ⟨_, rfl⟩
  have f0_8 : fld N 0 8 = 0 := by simp only [fld]; omega
  have f8_3 : fld N 8 3 = g.val := by simp only [fld]; omega
  have f11_5 : fld N 11 5 = b.val := by simp only [fld]; omega
  have f16_5 : fld N 16 5 = a.val := by simp only [fld]; omega
  have f21_5 : fld N 21 5 = 0 := by simp only [fld]; omega
  have f26_6 : fld N 26 6 = 30 := by simp only [fld]; omega
  refine ofParse (n := N) (by rw [hn]; rfl) (by omega) ?_
  simp [parse, decodeBar, f0_8, f8_3, f11_5, f16_5, f21_5, f26_6, sregVal, pregVal]
theorem barr (d : SReg) (a : SReg) (b : SReg) (g : PReg) : Statement (.barr d a b g) := by
  have := d.isLt
  have := a.isLt
  have := b.isLt
  have := g.isLt
  obtain ⟨N, hn⟩ : ∃ N, N = 0x78000001 + d.val * 2097152 + a.val * 65536 + b.val * 2048 + g.val * 256 := ⟨_, rfl⟩
  have f0_8 : fld N 0 8 = 1 := by simp only [fld]; omega
  have f8_3 : fld N 8 3 = g.val := by simp only [fld]; omega
  have f11_5 : fld N 11 5 = b.val := by simp only [fld]; omega
  have f16_5 : fld N 16 5 = a.val := by simp only [fld]; omega
  have f21_5 : fld N 21 5 = d.val := by simp only [fld]; omega
  have f26_6 : fld N 26 6 = 30 := by simp only [fld]; omega
  refine ofParse (n := N) (by rw [hn]; rfl) (by omega) ?_
  simp [parse, decodeBar, f0_8, f8_3, f11_5, f16_5, f21_5, f26_6, sregVal, pregVal]
theorem bwait (a : SReg) (b : SReg) (g : PReg) : Statement (.bwait a b g) := by
  have := a.isLt
  have := b.isLt
  have := g.isLt
  obtain ⟨N, hn⟩ : ∃ N, N = 0x78000002 + a.val * 65536 + b.val * 2048 + g.val * 256 := ⟨_, rfl⟩
  have f0_8 : fld N 0 8 = 2 := by simp only [fld]; omega
  have f8_3 : fld N 8 3 = g.val := by simp only [fld]; omega
  have f11_5 : fld N 11 5 = b.val := by simp only [fld]; omega
  have f16_5 : fld N 16 5 = a.val := by simp only [fld]; omega
  have f21_5 : fld N 21 5 = 0 := by simp only [fld]; omega
  have f26_6 : fld N 26 6 = 30 := by simp only [fld]; omega
  refine ofParse (n := N) (by rw [hn]; rfl) (by omega) ?_
  simp [parse, decodeBar, f0_8, f8_3, f11_5, f16_5, f21_5, f26_6, sregVal, pregVal]
theorem bleave (a : SReg) (b : SReg) (g : PReg) : Statement (.bleave a b g) := by
  have := a.isLt
  have := b.isLt
  have := g.isLt
  obtain ⟨N, hn⟩ : ∃ N, N = 0x78000003 + a.val * 65536 + b.val * 2048 + g.val * 256 := ⟨_, rfl⟩
  have f0_8 : fld N 0 8 = 3 := by simp only [fld]; omega
  have f8_3 : fld N 8 3 = g.val := by simp only [fld]; omega
  have f11_5 : fld N 11 5 = b.val := by simp only [fld]; omega
  have f16_5 : fld N 16 5 = a.val := by simp only [fld]; omega
  have f21_5 : fld N 21 5 = 0 := by simp only [fld]; omega
  have f26_6 : fld N 26 6 = 30 := by simp only [fld]; omega
  refine ofParse (n := N) (by rw [hn]; rfl) (by omega) ?_
  simp [parse, decodeBar, f0_8, f8_3, f11_5, f16_5, f21_5, f26_6, sregVal, pregVal]
theorem bqry (d : SReg) (a : SReg) (b : SReg) (g : PReg) : Statement (.bqry d a b g) := by
  have := d.isLt
  have := a.isLt
  have := b.isLt
  have := g.isLt
  obtain ⟨N, hn⟩ : ∃ N, N = 0x78000004 + d.val * 2097152 + a.val * 65536 + b.val * 2048 + g.val * 256 := ⟨_, rfl⟩
  have f0_8 : fld N 0 8 = 4 := by simp only [fld]; omega
  have f8_3 : fld N 8 3 = g.val := by simp only [fld]; omega
  have f11_5 : fld N 11 5 = b.val := by simp only [fld]; omega
  have f16_5 : fld N 16 5 = a.val := by simp only [fld]; omega
  have f21_5 : fld N 21 5 = d.val := by simp only [fld]; omega
  have f26_6 : fld N 26 6 = 30 := by simp only [fld]; omega
  refine ofParse (n := N) (by rw [hn]; rfl) (by omega) ?_
  simp [parse, decodeBar, f0_8, f8_3, f11_5, f16_5, f21_5, f26_6, sregVal, pregVal]
theorem qsend (d : VReg) (a : SReg) (b : SReg) (g : PReg) : Statement (.qsend d a b g) := by
  have := d.isLt
  have := a.isLt
  have := b.isLt
  have := g.isLt
  obtain ⟨N, hn⟩ : ∃ N, N = 0x7C000000 + d.val * 2097152 + a.val * 65536 + b.val * 2048 + g.val * 256 := ⟨_, rfl⟩
  have f0_8 : fld N 0 8 = 0 := by simp only [fld]; omega
  have f8_3 : fld N 8 3 = g.val := by simp only [fld]; omega
  have f11_5 : fld N 11 5 = b.val := by simp only [fld]; omega
  have f16_5 : fld N 16 5 = a.val := by simp only [fld]; omega
  have f21_5 : fld N 21 5 = d.val := by simp only [fld]; omega
  have f26_6 : fld N 26 6 = 31 := by simp only [fld]; omega
  refine ofParse (n := N) (by rw [hn]; rfl) (by omega) ?_
  simp [parse, decodeMsg, f0_8, f8_3, f11_5, f16_5, f21_5, f26_6, need, sregVal, pregVal, vregVal?]
theorem qrecv (d : VReg) (a : SReg) (b : SReg) (g : PReg) : Statement (.qrecv d a b g) := by
  have := d.isLt
  have := a.isLt
  have := b.isLt
  have := g.isLt
  obtain ⟨N, hn⟩ : ∃ N, N = 0x7C000001 + d.val * 2097152 + a.val * 65536 + b.val * 2048 + g.val * 256 := ⟨_, rfl⟩
  have f0_8 : fld N 0 8 = 1 := by simp only [fld]; omega
  have f8_3 : fld N 8 3 = g.val := by simp only [fld]; omega
  have f11_5 : fld N 11 5 = b.val := by simp only [fld]; omega
  have f16_5 : fld N 16 5 = a.val := by simp only [fld]; omega
  have f21_5 : fld N 21 5 = d.val := by simp only [fld]; omega
  have f26_6 : fld N 26 6 = 31 := by simp only [fld]; omega
  refine ofParse (n := N) (by rw [hn]; rfl) (by omega) ?_
  simp [parse, decodeMsg, f0_8, f8_3, f11_5, f16_5, f21_5, f26_6, need, sregVal, pregVal, vregVal?]
theorem qpoll (d : SReg) (a : SReg) (g : PReg) : Statement (.qpoll d a g) := by
  have := d.isLt
  have := a.isLt
  have := g.isLt
  obtain ⟨N, hn⟩ : ∃ N, N = 0x7C000002 + d.val * 2097152 + a.val * 65536 + g.val * 256 := ⟨_, rfl⟩
  have f0_8 : fld N 0 8 = 2 := by simp only [fld]; omega
  have f8_3 : fld N 8 3 = g.val := by simp only [fld]; omega
  have f11_5 : fld N 11 5 = 0 := by simp only [fld]; omega
  have f16_5 : fld N 16 5 = a.val := by simp only [fld]; omega
  have f21_5 : fld N 21 5 = d.val := by simp only [fld]; omega
  have f26_6 : fld N 26 6 = 31 := by simp only [fld]; omega
  refine ofParse (n := N) (by rw [hn]; rfl) (by omega) ?_
  simp [parse, decodeMsg, f0_8, f8_3, f11_5, f16_5, f21_5, f26_6, sregVal, pregVal]
theorem collAllred (x : ShReg) (y : ShReg) (a : SReg) (r : CollRed) (f : Fmt) : Statement (.collAllred x y a r f) := by
  have := x.isLt
  have := y.isLt
  have := a.isLt
  have := redLt r
  have := fmtLt f
  obtain ⟨N, hn⟩ : ∃ N, N = 0x80000000 + x.val * 4194304 + y.val * 262144 + a.val * 512 + r.code * 16 + f.code := ⟨_, rfl⟩
  have f0_4 : fld N 0 4 = f.code := by simp only [fld]; omega
  have f4_2 : fld N 4 2 = r.code := by simp only [fld]; omega
  have f6_3 : fld N 6 3 = 0 := by simp only [fld]; omega
  have f9_5 : fld N 9 5 = a.val := by simp only [fld]; omega
  have f14_4 : fld N 14 4 = 0 := by simp only [fld]; omega
  have f18_4 : fld N 18 4 = y.val := by simp only [fld]; omega
  have f22_4 : fld N 22 4 = x.val := by simp only [fld]; omega
  have f26_6 : fld N 26 6 = 32 := by simp only [fld]; omega
  refine ofParse (n := N) (by rw [hn]; rfl) (by omega) ?_
  simp [parse, decodeColl, f0_4, f4_2, f6_3, f9_5, f14_4, f18_4, f22_4, f26_6, need, sregVal, reg16Val, fmtVal, redVal]
theorem collRedscat (x : ShReg) (y : ShReg) (a : SReg) (r : CollRed) (f : Fmt) : Statement (.collRedscat x y a r f) := by
  have := x.isLt
  have := y.isLt
  have := a.isLt
  have := redLt r
  have := fmtLt f
  obtain ⟨N, hn⟩ : ∃ N, N = 0x80000040 + x.val * 4194304 + y.val * 262144 + a.val * 512 + r.code * 16 + f.code := ⟨_, rfl⟩
  have f0_4 : fld N 0 4 = f.code := by simp only [fld]; omega
  have f4_2 : fld N 4 2 = r.code := by simp only [fld]; omega
  have f6_3 : fld N 6 3 = 1 := by simp only [fld]; omega
  have f9_5 : fld N 9 5 = a.val := by simp only [fld]; omega
  have f14_4 : fld N 14 4 = 0 := by simp only [fld]; omega
  have f18_4 : fld N 18 4 = y.val := by simp only [fld]; omega
  have f22_4 : fld N 22 4 = x.val := by simp only [fld]; omega
  have f26_6 : fld N 26 6 = 32 := by simp only [fld]; omega
  refine ofParse (n := N) (by rw [hn]; rfl) (by omega) ?_
  simp [parse, decodeColl, f0_4, f4_2, f6_3, f9_5, f14_4, f18_4, f22_4, f26_6, need, sregVal, reg16Val, fmtVal, redVal]
theorem collAllgath (x : ShReg) (y : ShReg) (a : SReg) (f : Fmt) : Statement (.collAllgath x y a f) := by
  have := x.isLt
  have := y.isLt
  have := a.isLt
  have := fmtLt f
  obtain ⟨N, hn⟩ : ∃ N, N = 0x80000080 + x.val * 4194304 + y.val * 262144 + a.val * 512 + f.code := ⟨_, rfl⟩
  have f0_4 : fld N 0 4 = f.code := by simp only [fld]; omega
  have f4_2 : fld N 4 2 = 0 := by simp only [fld]; omega
  have f6_3 : fld N 6 3 = 2 := by simp only [fld]; omega
  have f9_5 : fld N 9 5 = a.val := by simp only [fld]; omega
  have f14_4 : fld N 14 4 = 0 := by simp only [fld]; omega
  have f18_4 : fld N 18 4 = y.val := by simp only [fld]; omega
  have f22_4 : fld N 22 4 = x.val := by simp only [fld]; omega
  have f26_6 : fld N 26 6 = 32 := by simp only [fld]; omega
  refine ofParse (n := N) (by rw [hn]; rfl) (by omega) ?_
  simp [parse, decodeColl, f0_4, f4_2, f6_3, f9_5, f14_4, f18_4, f22_4, f26_6, need, sregVal, reg16Val, fmtVal]
theorem collBcast (x : ShReg) (y : ShReg) (a : SReg) (f : Fmt) : Statement (.collBcast x y a f) := by
  have := x.isLt
  have := y.isLt
  have := a.isLt
  have := fmtLt f
  obtain ⟨N, hn⟩ : ∃ N, N = 0x800000C0 + x.val * 4194304 + y.val * 262144 + a.val * 512 + f.code := ⟨_, rfl⟩
  have f0_4 : fld N 0 4 = f.code := by simp only [fld]; omega
  have f4_2 : fld N 4 2 = 0 := by simp only [fld]; omega
  have f6_3 : fld N 6 3 = 3 := by simp only [fld]; omega
  have f9_5 : fld N 9 5 = a.val := by simp only [fld]; omega
  have f14_4 : fld N 14 4 = 0 := by simp only [fld]; omega
  have f18_4 : fld N 18 4 = y.val := by simp only [fld]; omega
  have f22_4 : fld N 22 4 = x.val := by simp only [fld]; omega
  have f26_6 : fld N 26 6 = 32 := by simp only [fld]; omega
  refine ofParse (n := N) (by rw [hn]; rfl) (by omega) ?_
  simp [parse, decodeColl, f0_4, f4_2, f6_3, f9_5, f14_4, f18_4, f22_4, f26_6, need, sregVal, reg16Val, fmtVal]
theorem collA2a (x : ShReg) (y : ShReg) (a : SReg) (f : Fmt) : Statement (.collA2a x y a f) := by
  have := x.isLt
  have := y.isLt
  have := a.isLt
  have := fmtLt f
  obtain ⟨N, hn⟩ : ∃ N, N = 0x80000100 + x.val * 4194304 + y.val * 262144 + a.val * 512 + f.code := ⟨_, rfl⟩
  have f0_4 : fld N 0 4 = f.code := by simp only [fld]; omega
  have f4_2 : fld N 4 2 = 0 := by simp only [fld]; omega
  have f6_3 : fld N 6 3 = 4 := by simp only [fld]; omega
  have f9_5 : fld N 9 5 = a.val := by simp only [fld]; omega
  have f14_4 : fld N 14 4 = 0 := by simp only [fld]; omega
  have f18_4 : fld N 18 4 = y.val := by simp only [fld]; omega
  have f22_4 : fld N 22 4 = x.val := by simp only [fld]; omega
  have f26_6 : fld N 26 6 = 32 := by simp only [fld]; omega
  refine ofParse (n := N) (by rw [hn]; rfl) (by omega) ?_
  simp [parse, decodeColl, f0_4, f4_2, f6_3, f9_5, f14_4, f18_4, f22_4, f26_6, need, sregVal, reg16Val, fmtVal]
theorem lrpatch (a : SReg) (b : SReg) (g : PReg) : Statement (.lrpatch a b g) := by
  have := a.isLt
  have := b.isLt
  have := g.isLt
  obtain ⟨N, hn⟩ : ∃ N, N = 0x84000000 + a.val * 65536 + b.val * 2048 + g.val * 256 := ⟨_, rfl⟩
  have f0_8 : fld N 0 8 = 0 := by simp only [fld]; omega
  have f8_3 : fld N 8 3 = g.val := by simp only [fld]; omega
  have f11_5 : fld N 11 5 = b.val := by simp only [fld]; omega
  have f16_5 : fld N 16 5 = a.val := by simp only [fld]; omega
  have f21_5 : fld N 21 5 = 0 := by simp only [fld]; omega
  have f26_6 : fld N 26 6 = 33 := by simp only [fld]; omega
  refine ofParse (n := N) (by rw [hn]; rfl) (by omega) ?_
  simp [parse, decodeLrec, f0_8, f8_3, f11_5, f16_5, f21_5, f26_6, sregVal, pregVal]
theorem lrarm (a : SReg) (g : PReg) : Statement (.lrarm a g) := by
  have := a.isLt
  have := g.isLt
  obtain ⟨N, hn⟩ : ∃ N, N = 0x84000001 + a.val * 65536 + g.val * 256 := ⟨_, rfl⟩
  have f0_8 : fld N 0 8 = 1 := by simp only [fld]; omega
  have f8_3 : fld N 8 3 = g.val := by simp only [fld]; omega
  have f11_5 : fld N 11 5 = 0 := by simp only [fld]; omega
  have f16_5 : fld N 16 5 = a.val := by simp only [fld]; omega
  have f21_5 : fld N 21 5 = 0 := by simp only [fld]; omega
  have f26_6 : fld N 26 6 = 33 := by simp only [fld]; omega
  refine ofParse (n := N) (by rw [hn]; rfl) (by omega) ?_
  simp [parse, decodeLrec, f0_8, f8_3, f11_5, f16_5, f21_5, f26_6, sregVal, pregVal]
theorem lrqry (d : SReg) (a : SReg) (g : PReg) : Statement (.lrqry d a g) := by
  have := d.isLt
  have := a.isLt
  have := g.isLt
  obtain ⟨N, hn⟩ : ∃ N, N = 0x84000002 + d.val * 2097152 + a.val * 65536 + g.val * 256 := ⟨_, rfl⟩
  have f0_8 : fld N 0 8 = 2 := by simp only [fld]; omega
  have f8_3 : fld N 8 3 = g.val := by simp only [fld]; omega
  have f11_5 : fld N 11 5 = 0 := by simp only [fld]; omega
  have f16_5 : fld N 16 5 = a.val := by simp only [fld]; omega
  have f21_5 : fld N 21 5 = d.val := by simp only [fld]; omega
  have f26_6 : fld N 26 6 = 33 := by simp only [fld]; omega
  refine ofParse (n := N) (by rw [hn]; rfl) (by omega) ?_
  simp [parse, decodeLrec, f0_8, f8_3, f11_5, f16_5, f21_5, f26_6, sregVal, pregVal]
theorem cntadd (a : SReg) (b : SReg) (g : PReg) : Statement (.cntadd a b g) := by
  have := a.isLt
  have := b.isLt
  have := g.isLt
  obtain ⟨N, hn⟩ : ∃ N, N = 0x88000000 + a.val * 65536 + b.val * 2048 + g.val * 256 := ⟨_, rfl⟩
  have f0_8 : fld N 0 8 = 0 := by simp only [fld]; omega
  have f8_3 : fld N 8 3 = g.val := by simp only [fld]; omega
  have f11_5 : fld N 11 5 = b.val := by simp only [fld]; omega
  have f16_5 : fld N 16 5 = a.val := by simp only [fld]; omega
  have f21_5 : fld N 21 5 = 0 := by simp only [fld]; omega
  have f26_6 : fld N 26 6 = 34 := by simp only [fld]; omega
  refine ofParse (n := N) (by rw [hn]; rfl) (by omega) ?_
  simp [parse, decodeCnt, f0_8, f8_3, f11_5, f16_5, f21_5, f26_6, sregVal, pregVal]
theorem vcnt (a : VReg) (b : SReg) (g : PReg) : Statement (.vcnt a b g) := by
  have := a.isLt
  have := b.isLt
  have := g.isLt
  obtain ⟨N, hn⟩ : ∃ N, N = 0x88000001 + a.val * 65536 + b.val * 2048 + g.val * 256 := ⟨_, rfl⟩
  have f0_8 : fld N 0 8 = 1 := by simp only [fld]; omega
  have f8_3 : fld N 8 3 = g.val := by simp only [fld]; omega
  have f11_5 : fld N 11 5 = b.val := by simp only [fld]; omega
  have f16_5 : fld N 16 5 = a.val := by simp only [fld]; omega
  have f21_5 : fld N 21 5 = 0 := by simp only [fld]; omega
  have f26_6 : fld N 26 6 = 34 := by simp only [fld]; omega
  refine ofParse (n := N) (by rw [hn]; rfl) (by omega) ?_
  simp [parse, decodeCnt, f0_8, f8_3, f11_5, f16_5, f21_5, f26_6, need, sregVal, pregVal, vregVal?]
theorem cntrd (d : SReg) (a : SReg) (g : PReg) : Statement (.cntrd d a g) := by
  have := d.isLt
  have := a.isLt
  have := g.isLt
  obtain ⟨N, hn⟩ : ∃ N, N = 0x88000002 + d.val * 2097152 + a.val * 65536 + g.val * 256 := ⟨_, rfl⟩
  have f0_8 : fld N 0 8 = 2 := by simp only [fld]; omega
  have f8_3 : fld N 8 3 = g.val := by simp only [fld]; omega
  have f11_5 : fld N 11 5 = 0 := by simp only [fld]; omega
  have f16_5 : fld N 16 5 = a.val := by simp only [fld]; omega
  have f21_5 : fld N 21 5 = d.val := by simp only [fld]; omega
  have f26_6 : fld N 26 6 = 34 := by simp only [fld]; omega
  refine ofParse (n := N) (by rw [hn]; rfl) (by omega) ?_
  simp [parse, decodeCnt, f0_8, f8_3, f11_5, f16_5, f21_5, f26_6, sregVal, pregVal]
theorem cntsnap (d : SReg) (a : SReg) (g : PReg) : Statement (.cntsnap d a g) := by
  have := d.isLt
  have := a.isLt
  have := g.isLt
  obtain ⟨N, hn⟩ : ∃ N, N = 0x88000003 + d.val * 2097152 + a.val * 65536 + g.val * 256 := ⟨_, rfl⟩
  have f0_8 : fld N 0 8 = 3 := by simp only [fld]; omega
  have f8_3 : fld N 8 3 = g.val := by simp only [fld]; omega
  have f11_5 : fld N 11 5 = 0 := by simp only [fld]; omega
  have f16_5 : fld N 16 5 = a.val := by simp only [fld]; omega
  have f21_5 : fld N 21 5 = d.val := by simp only [fld]; omega
  have f26_6 : fld N 26 6 = 34 := by simp only [fld]; omega
  refine ofParse (n := N) (by rw [hn]; rfl) (by omega) ?_
  simp [parse, decodeCnt, f0_8, f8_3, f11_5, f16_5, f21_5, f26_6, sregVal, pregVal]
theorem wtrd (d : SReg) (g : PReg) : Statement (.wtrd d g) := by
  have := d.isLt
  have := g.isLt
  obtain ⟨N, hn⟩ : ∃ N, N = 0x8C000000 + d.val * 2097152 + g.val * 256 := ⟨_, rfl⟩
  have f0_8 : fld N 0 8 = 0 := by simp only [fld]; omega
  have f8_3 : fld N 8 3 = g.val := by simp only [fld]; omega
  have f11_10 : fld N 11 10 = 0 := by simp only [fld]; omega
  have f21_5 : fld N 21 5 = d.val := by simp only [fld]; omega
  have f26_6 : fld N 26 6 = 35 := by simp only [fld]; omega
  refine ofParse (n := N) (by rw [hn]; rfl) (by omega) ?_
  simp [parse, decodeTime, f0_8, f8_3, f11_10, f21_5, f26_6, sregVal, pregVal]
theorem atset (d : SReg) (a : SReg) (b : SReg) (g : PReg) : Statement (.atset d a b g) := by
  have := d.isLt
  have := a.isLt
  have := b.isLt
  have := g.isLt
  obtain ⟨N, hn⟩ : ∃ N, N = 0x8C000001 + d.val * 2097152 + a.val * 65536 + b.val * 2048 + g.val * 256 := ⟨_, rfl⟩
  have f0_8 : fld N 0 8 = 1 := by simp only [fld]; omega
  have f8_3 : fld N 8 3 = g.val := by simp only [fld]; omega
  have f11_5 : fld N 11 5 = b.val := by simp only [fld]; omega
  have f16_5 : fld N 16 5 = a.val := by simp only [fld]; omega
  have f21_5 : fld N 21 5 = d.val := by simp only [fld]; omega
  have f26_6 : fld N 26 6 = 35 := by simp only [fld]; omega
  refine ofParse (n := N) (by rw [hn]; rfl) (by omega) ?_
  simp [parse, decodeTime, f0_8, f8_3, f11_5, f16_5, f21_5, f26_6, sregVal, pregVal]
theorem atcan (d : SReg) (a : SReg) (g : PReg) : Statement (.atcan d a g) := by
  have := d.isLt
  have := a.isLt
  have := g.isLt
  obtain ⟨N, hn⟩ : ∃ N, N = 0x8C000002 + d.val * 2097152 + a.val * 65536 + g.val * 256 := ⟨_, rfl⟩
  have f0_8 : fld N 0 8 = 2 := by simp only [fld]; omega
  have f8_3 : fld N 8 3 = g.val := by simp only [fld]; omega
  have f11_5 : fld N 11 5 = 0 := by simp only [fld]; omega
  have f16_5 : fld N 16 5 = a.val := by simp only [fld]; omega
  have f21_5 : fld N 21 5 = d.val := by simp only [fld]; omega
  have f26_6 : fld N 26 6 = 35 := by simp only [fld]; omega
  refine ofParse (n := N) (by rw [hn]; rfl) (by omega) ?_
  simp [parse, decodeTime, f0_8, f8_3, f11_5, f16_5, f21_5, f26_6, sregVal, pregVal]
theorem atwait (d : SReg) (a : SReg) (g : PReg) : Statement (.atwait d a g) := by
  have := d.isLt
  have := a.isLt
  have := g.isLt
  obtain ⟨N, hn⟩ : ∃ N, N = 0x8C000003 + d.val * 2097152 + a.val * 65536 + g.val * 256 := ⟨_, rfl⟩
  have f0_8 : fld N 0 8 = 3 := by simp only [fld]; omega
  have f8_3 : fld N 8 3 = g.val := by simp only [fld]; omega
  have f11_5 : fld N 11 5 = 0 := by simp only [fld]; omega
  have f16_5 : fld N 16 5 = a.val := by simp only [fld]; omega
  have f21_5 : fld N 21 5 = d.val := by simp only [fld]; omega
  have f26_6 : fld N 26 6 = 35 := by simp only [fld]; omega
  refine ofParse (n := N) (by rw [hn]; rfl) (by omega) ?_
  simp [parse, decodeTime, f0_8, f8_3, f11_5, f16_5, f21_5, f26_6, sregVal, pregVal]
theorem bwph (a : SReg) (b : SReg) (g : PReg) : Statement (.bwph a b g) := by
  have := a.isLt
  have := b.isLt
  have := g.isLt
  obtain ⟨N, hn⟩ : ∃ N, N = 0x90000000 + a.val * 65536 + b.val * 2048 + g.val * 256 := ⟨_, rfl⟩
  have f0_8 : fld N 0 8 = 0 := by simp only [fld]; omega
  have f8_3 : fld N 8 3 = g.val := by simp only [fld]; omega
  have f11_5 : fld N 11 5 = b.val := by simp only [fld]; omega
  have f16_5 : fld N 16 5 = a.val := by simp only [fld]; omega
  have f21_5 : fld N 21 5 = 0 := by simp only [fld]; omega
  have f26_6 : fld N 26 6 = 36 := by simp only [fld]; omega
  refine ofParse (n := N) (by rw [hn]; rfl) (by omega) ?_
  simp [parse, decodePhase, f0_8, f8_3, f11_5, f16_5, f21_5, f26_6, sregVal, pregVal]
theorem bwqry (d : SReg) (a : SReg) (g : PReg) : Statement (.bwqry d a g) := by
  have := d.isLt
  have := a.isLt
  have := g.isLt
  obtain ⟨N, hn⟩ : ∃ N, N = 0x90000001 + d.val * 2097152 + a.val * 65536 + g.val * 256 := ⟨_, rfl⟩
  have f0_8 : fld N 0 8 = 1 := by simp only [fld]; omega
  have f8_3 : fld N 8 3 = g.val := by simp only [fld]; omega
  have f11_5 : fld N 11 5 = 0 := by simp only [fld]; omega
  have f16_5 : fld N 16 5 = a.val := by simp only [fld]; omega
  have f21_5 : fld N 21 5 = d.val := by simp only [fld]; omega
  have f26_6 : fld N 26 6 = 36 := by simp only [fld]; omega
  refine ofParse (n := N) (by rw [hn]; rfl) (by omega) ?_
  simp [parse, decodePhase, f0_8, f8_3, f11_5, f16_5, f21_5, f26_6, sregVal, pregVal]
theorem cfg (a : SReg) : Statement (.cfg a) := by
  have := a.isLt
  obtain ⟨N, hn⟩ : ∃ N, N = 0xA0000000 + a.val * 512 := ⟨_, rfl⟩
  have f0_9 : fld N 0 9 = 0 := by simp only [fld]; omega
  have f9_5 : fld N 9 5 = a.val := by simp only [fld]; omega
  have f14_12 : fld N 14 12 = 0 := by simp only [fld]; omega
  have f26_6 : fld N 26 6 = 40 := by simp only [fld]; omega
  refine ofParse (n := N) (by rw [hn]; rfl) (by omega) ?_
  simp [parse, decodeFab, f0_9, f9_5, f14_12, f26_6, sregVal]
theorem cfgwait (a : SReg) : Statement (.cfgwait a) := by
  have := a.isLt
  obtain ⟨N, hn⟩ : ∃ N, N = 0xA0000001 + a.val * 512 := ⟨_, rfl⟩
  have f0_9 : fld N 0 9 = 1 := by simp only [fld]; omega
  have f9_5 : fld N 9 5 = a.val := by simp only [fld]; omega
  have f14_12 : fld N 14 12 = 0 := by simp only [fld]; omega
  have f26_6 : fld N 26 6 = 40 := by simp only [fld]; omega
  refine ofParse (n := N) (by rw [hn]; rfl) (by omega) ?_
  simp [parse, decodeFab, f0_9, f9_5, f14_12, f26_6, sregVal]
theorem cfgwaitQ (a : SReg) : Statement (.cfgwaitQ a) := by
  have := a.isLt
  obtain ⟨N, hn⟩ : ∃ N, N = 0xA0004001 + a.val * 512 := ⟨_, rfl⟩
  have f0_9 : fld N 0 9 = 1 := by simp only [fld]; omega
  have f9_5 : fld N 9 5 = a.val := by simp only [fld]; omega
  have f14_12 : fld N 14 12 = 1 := by simp only [fld]; omega
  have f26_6 : fld N 26 6 = 40 := by simp only [fld]; omega
  refine ofParse (n := N) (by rw [hn]; rfl) (by omega) ?_
  simp [parse, decodeFab, f0_9, f9_5, f14_12, f26_6, sregVal]
theorem start (a : SReg) : Statement (.start a) := by
  have := a.isLt
  obtain ⟨N, hn⟩ : ∃ N, N = 0xA0000002 + a.val * 512 := ⟨_, rfl⟩
  have f0_9 : fld N 0 9 = 2 := by simp only [fld]; omega
  have f9_5 : fld N 9 5 = a.val := by simp only [fld]; omega
  have f14_12 : fld N 14 12 = 0 := by simp only [fld]; omega
  have f26_6 : fld N 26 6 = 40 := by simp only [fld]; omega
  refine ofParse (n := N) (by rw [hn]; rfl) (by omega) ?_
  simp [parse, decodeFab, f0_9, f9_5, f14_12, f26_6, sregVal]
theorem stopp (a : SReg) : Statement (.stopp a) := by
  have := a.isLt
  obtain ⟨N, hn⟩ : ∃ N, N = 0xA0000003 + a.val * 512 := ⟨_, rfl⟩
  have f0_9 : fld N 0 9 = 3 := by simp only [fld]; omega
  have f9_5 : fld N 9 5 = a.val := by simp only [fld]; omega
  have f14_12 : fld N 14 12 = 0 := by simp only [fld]; omega
  have f26_6 : fld N 26 6 = 40 := by simp only [fld]; omega
  refine ofParse (n := N) (by rw [hn]; rfl) (by omega) ?_
  simp [parse, decodeFab, f0_9, f9_5, f14_12, f26_6, sregVal]
theorem stoppNow (a : SReg) : Statement (.stoppNow a) := by
  have := a.isLt
  obtain ⟨N, hn⟩ : ∃ N, N = 0xA0004003 + a.val * 512 := ⟨_, rfl⟩
  have f0_9 : fld N 0 9 = 3 := by simp only [fld]; omega
  have f9_5 : fld N 9 5 = a.val := by simp only [fld]; omega
  have f14_12 : fld N 14 12 = 1 := by simp only [fld]; omega
  have f26_6 : fld N 26 6 = 40 := by simp only [fld]; omega
  refine ofParse (n := N) (by rw [hn]; rfl) (by omega) ?_
  simp [parse, decodeFab, f0_9, f9_5, f14_12, f26_6, sregVal]
theorem splarm (a : SReg) : Statement (.splarm a) := by
  have := a.isLt
  obtain ⟨N, hn⟩ : ∃ N, N = 0xA0000004 + a.val * 512 := ⟨_, rfl⟩
  have f0_9 : fld N 0 9 = 4 := by simp only [fld]; omega
  have f9_5 : fld N 9 5 = a.val := by simp only [fld]; omega
  have f14_12 : fld N 14 12 = 0 := by simp only [fld]; omega
  have f26_6 : fld N 26 6 = 40 := by simp only [fld]; omega
  refine ofParse (n := N) (by rw [hn]; rfl) (by omega) ?_
  simp [parse, decodeFab, f0_9, f9_5, f14_12, f26_6, sregVal]
theorem splice : Statement .splice := by
  obtain ⟨N, hn⟩ : ∃ N, N = 0xA0000005 := ⟨_, rfl⟩
  have f0_9 : fld N 0 9 = 5 := by simp only [fld]; omega
  have f9_17 : fld N 9 17 = 0 := by simp only [fld]; omega
  have f26_6 : fld N 26 6 = 40 := by simp only [fld]; omega
  refine ofParse (n := N) (by rw [hn]; rfl) (by omega) ?_
  simp [parse, decodeFab, f0_9, f9_17, f26_6]
theorem bypmap (a : SReg) : Statement (.bypmap a) := by
  have := a.isLt
  obtain ⟨N, hn⟩ : ∃ N, N = 0xA0000006 + a.val * 512 := ⟨_, rfl⟩
  have f0_9 : fld N 0 9 = 6 := by simp only [fld]; omega
  have f9_5 : fld N 9 5 = a.val := by simp only [fld]; omega
  have f14_12 : fld N 14 12 = 0 := by simp only [fld]; omega
  have f26_6 : fld N 26 6 = 40 := by simp only [fld]; omega
  refine ofParse (n := N) (by rw [hn]; rfl) (by omega) ?_
  simp [parse, decodeFab, f0_9, f9_5, f14_12, f26_6, sregVal]
theorem bypmapCol (a : SReg) : Statement (.bypmapCol a) := by
  have := a.isLt
  obtain ⟨N, hn⟩ : ∃ N, N = 0xA0004006 + a.val * 512 := ⟨_, rfl⟩
  have f0_9 : fld N 0 9 = 6 := by simp only [fld]; omega
  have f9_5 : fld N 9 5 = a.val := by simp only [fld]; omega
  have f14_12 : fld N 14 12 = 1 := by simp only [fld]; omega
  have f26_6 : fld N 26 6 = 40 := by simp only [fld]; omega
  refine ofParse (n := N) (by rw [hn]; rfl) (by omega) ?_
  simp [parse, decodeFab, f0_9, f9_5, f14_12, f26_6, sregVal]
theorem dlyset (a : SReg) : Statement (.dlyset a) := by
  have := a.isLt
  obtain ⟨N, hn⟩ : ∃ N, N = 0xA0000007 + a.val * 512 := ⟨_, rfl⟩
  have f0_9 : fld N 0 9 = 7 := by simp only [fld]; omega
  have f9_5 : fld N 9 5 = a.val := by simp only [fld]; omega
  have f14_12 : fld N 14 12 = 0 := by simp only [fld]; omega
  have f26_6 : fld N 26 6 = 40 := by simp only [fld]; omega
  refine ofParse (n := N) (by rw [hn]; rfl) (by omega) ?_
  simp [parse, decodeFab, f0_9, f9_5, f14_12, f26_6, sregVal]
theorem holdtab (a : SReg) : Statement (.holdtab a) := by
  have := a.isLt
  obtain ⟨N, hn⟩ : ∃ N, N = 0xA0000008 + a.val * 512 := ⟨_, rfl⟩
  have f0_9 : fld N 0 9 = 8 := by simp only [fld]; omega
  have f9_5 : fld N 9 5 = a.val := by simp only [fld]; omega
  have f14_12 : fld N 14 12 = 0 := by simp only [fld]; omega
  have f26_6 : fld N 26 6 = 40 := by simp only [fld]; omega
  refine ofParse (n := N) (by rw [hn]; rfl) (by omega) ?_
  simp [parse, decodeFab, f0_9, f9_5, f14_12, f26_6, sregVal]
theorem shld (x : ShReg) (a : SReg) : Statement (.shld x a) := by
  have := x.isLt
  have := a.isLt
  obtain ⟨N, hn⟩ : ∃ N, N = 0xA4000000 + x.val * 4194304 + a.val * 512 := ⟨_, rfl⟩
  have f0_9 : fld N 0 9 = 0 := by simp only [fld]; omega
  have f9_5 : fld N 9 5 = a.val := by simp only [fld]; omega
  have f14_8 : fld N 14 8 = 0 := by simp only [fld]; omega
  have f22_4 : fld N 22 4 = x.val := by simp only [fld]; omega
  have f26_6 : fld N 26 6 = 41 := by simp only [fld]; omega
  refine ofParse (n := N) (by rw [hn]; rfl) (by omega) ?_
  simp [parse, decodeStrm, f0_9, f9_5, f14_8, f22_4, f26_6, sregVal, reg16Val]
theorem shst (x : ShReg) (a : SReg) : Statement (.shst x a) := by
  have := x.isLt
  have := a.isLt
  obtain ⟨N, hn⟩ : ∃ N, N = 0xA4000001 + x.val * 4194304 + a.val * 512 := ⟨_, rfl⟩
  have f0_9 : fld N 0 9 = 1 := by simp only [fld]; omega
  have f9_5 : fld N 9 5 = a.val := by simp only [fld]; omega
  have f14_8 : fld N 14 8 = 0 := by simp only [fld]; omega
  have f22_4 : fld N 22 4 = x.val := by simp only [fld]; omega
  have f26_6 : fld N 26 6 = 41 := by simp only [fld]; omega
  refine ofParse (n := N) (by rw [hn]; rfl) (by omega) ?_
  simp [parse, decodeStrm, f0_9, f9_5, f14_8, f22_4, f26_6, sregVal, reg16Val]
theorem strm (x : ShReg) (y : ShReg) (n : NodeIx) (a : SReg) : Statement (.strm x y n a) := by
  have := x.isLt
  have := y.isLt
  have := n.isLt
  have := a.isLt
  obtain ⟨N, hn⟩ : ∃ N, N = 0xA4000002 + x.val * 4194304 + y.val * 262144 + n.val * 16384 + a.val * 512 := ⟨_, rfl⟩
  have f0_9 : fld N 0 9 = 2 := by simp only [fld]; omega
  have f9_5 : fld N 9 5 = a.val := by simp only [fld]; omega
  have f14_4 : fld N 14 4 = n.val := by simp only [fld]; omega
  have f18_4 : fld N 18 4 = y.val := by simp only [fld]; omega
  have f22_4 : fld N 22 4 = x.val := by simp only [fld]; omega
  have f26_6 : fld N 26 6 = 41 := by simp only [fld]; omega
  refine ofParse (n := N) (by rw [hn]; rfl) (by omega) ?_
  simp [parse, decodeStrm, f0_9, f9_5, f14_4, f18_4, f22_4, f26_6, need, sregVal, reg16Val, nodeVal?]
theorem strmq (n : NodeIx) (a : SReg) : Statement (.strmq n a) := by
  have := n.isLt
  have := a.isLt
  obtain ⟨N, hn⟩ : ∃ N, N = 0xA4000003 + n.val * 16384 + a.val * 512 := ⟨_, rfl⟩
  have f0_9 : fld N 0 9 = 3 := by simp only [fld]; omega
  have f9_5 : fld N 9 5 = a.val := by simp only [fld]; omega
  have f14_4 : fld N 14 4 = n.val := by simp only [fld]; omega
  have f18_8 : fld N 18 8 = 0 := by simp only [fld]; omega
  have f26_6 : fld N 26 6 = 41 := by simp only [fld]; omega
  refine ofParse (n := N) (by rw [hn]; rfl) (by omega) ?_
  simp [parse, decodeStrm, f0_9, f9_5, f14_4, f18_8, f26_6, need, sregVal, nodeVal?]
theorem xform (n : NodeIx) (a : SReg) : Statement (.xform n a) := by
  have := n.isLt
  have := a.isLt
  obtain ⟨N, hn⟩ : ∃ N, N = 0xA4000004 + n.val * 16384 + a.val * 512 := ⟨_, rfl⟩
  have f0_9 : fld N 0 9 = 4 := by simp only [fld]; omega
  have f9_5 : fld N 9 5 = a.val := by simp only [fld]; omega
  have f14_4 : fld N 14 4 = n.val := by simp only [fld]; omega
  have f18_8 : fld N 18 8 = 0 := by simp only [fld]; omega
  have f26_6 : fld N 26 6 = 41 := by simp only [fld]; omega
  refine ofParse (n := N) (by rw [hn]; rfl) (by omega) ?_
  simp [parse, decodeStrm, f0_9, f9_5, f14_4, f18_8, f26_6, need, sregVal, nodeVal?]
theorem cbload (a : SReg) : Statement (.cbload a) := by
  have := a.isLt
  obtain ⟨N, hn⟩ : ∃ N, N = 0xA4000005 + a.val * 512 := ⟨_, rfl⟩
  have f0_9 : fld N 0 9 = 5 := by simp only [fld]; omega
  have f9_5 : fld N 9 5 = a.val := by simp only [fld]; omega
  have f14_12 : fld N 14 12 = 0 := by simp only [fld]; omega
  have f26_6 : fld N 26 6 = 41 := by simp only [fld]; omega
  refine ofParse (n := N) (by rw [hn]; rfl) (by omega) ?_
  simp [parse, decodeStrm, f0_9, f9_5, f14_12, f26_6, sregVal]
theorem slset (x : SlReg) (a : SReg) : Statement (.slset x a) := by
  have := x.isLt
  have := a.isLt
  obtain ⟨N, hn⟩ : ∃ N, N = 0xA8000000 + x.val * 4194304 + a.val * 512 := ⟨_, rfl⟩
  have f0_9 : fld N 0 9 = 0 := by simp only [fld]; omega
  have f9_5 : fld N 9 5 = a.val := by simp only [fld]; omega
  have f14_8 : fld N 14 8 = 0 := by simp only [fld]; omega
  have f22_4 : fld N 22 4 = x.val := by simp only [fld]; omega
  have f26_6 : fld N 26 6 = 42 := by simp only [fld]; omega
  refine ofParse (n := N) (by rw [hn]; rfl) (by omega) ?_
  simp [parse, decodeSlu, f0_9, f9_5, f14_8, f22_4, f26_6, sregVal, reg16Val]
theorem slput (x : SlReg) (a : SReg) : Statement (.slput x a) := by
  have := x.isLt
  have := a.isLt
  obtain ⟨N, hn⟩ : ∃ N, N = 0xA8000001 + x.val * 4194304 + a.val * 512 := ⟨_, rfl⟩
  have f0_9 : fld N 0 9 = 1 := by simp only [fld]; omega
  have f9_5 : fld N 9 5 = a.val := by simp only [fld]; omega
  have f14_8 : fld N 14 8 = 0 := by simp only [fld]; omega
  have f22_4 : fld N 22 4 = x.val := by simp only [fld]; omega
  have f26_6 : fld N 26 6 = 42 := by simp only [fld]; omega
  refine ofParse (n := N) (by rw [hn]; rfl) (by omega) ?_
  simp [parse, decodeSlu, f0_9, f9_5, f14_8, f22_4, f26_6, sregVal, reg16Val]
theorem sltake (x : SlReg) (a : SReg) : Statement (.sltake x a) := by
  have := x.isLt
  have := a.isLt
  obtain ⟨N, hn⟩ : ∃ N, N = 0xA8000002 + x.val * 4194304 + a.val * 512 := ⟨_, rfl⟩
  have f0_9 : fld N 0 9 = 2 := by simp only [fld]; omega
  have f9_5 : fld N 9 5 = a.val := by simp only [fld]; omega
  have f14_8 : fld N 14 8 = 0 := by simp only [fld]; omega
  have f22_4 : fld N 22 4 = x.val := by simp only [fld]; omega
  have f26_6 : fld N 26 6 = 42 := by simp only [fld]; omega
  refine ofParse (n := N) (by rw [hn]; rfl) (by omega) ?_
  simp [parse, decodeSlu, f0_9, f9_5, f14_8, f22_4, f26_6, sregVal, reg16Val]
theorem slqry (x : SlReg) (a : SReg) : Statement (.slqry x a) := by
  have := x.isLt
  have := a.isLt
  obtain ⟨N, hn⟩ : ∃ N, N = 0xA8000003 + x.val * 4194304 + a.val * 512 := ⟨_, rfl⟩
  have f0_9 : fld N 0 9 = 3 := by simp only [fld]; omega
  have f9_5 : fld N 9 5 = a.val := by simp only [fld]; omega
  have f14_8 : fld N 14 8 = 0 := by simp only [fld]; omega
  have f22_4 : fld N 22 4 = x.val := by simp only [fld]; omega
  have f26_6 : fld N 26 6 = 42 := by simp only [fld]; omega
  refine ofParse (n := N) (by rw [hn]; rfl) (by omega) ?_
  simp [parse, decodeSlu, f0_9, f9_5, f14_8, f22_4, f26_6, sregVal, reg16Val]
theorem slqryD (x : SlReg) (a : SReg) : Statement (.slqryD x a) := by
  have := x.isLt
  have := a.isLt
  obtain ⟨N, hn⟩ : ∃ N, N = 0xA8004003 + x.val * 4194304 + a.val * 512 := ⟨_, rfl⟩
  have f0_9 : fld N 0 9 = 3 := by simp only [fld]; omega
  have f9_5 : fld N 9 5 = a.val := by simp only [fld]; omega
  have f14_8 : fld N 14 8 = 1 := by simp only [fld]; omega
  have f22_4 : fld N 22 4 = x.val := by simp only [fld]; omega
  have f26_6 : fld N 26 6 = 42 := by simp only [fld]; omega
  refine ofParse (n := N) (by rw [hn]; rfl) (by omega) ?_
  simp [parse, decodeSlu, f0_9, f9_5, f14_8, f22_4, f26_6, sregVal, reg16Val]
theorem slwaitData (x : SlReg) (a : SReg) : Statement (.slwaitData x a) := by
  have := x.isLt
  have := a.isLt
  obtain ⟨N, hn⟩ : ∃ N, N = 0xA8000004 + x.val * 4194304 + a.val * 512 := ⟨_, rfl⟩
  have f0_9 : fld N 0 9 = 4 := by simp only [fld]; omega
  have f9_5 : fld N 9 5 = a.val := by simp only [fld]; omega
  have f14_8 : fld N 14 8 = 0 := by simp only [fld]; omega
  have f22_4 : fld N 22 4 = x.val := by simp only [fld]; omega
  have f26_6 : fld N 26 6 = 42 := by simp only [fld]; omega
  refine ofParse (n := N) (by rw [hn]; rfl) (by omega) ?_
  simp [parse, decodeSlu, f0_9, f9_5, f14_8, f22_4, f26_6, sregVal, reg16Val]
theorem slwaitRoom (x : SlReg) (a : SReg) : Statement (.slwaitRoom x a) := by
  have := x.isLt
  have := a.isLt
  obtain ⟨N, hn⟩ : ∃ N, N = 0xA8004004 + x.val * 4194304 + a.val * 512 := ⟨_, rfl⟩
  have f0_9 : fld N 0 9 = 4 := by simp only [fld]; omega
  have f9_5 : fld N 9 5 = a.val := by simp only [fld]; omega
  have f14_8 : fld N 14 8 = 1 := by simp only [fld]; omega
  have f22_4 : fld N 22 4 = x.val := by simp only [fld]; omega
  have f26_6 : fld N 26 6 = 42 := by simp only [fld]; omega
  refine ofParse (n := N) (by rw [hn]; rfl) (by omega) ?_
  simp [parse, decodeSlu, f0_9, f9_5, f14_8, f22_4, f26_6, sregVal, reg16Val]
theorem tstep (x : ShReg) (y : SlReg) (a : SReg) (n : BitVec 9) : Statement (.tstep x y a n) := by
  by_cases h0 : a.val = 0
  · intro w _ hwf; simp [Instr.wellFormed, h0] at hwf
  · have := x.isLt
    have := y.isLt
    have := a.isLt
    have := n.isLt
    obtain ⟨N, hn⟩ : ∃ N, N = 0xAC000000 + x.val * 4194304 + y.val * 262144 + a.val * 512 + n.toNat := ⟨_, rfl⟩
    have f0_9 : fld N 0 9 = n.toNat := by simp only [fld]; omega
    have f9_5 : fld N 9 5 = a.val := by simp only [fld]; omega
    have f14_4 : fld N 14 4 = 0 := by simp only [fld]; omega
    have f18_4 : fld N 18 4 = y.val := by simp only [fld]; omega
    have f22_4 : fld N 22 4 = x.val := by simp only [fld]; omega
    have f26_6 : fld N 26 6 = 43 := by simp only [fld]; omega
    refine ofParse (n := N) (by rw [hn]; rfl) (by omega) ?_
    simp [parse, decodeTstep, f0_9, f9_5, f14_4, f18_4, f22_4, f26_6, sregVal, reg16Val, h0]
theorem tstepV (x : ShReg) (y : SlReg) (z : VReg) (n : BitVec 9) : Statement (.tstepV x y z n) := by
  have := x.isLt
  have := y.isLt
  have := z.isLt
  have := n.isLt
  obtain ⟨N, hn⟩ : ∃ N, N = 0xAC000000 + x.val * 4194304 + y.val * 262144 + z.val * 16384 + n.toNat := ⟨_, rfl⟩
  have f0_9 : fld N 0 9 = n.toNat := by simp only [fld]; omega
  have f9_5 : fld N 9 5 = 0 := by simp only [fld]; omega
  have f14_4 : fld N 14 4 = z.val := by simp only [fld]; omega
  have f18_4 : fld N 18 4 = y.val := by simp only [fld]; omega
  have f22_4 : fld N 22 4 = x.val := by simp only [fld]; omega
  have f26_6 : fld N 26 6 = 43 := by simp only [fld]; omega
  refine ofParse (n := N) (by rw [hn]; rfl) (by omega) ?_
  simp [parse, decodeTstep, f0_9, f9_5, f14_4, f18_4, f22_4, f26_6, reg16Val]
theorem wtbl (a : SReg) (b : SReg) (g : PReg) : Statement (.wtbl a b g) := by
  have := a.isLt
  have := b.isLt
  have := g.isLt
  obtain ⟨N, hn⟩ : ∃ N, N = 0xB0000000 + a.val * 65536 + b.val * 2048 + g.val * 256 := ⟨_, rfl⟩
  have f0_8 : fld N 0 8 = 0 := by simp only [fld]; omega
  have f8_3 : fld N 8 3 = g.val := by simp only [fld]; omega
  have f11_5 : fld N 11 5 = b.val := by simp only [fld]; omega
  have f16_5 : fld N 16 5 = a.val := by simp only [fld]; omega
  have f21_5 : fld N 21 5 = 0 := by simp only [fld]; omega
  have f26_6 : fld N 26 6 = 44 := by simp only [fld]; omega
  refine ofParse (n := N) (by rw [hn]; rfl) (by omega) ?_
  simp [parse, decodeWd, f0_8, f8_3, f11_5, f16_5, f21_5, f26_6, sregVal, pregVal]
theorem wdec (a : SReg) (g : PReg) : Statement (.wdec a g) := by
  have := a.isLt
  have := g.isLt
  obtain ⟨N, hn⟩ : ∃ N, N = 0xB0000001 + a.val * 65536 + g.val * 256 := ⟨_, rfl⟩
  have f0_8 : fld N 0 8 = 1 := by simp only [fld]; omega
  have f8_3 : fld N 8 3 = g.val := by simp only [fld]; omega
  have f11_5 : fld N 11 5 = 0 := by simp only [fld]; omega
  have f16_5 : fld N 16 5 = a.val := by simp only [fld]; omega
  have f21_5 : fld N 21 5 = 0 := by simp only [fld]; omega
  have f26_6 : fld N 26 6 = 44 := by simp only [fld]; omega
  refine ofParse (n := N) (by rw [hn]; rfl) (by omega) ?_
  simp [parse, decodeWd, f0_8, f8_3, f11_5, f16_5, f21_5, f26_6, sregVal, pregVal]
theorem wseek (a : SReg) (g : PReg) : Statement (.wseek a g) := by
  have := a.isLt
  have := g.isLt
  obtain ⟨N, hn⟩ : ∃ N, N = 0xB0000002 + a.val * 65536 + g.val * 256 := ⟨_, rfl⟩
  have f0_8 : fld N 0 8 = 2 := by simp only [fld]; omega
  have f8_3 : fld N 8 3 = g.val := by simp only [fld]; omega
  have f11_5 : fld N 11 5 = 0 := by simp only [fld]; omega
  have f16_5 : fld N 16 5 = a.val := by simp only [fld]; omega
  have f21_5 : fld N 21 5 = 0 := by simp only [fld]; omega
  have f26_6 : fld N 26 6 = 44 := by simp only [fld]; omega
  refine ofParse (n := N) (by rw [hn]; rfl) (by omega) ?_
  simp [parse, decodeWd, f0_8, f8_3, f11_5, f16_5, f21_5, f26_6, sregVal, pregVal]
theorem wdqry (d : SReg) (a : SReg) (g : PReg) : Statement (.wdqry d a g) := by
  have := d.isLt
  have := a.isLt
  have := g.isLt
  obtain ⟨N, hn⟩ : ∃ N, N = 0xB0000003 + d.val * 2097152 + a.val * 65536 + g.val * 256 := ⟨_, rfl⟩
  have f0_8 : fld N 0 8 = 3 := by simp only [fld]; omega
  have f8_3 : fld N 8 3 = g.val := by simp only [fld]; omega
  have f11_5 : fld N 11 5 = 0 := by simp only [fld]; omega
  have f16_5 : fld N 16 5 = a.val := by simp only [fld]; omega
  have f21_5 : fld N 21 5 = d.val := by simp only [fld]; omega
  have f26_6 : fld N 26 6 = 44 := by simp only [fld]; omega
  refine ofParse (n := N) (by rw [hn]; rfl) (by omega) ?_
  simp [parse, decodeWd, f0_8, f8_3, f11_5, f16_5, f21_5, f26_6, sregVal, pregVal]
theorem scset (a : SReg) (b : SReg) (g : PReg) : Statement (.scset a b g) := by
  have := a.isLt
  have := b.isLt
  have := g.isLt
  obtain ⟨N, hn⟩ : ∃ N, N = 0xB4000000 + a.val * 65536 + b.val * 2048 + g.val * 256 := ⟨_, rfl⟩
  have f0_8 : fld N 0 8 = 0 := by simp only [fld]; omega
  have f8_3 : fld N 8 3 = g.val := by simp only [fld]; omega
  have f11_5 : fld N 11 5 = b.val := by simp only [fld]; omega
  have f16_5 : fld N 16 5 = a.val := by simp only [fld]; omega
  have f21_5 : fld N 21 5 = 0 := by simp only [fld]; omega
  have f26_6 : fld N 26 6 = 45 := by simp only [fld]; omega
  refine ofParse (n := N) (by rw [hn]; rfl) (by omega) ?_
  simp [parse, decodeScl, f0_8, f8_3, f11_5, f16_5, f21_5, f26_6, sregVal, pregVal]
theorem scfl (g : PReg) : Statement (.scfl g) := by
  have := g.isLt
  obtain ⟨N, hn⟩ : ∃ N, N = 0xB4000001 + g.val * 256 := ⟨_, rfl⟩
  have f0_8 : fld N 0 8 = 1 := by simp only [fld]; omega
  have f8_3 : fld N 8 3 = g.val := by simp only [fld]; omega
  have f11_15 : fld N 11 15 = 0 := by simp only [fld]; omega
  have f26_6 : fld N 26 6 = 45 := by simp only [fld]; omega
  refine ofParse (n := N) (by rw [hn]; rfl) (by omega) ?_
  simp [parse, decodeScl, f0_8, f8_3, f11_15, f26_6, pregVal]
theorem chain (a : SReg) (b : SReg) (g : PReg) : Statement (.chain a b g) := by
  have := a.isLt
  have := b.isLt
  have := g.isLt
  obtain ⟨N, hn⟩ : ∃ N, N = 0xB8000000 + a.val * 65536 + b.val * 2048 + g.val * 256 := ⟨_, rfl⟩
  have f0_8 : fld N 0 8 = 0 := by simp only [fld]; omega
  have f8_3 : fld N 8 3 = g.val := by simp only [fld]; omega
  have f11_5 : fld N 11 5 = b.val := by simp only [fld]; omega
  have f16_5 : fld N 16 5 = a.val := by simp only [fld]; omega
  have f21_5 : fld N 21 5 = 0 := by simp only [fld]; omega
  have f26_6 : fld N 26 6 = 46 := by simp only [fld]; omega
  refine ofParse (n := N) (by rw [hn]; rfl) (by omega) ?_
  simp [parse, decodeChn, f0_8, f8_3, f11_5, f16_5, f21_5, f26_6, sregVal, pregVal]
theorem chconst (a : SReg) (b : SReg) (g : PReg) : Statement (.chconst a b g) := by
  have := a.isLt
  have := b.isLt
  have := g.isLt
  obtain ⟨N, hn⟩ : ∃ N, N = 0xB8000001 + a.val * 65536 + b.val * 2048 + g.val * 256 := ⟨_, rfl⟩
  have f0_8 : fld N 0 8 = 1 := by simp only [fld]; omega
  have f8_3 : fld N 8 3 = g.val := by simp only [fld]; omega
  have f11_5 : fld N 11 5 = b.val := by simp only [fld]; omega
  have f16_5 : fld N 16 5 = a.val := by simp only [fld]; omega
  have f21_5 : fld N 21 5 = 0 := by simp only [fld]; omega
  have f26_6 : fld N 26 6 = 46 := by simp only [fld]; omega
  refine ofParse (n := N) (by rw [hn]; rfl) (by omega) ?_
  simp [parse, decodeChn, f0_8, f8_3, f11_5, f16_5, f21_5, f26_6, sregVal, pregVal]
theorem vopAdd (d : VReg) (a : VReg) (b : VReg) (g : PReg) (t : LaneType) : Statement (.vopAdd d a b g t) := by
  have := d.isLt
  have := a.isLt
  have := b.isLt
  have := g.isLt
  have := laneLt t
  obtain ⟨N, hn⟩ : ∃ N, N = 0xC0000000 + d.val * 2097152 + a.val * 65536 + b.val * 2048 + g.val * 256 + t.code * 32 := ⟨_, rfl⟩
  have f0_5 : fld N 0 5 = 0 := by simp only [fld]; omega
  have f5_3 : fld N 5 3 = t.code := by simp only [fld]; omega
  have f8_3 : fld N 8 3 = g.val := by simp only [fld]; omega
  have f11_5 : fld N 11 5 = b.val := by simp only [fld]; omega
  have f16_5 : fld N 16 5 = a.val := by simp only [fld]; omega
  have f21_5 : fld N 21 5 = d.val := by simp only [fld]; omega
  have f26_6 : fld N 26 6 = 48 := by simp only [fld]; omega
  refine ofParse (n := N) (by rw [hn]; rfl) (by omega) ?_
  simp [parse, decodeVop, f0_5, f5_3, f8_3, f11_5, f16_5, f21_5, f26_6, need, pregVal, vregVal?, laneVal]
theorem vopSub (d : VReg) (a : VReg) (b : VReg) (g : PReg) (t : LaneType) : Statement (.vopSub d a b g t) := by
  have := d.isLt
  have := a.isLt
  have := b.isLt
  have := g.isLt
  have := laneLt t
  obtain ⟨N, hn⟩ : ∃ N, N = 0xC0000001 + d.val * 2097152 + a.val * 65536 + b.val * 2048 + g.val * 256 + t.code * 32 := ⟨_, rfl⟩
  have f0_5 : fld N 0 5 = 1 := by simp only [fld]; omega
  have f5_3 : fld N 5 3 = t.code := by simp only [fld]; omega
  have f8_3 : fld N 8 3 = g.val := by simp only [fld]; omega
  have f11_5 : fld N 11 5 = b.val := by simp only [fld]; omega
  have f16_5 : fld N 16 5 = a.val := by simp only [fld]; omega
  have f21_5 : fld N 21 5 = d.val := by simp only [fld]; omega
  have f26_6 : fld N 26 6 = 48 := by simp only [fld]; omega
  refine ofParse (n := N) (by rw [hn]; rfl) (by omega) ?_
  simp [parse, decodeVop, f0_5, f5_3, f8_3, f11_5, f16_5, f21_5, f26_6, need, pregVal, vregVal?, laneVal]
theorem vopMul (d : VReg) (a : VReg) (b : VReg) (g : PReg) (t : LaneType) : Statement (.vopMul d a b g t) := by
  have := d.isLt
  have := a.isLt
  have := b.isLt
  have := g.isLt
  have := laneLt t
  obtain ⟨N, hn⟩ : ∃ N, N = 0xC0000002 + d.val * 2097152 + a.val * 65536 + b.val * 2048 + g.val * 256 + t.code * 32 := ⟨_, rfl⟩
  have f0_5 : fld N 0 5 = 2 := by simp only [fld]; omega
  have f5_3 : fld N 5 3 = t.code := by simp only [fld]; omega
  have f8_3 : fld N 8 3 = g.val := by simp only [fld]; omega
  have f11_5 : fld N 11 5 = b.val := by simp only [fld]; omega
  have f16_5 : fld N 16 5 = a.val := by simp only [fld]; omega
  have f21_5 : fld N 21 5 = d.val := by simp only [fld]; omega
  have f26_6 : fld N 26 6 = 48 := by simp only [fld]; omega
  refine ofParse (n := N) (by rw [hn]; rfl) (by omega) ?_
  simp [parse, decodeVop, f0_5, f5_3, f8_3, f11_5, f16_5, f21_5, f26_6, need, pregVal, vregVal?, laneVal]
theorem vopFma (d : VReg) (a : VReg) (b : VReg) (g : PReg) (t : LaneType) : Statement (.vopFma d a b g t) := by
  have := d.isLt
  have := a.isLt
  have := b.isLt
  have := g.isLt
  have := laneLt t
  obtain ⟨N, hn⟩ : ∃ N, N = 0xC0000003 + d.val * 2097152 + a.val * 65536 + b.val * 2048 + g.val * 256 + t.code * 32 := ⟨_, rfl⟩
  have f0_5 : fld N 0 5 = 3 := by simp only [fld]; omega
  have f5_3 : fld N 5 3 = t.code := by simp only [fld]; omega
  have f8_3 : fld N 8 3 = g.val := by simp only [fld]; omega
  have f11_5 : fld N 11 5 = b.val := by simp only [fld]; omega
  have f16_5 : fld N 16 5 = a.val := by simp only [fld]; omega
  have f21_5 : fld N 21 5 = d.val := by simp only [fld]; omega
  have f26_6 : fld N 26 6 = 48 := by simp only [fld]; omega
  refine ofParse (n := N) (by rw [hn]; rfl) (by omega) ?_
  simp [parse, decodeVop, f0_5, f5_3, f8_3, f11_5, f16_5, f21_5, f26_6, need, pregVal, vregVal?, laneVal]
theorem vopFnma (d : VReg) (a : VReg) (b : VReg) (g : PReg) (t : LaneType) : Statement (.vopFnma d a b g t) := by
  have := d.isLt
  have := a.isLt
  have := b.isLt
  have := g.isLt
  have := laneLt t
  obtain ⟨N, hn⟩ : ∃ N, N = 0xC0000004 + d.val * 2097152 + a.val * 65536 + b.val * 2048 + g.val * 256 + t.code * 32 := ⟨_, rfl⟩
  have f0_5 : fld N 0 5 = 4 := by simp only [fld]; omega
  have f5_3 : fld N 5 3 = t.code := by simp only [fld]; omega
  have f8_3 : fld N 8 3 = g.val := by simp only [fld]; omega
  have f11_5 : fld N 11 5 = b.val := by simp only [fld]; omega
  have f16_5 : fld N 16 5 = a.val := by simp only [fld]; omega
  have f21_5 : fld N 21 5 = d.val := by simp only [fld]; omega
  have f26_6 : fld N 26 6 = 48 := by simp only [fld]; omega
  refine ofParse (n := N) (by rw [hn]; rfl) (by omega) ?_
  simp [parse, decodeVop, f0_5, f5_3, f8_3, f11_5, f16_5, f21_5, f26_6, need, pregVal, vregVal?, laneVal]
theorem vopMin (d : VReg) (a : VReg) (b : VReg) (g : PReg) (t : LaneType) : Statement (.vopMin d a b g t) := by
  have := d.isLt
  have := a.isLt
  have := b.isLt
  have := g.isLt
  have := laneLt t
  obtain ⟨N, hn⟩ : ∃ N, N = 0xC0000005 + d.val * 2097152 + a.val * 65536 + b.val * 2048 + g.val * 256 + t.code * 32 := ⟨_, rfl⟩
  have f0_5 : fld N 0 5 = 5 := by simp only [fld]; omega
  have f5_3 : fld N 5 3 = t.code := by simp only [fld]; omega
  have f8_3 : fld N 8 3 = g.val := by simp only [fld]; omega
  have f11_5 : fld N 11 5 = b.val := by simp only [fld]; omega
  have f16_5 : fld N 16 5 = a.val := by simp only [fld]; omega
  have f21_5 : fld N 21 5 = d.val := by simp only [fld]; omega
  have f26_6 : fld N 26 6 = 48 := by simp only [fld]; omega
  refine ofParse (n := N) (by rw [hn]; rfl) (by omega) ?_
  simp [parse, decodeVop, f0_5, f5_3, f8_3, f11_5, f16_5, f21_5, f26_6, need, pregVal, vregVal?, laneVal]
theorem vopMax (d : VReg) (a : VReg) (b : VReg) (g : PReg) (t : LaneType) : Statement (.vopMax d a b g t) := by
  have := d.isLt
  have := a.isLt
  have := b.isLt
  have := g.isLt
  have := laneLt t
  obtain ⟨N, hn⟩ : ∃ N, N = 0xC0000006 + d.val * 2097152 + a.val * 65536 + b.val * 2048 + g.val * 256 + t.code * 32 := ⟨_, rfl⟩
  have f0_5 : fld N 0 5 = 6 := by simp only [fld]; omega
  have f5_3 : fld N 5 3 = t.code := by simp only [fld]; omega
  have f8_3 : fld N 8 3 = g.val := by simp only [fld]; omega
  have f11_5 : fld N 11 5 = b.val := by simp only [fld]; omega
  have f16_5 : fld N 16 5 = a.val := by simp only [fld]; omega
  have f21_5 : fld N 21 5 = d.val := by simp only [fld]; omega
  have f26_6 : fld N 26 6 = 48 := by simp only [fld]; omega
  refine ofParse (n := N) (by rw [hn]; rfl) (by omega) ?_
  simp [parse, decodeVop, f0_5, f5_3, f8_3, f11_5, f16_5, f21_5, f26_6, need, pregVal, vregVal?, laneVal]
theorem vopAbs (d : VReg) (a : VReg) (g : PReg) (t : LaneType) : Statement (.vopAbs d a g t) := by
  have := d.isLt
  have := a.isLt
  have := g.isLt
  have := laneLt t
  obtain ⟨N, hn⟩ : ∃ N, N = 0xC0000007 + d.val * 2097152 + a.val * 65536 + g.val * 256 + t.code * 32 := ⟨_, rfl⟩
  have f0_5 : fld N 0 5 = 7 := by simp only [fld]; omega
  have f5_3 : fld N 5 3 = t.code := by simp only [fld]; omega
  have f8_3 : fld N 8 3 = g.val := by simp only [fld]; omega
  have f11_5 : fld N 11 5 = 0 := by simp only [fld]; omega
  have f16_5 : fld N 16 5 = a.val := by simp only [fld]; omega
  have f21_5 : fld N 21 5 = d.val := by simp only [fld]; omega
  have f26_6 : fld N 26 6 = 48 := by simp only [fld]; omega
  refine ofParse (n := N) (by rw [hn]; rfl) (by omega) ?_
  simp [parse, decodeVop, f0_5, f5_3, f8_3, f11_5, f16_5, f21_5, f26_6, need, pregVal, vregVal?, laneVal]
theorem vopNeg (d : VReg) (a : VReg) (g : PReg) (t : LaneType) : Statement (.vopNeg d a g t) := by
  have := d.isLt
  have := a.isLt
  have := g.isLt
  have := laneLt t
  obtain ⟨N, hn⟩ : ∃ N, N = 0xC0000008 + d.val * 2097152 + a.val * 65536 + g.val * 256 + t.code * 32 := ⟨_, rfl⟩
  have f0_5 : fld N 0 5 = 8 := by simp only [fld]; omega
  have f5_3 : fld N 5 3 = t.code := by simp only [fld]; omega
  have f8_3 : fld N 8 3 = g.val := by simp only [fld]; omega
  have f11_5 : fld N 11 5 = 0 := by simp only [fld]; omega
  have f16_5 : fld N 16 5 = a.val := by simp only [fld]; omega
  have f21_5 : fld N 21 5 = d.val := by simp only [fld]; omega
  have f26_6 : fld N 26 6 = 48 := by simp only [fld]; omega
  refine ofParse (n := N) (by rw [hn]; rfl) (by omega) ?_
  simp [parse, decodeVop, f0_5, f5_3, f8_3, f11_5, f16_5, f21_5, f26_6, need, pregVal, vregVal?, laneVal]
theorem vopRsqs (d : VReg) (a : VReg) (g : PReg) (t : LaneType) : Statement (.vopRsqs d a g t) := by
  have := d.isLt
  have := a.isLt
  have := g.isLt
  have := laneLt t
  obtain ⟨N, hn⟩ : ∃ N, N = 0xC0000009 + d.val * 2097152 + a.val * 65536 + g.val * 256 + t.code * 32 := ⟨_, rfl⟩
  have f0_5 : fld N 0 5 = 9 := by simp only [fld]; omega
  have f5_3 : fld N 5 3 = t.code := by simp only [fld]; omega
  have f8_3 : fld N 8 3 = g.val := by simp only [fld]; omega
  have f11_5 : fld N 11 5 = 0 := by simp only [fld]; omega
  have f16_5 : fld N 16 5 = a.val := by simp only [fld]; omega
  have f21_5 : fld N 21 5 = d.val := by simp only [fld]; omega
  have f26_6 : fld N 26 6 = 48 := by simp only [fld]; omega
  refine ofParse (n := N) (by rw [hn]; rfl) (by omega) ?_
  simp [parse, decodeVop, f0_5, f5_3, f8_3, f11_5, f16_5, f21_5, f26_6, need, pregVal, vregVal?, laneVal]
theorem vopRcps (d : VReg) (a : VReg) (g : PReg) (t : LaneType) : Statement (.vopRcps d a g t) := by
  have := d.isLt
  have := a.isLt
  have := g.isLt
  have := laneLt t
  obtain ⟨N, hn⟩ : ∃ N, N = 0xC000000A + d.val * 2097152 + a.val * 65536 + g.val * 256 + t.code * 32 := ⟨_, rfl⟩
  have f0_5 : fld N 0 5 = 10 := by simp only [fld]; omega
  have f5_3 : fld N 5 3 = t.code := by simp only [fld]; omega
  have f8_3 : fld N 8 3 = g.val := by simp only [fld]; omega
  have f11_5 : fld N 11 5 = 0 := by simp only [fld]; omega
  have f16_5 : fld N 16 5 = a.val := by simp only [fld]; omega
  have f21_5 : fld N 21 5 = d.val := by simp only [fld]; omega
  have f26_6 : fld N 26 6 = 48 := by simp only [fld]; omega
  refine ofParse (n := N) (by rw [hn]; rfl) (by omega) ?_
  simp [parse, decodeVop, f0_5, f5_3, f8_3, f11_5, f16_5, f21_5, f26_6, need, pregVal, vregVal?, laneVal]
theorem vopExp2s (d : VReg) (a : VReg) (g : PReg) (t : LaneType) : Statement (.vopExp2s d a g t) := by
  have := d.isLt
  have := a.isLt
  have := g.isLt
  have := laneLt t
  obtain ⟨N, hn⟩ : ∃ N, N = 0xC000000B + d.val * 2097152 + a.val * 65536 + g.val * 256 + t.code * 32 := ⟨_, rfl⟩
  have f0_5 : fld N 0 5 = 11 := by simp only [fld]; omega
  have f5_3 : fld N 5 3 = t.code := by simp only [fld]; omega
  have f8_3 : fld N 8 3 = g.val := by simp only [fld]; omega
  have f11_5 : fld N 11 5 = 0 := by simp only [fld]; omega
  have f16_5 : fld N 16 5 = a.val := by simp only [fld]; omega
  have f21_5 : fld N 21 5 = d.val := by simp only [fld]; omega
  have f26_6 : fld N 26 6 = 48 := by simp only [fld]; omega
  refine ofParse (n := N) (by rw [hn]; rfl) (by omega) ?_
  simp [parse, decodeVop, f0_5, f5_3, f8_3, f11_5, f16_5, f21_5, f26_6, need, pregVal, vregVal?, laneVal]
theorem vopLog2s (d : VReg) (a : VReg) (g : PReg) (t : LaneType) : Statement (.vopLog2s d a g t) := by
  have := d.isLt
  have := a.isLt
  have := g.isLt
  have := laneLt t
  obtain ⟨N, hn⟩ : ∃ N, N = 0xC000000C + d.val * 2097152 + a.val * 65536 + g.val * 256 + t.code * 32 := ⟨_, rfl⟩
  have f0_5 : fld N 0 5 = 12 := by simp only [fld]; omega
  have f5_3 : fld N 5 3 = t.code := by simp only [fld]; omega
  have f8_3 : fld N 8 3 = g.val := by simp only [fld]; omega
  have f11_5 : fld N 11 5 = 0 := by simp only [fld]; omega
  have f16_5 : fld N 16 5 = a.val := by simp only [fld]; omega
  have f21_5 : fld N 21 5 = d.val := by simp only [fld]; omega
  have f26_6 : fld N 26 6 = 48 := by simp only [fld]; omega
  refine ofParse (n := N) (by rw [hn]; rfl) (by omega) ?_
  simp [parse, decodeVop, f0_5, f5_3, f8_3, f11_5, f16_5, f21_5, f26_6, need, pregVal, vregVal?, laneVal]
theorem vopRelu (d : VReg) (a : VReg) (g : PReg) (t : LaneType) : Statement (.vopRelu d a g t) := by
  have := d.isLt
  have := a.isLt
  have := g.isLt
  have := laneLt t
  obtain ⟨N, hn⟩ : ∃ N, N = 0xC000000D + d.val * 2097152 + a.val * 65536 + g.val * 256 + t.code * 32 := ⟨_, rfl⟩
  have f0_5 : fld N 0 5 = 13 := by simp only [fld]; omega
  have f5_3 : fld N 5 3 = t.code := by simp only [fld]; omega
  have f8_3 : fld N 8 3 = g.val := by simp only [fld]; omega
  have f11_5 : fld N 11 5 = 0 := by simp only [fld]; omega
  have f16_5 : fld N 16 5 = a.val := by simp only [fld]; omega
  have f21_5 : fld N 21 5 = d.val := by simp only [fld]; omega
  have f26_6 : fld N 26 6 = 48 := by simp only [fld]; omega
  refine ofParse (n := N) (by rw [hn]; rfl) (by omega) ?_
  simp [parse, decodeVop, f0_5, f5_3, f8_3, f11_5, f16_5, f21_5, f26_6, need, pregVal, vregVal?, laneVal]
theorem vopClamp (d : VReg) (a : VReg) (b : VReg) (g : PReg) (t : LaneType) : Statement (.vopClamp d a b g t) := by
  have := d.isLt
  have := a.isLt
  have := b.isLt
  have := g.isLt
  have := laneLt t
  obtain ⟨N, hn⟩ : ∃ N, N = 0xC000000E + d.val * 2097152 + a.val * 65536 + b.val * 2048 + g.val * 256 + t.code * 32 := ⟨_, rfl⟩
  have f0_5 : fld N 0 5 = 14 := by simp only [fld]; omega
  have f5_3 : fld N 5 3 = t.code := by simp only [fld]; omega
  have f8_3 : fld N 8 3 = g.val := by simp only [fld]; omega
  have f11_5 : fld N 11 5 = b.val := by simp only [fld]; omega
  have f16_5 : fld N 16 5 = a.val := by simp only [fld]; omega
  have f21_5 : fld N 21 5 = d.val := by simp only [fld]; omega
  have f26_6 : fld N 26 6 = 48 := by simp only [fld]; omega
  refine ofParse (n := N) (by rw [hn]; rfl) (by omega) ?_
  simp [parse, decodeVop, f0_5, f5_3, f8_3, f11_5, f16_5, f21_5, f26_6, need, pregVal, vregVal?, laneVal]
theorem vopSel (d : VReg) (a : VReg) (b : VReg) (g : PReg) (t : LaneType) : Statement (.vopSel d a b g t) := by
  have := d.isLt
  have := a.isLt
  have := b.isLt
  have := g.isLt
  have := laneLt t
  obtain ⟨N, hn⟩ : ∃ N, N = 0xC000000F + d.val * 2097152 + a.val * 65536 + b.val * 2048 + g.val * 256 + t.code * 32 := ⟨_, rfl⟩
  have f0_5 : fld N 0 5 = 15 := by simp only [fld]; omega
  have f5_3 : fld N 5 3 = t.code := by simp only [fld]; omega
  have f8_3 : fld N 8 3 = g.val := by simp only [fld]; omega
  have f11_5 : fld N 11 5 = b.val := by simp only [fld]; omega
  have f16_5 : fld N 16 5 = a.val := by simp only [fld]; omega
  have f21_5 : fld N 21 5 = d.val := by simp only [fld]; omega
  have f26_6 : fld N 26 6 = 48 := by simp only [fld]; omega
  refine ofParse (n := N) (by rw [hn]; rfl) (by omega) ?_
  simp [parse, decodeVop, f0_5, f5_3, f8_3, f11_5, f16_5, f21_5, f26_6, need, pregVal, vregVal?, laneVal]
theorem vopCmpeq (d : VReg) (a : VReg) (b : VReg) (g : PReg) (t : LaneType) : Statement (.vopCmpeq d a b g t) := by
  have := d.isLt
  have := a.isLt
  have := b.isLt
  have := g.isLt
  have := laneLt t
  obtain ⟨N, hn⟩ : ∃ N, N = 0xC0000010 + d.val * 2097152 + a.val * 65536 + b.val * 2048 + g.val * 256 + t.code * 32 := ⟨_, rfl⟩
  have f0_5 : fld N 0 5 = 16 := by simp only [fld]; omega
  have f5_3 : fld N 5 3 = t.code := by simp only [fld]; omega
  have f8_3 : fld N 8 3 = g.val := by simp only [fld]; omega
  have f11_5 : fld N 11 5 = b.val := by simp only [fld]; omega
  have f16_5 : fld N 16 5 = a.val := by simp only [fld]; omega
  have f21_5 : fld N 21 5 = d.val := by simp only [fld]; omega
  have f26_6 : fld N 26 6 = 48 := by simp only [fld]; omega
  refine ofParse (n := N) (by rw [hn]; rfl) (by omega) ?_
  simp [parse, decodeVop, f0_5, f5_3, f8_3, f11_5, f16_5, f21_5, f26_6, need, pregVal, vregVal?, laneVal]
theorem vopCmplt (d : VReg) (a : VReg) (b : VReg) (g : PReg) (t : LaneType) : Statement (.vopCmplt d a b g t) := by
  have := d.isLt
  have := a.isLt
  have := b.isLt
  have := g.isLt
  have := laneLt t
  obtain ⟨N, hn⟩ : ∃ N, N = 0xC0000011 + d.val * 2097152 + a.val * 65536 + b.val * 2048 + g.val * 256 + t.code * 32 := ⟨_, rfl⟩
  have f0_5 : fld N 0 5 = 17 := by simp only [fld]; omega
  have f5_3 : fld N 5 3 = t.code := by simp only [fld]; omega
  have f8_3 : fld N 8 3 = g.val := by simp only [fld]; omega
  have f11_5 : fld N 11 5 = b.val := by simp only [fld]; omega
  have f16_5 : fld N 16 5 = a.val := by simp only [fld]; omega
  have f21_5 : fld N 21 5 = d.val := by simp only [fld]; omega
  have f26_6 : fld N 26 6 = 48 := by simp only [fld]; omega
  refine ofParse (n := N) (by rw [hn]; rfl) (by omega) ?_
  simp [parse, decodeVop, f0_5, f5_3, f8_3, f11_5, f16_5, f21_5, f26_6, need, pregVal, vregVal?, laneVal]
theorem vopCmple (d : VReg) (a : VReg) (b : VReg) (g : PReg) (t : LaneType) : Statement (.vopCmple d a b g t) := by
  have := d.isLt
  have := a.isLt
  have := b.isLt
  have := g.isLt
  have := laneLt t
  obtain ⟨N, hn⟩ : ∃ N, N = 0xC0000012 + d.val * 2097152 + a.val * 65536 + b.val * 2048 + g.val * 256 + t.code * 32 := ⟨_, rfl⟩
  have f0_5 : fld N 0 5 = 18 := by simp only [fld]; omega
  have f5_3 : fld N 5 3 = t.code := by simp only [fld]; omega
  have f8_3 : fld N 8 3 = g.val := by simp only [fld]; omega
  have f11_5 : fld N 11 5 = b.val := by simp only [fld]; omega
  have f16_5 : fld N 16 5 = a.val := by simp only [fld]; omega
  have f21_5 : fld N 21 5 = d.val := by simp only [fld]; omega
  have f26_6 : fld N 26 6 = 48 := by simp only [fld]; omega
  refine ofParse (n := N) (by rw [hn]; rfl) (by omega) ?_
  simp [parse, decodeVop, f0_5, f5_3, f8_3, f11_5, f16_5, f21_5, f26_6, need, pregVal, vregVal?, laneVal]
theorem vopMov (d : VReg) (a : VReg) (g : PReg) (t : LaneType) : Statement (.vopMov d a g t) := by
  have := d.isLt
  have := a.isLt
  have := g.isLt
  have := laneLt t
  obtain ⟨N, hn⟩ : ∃ N, N = 0xC0000013 + d.val * 2097152 + a.val * 65536 + g.val * 256 + t.code * 32 := ⟨_, rfl⟩
  have f0_5 : fld N 0 5 = 19 := by simp only [fld]; omega
  have f5_3 : fld N 5 3 = t.code := by simp only [fld]; omega
  have f8_3 : fld N 8 3 = g.val := by simp only [fld]; omega
  have f11_5 : fld N 11 5 = 0 := by simp only [fld]; omega
  have f16_5 : fld N 16 5 = a.val := by simp only [fld]; omega
  have f21_5 : fld N 21 5 = d.val := by simp only [fld]; omega
  have f26_6 : fld N 26 6 = 48 := by simp only [fld]; omega
  refine ofParse (n := N) (by rw [hn]; rfl) (by omega) ?_
  simp [parse, decodeVop, f0_5, f5_3, f8_3, f11_5, f16_5, f21_5, f26_6, need, pregVal, vregVal?, laneVal]
theorem vopAmaxu (d : VReg) (a : VReg) (g : PReg) (t : LaneType) : Statement (.vopAmaxu d a g t) := by
  have := d.isLt
  have := a.isLt
  have := g.isLt
  have := laneLt t
  obtain ⟨N, hn⟩ : ∃ N, N = 0xC0000017 + d.val * 2097152 + a.val * 65536 + g.val * 256 + t.code * 32 := ⟨_, rfl⟩
  have f0_5 : fld N 0 5 = 23 := by simp only [fld]; omega
  have f5_3 : fld N 5 3 = t.code := by simp only [fld]; omega
  have f8_3 : fld N 8 3 = g.val := by simp only [fld]; omega
  have f11_5 : fld N 11 5 = 0 := by simp only [fld]; omega
  have f16_5 : fld N 16 5 = a.val := by simp only [fld]; omega
  have f21_5 : fld N 21 5 = d.val := by simp only [fld]; omega
  have f26_6 : fld N 26 6 = 48 := by simp only [fld]; omega
  refine ofParse (n := N) (by rw [hn]; rfl) (by omega) ?_
  simp [parse, decodeVop, f0_5, f5_3, f8_3, f11_5, f16_5, f21_5, f26_6, need, pregVal, vregVal?, laneVal]
theorem vcvt (d : VReg) (a : VReg) (g : PReg) (t : Fmt) (f : Fmt) : Statement (.vcvt d a g t f) := by
  have := d.isLt
  have := a.isLt
  have := g.isLt
  have := fmtLt t
  have := fmtLt f
  obtain ⟨N, hn⟩ : ∃ N, N = 0xC4000000 + d.val * 2097152 + a.val * 65536 + g.val * 256 + t.code * 16 + f.code := ⟨_, rfl⟩
  have f0_4 : fld N 0 4 = f.code := by simp only [fld]; omega
  have f4_4 : fld N 4 4 = t.code := by simp only [fld]; omega
  have f8_3 : fld N 8 3 = g.val := by simp only [fld]; omega
  have f11_5 : fld N 11 5 = 0 := by simp only [fld]; omega
  have f16_5 : fld N 16 5 = a.val := by simp only [fld]; omega
  have f21_5 : fld N 21 5 = d.val := by simp only [fld]; omega
  have f26_6 : fld N 26 6 = 49 := by simp only [fld]; omega
  refine ofParse (n := N) (by rw [hn]; rfl) (by omega) ?_
  simp [parse, decodeVcvt, f0_4, f4_4, f8_3, f11_5, f16_5, f21_5, f26_6, need, pregVal, vregVal?, fmtVal]
theorem vsum (d : VReg) (a : VReg) (g : PReg) : Statement (.vsum d a g) := by
  have := d.isLt
  have := a.isLt
  have := g.isLt
  obtain ⟨N, hn⟩ : ∃ N, N = 0xC8000000 + d.val * 2097152 + a.val * 65536 + g.val * 256 := ⟨_, rfl⟩
  have f0_8 : fld N 0 8 = 0 := by simp only [fld]; omega
  have f8_3 : fld N 8 3 = g.val := by simp only [fld]; omega
  have f11_5 : fld N 11 5 = 0 := by simp only [fld]; omega
  have f16_5 : fld N 16 5 = a.val := by simp only [fld]; omega
  have f21_5 : fld N 21 5 = d.val := by simp only [fld]; omega
  have f26_6 : fld N 26 6 = 50 := by simp only [fld]; omega
  refine ofParse (n := N) (by rw [hn]; rfl) (by omega) ?_
  simp [parse, decodeVred, f0_8, f8_3, f11_5, f16_5, f21_5, f26_6, need, pregVal, vregVal?]
theorem vmax (d : VReg) (a : VReg) (g : PReg) : Statement (.vmax d a g) := by
  have := d.isLt
  have := a.isLt
  have := g.isLt
  obtain ⟨N, hn⟩ : ∃ N, N = 0xC8000001 + d.val * 2097152 + a.val * 65536 + g.val * 256 := ⟨_, rfl⟩
  have f0_8 : fld N 0 8 = 1 := by simp only [fld]; omega
  have f8_3 : fld N 8 3 = g.val := by simp only [fld]; omega
  have f11_5 : fld N 11 5 = 0 := by simp only [fld]; omega
  have f16_5 : fld N 16 5 = a.val := by simp only [fld]; omega
  have f21_5 : fld N 21 5 = d.val := by simp only [fld]; omega
  have f26_6 : fld N 26 6 = 50 := by simp only [fld]; omega
  refine ofParse (n := N) (by rw [hn]; rfl) (by omega) ?_
  simp [parse, decodeVred, f0_8, f8_3, f11_5, f16_5, f21_5, f26_6, need, pregVal, vregVal?]
theorem vmin (d : VReg) (a : VReg) (g : PReg) : Statement (.vmin d a g) := by
  have := d.isLt
  have := a.isLt
  have := g.isLt
  obtain ⟨N, hn⟩ : ∃ N, N = 0xC8000002 + d.val * 2097152 + a.val * 65536 + g.val * 256 := ⟨_, rfl⟩
  have f0_8 : fld N 0 8 = 2 := by simp only [fld]; omega
  have f8_3 : fld N 8 3 = g.val := by simp only [fld]; omega
  have f11_5 : fld N 11 5 = 0 := by simp only [fld]; omega
  have f16_5 : fld N 16 5 = a.val := by simp only [fld]; omega
  have f21_5 : fld N 21 5 = d.val := by simp only [fld]; omega
  have f26_6 : fld N 26 6 = 50 := by simp only [fld]; omega
  refine ofParse (n := N) (by rw [hn]; rfl) (by omega) ?_
  simp [parse, decodeVred, f0_8, f8_3, f11_5, f16_5, f21_5, f26_6, need, pregVal, vregVal?]
theorem vamax (d : VReg) (a : VReg) (g : PReg) : Statement (.vamax d a g) := by
  have := d.isLt
  have := a.isLt
  have := g.isLt
  obtain ⟨N, hn⟩ : ∃ N, N = 0xC8000003 + d.val * 2097152 + a.val * 65536 + g.val * 256 := ⟨_, rfl⟩
  have f0_8 : fld N 0 8 = 3 := by simp only [fld]; omega
  have f8_3 : fld N 8 3 = g.val := by simp only [fld]; omega
  have f11_5 : fld N 11 5 = 0 := by simp only [fld]; omega
  have f16_5 : fld N 16 5 = a.val := by simp only [fld]; omega
  have f21_5 : fld N 21 5 = d.val := by simp only [fld]; omega
  have f26_6 : fld N 26 6 = 50 := by simp only [fld]; omega
  refine ofParse (n := N) (by rw [hn]; rfl) (by omega) ?_
  simp [parse, decodeVred, f0_8, f8_3, f11_5, f16_5, f21_5, f26_6, need, pregVal, vregVal?]
theorem vbcast (d : VReg) (a : VReg) (g : PReg) : Statement (.vbcast d a g) := by
  have := d.isLt
  have := a.isLt
  have := g.isLt
  obtain ⟨N, hn⟩ : ∃ N, N = 0xCC000000 + d.val * 2097152 + a.val * 65536 + g.val * 256 := ⟨_, rfl⟩
  have f0_8 : fld N 0 8 = 0 := by simp only [fld]; omega
  have f8_3 : fld N 8 3 = g.val := by simp only [fld]; omega
  have f11_5 : fld N 11 5 = 0 := by simp only [fld]; omega
  have f16_5 : fld N 16 5 = a.val := by simp only [fld]; omega
  have f21_5 : fld N 21 5 = d.val := by simp only [fld]; omega
  have f26_6 : fld N 26 6 = 51 := by simp only [fld]; omega
  refine ofParse (n := N) (by rw [hn]; rfl) (by omega) ?_
  simp [parse, decodeVmov, f0_8, f8_3, f11_5, f16_5, f21_5, f26_6, need, pregVal, vregVal?]
theorem vext (d : VReg) (a : VReg) (b : VReg) (g : PReg) : Statement (.vext d a b g) := by
  have := d.isLt
  have := a.isLt
  have := b.isLt
  have := g.isLt
  obtain ⟨N, hn⟩ : ∃ N, N = 0xCC000001 + d.val * 2097152 + a.val * 65536 + b.val * 2048 + g.val * 256 := ⟨_, rfl⟩
  have f0_8 : fld N 0 8 = 1 := by simp only [fld]; omega
  have f8_3 : fld N 8 3 = g.val := by simp only [fld]; omega
  have f11_5 : fld N 11 5 = b.val := by simp only [fld]; omega
  have f16_5 : fld N 16 5 = a.val := by simp only [fld]; omega
  have f21_5 : fld N 21 5 = d.val := by simp only [fld]; omega
  have f26_6 : fld N 26 6 = 51 := by simp only [fld]; omega
  refine ofParse (n := N) (by rw [hn]; rfl) (by omega) ?_
  simp [parse, decodeVmov, f0_8, f8_3, f11_5, f16_5, f21_5, f26_6, need, pregVal, vregVal?]
theorem vshuf (d : VReg) (a : VReg) (b : VReg) (g : PReg) : Statement (.vshuf d a b g) := by
  have := d.isLt
  have := a.isLt
  have := b.isLt
  have := g.isLt
  obtain ⟨N, hn⟩ : ∃ N, N = 0xCC000002 + d.val * 2097152 + a.val * 65536 + b.val * 2048 + g.val * 256 := ⟨_, rfl⟩
  have f0_8 : fld N 0 8 = 2 := by simp only [fld]; omega
  have f8_3 : fld N 8 3 = g.val := by simp only [fld]; omega
  have f11_5 : fld N 11 5 = b.val := by simp only [fld]; omega
  have f16_5 : fld N 16 5 = a.val := by simp only [fld]; omega
  have f21_5 : fld N 21 5 = d.val := by simp only [fld]; omega
  have f26_6 : fld N 26 6 = 51 := by simp only [fld]; omega
  refine ofParse (n := N) (by rw [hn]; rfl) (by omega) ?_
  simp [parse, decodeVmov, f0_8, f8_3, f11_5, f16_5, f21_5, f26_6, need, pregVal, vregVal?]
theorem vins (d : VReg) (a : VReg) (b : VReg) (g : PReg) : Statement (.vins d a b g) := by
  have := d.isLt
  have := a.isLt
  have := b.isLt
  have := g.isLt
  obtain ⟨N, hn⟩ : ∃ N, N = 0xCC000003 + d.val * 2097152 + a.val * 65536 + b.val * 2048 + g.val * 256 := ⟨_, rfl⟩
  have f0_8 : fld N 0 8 = 3 := by simp only [fld]; omega
  have f8_3 : fld N 8 3 = g.val := by simp only [fld]; omega
  have f11_5 : fld N 11 5 = b.val := by simp only [fld]; omega
  have f16_5 : fld N 16 5 = a.val := by simp only [fld]; omega
  have f21_5 : fld N 21 5 = d.val := by simp only [fld]; omega
  have f26_6 : fld N 26 6 = 51 := by simp only [fld]; omega
  refine ofParse (n := N) (by rw [hn]; rfl) (by omega) ?_
  simp [parse, decodeVmov, f0_8, f8_3, f11_5, f16_5, f21_5, f26_6, need, pregVal, vregVal?]
theorem fscAdd (d : SReg) (a : SReg) (b : SReg) (g : PReg) : Statement (.fscAdd d a b g) := by
  have := d.isLt
  have := a.isLt
  have := b.isLt
  have := g.isLt
  obtain ⟨N, hn⟩ : ∃ N, N = 0xD0000000 + d.val * 2097152 + a.val * 65536 + b.val * 2048 + g.val * 256 := ⟨_, rfl⟩
  have f0_8 : fld N 0 8 = 0 := by simp only [fld]; omega
  have f8_3 : fld N 8 3 = g.val := by simp only [fld]; omega
  have f11_5 : fld N 11 5 = b.val := by simp only [fld]; omega
  have f16_5 : fld N 16 5 = a.val := by simp only [fld]; omega
  have f21_5 : fld N 21 5 = d.val := by simp only [fld]; omega
  have f26_6 : fld N 26 6 = 52 := by simp only [fld]; omega
  refine ofParse (n := N) (by rw [hn]; rfl) (by omega) ?_
  simp [parse, decodeFsc, f0_8, f8_3, f11_5, f16_5, f21_5, f26_6, sregVal, pregVal]
theorem fscSub (d : SReg) (a : SReg) (b : SReg) (g : PReg) : Statement (.fscSub d a b g) := by
  have := d.isLt
  have := a.isLt
  have := b.isLt
  have := g.isLt
  obtain ⟨N, hn⟩ : ∃ N, N = 0xD0000001 + d.val * 2097152 + a.val * 65536 + b.val * 2048 + g.val * 256 := ⟨_, rfl⟩
  have f0_8 : fld N 0 8 = 1 := by simp only [fld]; omega
  have f8_3 : fld N 8 3 = g.val := by simp only [fld]; omega
  have f11_5 : fld N 11 5 = b.val := by simp only [fld]; omega
  have f16_5 : fld N 16 5 = a.val := by simp only [fld]; omega
  have f21_5 : fld N 21 5 = d.val := by simp only [fld]; omega
  have f26_6 : fld N 26 6 = 52 := by simp only [fld]; omega
  refine ofParse (n := N) (by rw [hn]; rfl) (by omega) ?_
  simp [parse, decodeFsc, f0_8, f8_3, f11_5, f16_5, f21_5, f26_6, sregVal, pregVal]
theorem fscMul (d : SReg) (a : SReg) (b : SReg) (g : PReg) : Statement (.fscMul d a b g) := by
  have := d.isLt
  have := a.isLt
  have := b.isLt
  have := g.isLt
  obtain ⟨N, hn⟩ : ∃ N, N = 0xD0000002 + d.val * 2097152 + a.val * 65536 + b.val * 2048 + g.val * 256 := ⟨_, rfl⟩
  have f0_8 : fld N 0 8 = 2 := by simp only [fld]; omega
  have f8_3 : fld N 8 3 = g.val := by simp only [fld]; omega
  have f11_5 : fld N 11 5 = b.val := by simp only [fld]; omega
  have f16_5 : fld N 16 5 = a.val := by simp only [fld]; omega
  have f21_5 : fld N 21 5 = d.val := by simp only [fld]; omega
  have f26_6 : fld N 26 6 = 52 := by simp only [fld]; omega
  refine ofParse (n := N) (by rw [hn]; rfl) (by omega) ?_
  simp [parse, decodeFsc, f0_8, f8_3, f11_5, f16_5, f21_5, f26_6, sregVal, pregVal]
theorem fscFma (d : SReg) (a : SReg) (b : SReg) (g : PReg) : Statement (.fscFma d a b g) := by
  have := d.isLt
  have := a.isLt
  have := b.isLt
  have := g.isLt
  obtain ⟨N, hn⟩ : ∃ N, N = 0xD0000003 + d.val * 2097152 + a.val * 65536 + b.val * 2048 + g.val * 256 := ⟨_, rfl⟩
  have f0_8 : fld N 0 8 = 3 := by simp only [fld]; omega
  have f8_3 : fld N 8 3 = g.val := by simp only [fld]; omega
  have f11_5 : fld N 11 5 = b.val := by simp only [fld]; omega
  have f16_5 : fld N 16 5 = a.val := by simp only [fld]; omega
  have f21_5 : fld N 21 5 = d.val := by simp only [fld]; omega
  have f26_6 : fld N 26 6 = 52 := by simp only [fld]; omega
  refine ofParse (n := N) (by rw [hn]; rfl) (by omega) ?_
  simp [parse, decodeFsc, f0_8, f8_3, f11_5, f16_5, f21_5, f26_6, sregVal, pregVal]
theorem fscFnma (d : SReg) (a : SReg) (b : SReg) (g : PReg) : Statement (.fscFnma d a b g) := by
  have := d.isLt
  have := a.isLt
  have := b.isLt
  have := g.isLt
  obtain ⟨N, hn⟩ : ∃ N, N = 0xD0000004 + d.val * 2097152 + a.val * 65536 + b.val * 2048 + g.val * 256 := ⟨_, rfl⟩
  have f0_8 : fld N 0 8 = 4 := by simp only [fld]; omega
  have f8_3 : fld N 8 3 = g.val := by simp only [fld]; omega
  have f11_5 : fld N 11 5 = b.val := by simp only [fld]; omega
  have f16_5 : fld N 16 5 = a.val := by simp only [fld]; omega
  have f21_5 : fld N 21 5 = d.val := by simp only [fld]; omega
  have f26_6 : fld N 26 6 = 52 := by simp only [fld]; omega
  refine ofParse (n := N) (by rw [hn]; rfl) (by omega) ?_
  simp [parse, decodeFsc, f0_8, f8_3, f11_5, f16_5, f21_5, f26_6, sregVal, pregVal]
theorem fscMin (d : SReg) (a : SReg) (b : SReg) (g : PReg) : Statement (.fscMin d a b g) := by
  have := d.isLt
  have := a.isLt
  have := b.isLt
  have := g.isLt
  obtain ⟨N, hn⟩ : ∃ N, N = 0xD0000005 + d.val * 2097152 + a.val * 65536 + b.val * 2048 + g.val * 256 := ⟨_, rfl⟩
  have f0_8 : fld N 0 8 = 5 := by simp only [fld]; omega
  have f8_3 : fld N 8 3 = g.val := by simp only [fld]; omega
  have f11_5 : fld N 11 5 = b.val := by simp only [fld]; omega
  have f16_5 : fld N 16 5 = a.val := by simp only [fld]; omega
  have f21_5 : fld N 21 5 = d.val := by simp only [fld]; omega
  have f26_6 : fld N 26 6 = 52 := by simp only [fld]; omega
  refine ofParse (n := N) (by rw [hn]; rfl) (by omega) ?_
  simp [parse, decodeFsc, f0_8, f8_3, f11_5, f16_5, f21_5, f26_6, sregVal, pregVal]
theorem fscMax (d : SReg) (a : SReg) (b : SReg) (g : PReg) : Statement (.fscMax d a b g) := by
  have := d.isLt
  have := a.isLt
  have := b.isLt
  have := g.isLt
  obtain ⟨N, hn⟩ : ∃ N, N = 0xD0000006 + d.val * 2097152 + a.val * 65536 + b.val * 2048 + g.val * 256 := ⟨_, rfl⟩
  have f0_8 : fld N 0 8 = 6 := by simp only [fld]; omega
  have f8_3 : fld N 8 3 = g.val := by simp only [fld]; omega
  have f11_5 : fld N 11 5 = b.val := by simp only [fld]; omega
  have f16_5 : fld N 16 5 = a.val := by simp only [fld]; omega
  have f21_5 : fld N 21 5 = d.val := by simp only [fld]; omega
  have f26_6 : fld N 26 6 = 52 := by simp only [fld]; omega
  refine ofParse (n := N) (by rw [hn]; rfl) (by omega) ?_
  simp [parse, decodeFsc, f0_8, f8_3, f11_5, f16_5, f21_5, f26_6, sregVal, pregVal]
theorem fscAbs (d : SReg) (a : SReg) (g : PReg) : Statement (.fscAbs d a g) := by
  have := d.isLt
  have := a.isLt
  have := g.isLt
  obtain ⟨N, hn⟩ : ∃ N, N = 0xD0000007 + d.val * 2097152 + a.val * 65536 + g.val * 256 := ⟨_, rfl⟩
  have f0_8 : fld N 0 8 = 7 := by simp only [fld]; omega
  have f8_3 : fld N 8 3 = g.val := by simp only [fld]; omega
  have f11_5 : fld N 11 5 = 0 := by simp only [fld]; omega
  have f16_5 : fld N 16 5 = a.val := by simp only [fld]; omega
  have f21_5 : fld N 21 5 = d.val := by simp only [fld]; omega
  have f26_6 : fld N 26 6 = 52 := by simp only [fld]; omega
  refine ofParse (n := N) (by rw [hn]; rfl) (by omega) ?_
  simp [parse, decodeFsc, f0_8, f8_3, f11_5, f16_5, f21_5, f26_6, sregVal, pregVal]
theorem fscNeg (d : SReg) (a : SReg) (g : PReg) : Statement (.fscNeg d a g) := by
  have := d.isLt
  have := a.isLt
  have := g.isLt
  obtain ⟨N, hn⟩ : ∃ N, N = 0xD0000008 + d.val * 2097152 + a.val * 65536 + g.val * 256 := ⟨_, rfl⟩
  have f0_8 : fld N 0 8 = 8 := by simp only [fld]; omega
  have f8_3 : fld N 8 3 = g.val := by simp only [fld]; omega
  have f11_5 : fld N 11 5 = 0 := by simp only [fld]; omega
  have f16_5 : fld N 16 5 = a.val := by simp only [fld]; omega
  have f21_5 : fld N 21 5 = d.val := by simp only [fld]; omega
  have f26_6 : fld N 26 6 = 52 := by simp only [fld]; omega
  refine ofParse (n := N) (by rw [hn]; rfl) (by omega) ?_
  simp [parse, decodeFsc, f0_8, f8_3, f11_5, f16_5, f21_5, f26_6, sregVal, pregVal]
theorem fscRsqs (d : SReg) (a : SReg) (g : PReg) : Statement (.fscRsqs d a g) := by
  have := d.isLt
  have := a.isLt
  have := g.isLt
  obtain ⟨N, hn⟩ : ∃ N, N = 0xD0000009 + d.val * 2097152 + a.val * 65536 + g.val * 256 := ⟨_, rfl⟩
  have f0_8 : fld N 0 8 = 9 := by simp only [fld]; omega
  have f8_3 : fld N 8 3 = g.val := by simp only [fld]; omega
  have f11_5 : fld N 11 5 = 0 := by simp only [fld]; omega
  have f16_5 : fld N 16 5 = a.val := by simp only [fld]; omega
  have f21_5 : fld N 21 5 = d.val := by simp only [fld]; omega
  have f26_6 : fld N 26 6 = 52 := by simp only [fld]; omega
  refine ofParse (n := N) (by rw [hn]; rfl) (by omega) ?_
  simp [parse, decodeFsc, f0_8, f8_3, f11_5, f16_5, f21_5, f26_6, sregVal, pregVal]
theorem fscRcps (d : SReg) (a : SReg) (g : PReg) : Statement (.fscRcps d a g) := by
  have := d.isLt
  have := a.isLt
  have := g.isLt
  obtain ⟨N, hn⟩ : ∃ N, N = 0xD000000A + d.val * 2097152 + a.val * 65536 + g.val * 256 := ⟨_, rfl⟩
  have f0_8 : fld N 0 8 = 10 := by simp only [fld]; omega
  have f8_3 : fld N 8 3 = g.val := by simp only [fld]; omega
  have f11_5 : fld N 11 5 = 0 := by simp only [fld]; omega
  have f16_5 : fld N 16 5 = a.val := by simp only [fld]; omega
  have f21_5 : fld N 21 5 = d.val := by simp only [fld]; omega
  have f26_6 : fld N 26 6 = 52 := by simp only [fld]; omega
  refine ofParse (n := N) (by rw [hn]; rfl) (by omega) ?_
  simp [parse, decodeFsc, f0_8, f8_3, f11_5, f16_5, f21_5, f26_6, sregVal, pregVal]
theorem fscExp2s (d : SReg) (a : SReg) (g : PReg) : Statement (.fscExp2s d a g) := by
  have := d.isLt
  have := a.isLt
  have := g.isLt
  obtain ⟨N, hn⟩ : ∃ N, N = 0xD000000B + d.val * 2097152 + a.val * 65536 + g.val * 256 := ⟨_, rfl⟩
  have f0_8 : fld N 0 8 = 11 := by simp only [fld]; omega
  have f8_3 : fld N 8 3 = g.val := by simp only [fld]; omega
  have f11_5 : fld N 11 5 = 0 := by simp only [fld]; omega
  have f16_5 : fld N 16 5 = a.val := by simp only [fld]; omega
  have f21_5 : fld N 21 5 = d.val := by simp only [fld]; omega
  have f26_6 : fld N 26 6 = 52 := by simp only [fld]; omega
  refine ofParse (n := N) (by rw [hn]; rfl) (by omega) ?_
  simp [parse, decodeFsc, f0_8, f8_3, f11_5, f16_5, f21_5, f26_6, sregVal, pregVal]
theorem fscLog2s (d : SReg) (a : SReg) (g : PReg) : Statement (.fscLog2s d a g) := by
  have := d.isLt
  have := a.isLt
  have := g.isLt
  obtain ⟨N, hn⟩ : ∃ N, N = 0xD000000C + d.val * 2097152 + a.val * 65536 + g.val * 256 := ⟨_, rfl⟩
  have f0_8 : fld N 0 8 = 12 := by simp only [fld]; omega
  have f8_3 : fld N 8 3 = g.val := by simp only [fld]; omega
  have f11_5 : fld N 11 5 = 0 := by simp only [fld]; omega
  have f16_5 : fld N 16 5 = a.val := by simp only [fld]; omega
  have f21_5 : fld N 21 5 = d.val := by simp only [fld]; omega
  have f26_6 : fld N 26 6 = 52 := by simp only [fld]; omega
  refine ofParse (n := N) (by rw [hn]; rfl) (by omega) ?_
  simp [parse, decodeFsc, f0_8, f8_3, f11_5, f16_5, f21_5, f26_6, sregVal, pregVal]
theorem fscRelu (d : SReg) (a : SReg) (g : PReg) : Statement (.fscRelu d a g) := by
  have := d.isLt
  have := a.isLt
  have := g.isLt
  obtain ⟨N, hn⟩ : ∃ N, N = 0xD000000D + d.val * 2097152 + a.val * 65536 + g.val * 256 := ⟨_, rfl⟩
  have f0_8 : fld N 0 8 = 13 := by simp only [fld]; omega
  have f8_3 : fld N 8 3 = g.val := by simp only [fld]; omega
  have f11_5 : fld N 11 5 = 0 := by simp only [fld]; omega
  have f16_5 : fld N 16 5 = a.val := by simp only [fld]; omega
  have f21_5 : fld N 21 5 = d.val := by simp only [fld]; omega
  have f26_6 : fld N 26 6 = 52 := by simp only [fld]; omega
  refine ofParse (n := N) (by rw [hn]; rfl) (by omega) ?_
  simp [parse, decodeFsc, f0_8, f8_3, f11_5, f16_5, f21_5, f26_6, sregVal, pregVal]
theorem fscClamp (d : SReg) (a : SReg) (b : SReg) (g : PReg) : Statement (.fscClamp d a b g) := by
  have := d.isLt
  have := a.isLt
  have := b.isLt
  have := g.isLt
  obtain ⟨N, hn⟩ : ∃ N, N = 0xD000000E + d.val * 2097152 + a.val * 65536 + b.val * 2048 + g.val * 256 := ⟨_, rfl⟩
  have f0_8 : fld N 0 8 = 14 := by simp only [fld]; omega
  have f8_3 : fld N 8 3 = g.val := by simp only [fld]; omega
  have f11_5 : fld N 11 5 = b.val := by simp only [fld]; omega
  have f16_5 : fld N 16 5 = a.val := by simp only [fld]; omega
  have f21_5 : fld N 21 5 = d.val := by simp only [fld]; omega
  have f26_6 : fld N 26 6 = 52 := by simp only [fld]; omega
  refine ofParse (n := N) (by rw [hn]; rfl) (by omega) ?_
  simp [parse, decodeFsc, f0_8, f8_3, f11_5, f16_5, f21_5, f26_6, sregVal, pregVal]
theorem fscSel (d : SReg) (a : SReg) (b : SReg) (g : PReg) : Statement (.fscSel d a b g) := by
  have := d.isLt
  have := a.isLt
  have := b.isLt
  have := g.isLt
  obtain ⟨N, hn⟩ : ∃ N, N = 0xD000000F + d.val * 2097152 + a.val * 65536 + b.val * 2048 + g.val * 256 := ⟨_, rfl⟩
  have f0_8 : fld N 0 8 = 15 := by simp only [fld]; omega
  have f8_3 : fld N 8 3 = g.val := by simp only [fld]; omega
  have f11_5 : fld N 11 5 = b.val := by simp only [fld]; omega
  have f16_5 : fld N 16 5 = a.val := by simp only [fld]; omega
  have f21_5 : fld N 21 5 = d.val := by simp only [fld]; omega
  have f26_6 : fld N 26 6 = 52 := by simp only [fld]; omega
  refine ofParse (n := N) (by rw [hn]; rfl) (by omega) ?_
  simp [parse, decodeFsc, f0_8, f8_3, f11_5, f16_5, f21_5, f26_6, sregVal, pregVal]
theorem fscCmpeq (d : SReg) (a : SReg) (b : SReg) (g : PReg) : Statement (.fscCmpeq d a b g) := by
  have := d.isLt
  have := a.isLt
  have := b.isLt
  have := g.isLt
  obtain ⟨N, hn⟩ : ∃ N, N = 0xD0000010 + d.val * 2097152 + a.val * 65536 + b.val * 2048 + g.val * 256 := ⟨_, rfl⟩
  have f0_8 : fld N 0 8 = 16 := by simp only [fld]; omega
  have f8_3 : fld N 8 3 = g.val := by simp only [fld]; omega
  have f11_5 : fld N 11 5 = b.val := by simp only [fld]; omega
  have f16_5 : fld N 16 5 = a.val := by simp only [fld]; omega
  have f21_5 : fld N 21 5 = d.val := by simp only [fld]; omega
  have f26_6 : fld N 26 6 = 52 := by simp only [fld]; omega
  refine ofParse (n := N) (by rw [hn]; rfl) (by omega) ?_
  simp [parse, decodeFsc, f0_8, f8_3, f11_5, f16_5, f21_5, f26_6, sregVal, pregVal]
theorem fscCmplt (d : SReg) (a : SReg) (b : SReg) (g : PReg) : Statement (.fscCmplt d a b g) := by
  have := d.isLt
  have := a.isLt
  have := b.isLt
  have := g.isLt
  obtain ⟨N, hn⟩ : ∃ N, N = 0xD0000011 + d.val * 2097152 + a.val * 65536 + b.val * 2048 + g.val * 256 := ⟨_, rfl⟩
  have f0_8 : fld N 0 8 = 17 := by simp only [fld]; omega
  have f8_3 : fld N 8 3 = g.val := by simp only [fld]; omega
  have f11_5 : fld N 11 5 = b.val := by simp only [fld]; omega
  have f16_5 : fld N 16 5 = a.val := by simp only [fld]; omega
  have f21_5 : fld N 21 5 = d.val := by simp only [fld]; omega
  have f26_6 : fld N 26 6 = 52 := by simp only [fld]; omega
  refine ofParse (n := N) (by rw [hn]; rfl) (by omega) ?_
  simp [parse, decodeFsc, f0_8, f8_3, f11_5, f16_5, f21_5, f26_6, sregVal, pregVal]
theorem fscCmple (d : SReg) (a : SReg) (b : SReg) (g : PReg) : Statement (.fscCmple d a b g) := by
  have := d.isLt
  have := a.isLt
  have := b.isLt
  have := g.isLt
  obtain ⟨N, hn⟩ : ∃ N, N = 0xD0000012 + d.val * 2097152 + a.val * 65536 + b.val * 2048 + g.val * 256 := ⟨_, rfl⟩
  have f0_8 : fld N 0 8 = 18 := by simp only [fld]; omega
  have f8_3 : fld N 8 3 = g.val := by simp only [fld]; omega
  have f11_5 : fld N 11 5 = b.val := by simp only [fld]; omega
  have f16_5 : fld N 16 5 = a.val := by simp only [fld]; omega
  have f21_5 : fld N 21 5 = d.val := by simp only [fld]; omega
  have f26_6 : fld N 26 6 = 52 := by simp only [fld]; omega
  refine ofParse (n := N) (by rw [hn]; rfl) (by omega) ?_
  simp [parse, decodeFsc, f0_8, f8_3, f11_5, f16_5, f21_5, f26_6, sregVal, pregVal]
theorem fscMov (d : SReg) (a : SReg) (g : PReg) : Statement (.fscMov d a g) := by
  have := d.isLt
  have := a.isLt
  have := g.isLt
  obtain ⟨N, hn⟩ : ∃ N, N = 0xD0000013 + d.val * 2097152 + a.val * 65536 + g.val * 256 := ⟨_, rfl⟩
  have f0_8 : fld N 0 8 = 19 := by simp only [fld]; omega
  have f8_3 : fld N 8 3 = g.val := by simp only [fld]; omega
  have f11_5 : fld N 11 5 = 0 := by simp only [fld]; omega
  have f16_5 : fld N 16 5 = a.val := by simp only [fld]; omega
  have f21_5 : fld N 21 5 = d.val := by simp only [fld]; omega
  have f26_6 : fld N 26 6 = 52 := by simp only [fld]; omega
  refine ofParse (n := N) (by rw [hn]; rfl) (by omega) ?_
  simp [parse, decodeFsc, f0_8, f8_3, f11_5, f16_5, f21_5, f26_6, sregVal, pregVal]
theorem vqnt (d : VReg) (a : VReg) (g : PReg) (f : Fmt) : Statement (.vqnt d a g f) := by
  have := d.isLt
  have := a.isLt
  have := g.isLt
  have := fmtLt f
  obtain ⟨N, hn⟩ : ∃ N, N = 0xD4000000 + d.val * 2097152 + a.val * 65536 + g.val * 256 + f.code := ⟨_, rfl⟩
  have f0_4 : fld N 0 4 = f.code := by simp only [fld]; omega
  have f4_4 : fld N 4 4 = 0 := by simp only [fld]; omega
  have f8_3 : fld N 8 3 = g.val := by simp only [fld]; omega
  have f11_5 : fld N 11 5 = 0 := by simp only [fld]; omega
  have f16_5 : fld N 16 5 = a.val := by simp only [fld]; omega
  have f21_5 : fld N 21 5 = d.val := by simp only [fld]; omega
  have f26_6 : fld N 26 6 = 53 := by simp only [fld]; omega
  refine ofParse (n := N) (by rw [hn]; rfl) (by omega) ?_
  simp [parse, decodeVqnt, f0_4, f4_4, f8_3, f11_5, f16_5, f21_5, f26_6, need, pregVal, vregVal?, fmtVal]
theorem vsaccE2m1 (d : VReg) (a : VReg) (b : VReg) (g : PReg) : Statement (.vsaccE2m1 d a b g) := by
  have := d.isLt
  have := a.isLt
  have := b.isLt
  have := g.isLt
  obtain ⟨N, hn⟩ : ∃ N, N = 0xD8000000 + d.val * 2097152 + a.val * 65536 + b.val * 2048 + g.val * 256 := ⟨_, rfl⟩
  have f0_8 : fld N 0 8 = 0 := by simp only [fld]; omega
  have f8_3 : fld N 8 3 = g.val := by simp only [fld]; omega
  have f11_5 : fld N 11 5 = b.val := by simp only [fld]; omega
  have f16_5 : fld N 16 5 = a.val := by simp only [fld]; omega
  have f21_5 : fld N 21 5 = d.val := by simp only [fld]; omega
  have f26_6 : fld N 26 6 = 54 := by simp only [fld]; omega
  refine ofParse (n := N) (by rw [hn]; rfl) (by omega) ?_
  simp [parse, decodeVsacc, f0_8, f8_3, f11_5, f16_5, f21_5, f26_6, need, pregVal, vregVal?]
theorem vsaccE4m3 (d : VReg) (a : VReg) (b : VReg) (g : PReg) : Statement (.vsaccE4m3 d a b g) := by
  have := d.isLt
  have := a.isLt
  have := b.isLt
  have := g.isLt
  obtain ⟨N, hn⟩ : ∃ N, N = 0xD8000001 + d.val * 2097152 + a.val * 65536 + b.val * 2048 + g.val * 256 := ⟨_, rfl⟩
  have f0_8 : fld N 0 8 = 1 := by simp only [fld]; omega
  have f8_3 : fld N 8 3 = g.val := by simp only [fld]; omega
  have f11_5 : fld N 11 5 = b.val := by simp only [fld]; omega
  have f16_5 : fld N 16 5 = a.val := by simp only [fld]; omega
  have f21_5 : fld N 21 5 = d.val := by simp only [fld]; omega
  have f26_6 : fld N 26 6 = 54 := by simp only [fld]; omega
  refine ofParse (n := N) (by rw [hn]; rfl) (by omega) ?_
  simp [parse, decodeVsacc, f0_8, f8_3, f11_5, f16_5, f21_5, f26_6, need, pregVal, vregVal?]
theorem nop : Statement .nop := by
  obtain ⟨N, hn⟩ : ∃ N, N = 0xFC000000 := ⟨_, rfl⟩
  have f0_6 : fld N 0 6 = 0 := by simp only [fld]; omega
  have f6_20 : fld N 6 20 = 0 := by simp only [fld]; omega
  have f26_6 : fld N 26 6 = 63 := by simp only [fld]; omega
  refine ofParse (n := N) (by rw [hn]; rfl) (by omega) ?_
  simp [parse, decodeSys, f0_6, f6_20, f26_6]
theorem trap (n : BitVec 10) : Statement (.trap n) := by
  have := n.isLt
  obtain ⟨N, hn⟩ : ∃ N, N = 0xFC000001 + n.toNat * 65536 := ⟨_, rfl⟩
  have f0_6 : fld N 0 6 = 1 := by simp only [fld]; omega
  have f6_10 : fld N 6 10 = 0 := by simp only [fld]; omega
  have f16_10 : fld N 16 10 = n.toNat := by simp only [fld]; omega
  have f26_6 : fld N 26 6 = 63 := by simp only [fld]; omega
  refine ofParse (n := N) (by rw [hn]; rfl) (by omega) ?_
  simp [parse, decodeSys, f0_6, f6_10, f16_10, f26_6]
theorem eret : Statement .eret := by
  obtain ⟨N, hn⟩ : ∃ N, N = 0xFC000002 := ⟨_, rfl⟩
  have f0_6 : fld N 0 6 = 2 := by simp only [fld]; omega
  have f6_20 : fld N 6 20 = 0 := by simp only [fld]; omega
  have f26_6 : fld N 26 6 = 63 := by simp only [fld]; omega
  refine ofParse (n := N) (by rw [hn]; rfl) (by omega) ?_
  simp [parse, decodeSys, f0_6, f6_20, f26_6]
theorem mrd (r : BitVec 10) (d : SReg) : Statement (.mrd r d) := by
  have := r.isLt
  have := d.isLt
  obtain ⟨N, hn⟩ : ∃ N, N = 0xFC000003 + r.toNat * 65536 + d.val * 2048 := ⟨_, rfl⟩
  have f0_6 : fld N 0 6 = 3 := by simp only [fld]; omega
  have f6_5 : fld N 6 5 = 0 := by simp only [fld]; omega
  have f11_5 : fld N 11 5 = d.val := by simp only [fld]; omega
  have f16_10 : fld N 16 10 = r.toNat := by simp only [fld]; omega
  have f26_6 : fld N 26 6 = 63 := by simp only [fld]; omega
  refine ofParse (n := N) (by rw [hn]; rfl) (by omega) ?_
  simp [parse, decodeSys, f0_6, f6_5, f11_5, f16_10, f26_6, sregVal]
theorem mwr (r : BitVec 10) (a : SReg) : Statement (.mwr r a) := by
  have := r.isLt
  have := a.isLt
  obtain ⟨N, hn⟩ : ∃ N, N = 0xFC000004 + r.toNat * 65536 + a.val * 64 := ⟨_, rfl⟩
  have f0_6 : fld N 0 6 = 4 := by simp only [fld]; omega
  have f6_5 : fld N 6 5 = a.val := by simp only [fld]; omega
  have f11_5 : fld N 11 5 = 0 := by simp only [fld]; omega
  have f16_10 : fld N 16 10 = r.toNat := by simp only [fld]; omega
  have f26_6 : fld N 26 6 = 63 := by simp only [fld]; omega
  refine ofParse (n := N) (by rw [hn]; rfl) (by omega) ?_
  simp [parse, decodeSys, f0_6, f6_5, f11_5, f16_10, f26_6, sregVal]
theorem yield : Statement .yield := by
  obtain ⟨N, hn⟩ : ∃ N, N = 0xFC000005 := ⟨_, rfl⟩
  have f0_6 : fld N 0 6 = 5 := by simp only [fld]; omega
  have f6_20 : fld N 6 20 = 0 := by simp only [fld]; omega
  have f26_6 : fld N 26 6 = 63 := by simp only [fld]; omega
  refine ofParse (n := N) (by rw [hn]; rfl) (by omega) ?_
  simp [parse, decodeSys, f0_6, f6_20, f26_6]
theorem wait (d : SReg) (a : SReg) : Statement (.wait d a) := by
  have := d.isLt
  have := a.isLt
  obtain ⟨N, hn⟩ : ∃ N, N = 0xFC000006 + d.val * 2048 + a.val * 64 := ⟨_, rfl⟩
  have f0_6 : fld N 0 6 = 6 := by simp only [fld]; omega
  have f6_5 : fld N 6 5 = a.val := by simp only [fld]; omega
  have f11_5 : fld N 11 5 = d.val := by simp only [fld]; omega
  have f16_10 : fld N 16 10 = 0 := by simp only [fld]; omega
  have f26_6 : fld N 26 6 = 63 := by simp only [fld]; omega
  refine ofParse (n := N) (by rw [hn]; rfl) (by omega) ?_
  simp [parse, decodeSys, f0_6, f6_5, f11_5, f16_10, f26_6, sregVal]
theorem halt : Statement .halt := by
  obtain ⟨N, hn⟩ : ∃ N, N = 0xFC000007 := ⟨_, rfl⟩
  have f0_6 : fld N 0 6 = 7 := by simp only [fld]; omega
  have f6_20 : fld N 6 20 = 0 := by simp only [fld]; omega
  have f26_6 : fld N 26 6 = 63 := by simp only [fld]; omega
  refine ofParse (n := N) (by rw [hn]; rfl) (by omega) ?_
  simp [parse, decodeSys, f0_6, f6_20, f26_6]
theorem brk (n : BitVec 10) : Statement (.brk n) := by
  have := n.isLt
  obtain ⟨N, hn⟩ : ∃ N, N = 0xFC000008 + n.toNat * 65536 := ⟨_, rfl⟩
  have f0_6 : fld N 0 6 = 8 := by simp only [fld]; omega
  have f6_10 : fld N 6 10 = 0 := by simp only [fld]; omega
  have f16_10 : fld N 16 10 = n.toNat := by simp only [fld]; omega
  have f26_6 : fld N 26 6 = 63 := by simp only [fld]; omega
  refine ofParse (n := N) (by rw [hn]; rfl) (by omega) ?_
  simp [parse, decodeSys, f0_6, f6_10, f16_10, f26_6]
theorem dbgh (a : SReg) : Statement (.dbgh a) := by
  have := a.isLt
  obtain ⟨N, hn⟩ : ∃ N, N = 0xFC000009 + a.val * 64 := ⟨_, rfl⟩
  have f0_6 : fld N 0 6 = 9 := by simp only [fld]; omega
  have f6_5 : fld N 6 5 = a.val := by simp only [fld]; omega
  have f11_15 : fld N 11 15 = 0 := by simp only [fld]; omega
  have f26_6 : fld N 26 6 = 63 := by simp only [fld]; omega
  refine ofParse (n := N) (by rw [hn]; rfl) (by omega) ?_
  simp [parse, decodeSys, f0_6, f6_5, f11_15, f26_6, sregVal]
theorem seed (a : SReg) : Statement (.seed a) := by
  have := a.isLt
  obtain ⟨N, hn⟩ : ∃ N, N = 0xFC00000A + a.val * 64 := ⟨_, rfl⟩
  have f0_6 : fld N 0 6 = 10 := by simp only [fld]; omega
  have f6_5 : fld N 6 5 = a.val := by simp only [fld]; omega
  have f11_15 : fld N 11 15 = 0 := by simp only [fld]; omega
  have f26_6 : fld N 26 6 = 63 := by simp only [fld]; omega
  refine ofParse (n := N) (by rw [hn]; rfl) (by omega) ?_
  simp [parse, decodeSys, f0_6, f6_5, f11_15, f26_6, sregVal]
theorem powerOnReset : Statement .powerOnReset := ofEvent rfl
theorem hostPortTraining : Statement .hostPortTraining := ofEvent rfl
theorem mread : Statement .mread := ofEvent rfl
theorem mwrite : Statement .mwrite := ofEvent rfl
theorem registerWrite : Statement .registerWrite := ofEvent rfl
theorem mbBoot : Statement .mbBoot := ofEvent rfl
theorem mbAttest : Statement .mbAttest := ofEvent rfl
theorem mbPubkey : Statement .mbPubkey := ofEvent rfl
theorem mbManifest : Statement .mbManifest := ofEvent rfl
theorem mbInstall : Statement .mbInstall := ofEvent rfl
theorem mbCmap : Statement .mbCmap := ofEvent rfl
theorem hostBuild : Statement .hostBuild := ofEvent rfl
theorem hostLaunch : Statement .hostLaunch := ofEvent rfl
theorem hostCancel : Statement .hostCancel := ofEvent rfl
theorem hostClear : Statement .hostClear := ofEvent rfl
theorem hostTeardown : Statement .hostTeardown := ofEvent rfl
theorem semRead : Statement .semRead := ofEvent rfl
theorem semFree : Statement .semFree := ofEvent rfl
theorem deviceLaunch : Statement .deviceLaunch := ofEvent rfl
theorem launchDispatch : Statement .launchDispatch := ofEvent rfl
theorem preemptRequest : Statement .preemptRequest := ofEvent rfl
theorem graphNodeEnd : Statement .graphNodeEnd := ofEvent rfl
theorem graphNodeLoad : Statement .graphNodeLoad := ofEvent rfl
theorem loadEnd : Statement .loadEnd := ofEvent rfl
theorem graphNodeCond : Statement .graphNodeCond := ofEvent rfl
theorem graphNodeWhile : Statement .graphNodeWhile := ofEvent rfl
theorem graphNodeHold : Statement .graphNodeHold := ofEvent rfl
theorem holdNodeReread : Statement .holdNodeReread := ofEvent rfl
theorem graphNodeArm : Statement .graphNodeArm := ofEvent rfl
theorem partitionEnable : Statement .partitionEnable := ofEvent rfl
theorem pcmdResume : Statement .pcmdResume := ofEvent rfl
theorem pcmdHalt : Statement .pcmdHalt := ofEvent rfl
theorem pcmdSwitch : Statement .pcmdSwitch := ofEvent rfl
theorem pringrdWrite : Statement .pringrdWrite := ofEvent rfl
theorem pringbaseWrite : Statement .pringbaseWrite := ofEvent rfl
theorem pstopbaseWrite : Statement .pstopbaseWrite := ofEvent rfl
theorem pringctlWrite : Statement .pringctlWrite := ofEvent rfl
theorem kmfifoRead : Statement .kmfifoRead := ofEvent rfl
theorem ctxCreate : Statement .ctxCreate := ofEvent rfl
theorem ctxDestroy : Statement .ctxDestroy := ofEvent rfl
theorem xinvCtx : Statement .xinvCtx := ofEvent rfl
theorem xinvPage : Statement .xinvPage := ofEvent rfl
theorem xinvAll : Statement .xinvAll := ofEvent rfl
theorem xinvComplete : Statement .xinvComplete := ofEvent rfl
theorem translationWalkDone : Statement .translationWalkDone := ofEvent rfl
theorem yieldDeadline : Statement .yieldDeadline := ofEvent rfl
theorem cooperativeStop : Statement .cooperativeStop := ofEvent rfl
theorem cooperativeTimeout : Statement .cooperativeTimeout := ofEvent rfl
theorem contextFlip : Statement .contextFlip := ofEvent rfl
theorem bankSpillRestore : Statement .bankSpillRestore := ofEvent rfl
theorem haltLineArrival : Statement .haltLineArrival := ofEvent rfl
theorem stopRecordsDone : Statement .stopRecordsDone := ofEvent rfl
theorem plotRowAttempt : Statement .plotRowAttempt := ofEvent rfl
theorem markCommit : Statement .markCommit := ofEvent rfl
theorem timingLimit : Statement .timingLimit := ofEvent rfl
theorem plotRelease : Statement .plotRelease := ofEvent rfl
theorem tstepFeedPresent : Statement .tstepFeedPresent := ofEvent rfl
theorem cfgSwitching : Statement .cfgSwitching := ofEvent rfl
theorem cfgBackgroundDone : Statement .cfgBackgroundDone := ofEvent rfl
theorem spliceStagingDone : Statement .spliceStagingDone := ofEvent rfl
theorem streamNodeRead : Statement .streamNodeRead := ofEvent rfl
theorem streamNodeFire : Statement .streamNodeFire := ofEvent rfl
theorem chainFire : Statement .chainFire := ofEvent rfl
theorem decoderSegmentDecode : Statement .decoderSegmentDecode := ofEvent rfl
theorem decoderWordDeliver : Statement .decoderWordDeliver := ofEvent rfl
theorem scaleCacheFill : Statement .scaleCacheFill := ofEvent rfl
theorem taskSchedulerCycle : Statement .taskSchedulerCycle := ofEvent rfl
theorem tskctlWrite : Statement .tskctlWrite := ofEvent rfl
theorem ttbaseWrite : Statement .ttbaseWrite := ofEvent rfl
theorem queueMessageArrival : Statement .queueMessageArrival := ofEvent rfl
theorem routerForward : Statement .routerForward := ofEvent rfl
theorem packetDeliver : Statement .packetDeliver := ofEvent rfl
theorem routeTableWrite : Statement .routeTableWrite := ofEvent rfl
theorem timedActionFire : Statement .timedActionFire := ofEvent rfl
theorem domainWindowBoundary : Statement .domainWindowBoundary := ofEvent rfl
theorem servoAdjust : Statement .servoAdjust := ofEvent rfl
theorem ptpEvent : Statement .ptpEvent := ofEvent rfl
theorem ethLinkEvent : Statement .ethLinkEvent := ofEvent rfl
theorem remoteAccessArrival : Statement .remoteAccessArrival := ofEvent rfl
theorem l1SectorAgeWriteback : Statement .l1SectorAgeWriteback := ofEvent rfl
theorem bankIdleLower : Statement .bankIdleLower := ofEvent rfl
theorem bankWakeComplete : Statement .bankWakeComplete := ofEvent rfl
theorem bwphApply : Statement .bwphApply := ofEvent rfl
theorem bankPhaseWakeStart : Statement .bankPhaseWakeStart := ofEvent rfl
theorem bwphPhaseTime : Statement .bwphPhaseTime := ofEvent rfl
theorem bpcClassWrite : Statement .bpcClassWrite := ofEvent rfl
theorem budgetIntervalBoundary : Statement .budgetIntervalBoundary := ofEvent rfl
theorem clQreqWrite : Statement .clQreqWrite := ofEvent rfl
theorem clSwallowReqWrite : Statement .clSwallowReqWrite := ofEvent rfl
theorem quiescePointChange : Statement .quiescePointChange := ofEvent rfl
theorem swallowForceTimeout : Statement .swallowForceTimeout := ofEvent rfl
theorem clRailReqWrite : Statement .clRailReqWrite := ofEvent rfl
theorem railTransitionDone : Statement .railTransitionDone := ofEvent rfl
theorem clWakeWrite : Statement .clWakeWrite := ofEvent rfl
theorem clusterWakeDone : Statement .clusterWakeDone := ofEvent rfl
theorem thermalSample : Statement .thermalSample := ofEvent rfl
theorem energyInterval : Statement .energyInterval := ofEvent rfl
theorem ballastStep : Statement .ballastStep := ofEvent rfl
theorem rmcWake : Statement .rmcWake := ofEvent rfl
theorem rmcDoorbell : Statement .rmcDoorbell := ofEvent rfl
theorem retcmdTest : Statement .retcmdTest := ofEvent rfl
theorem testComplete : Statement .testComplete := ofEvent rfl
theorem retcmdRetire : Statement .retcmdRetire := ofEvent rfl
theorem retcmdCellbad : Statement .retcmdCellbad := ofEvent rfl
theorem retireComplete : Statement .retireComplete := ofEvent rfl
theorem patrolScrub : Statement .patrolScrub := ofEvent rfl
theorem sliceRowRemap : Statement .sliceRowRemap := ofEvent rfl
theorem dbgctlHaltall : Statement .dbgctlHaltall := ofEvent rfl
theorem dbgctlResumeall : Statement .dbgctlResumeall := ofEvent rfl
theorem testPortHalt : Statement .testPortHalt := ofEvent rfl
theorem collComplete : Statement .collComplete := ofEvent rfl
theorem illegalEncoding : Statement .illegalEncoding := ofEvent rfl
theorem instructionFetchFault : Statement .instructionFetchFault := ofEvent rfl
theorem streamNodeWriteWalk : Statement .streamNodeWriteWalk := ofEvent rfl
theorem remoteAcknowledgement : Statement .remoteAcknowledgement := ofEvent rfl
theorem ethFrameRetransmit : Statement .ethFrameRetransmit := ofEvent rfl
theorem servoLockChange : Statement .servoLockChange := ofEvent rfl

end Sys2Proof.Laws.Encoding
end

