-- ==== Sys2Proof/Laws/Turn.lean ====
section
/-! SUPPORT. What a step can be: an event that is due, an action of the agenda, an instruction, or a tick that passes. -/

namespace Sys2Proof.Machine

variable (s : State)

/-! ## Places -/

theorem noted_cur (l : List Place) : (s.noted l).cur = s.cur := by
  unfold State.noted
  induction l generalizing s with
  | nil => rfl
  | cons x t ih => simp only [List.foldl_cons]; rw [ih]; simp

theorem noted_agenda (l : List Place) : (s.noted l).agenda = s.agenda := by
  unfold State.noted
  induction l generalizing s with
  | nil => rfl
  | cons x t ih => simp only [List.foldl_cons]; rw [ih]; simp

theorem noted_hg (l : List Place) (j : Nat) : (s.noted l).hg j = s.hg j := by
  unfold State.noted
  induction l generalizing s with
  | nil => rfl
  | cons x t ih => simp only [List.foldl_cons]; rw [ih]; simp

theorem noted_mem (l : List Place) : (s.noted l).mem = s.mem := by
  unfold State.noted
  induction l generalizing s with
  | nil => rfl
  | cons x t ih => simp only [List.foldl_cons]; rw [ih]; simp

/-! ## A step -/

/-- An answer of a step with its consequences comes of an answer without them. -/
theorem settled_next {o : Host.Outcome State Fault Refusal} {t : State} (h : settled o = .next t) :
    ∃ u, o = .next u ∧ t = u.settle.endSweep.unforce := by
  cases o with
  | next u => exact ⟨u, rfl, by simpa [settled] using h.symm⟩
  | fault f => simp [settled] at h
  | refused r => simp [settled] at h

/-- Every way a step goes. -/
theorem step_cases :
    (∃ e, s.forced = some e ∧ step s = settled (forcedStep e s)) ∨ (s.forced = none ∧ step s = settled (agendaStep s)) := by
  unfold step
  cases h : s.forced with
  | some e => exact .inl ⟨e, rfl, rfl⟩
  | none => exact .inr ⟨rfl, rfl⟩

/-- Every way what the agenda names goes. -/
theorem agendaStep_cases :
    (∃ a rest, s.agenda = ⟨0, a⟩ :: rest ∧ agendaStep s = act a { s with agenda := rest }) ∨
    (∃ n a rest, s.agenda = ⟨n + 1, a⟩ :: rest ∧ agendaStep s = .next ({ s with agenda := ⟨n, a⟩ :: rest } : State).tick) ∨
    (s.agenda = [] ∧ s.issues s.cur = true ∧ agendaStep s = issueNext s.cur s) ∨
    (s.agenda = [] ∧ s.issues s.cur = false ∧ agendaStep s = .next s.tick) := by
  unfold agendaStep
  split
  · next a rest h => exact .inl ⟨a, rest, h, rfl⟩
  · next n a rest h => exact .inr (.inl ⟨n, a, rest, h, rfl⟩)
  · next h =>
    cases hi : s.issues s.cur
    · exact .inr (.inr (.inr ⟨h, rfl, by simp⟩))
    · exact .inr (.inr (.inl ⟨h, rfl, by simp⟩))

/-- An instruction that may be issued in its turn is executed, its places taken. -/
theorem issueNext_run {k : Nat} {t : State} {w : IWord} {i : Instr} (hf : ({ s with cur := k } : State).fetch = .ok (t, w))
    (hd : decode w = .ok i)
    (ha : ({ s with cur := k } : State).allows (({ s with cur := k } : State).issuePlaces k i) = true) :
    issueNext k s = exec i (t.noted (({ s with cur := k } : State).issuePlaces k i)) := by
  unfold issueNext
  simp only [hf, hd, ha, if_true]

end Sys2Proof.Machine
end

