-- ==== Sys2Proof/Tests/Slice0.lean ====
section
/-! SUPPORT. The model's own tests: ill-formed terms, words written out from the spec's encodings, single steps with results
from the spec's worked examples, and for every statement of Certificates/Slice0/Obligations.lean that has hypotheses a concrete
state and operands that meet them (the witness theorems; each also checks the clause's conclusion there). -/

namespace Sys2Proof.Tests

set_option Elab.async false

open Sys2Proof Sys2Proof.Machine Sys2Proof.Claims

/-! ## Helpers -/

/-- Headgate N of core 0 runs a program at offset 0 of its scratchpad, in user mode, in partition 0. -/
def base : State := State.reset.withFetchWord 32 0xFC000000

/-- The state after an instruction satisfies a test. -/
def after (i : Instr) (s : State) (f : State → Bool) : Bool := match exec i s with | .next t => f t | _ => false

/-- An instruction leads to exactly a state. -/
def to_ (i : Instr) (s t : State) : Bool := after i s fun u => decide (u = t)

/-- An instruction completes with an effect; traps; waits. -/
def goes (i : Instr) (s t : State) : Bool := to_ i s t.retire
def trapsB (i : Instr) (s : State) (c : Nat) (d : List Nat := []) : Bool := to_ i s (s.precise c d)
def waitsB (i : Instr) (s : State) : Bool := to_ i s s

/-- An access answers; fails with a cause. -/
def okWith {α : Type} (r : Acc α) (f : α → Bool) : Bool := match r with | .ok x => f x | .error _ => false
def faultWith {α : Type} (r : Acc α) (c : Nat) : Bool := match r with | .error (.fault x _) => x == c | _ => false

/-- What an access leaves, or the state itself where it does not end. -/
def left (r : Acc State) (s : State) : State := match r with | .ok t => t | .error _ => s

/-- What a release of the issuing sequencer leaves, and whether it ends. -/
def released (s : State) (rel : Bool) (sc : Scope) : State := if rel then left (s.release s.cur sc) s else s
def releasesB (s : State) (sc : Scope) : Bool := okWith (s.release s.cur sc) fun _ => true

/-- The bank at a home address has granted the issuing headgate's access. -/
def granted (s : State) (a : Nat) : State :=
  match s.bankOfAddr a with
  | some (cl, n) => s.modBank cl n fun b => { b with arb := b.arb.grant (24 + hgnOf s.cur) (s.cycleOf cl) }
  | none => s

/-- The issuing headgate changed. -/
def with_ (s : State) (f : Hg → Hg) : State := s.setMe (f s.me)
def sysB : State := with_ base fun h => { h with sys := true }
def forkB : State := with_ base fun h => { h with forked := true }

/-- A register of the issuing headgate set. -/
def reg (s : State) (r : SReg) (x : Word) : State := s.setS r x

/-- With empty L2 slices no line of one is lost. -/
theorem noLineLost_empty (s : State) (h : (s.clusters.all fun e => e.2.l2.isEmpty) = true) : noLineLost s := by
  intro cl line x hx
  have key : ∀ l : SMap Cluster, (l.all fun e => e.2.l2.isEmpty) = true → ∀ c, SMap.get? l cl = some c → c.l2 = [] := by
    intro l
    induction l with
    | nil => intro _ c hc; simp [SMap.get?] at hc
    | cons e t ih =>
      intro ha c hc
      simp only [List.all_cons, Bool.and_eq_true, List.isEmpty_iff] at ha
      unfold SMap.get? at hc
      split at hc
      · cases hc; exact ha.1
      · exact ih ha.2 c hc
  have : (s.cluster cl).l2 = [] := by
    unfold State.cluster SMap.getD
    cases hc : SMap.get? s.clusters cl with
    | none => rfl
    | some c => exact key _ h c hc
  simp [this, SMap.get?] at hx

/-! ## Ill-formed terms: one for each condition of wellFormed -/

def illFormed : List Instr :=
  [.br 0 true 5, .call 0 true 5, .loop 6 0, .loopi 0 3, .ld 1 2 0 .b4 .cluster false, .st 1 2 0 .b4 .core false,
   .ldv 1 2 0 .b16 .wafer false, .stv 1 2 0 .b64 .host false, .amoAcas 1 2 31 .port false true, .amoAfadd 1 2 3 .port false true,
   .qrecv 1 2 31 0, .collAllred 1 2 3 .sum .i8, .collRedscat 1 2 3 .max .e4m3] ++
  [.tstep 1 2 3 0, .tstep 1 2 0 1, .tstep 1 2 31 1, .tstepV 1 2 3 0, .vopFnma 1 2 3 0 .bf16, .vopRsqs 1 2 0 .i32, .vopRcps 1 2 0 .f16,
   .vopExp2s 1 2 0 .bf16, .vopLog2s 1 2 0 .i32, .vopAmaxu 1 2 0 .i32, .vcvt 1 2 0 .f32 .f32, .vcvt 1 2 0 .bf16 .f16,
   .vcvt 1 2 0 .cb4 .f32, .vqnt 1 2 0 .i8, .vqnt 1 2 0 .f32]

theorem test_illFormed_refused : (illFormed.all fun i => !i.wellFormed) = true := by decide

/-! ## Words from the spec's encodings (05 R119 to R126, and the worked words of 06 to 16) -/

/-- Words whose fields are the spec's own examples. -/
def moreWords : List (IWord × Instr) :=
  [(0x5C000001#32, .swq 0), (0x08A50007#32, .addi 5 5 7), (0xFC000000#32, .nop), (0x682202C0#32, .ldv 1 2 2 .b64 .port false),
   (0x7C463800#32, .qsend 2 6 7 0), (0xC1AB0009#32, .vopRsqs 13 11 0 .f32), (0xC1CB3810#32, .vopCmpeq 14 11 7 0 .f32)] ++
  [(0xCD8B5801#32, .vext 12 11 11 0), (0xB0045000#32, .wtbl 4 10 0), (0xB40A4800#32, .scset 10 9 0), (0x78056800#32, .binit 5 13 0),
   (0x78056802#32, .bwait 5 13 0), (0x54030008#32, .loopi 3 8), (0x88015001#32, .vcnt 1 10 0), (0xC8830003#32, .vamax 4 3 0)] ++
  [(0xA0000800#32, .cfg 4), (0xA0001806#32, .bypmap 12), (0xA0002407#32, .dlyset 18), (0x7C4E8001#32, .qrecv 2 14 16 0),
   (0x20809E37#32, .li 4 0x9E37), (0x248079B9#32, .lis 4 0x79B9)]

theorem test_words_decode : (moreWords.all fun e => decide (decode e.1 = .ok e.2)) = true := by decide +kernel

theorem test_words_encode : ((moreWords ++ workedWords).all fun e => decide (encode e.2 = some e.1)) = true := by decide +kernel

/-! ## Witnesses: scalar, predicate and vector results -/

/-- Registers with a sign, a wrap and a small value: s6 = -1, s7 = 3, s8 = -2^63, p1 = 1; vectors with lanes of both signs. -/
def regs : State := with_ base fun h => (({ h with
  s := ((h.s.set 6 (-1)).set 7 3).set 8 0x8000000000000000, p := h.p.set 1 true }.setV 6 0x3F800000C0000000).setV 7 0x4040000040A00000)

/-- Every scalar instruction, with a destination, and one that is also a source. -/
def scalars : List Instr :=
  ([.add, .sub, .and, .or, .xor, .andn, .shl, .shr, .sra, .ror, .min, .max, .minn, .maxn, .mul, .mulh, .mulhn, .div, .divn, .rem, .remn,
    .sext, .zext, .mkptr, .padd, .pcore, .fscAdd, .fscSub, .fscMul, .fscFma, .fscFnma, .fscMin, .fscMax, .fscClamp, .fscSel,
    .fscCmpeq, .fscCmplt, .fscCmple] : List (SReg → SReg → SReg → PReg → Instr)).flatMap (fun f => [f 5 6 7 1, f 6 8 6 0, f 0 6 7 0]) ++
  ([.clz, .ctz, .popc, .brev, .pspc, .fscAbs, .fscNeg, .fscRsqs, .fscRcps, .fscExp2s, .fscLog2s, .fscRelu, .fscMov] :
    List (SReg → SReg → PReg → Instr)).flatMap (fun f => [f 5 6 1, f 7 7 0]) ++
  [.sel 5 6 7 1, .sel 5 6 7 2, .addi 5 6 0xFFFF, .andi 5 6 0xFFFF, .ori 5 7 0x8000, .xori 5 6 0xFFFF, .shfiShl 5 7 63, .shfiShr 5 6 63,
   .shfiSra 5 8 63, .shfiRor 5 7 1, .muli 5 6 0x8000, .li 5 0x8000, .lis 6 0x1234, .ptos 5 1 0]

theorem witness_ScalarInstructionsGiveTheirResults : (scalars.all fun i => match scalarResult i with
    | some (g, d, f) => regs.getP g && goes i regs (regs.setS d (f regs))
    | none => false) = true := by decide +kernel

theorem witness_BitCountsAndReversalAreRight : ([1, 0x8000000000000000, BitVec.allOnes 64, 0x10] : List Word).all (fun x =>
    decide (x ≠ 0 ∧ (clz x).toNat < 64 ∧ x.toNat < 2 ^ (64 - (clz x).toNat) ∧ 2 ^ (63 - (clz x).toNat) ≤ x.toNat ∧
      x.toNat % 2 ^ (ctz x).toNat = 0 ∧ x.toNat / 2 ^ (ctz x).toNat % 2 = 1) &&
    (List.range 64).all fun k => (brev x).getLsbD (63 - k) == x.getLsbD k && (sextFrom x 68).getLsbD k == x.getLsbD (min k 4)) = true := by
  decide +kernel

/-- Every compare and predicate instruction, with a destination, and p0. -/
def predicates : List Instr :=
  ([.setpEq, .setpNe, .setpLt, .setpGe, .setpLtn, .setpGen] : List (PReg → SReg → SReg → PReg → Instr)).flatMap
    (fun f => [f 2 6 7 0, f 1 7 6 1, f 0 6 6 0]) ++
  ([.setpiEq, .setpiNe, .setpiLt, .setpiGe] : List (PReg → SReg → BitVec 16 → Instr)).flatMap (fun f => [f 2 6 0xFFFF, f 0 7 3]) ++
  [.pand 2 1 0 0, .por 2 1 2 0, .pxor 1 1 1 1, .pnot 2 1 0, .pmov 0 2 1]

theorem witness_PredicateInstructionsGiveTheirResults : (predicates.all fun i => match predicateResult i with
    | some (g, d, f) => regs.getP g && goes i regs (regs.setP d (f regs))
    | none => false) = true := by decide +kernel

/-- Every vector instruction that touches no sticky register, in the lane types that it has. -/
def vectors : List Instr :=
  ([.vopAdd, .vopSub, .vopMul, .vopFma, .vopMin, .vopMax, .vopClamp, .vopSel, .vopCmpeq, .vopCmplt, .vopCmple] :
    List (VReg → VReg → VReg → PReg → LaneType → Instr)).flatMap (fun f => [f 5 6 7 0 .f32, f 6 6 7 1 .i32]) ++
  ([.vopAbs, .vopNeg, .vopRelu, .vopMov] : List (VReg → VReg → PReg → LaneType → Instr)).flatMap (fun f => [f 5 6 0 .f32, f 6 6 1 .i32]) ++
  [.vopFnma 5 6 7 0 .f32, .vopRsqs 5 7 0 .f32, .vopRcps 5 7 0 .f32, .vopExp2s 5 6 0 .f32, .vopLog2s 5 7 0 .f32, .vsum 5 6 1, .vmax 5 6 0,
   .vmin 5 6 0, .vbcast 5 6 0, .vext 5 6 7 0, .vshuf 5 6 7 0, .vins 5 6 7 0, .vsaccE2m1 5 6 7 0, .vsaccE4m3 5 6 7 1]

theorem witness_VectorInstructionsGiveTheirResults : (vectors.all fun i => match vectorResult i with
    | some (g, d, f) => regs.getP g && goes i regs (regs.setV d (f regs))
    | none => false) = true ∧
    regs.getP 1 = true ∧
    goes (.vamax 5 6 1) regs (regs.setMe ((regs.me.noteAmax ((lanes (regs.getV 6) 32).map (fin32 regs.me.fmode))).setV 5
      (BitVec.ofNat 512 (absMax regs.me.fmode ((lanes (regs.getV 6) 32).map (fin32 regs.me.fmode)))))) = true ∧
    goes (.vopAmaxu 5 6 1 .bf16) regs (regs.setMe ((regs.me.noteAmax ((lanes (regs.getV 6) 16).map (fread regs.me.fmode (laneSpec .bf16)))).setV 5
      (regs.getV 6))) = true := by decide +kernel

theorem witness_VopWorksLaneByLane : (([.f32, .bf16, .f16, .i32] : List LaneType).all fun t =>
    (List.range (512 / laneWidth t)).all fun l => lane (vopLanes 0 t .add (regs.getV 6) (regs.getV 7) 0) (laneWidth t) l ==
      elemOp 0 t .add (lane (regs.getV 6) (laneWidth t) l) (lane (regs.getV 7) (laneWidth t) l) 0 % 2 ^ laneWidth t) = true := by
  decide +kernel

theorem witness_RegisterInstructionsLeaveTheRest :
    after (.add 5 6 7 0) regs (fun t => t.getS 6 == -1 && t.getS 5 == 2) = true ∧ after (.pnot 2 1 0) regs (fun t => t.getP 1) = true ∧
    after (.vbcast 5 6 0) regs (fun t => t.getV 7 == regs.getV 7) = true := by decide +kernel

/-- Guarded instructions of every guarded group. -/
def guardedOnes : List Instr :=
  [.add 5 6 7 2, .setpEq 1 6 7 2, .pnot 1 1 2, .pspc 5 6 2, .keylk 5 6 7 2, .jr 6 2, .jalr 5 6 2, .ret 2, .lbrk 2, .fork 2, .fence .domain 2,
   .fenceLd .host 2, .fenceSt .port 2, .wfence 2, .mfence 2, .ifence 2, .binit 5 6 2, .barr 5 6 7 2, .bwait 5 6 2, .bleave 5 6 2] ++
  [.bqry 5 6 7 2, .qsend 5 6 7 2, .qrecv 5 6 7 2, .qpoll 5 6 2, .lrpatch 5 6 2, .lrarm 6 2, .lrqry 5 6 2, .cntadd 5 6 2, .vcnt 5 6 2,
   .cntrd 5 6 2, .cntsnap 5 6 2, .wtrd 5 2, .atset 5 6 7 2, .atcan 5 6 2, .atwait 5 6 2, .bwph 5 6 2, .bwqry 5 6 2, .wtbl 5 6 2, .wdec 6 2] ++
  [.wseek 6 2, .wdqry 5 6 2, .scset 5 6 2, .scfl 2, .chain 5 6 2, .chconst 5 6 2, .vopAmaxu 5 6 2 .f32, .vcvt 5 6 2 .bf16 .f32, .vsum 5 6 2,
   .fscMul 5 6 7 2, .vqnt 5 6 2 .e4m3, .vsaccE2m1 5 6 7 2]

theorem witness_FalseGuardHasNoEffect : (guardedOnes.all fun i => decide (guardOf i = some 2) && !base.getP 2 && !base.me.forked && goes i base base) = true := by
  decide +kernel

theorem witness_ForkedForbidsTheListedGroups : (([.fork 2, .amoAadd 1 2 3 .port false true, .fence .core 2, .bwait 1 2 2, .qpoll 1 2 2,
    .collAllgath 1 2 3 .f32, .lrarm 1 2, .cntrd 1 2 2, .wtrd 1 2, .bwqry 1 2 2, .cfgwait 1, .slqry 1 2, .trap 5, .eret, .yield, .halt, .brk 0,
    .dbgh 1, .seed 1, .mwr 0x200 1] : List Instr).all fun i => forkedForbids i && trapsB i forkB 1) = true := by decide +kernel

/-! ## Witnesses: control transfers, loops, forked issue, the SYS group, precise traps -/

/-- RMC 0 issues; it is in system mode. -/
def rmcB : State := { base with cur := 16384 }

/-- s8 points at the own scratchpad's start, s9 at its word 64, s10 is misaligned by two; s6 = -1, s7 = 3. -/
def ptrs : State := with_ base fun h => { h with
  s := ((((h.s.set 8 scratch0).set 9 (scratch0 + 64)).set 10 (scratch0 + 2)).set 6 (-1)).set 7 3 }

/-- A loop level whose last word is at an address, with a count. -/
def inLoop (stop : Word) (n : Nat) (s : State) : State := with_ s fun h => { h with loops := ⟨scratch0, stop, n⟩ :: h.loops }

theorem witness_TransfersGoToTheirTargets :
    to_ (.br 0 false 0x3FFFFF) ptrs (ptrs.setPc (ptrs.me.pc - 4)) = true ∧ goes (.br 1 false 5) ptrs ptrs = true ∧
    to_ (.call 1 true 0x1FFFFF) ptrs ((ptrs.setS 31 (ptrs.me.pc + 4)).setPc (ptrs.me.pc + 0x7FFFFC)) = true ∧
    to_ (.jr 9 0) ptrs (ptrs.setPc (scratch0 + 64)) = true ∧ trapsB (.jr 10 0) ptrs 4 = true ∧
    to_ (.jalr 9 9 0) ptrs ((ptrs.setS 9 (ptrs.me.pc + 4)).setPc (scratch0 + 64)) = true ∧ trapsB (.jalr 5 10 0) ptrs 4 = true ∧
    to_ (.ret 0) (reg ptrs 31 scratch0) ((reg ptrs 31 scratch0).setPc scratch0) = true ∧ trapsB (.ret 0) (reg ptrs 31 1) 4 = true ∧
    (match ptrs.loadVia 0 (ptrs.getS 8 + BitVec.ofNat 64 (4 * min (ptrs.getS 6).toNat 0)) 4 false with
     | .ok (t, e) => to_ (.jtab 6 8 0) ptrs (t.setPc (scratch0 + 4 * (BitVec.ofNat 32 e).signExtend 64))
     | .error _ => false) = true := by decide +kernel

/-- A loop that ends three words on, inside which the next loops are begun. -/
def outer : State := inLoop (base.me.pc + 12) 5 ptrs
def deep : State := inLoop (base.me.pc + 12) 2 (inLoop (base.me.pc + 12) 2 (inLoop (base.me.pc + 12) 2 outer))

theorem witness_LoopsBeginAndBreak :
    to_ (.loop 0 0xFFFF) deep (deep.setPc (deep.me.pc + 4 + BitVec.ofNat 64 (4 * 0xFFFF))) = true ∧
    to_ (.loopi 3 0) deep (deep.setPc (deep.me.pc + 16)) = true ∧
    to_ (.loop 7 3) outer (with_ outer fun h => { h with pc := h.pc + 4, loops := ⟨h.pc + 4, h.pc + 12, 3⟩ :: h.loops }) = true ∧
    to_ (.loopi 3 0xFFFF) outer (with_ outer fun h => { h with pc := h.pc + 4, loops := ⟨h.pc + 4, h.pc + 12, 0xFFFF⟩ :: h.loops }) = true ∧
    trapsB (.loop 7 4) outer 1 = true ∧ trapsB (.loopi 4 1) outer 1 = true ∧ trapsB (.loop 7 3) deep 1 = true ∧
    trapsB (.loopi 3 1) deep 1 = true ∧ trapsB (.loop 5 3) (reg base 5 0x100000000) 1 = true ∧
    to_ (.loop 5 3) (reg base 5 0xFFFFFFFF) (with_ (reg base 5 0xFFFFFFFF) fun h =>
      { h with pc := h.pc + 4, loops := [⟨h.pc + 4, h.pc + 12, 0xFFFFFFFF⟩] }) = true ∧
    to_ (.lbrk 0) outer ((with_ outer fun h => { h with loops := [] }).setPc (base.me.pc + 16)) = true ∧
    goes (.lbrk 1) outer outer = true ∧ trapsB (.lbrk 0) base 1 = true := by decide +kernel

theorem witness_LoopLevelsCountAtTheirLastWord :
    (let a := (inLoop base.me.pc 2 base).me
     decide (a.retire = { a with pc := scratch0, loops := [⟨scratch0, base.me.pc, 1⟩] })) = true ∧
    (let b := (inLoop base.me.pc 1 (inLoop base.me.pc 3 base)).me
     decide (b.retire = { b with pc := scratch0, loops := [⟨scratch0, base.me.pc, 2⟩] })) = true ∧
    decide (outer.me.retire = { outer.me with pc := outer.me.pc + 4 }) = true := by decide +kernel

/-- Both banks of a forked headgate: bank 0 keeps a store to the own scratchpad, bank 1 one to a space that no pointer names. -/
def held : State := with_ (reg forkB 8 scratch0) fun h => { h with
  bank0 := [⟨.st 6 8 0 .b8 .port false, { va := scratch0, vd := 7 }, h.pc⟩]
  bank1 := [⟨.st 6 8 0 .b8 .port false, { va := 0x3000000000000000, vd := 7 }, h.pc⟩] }

theorem witness_ForkSwqAndPickKeepOneBank :
    goes (.fork 0) held held = false ∧ trapsB (.fork 0) held 1 = true ∧
    goes (.fork 0) base (with_ base fun h => { h with forked := true }) = true ∧
    goes (.swq 0) held (with_ held fun h => { h with qb := true }) = true ∧ goes (.swq 1) held held = true ∧ goes (.pick 1 1) held held = true ∧
    trapsB (.swq 0) base 1 = true ∧ trapsB (.pick 0 0) base 1 = true ∧ goes (.pick 0 0) forkB (forkB.setMe (unforkedHg forkB.me)) = true ∧
    (match held.pickRun (held.getP 1) held.me.bank0 with
     | (t, none) => goes (.pick 1 0) held (t.setMe (unforkedHg t.me))
     | _ => false) = true ∧
    (match held.pickRun (held.getP 0) held.me.bank1 with
     | (t, some (x, .fault c d)) => to_ (.pick 0 0) held ((t.heldRefused x).precise c (x.addr.toNat :: d.drop 1))
     | _ => false) = true := by decide +kernel

/-- A switch of partition 0 is requested, with a deadline. -/
def asked : State := base.modPart 0 fun q => { q with sw := .requested 1 0 100 false }

theorem witness_NopSeedWaitAndYield :
    goes .nop base base = true ∧ goes (.seed 6) ptrs (with_ ptrs fun h => { h with g := -1 }) = true ∧
    goes (.seed 5) ptrs (with_ ptrs fun h => { h with g := 0x9E3779B97F4A7C15 }) = true ∧
    (let s := with_ ptrs fun h => { h with pev := 2 }
     goes (.wait 5 7) s ((with_ s fun h => { h with pev := 0 }).setS 5 2)) = true ∧
    waitsB (.wait 5 7) ptrs = true ∧ trapsB (.wait 5 0) ptrs 1 = true ∧ trapsB (.wait 5 5) (reg ptrs 5 32) 1 = true ∧
    waitsB (.wait 5 5) (reg ptrs 5 31) = true ∧ goes .yield rmcB rmcB = true ∧ goes .yield base base = true ∧
    goes .yield asked (asked.modPart 0 fun q => { q with sw := .requested 1 0 100 true }) = true := by decide +kernel

/-- The numbers of the assigned registers. -/
def lowRegs : List Nat := [0x000, 0x001, 0x010, 0x011, 0x012, 0x013]
def highRegs : List Nat := [0x100, 0x101, 0x102, 0x103, 0x110, 0x111]

theorem witness_MrdReadsEveryRegister :
    (lowRegs.all fun r => match registerValue base r with | some v => goes (.mrd r 5) base (base.setS 5 v) | none => false) = true ∧
    (highRegs.all fun r => match registerValue sysB r with
      | some v => goes (.mrd r 5) sysB (sysB.setS 5 v) && trapsB (.mrd r 5) base 2
      | none => false) = true ∧
    ([0x002, 0x0FF, 0x104, 0x112, 0x3FF].all fun r : Nat => decide (registerValue base r = none) && trapsB (.mrd r 5) base 1) = true := by
  decide +kernel

theorem witness_MwrWritesEveryRegister :
    (let s := reg ptrs 5 0xFF12
     [0x010, 0x011, 0x012].all fun r => match registerWritten s.me (s.getS 5) r with
      | some h => goes (.mwr r 5) s (s.setMe h)
      | none => false) = true ∧
    ([0x100, 0x101, 0x102, 0x103].all fun r => match registerWritten sysB.me (sysB.getS 6) r with
      | some h => goes (.mwr r 6) sysB (sysB.setMe h) && trapsB (.mwr r 6) base 2
      | none => false) = true ∧
    goes (.mwr 0x110 5) (reg sysB 5 0x4444444444444444) ((reg sysB 5 0x4444444444444444).modCore 0 fun k => { k with pendRole0 := some 0x4444444444444444 }) = true ∧
    goes (.mwr 0x111 5) (reg sysB 5 1) ((reg sysB 5 1).modCore 0 fun k => { k with pendRole1 := some 1 }) = true ∧
    trapsB (.mwr 0x110 5) (reg sysB 5 0x5000000000000000) 1 = true ∧ trapsB (.mwr 0x111 5) base 2 = true ∧
    trapsB (.mwr 0x010 5) (reg base 5 5) 1 = true ∧ trapsB (.mwr 0x001 5) base 1 = true ∧ trapsB (.mwr 0x013 5) sysB 1 = true := by decide +kernel

theorem witness_TrapEntersSystemMode :
    to_ (.trap 1023) ptrs (with_ ptrs fun h => { h with epc := h.pc + 4, ecause := 0x3FF00, sys := true, pc := h.tvec }) = true ∧
    trapsB (.trap 0) sysB 1 = true ∧ to_ (.trap 1) rmcB (with_ rmcB fun h => { h with epc := h.pc + 4, ecause := 0x100, sys := true, pc := h.tvec }) = true := by
  decide +kernel

theorem witness_EretLeavesSystemMode :
    (let s := with_ sysB fun h => { h with epc := scratch0 + 4 }
     to_ .eret s (with_ s fun h => { h with pc := h.epc, sys := false })) = true ∧
    to_ .eret rmcB (with_ rmcB fun h => { h with pc := h.epc, sys := true }) = true ∧
    trapsB .eret (with_ sysB fun h => { h with epc := 2 }) 4 = true ∧ trapsB .eret base 2 = true := by decide +kernel

theorem witness_BrkAndDbghRaiseDebugHalt :
    to_ (.brk 9) base (base.retire.trapAt 0 0x1F base.me.pc base.me.retire.pc 9 []) = true ∧
    to_ (.dbgh 0) sysB (sysB.retire.trapAt 0 0x1F base.me.pc base.me.retire.pc 0 []) = true ∧
    to_ (.dbgh 5) (reg sysB 5 1) (((reg sysB 5 1).retire.trapAt 0 0x1F base.me.pc base.me.retire.pc 1 []).waferHalt 1) = true ∧
    to_ (.dbgh 0) rmcB rmcB.retire = true ∧ to_ (.dbgh 5) (reg rmcB 5 1) ((reg rmcB 5 1).retire.waferHalt 1) = true ∧
    trapsB (.dbgh 5) (reg sysB 5 2) 1 = true ∧ trapsB (.dbgh 0) base 2 = true := by decide +kernel

theorem witness_HaltEndsTheProgramOrTask :
    (base.storesDone 0 .domain && base.me.enginesIdle) = true ∧
    to_ .halt outer (with_ outer fun h => { h with loops := [], run := .idle, pc := h.pc + 4 }) = true ∧
    (let s := with_ base fun h => { h with run := .task [(3, 2)] }
     to_ .halt s ((s.dropClaims 0 [(3, 2)]).modHg 0 fun h => { h with loops := [], run := .idle, pc := h.pc + 4 })) = true ∧
    to_ .halt rmcB (rmcB.retire.modMe fun h => { h with run := .idle, wait := .halt }) = true ∧
    (let s := rmcB.modReticle 0 fun t => { t with rmc := { t.rmc with wakepend := true } }
     to_ .halt s (s.retire.modReticle 0 fun t => { t with rmc := { t.rmc with wakepend := false } })) = true ∧
    (let s := with_ base fun h => { h with chain := { h.chain with queue := [⟨0, 0, 1, 0, 0, [], 0, 0, 0⟩] } }
     !s.me.enginesIdle && waitsB .halt s) = true ∧ base.me.readsDone = true := by decide +kernel

/-- Partition 0 has a trap ring of 64 records in the DRAM. -/
def ringed : State := base.modPart 0 fun q => { q with ringbase := 0xF500000000001000, logsize := 6, wr := 63, rd := 0 }

theorem noLineLost_ringed : noLineLost ringed := noLineLost_empty ringed (by decide +kernel)

theorem witness_PreciseTrapIsRecorded :
    (Memory.wf ringed.mem && decide (ringed.partOf 0 = some 0) && !(ringed.part 0).compat &&
      decide (((ringed.part 0).wr + 2 ^ 32 - (ringed.part 0).rd) % 2 ^ 32 < 2 ^ (ringed.part 0).logsize) && !(ringed.part 0).halted) = true ∧
    (let t := ringed.precise 3 [7, 8, 9, 10]
     let a := 0x1000 + 64 * 63
     t.readN a 8 == (ringed.precise 3 [7, 8, 9, 10]).readN a 8 && t.byte a == 3 && t.byte (a + 64) == ringed.byte (a + 64) &&
     decide ((t.part 0).wr = 64 ∧ (t.part 0).halted = true ∧ t.me = { ringed.me with stopped := true, stop := ⟨3, 0, 0, scratch0.toNat, 0⟩ } ∧
       (t.core 0).seq = 1)) = true ∧
    (let s := inLoop ringed.me.pc 2 ringed
     decide ((s.precise 3 []).me.epc = scratch0)) = true := by decide +kernel

/-! ## Witnesses: memory, fences, barriers, messages, launches, counters, timed actions -/

/-- A pointer's offset at the edges of its field: one below the end, at the end, below zero; a space without a field. -/
theorem witness_PointersAdvanceInTheirFieldOrPoison :
    goes (.padd 5 8 7 0) ptrs (ptrs.setS 5 (padd scratch0 3)) = true ∧
    (([(0x4, 22), (0x5, 25), (0x6, 32), (0x7, 14), (0x0, 48), (0xF, 48)] : List (Nat × Nat)).all fun e =>
      let p : Word := BitVec.ofNat 64 (e.1 * 2 ^ 60 + 1)
      decide (offWidth (space p) = some e.2) &&
      decide (((padd p (2 ^ e.2 - 2)).toNat : Int) = p.toNat + (2 ^ e.2 - 2)) && decide (((padd p (-1)).toNat : Int) = p.toNat - 1) &&
      decide (space (padd p (2 ^ e.2 - 1)) = 0xE) && decide (space (padd p (-2)) = 0xE ∧ (padd p (-2)).toNat % 2 ^ 60 = 1)) = true ∧
    (([0x3, 0x9, 0xA, 0xB, 0xD, 0xE] : List Nat).all fun e =>
      let p : Word := BitVec.ofNat 64 (e * 2 ^ 60 + 5)
      decide (offWidth (space p) = none ∧ space (padd p 0) = 0xE ∧ (padd p 0).toNat % 2 ^ 60 = 5)) = true := by decide +kernel

theorem scratchAt_base : scratchAt base 64 (bankAddr 0 16 64) :=
  ⟨by decide +kernel, ⟨0, by decide +kernel⟩, by decide, 16, by decide +kernel, by decide +kernel, by decide +kernel, by decide +kernel,
    by decide +kernel⟩

theorem witness_PointersReachTheirBankOrFault :
    (([.load, .store, .amo, .fetch] : List Kind).all fun k =>
      faultWith (base.resolve 0 0xF000000000000000 8 k) 2 && faultWith (base.resolve 0 0x4001FFFF00000000 8 k) 3 &&
      faultWith (base.resolve 0 0xE000000000000000 8 k) 3 && faultWith (base.resolve 0 (scratch0 + 2) 4 k) 4 &&
      okWith (base.resolve 0 (ownScratch 64) 64 k) fun r => match r with | .home a => a == bankAddr 0 16 64 | _ => false) = true := by
  decide +kernel

theorem witness_LoadsWriteTheirDestination :
    (match ptrs.loadVia 0 (effAddr (ptrs.getS 8) 0 4) 4 true true with
     | .ok (t, v) => t.cur == 0 && v == 0xFC000000 &&
         goes (.ld 5 8 0 .b4 .cluster true) ptrs ((acquired t true .cluster).setS 5 (BitVec.ofNat 64 (ptrs.overlay (effAddr (ptrs.getS 8) 0 4) 4 v)))
     | _ => false) = true ∧
    (match ptrs.loadVia 0 (effAddr (ptrs.getS 8) 1 64) 64 false true with
     | .ok (t, v) => goes (.ldv 5 8 1 .b64 .port false) ptrs ((acquired t false .port).setV 5
         (BitVec.ofNat 512 (ptrs.overlay (effAddr (ptrs.getS 8) 1 64) 64 v)))
     | _ => false) = true ∧
    faultWith (ptrs.loadVia 0 (effAddr (ptrs.getS 6) 0 8) 8 false true) 2 = true ∧ trapsB (.ld 5 6 0 .b8 .port false) ptrs 2 = true ∧
    trapsB (.ldv 5 10 0 .b16 .port false) ptrs 4 = true := by decide +kernel

/-- The bank of word 64 of the scratchpad serves the headgate. -/
theorem bankGrants_ptrs : bankGrants ptrs (granted ptrs (bankAddr 0 16 64)) (bankAddr 0 16 64) :=
  ⟨0, 16, by decide +kernel, by decide, by decide +kernel, by decide +kernel, by decide +kernel⟩

theorem witness_ScratchLoadsReadTheirBytes : scratchAt ptrs 64 (bankAddr 0 16 64) ∧
    (decide (effAddr (ptrs.getS 8) 8 8 = ownScratch 64 ∧ effAddr (ptrs.getS 9) 0 64 = ownScratch 64) &&
      !ptrs.poisoned (bankAddr 0 16 64) 64) = true ∧
    goes (.ld 5 8 8 .b8 .port false) ptrs (((granted ptrs (bankAddr 0 16 64)).touch (bankAddr 0 16 64)).setS 5 0) = true :=
  ⟨⟨by decide +kernel, ⟨0, by decide +kernel⟩, by decide, 16, by decide +kernel, by decide +kernel, by decide +kernel, by decide +kernel,
    by decide +kernel⟩, by decide +kernel, by decide +kernel⟩

theorem witness_ScratchStoresWriteExactlyTheirBytes : scratchAt ptrs 64 (bankAddr 0 16 64) ∧
    Memory.wf ptrs.mem = true ∧ effAddr (ptrs.getS 8) 8 8 = ownScratch 64 ∧ ptrs.me.forked = false ∧
    after (.st 6 8 8 .b8 .port false) ptrs (fun t => t.readN (bankAddr 0 16 64) 8 == 2 ^ 64 - 1 && t.byte (bankAddr 0 16 72) == 0 &&
      t.byte (bankAddr 0 16 3) == 0xFC) = true :=
  ⟨witness_ScratchLoadsReadTheirBytes.1, by decide +kernel⟩

theorem witness_StoresPerformThroughTheirPointer :
    (match (released ptrs true .cluster).storeVia 0 (effAddr (ptrs.getS 8) 1 2) 2 ((ptrs.getS 6).toNat % 256 ^ 2) true true with
     | .ok t => goes (.st 6 8 1 .b2 .cluster true) ptrs t
     | _ => false) = true ∧
    (match ptrs.storeVia 0 (effAddr (ptrs.getS 9) 0 64) 64 ((ptrs.getV 5).toNat % 256 ^ 64) false true with
     | .ok t => goes (.stv 5 9 0 .b64 .port false) ptrs t
     | _ => false) = true ∧
    trapsB (.st 6 10 0 .b8 .port false) ptrs 4 = true ∧ trapsB (.stv 6 6 0 .b16 .port false) ptrs 2 = true ∧ ptrs.remoteClear 0 = true ∧ releasesB ptrs .cluster = true := by
  decide +kernel

theorem noLineLost_base : noLineLost base := noLineLost_empty base (by decide +kernel)

theorem witness_ACoreReadsBackItsOwnStore : (Memory.wf base.mem && decide (base.mod.poison = [])) = true ∧
    ([(64, 8, 0x123456789ABCDEF0), (bankAddr 0 16 64, 64, 2 ^ 512 - 1), (128, 1, 255)].all fun (a, n, v) =>
      okWith ((base.storeAt 0 0 a n v false).loadAt 0 0 a n false) fun r => r.2 == v) = true := by decide +kernel

/-- The operand of every atomic operation: s7 = 3 on the word at the scratchpad's start, with s8 as its pointer. -/
def atomics : List Instr :=
  [.amoAadd 5 8 7 .partition false false, .amoAmin 5 8 7 .port false false, .amoAmax 5 8 6 .port false true, .amoAminn 5 8 7 .core false false,
   .amoAmaxn 5 8 7 .port false false, .amoAand 5 8 7 .port false true, .amoAor 5 8 7 .wafer true false, .amoAxor 5 8 7 .port false false,
   .amoAswap 8 8 7 .port false true, .amoAcas 5 8 7 .partition true false, .amoAfadd 5 8 7 .port false false]

theorem witness_AtomicOperationsSwapInOneStep : (atomics.all fun i => match atomicForm i with
    | some x =>
      let u := released ptrs x.ra x.sc
      let a := bankAddr 0 16 0
      let w := left (u.turnAt 0 (space (ptrs.getS x.a)) a true true) u
      let old := w.readN a x.n
      let new := x.new ptrs old ((ptrs.getS x.b).toNat % 256 ^ x.n) % 256 ^ x.n
      let t := (if new = old then w else w.homeWrite a x.n new).touchAs (space (ptrs.getS x.a)) a 0 (new != old)
      okWith (u.resolve 0 (ptrs.getS x.a) x.n .amo) (fun r => match r with | .home b => b == a | _ => false) &&
        okWith (u.homeReady 0 (space (ptrs.getS x.a)) a x.n true) (fun _ => true) && !isDram a && !w.poisoned a x.n && (!x.ra || releasesB ptrs x.sc) &&
        okWith (u.turnAt 0 (space (ptrs.getS x.a)) a true true) (fun _ => true) &&
        goes i ptrs ((acquired t x.ra x.sc).setS x.d (BitVec.ofNat 64 old))
    | none => false) = true := by decide +kernel

/-- A headgate with an engine command outstanding; one with an access outstanding at another module; one bound to a plot that runs. -/
def busyB : State := with_ base fun h => { h with chain := { h.chain with queue := [⟨0, 0, 1, 0, 0, [], 0, 0, 0⟩] } }
def plotB : State := with_ (base.modPart 0 fun q => { q with plots := [(0, { st := .running, rows := 1, cols := 1, origin := 0 })] }) fun h =>
  { h with bound := some ⟨0, 0, 0, 0⟩ }

theorem witness_FencesWaitAndOrder :
    (base.me.commandsDone && base.storesDone 0 .partition && base.remoteClear 0 && base.wakesDone 0) = true ∧
    goes (.fence .partition 0) base ((base.writeBackAll 0 0).selfInval 0) = true ∧ goes (.fence .port 0) base base = true ∧
    busyB.me.commandsDone = false ∧ waitsB (.fence .core 0) busyB = true ∧ goes (.fenceLd .wafer 0) base (base.selfInval 0) = true ∧
    goes (.fenceLd .core 0) base base = true ∧ goes (.fenceSt .cluster 0) base (base.writeBackAll 0 0) = true ∧
    goes (.wfence 0) base (with_ base fun h => { h with lastWin := none }) = true ∧
    goes (.ifence 0) base (with_ (base.selfInval 0) fun h => { h with icache := [] }) = true ∧
    base.boundActive 0 = false ∧ goes (.mfence 0) base (left (base.fenceL1 0 .partition true true) base) = true ∧
    plotB.boundActive 0 = true ∧ to_ (.mfence 0) plotB (with_ plotB fun h => { h with wait := .mfence false }) = true ∧
    waitsB (.mfence 0) (with_ plotB fun h => { h with wait := .mfence false }) = true ∧
    (let s := with_ plotB fun h => { h with wait := .mfence true }
     let u := left (s.fenceL1 0 .partition true true) s
     goes (.mfence 0) s (u.setMe { u.me with wait := .none })) = true ∧ okWith (base.flushReady 0 [0]) (fun _ => true) = true := by
  decide +kernel

/-- A barrier record at word 64 of the scratchpad: slots 0 and 63 expected, slot 63 arrived, generation 2^32 - 1. -/
def barB : State := (ptrs.writeN (bankAddr 0 16 64) 32 (barrierImage (1 + 2 ^ 63) (2 ^ 63) (2 ^ 32 - 1) 0)).setS 11 0xFFFFFFFF

theorem witness_BarriersCountTheirSlots :
    okWith (barB.barRead (barB.getS 9)) (fun r => r == (bankAddr 0 16 64, barrierImage (1 + 2 ^ 63) (2 ^ 63) (2 ^ 32 - 1) 0)) = true ∧
    goes (.binit 9 7 0) barB (barB.barWrite (bankAddr 0 16 64) (barrierImage 3 0 (2 ^ 32 - 1) 0)) = true ∧
    goes (.bwait 9 7 0) barB (acquired (barB.touch (bankAddr 0 16 64)) true .partition) = true ∧ waitsB (.bwait 9 11 0) barB = true ∧
    goes (.bleave 9 5 0) (reg barB 5 63) ((reg barB 5 63).barWrite (bankAddr 0 16 64) (barrierComplete 1 0 (2 ^ 32 - 1) 0)) = true ∧
    goes (.bleave 9 5 0) (reg barB 5 62) ((reg barB 5 62).barWrite (bankAddr 0 16 64) (barrierImage (1 + 2 ^ 63) (2 ^ 63) (2 ^ 32 - 1) 0)) = true ∧
    goes (.bqry 12 9 0 0) barB ((barB.touch (bankAddr 0 16 64)).setS 12 (1 + 2 ^ 63)) = true ∧
    goes (.bqry 12 9 5 0) (reg barB 5 1) (((reg barB 5 1).touch (bankAddr 0 16 64)).setS 12 0x8000000000000000) = true ∧
    goes (.bqry 12 9 5 0) (reg barB 5 2) (((reg barB 5 2).touch (bankAddr 0 16 64)).setS 12 0xFFFFFFFF) = true ∧
    trapsB (.bqry 12 9 7 0) barB 1 = true ∧ trapsB (.barr 12 9 5 0) (reg barB 5 64) 1 = true ∧ trapsB (.bleave 9 5 0) (reg barB 5 64) 1 = true ∧
    goes (.barr 12 9 0 0) barB (((released barB true .partition).barWrite (bankAddr 0 16 64)
      (barrierComplete (1 + 2 ^ 63) (2 ^ 63 + 1) (2 ^ 32 - 1) 0)).setS 12 0xFFFFFFFF) = true ∧
    trapsB (.barr 12 9 5 0) (reg barB 5 63) 1 = true ∧ trapsB (.barr 12 9 5 0) (reg barB 5 62) 1 = true := by decide +kernel

/-! ## Witnesses: keys, messages, collectives, launches, counters, timed actions -/

/-- The active context's key ring over its one core. -/
def ringB : State := ptrs.modCtx 0 fun c => { c with tokens := newTokens [0] }

theorem witness_KeylkPointsIntoTheOwner :
    decide ((ringB.ctx (ringB.part 0).active).tokens = [(0, 0)]) = true ∧
    ringHolds (ringB.ctx (ringB.part 0).active).tokens ((ringB.getS 6).toNat % 2 ^ 32 * 0x9E3779B9 % 2 ^ 32) (0, 0) ∧
    goes (.keylk 5 6 7 0) ringB { ringB.setS 5 (BitVec.ofNat 64 (4 * 2 ^ 60 + 3)) with fresh := ringB.fresh + 1 } = true := by
  refine ⟨by decide +kernel, ⟨by decide +kernel, .inr ⟨by decide +kernel, by decide +kernel⟩⟩, by decide +kernel⟩

/-- A message, queues of one and of none, and a network interface that holds eight. -/
def msgA : Msg := { payload := 5, header := 9, sent := 2 ^ 32 + 1, arrived := 7 }
def gotB : State := ptrs.modCore 0 fun k => { k with queues := k.queues.set 3 [msgA, { msgA with payload := 6 }] }
def eight : State := ptrs.modMod fun m => { m with packets := List.replicate 8 { cls := 2, src := 0, seqr := 0, dst := 0, queue := 0, msg := msgA, ready := 0 } }
def sending (s : State) : Packet :=
  { cls := 2, src := 0, seqr := 0, dst := 0, queue := 7
    msg := { payload := (s.getV 5).toNat, header := BitVec.ofNat 64 (s.lcore 0 * 2 ^ 48 + (s.getS 7).toNat % 2 ^ 48), sent := s.wt, arrived := 0 }, ready := s.wt + 6 }

theorem witness_MessagesPassThroughTheirQueues :
    (let s := reg ptrs 9 0xFFFF00000007
     goes (.qsend 5 9 7 0) s ((released s true .partition).modMod fun y => { y with packets := y.packets ++ [sending s] })) = true ∧
    (let s := reg ptrs 9 0x7
     goes (.qsend 5 9 7 0) s ((released s true .partition).modMod fun y => { y with packets := y.packets ++ [sending s] })) = true ∧
    releasesB (reg ptrs 9 7) .partition = true ∧ waitsB (.qsend 5 9 7 0) (reg eight 9 7) = true ∧ trapsB (.qsend 5 9 7 0) (reg ptrs 9 8) 1 = true ∧
    trapsB (.qsend 5 9 7 0) (reg ptrs 9 0x100000000) 3 = true ∧
    goes (.qrecv 5 7 30 0) gotB ((((acquired (gotB.modCore 0 fun k => { k with queues := k.queues.set 3 [{ msgA with payload := 6 }] }) true .partition).setV 5 5).setS
      30 9).setS 31 0x100000007) = true ∧
    waitsB (.qrecv 5 7 8 0) ptrs = true ∧ goes (.qpoll 5 7 0) gotB (gotB.setS 5 2) = true ∧
    trapsB (.qrecv 5 9 8 0) (reg gotB 9 8) 1 = true ∧ trapsB (.qpoll 5 9 0) (reg gotB 9 8) 1 = true ∧
    (let s := gotB.modCore 0 fun k => { k with tskctl := 8 }
     (s.core 0).tqmask.testBit 3 && trapsB (.qrecv 5 7 8 0) s 6 && trapsB (.qpoll 5 7 0) s 6) = true := by decide +kernel

/-- A vector of four f32 at the scratchpad's word 256, as a shape record. -/
def shp : BitVec 256 := BitVec.ofNat 256 ((scratch0 + 256).toNat + 4 * 2 ^ 64 + 2 ^ 128)

/-- Headgate N of core 0 is the one participant of the current load; slots 1 and 2 hold the record. -/
def collB : State := with_ (ptrs.modPart 0 fun q => { q with load := some (0, 1, 1) }) fun h => (h.setSh 1 shp).setSh 2 shp

def arrived : State := match collB.collArrive 0 0 .f32 shp shp 0 with | .ok t => t | .error _ => collB

theorem witness_CollectivesArriveAndRetire :
    okWith (collB.collArrive 0 0 .f32 shp shp (collB.getS 0)) (fun t => to_ (.collAllred 1 2 0 .sum .f32) collB t && decide (t.me.pc = collB.me.pc)) = true ∧
    decide (arrived.me.wait = .coll 0 ∧ (SMap.get? (arrived.part 0).colls 0).map (fun c => (c.done, c.group, c.size, c.arrived.length)) = some (false, 0, 1, 1)) = true ∧
    waitsB (.collAllred 1 2 0 .sum .f32) arrived = true ∧
    (match SMap.get? (arrived.part 0).colls 0 with
     | some c => (match arrived.collWrite 0 c (c.sources []) c.arrived with
       | .ok t =>
         let d := t.modPart 0 fun q => { q with colls := SMap.set q.colls 0 { c with done := true } }
         to_ .collComplete arrived d &&
           goes (.collAllred 1 2 0 .sum .f32) d (acquired (with_ (d.modPart 0 fun q => { q with colls := [] }) fun h => { h with wait := .none }) true .partition)
       | .error _ => false)
     | none => false) = true ∧
    trapsB (.collBcast 1 2 0 .bf16) collB 1 = true ∧ trapsB (.collAllgath 1 3 0 .f32) collB 1 = true ∧ trapsB (.collA2a 1 2 7 .f32) collB 1 = true ∧
    trapsB (.collRedscat 1 2 5 .max .f32) (reg collB 5 0x1000000) 1 = true ∧
    (let c : Collective := { group := 0, size := 2, kind := 2, red := 0, fmt := .i32, ex := 2, ey := 4, root := 1, arrived := [], done := false }
     let l := [[1, 2], [3, 4]]
     decide (collResult c l 0 = [1, 2, 3, 4] ∧ collResult { c with kind := 3 } l 0 = [3, 4] ∧
       (collResult { c with kind := 4 } l 1).getD 0 0 = 2 ∧ (collResult { c with kind := 0, ey := 2 } l 0).getD 1 0 = 6)) = true := by decide +kernel

/-- Launch record 4095 in a state, owned by a context, word 15 patchable. -/
def recB (st owner : Nat) : State := (reg (reg ptrs 9 4095) 11 (BitVec.ofNat 64 (4095 + 15 * 2 ^ 16))).modLaunch 4095 fun l =>
  { l with state := st, count := 2, code := 3, words := l.words.set 1 (BitVec.ofNat 64 (owner * 2 ^ 48 + 0x8000 * 2 ^ 32)) }

theorem witness_LaunchRecordsFollowTheirStates :
    ([1, 4, 5].all fun st : Nat =>
      let s := recB st 0
      goes (.lrpatch 11 7 0) s (s.modLaunch 4095 fun y => { y with words := y.words.set 15 3 }) && trapsB (.lrpatch 12 7 0) (reg s 12 4095) 6 &&
        goes (.lrarm 9 0) s (((released s true .partition).modLaunch 4095 fun y =>
          { y with state := 2, via := y.port, order := s.mod.armSeq, accepted := false, armedWt := s.wt }).modMod fun m =>
            { m with armSeq := m.armSeq + 1, dcmds := m.dcmds ++ [(4095, 0)] })) = true ∧
    ([0, 2, 3].all fun st : Nat => trapsB (.lrpatch 11 7 0) (recB st 0) 0x1B && trapsB (.lrarm 9 0) (recB st 0) 0x1B) = true ∧
    (trapsB (.lrpatch 11 7 0) (recB 1 1) 6 && trapsB (.lrarm 9 0) (recB 1 1) 6 && trapsB (.lrqry 5 9 0) (recB 1 1) 6) = true ∧
    goes (.lrqry 5 9 0) (recB 4 0) ((recB 4 0).setS 5 0x200000304) = true ∧
    trapsB (.lrpatch 12 7 0) (reg (recB 1 0) 12 0x1000) 1 = true ∧ trapsB (.lrarm 12 0) (reg (recB 1 0) 12 4096) 1 = true ∧
    trapsB (.lrqry 5 12 0) (reg (recB 1 0) 12 4096) 1 = true := by decide +kernel

/-- Counter 63 stands one below its end. -/
def cntB : State := (reg (reg ptrs 9 63) 11 (scratch0 + 256)).modCore 0 fun k => { k with counters := k.counters.set 63 0xFFFFFFFF }

theorem witness_RouteCountersCountAndClear :
    goes (.cntadd 9 7 0) cntB (cntB.modCore 0 fun y => counted y 63 3) = true ∧ goes (.cntrd 5 9 0) cntB (cntB.setS 5 0xFFFFFFFF) = true ∧
    trapsB (.cntadd 12 7 0) (reg cntB 12 64) 1 = true ∧ trapsB (.cntrd 5 12 0) (reg cntB 12 64) 1 = true ∧
    goes (.vcnt 5 7 0) cntB (cntB.modCore 0 fun y => ((lanes (cntB.getV 5) 32).filter (· < 64)).foldl (fun y j => counted y (Fin.ofNat 64 j) 3) y) = true ∧
    (match cntB.storePieces 0 (cntB.getS 11) 4 (pack 32 (cntB.core 0).counters.toList) with
     | .ok t => goes (.cntsnap 5 11 0) cntB ((t.modCore 0 fun y => { y with counters := Vector.replicate 64 0, cntovf := 0 }).setS 5 0)
     | _ => false) = true ∧ trapsB (.cntsnap 5 10 0) cntB 4 = true := by decide +kernel

/-- Slot 0 of the issuing headgate holds an action, slot 1 is free. -/
def slotA (b f : Bool) (wt : Nat) (desc : Word) : TimedSlot := { busy := b, wt, desc, fired := f, late := f }
def slotB (x : TimedSlot) : State := { with_ ptrs fun h => { h with timed := h.timed.set 0 x } with wt := 1000 }

theorem witness_TimedActionsAndBandwidthPhases :
    (let s := { ptrs with wt := 1000 }
     goes (.wtrd 5 0) s (s.setS 5 1000) &&
     (let s := reg (slotB (slotA true false 1000 0)) 9 1000
      goes (.atset 5 9 0 0) s ((s.setMe { s.me with timed := s.me.timed.set 1 (armedSlot s 9 0) }).setS 5 1)) &&
     (let s := reg { ptrs with wt := 1000 } 9 999
      goes (.atset 5 9 0 0) s (((s.setMe { s.me with timed := s.me.timed.set 0 (armedSlot s 9 0) }).fireSlot 0 0 (armedSlot s 9 0) true).setS 5 0)) &&
     trapsB (.atset 5 9 11 0) (reg s 11 0x5000000000000000) 1 && trapsB (.atset 5 9 11 0) (reg s 11 0x10000) 1) = true ∧
    trapsB (.atset 5 0 0 0) (with_ ptrs fun h => { h with timed := Vector.replicate 8 (slotA true false 9 0) }) 1 = true ∧
    (let s := reg (slotB (slotA true true 900 0)) 9 0
     goes (.atcan 5 9 0) s ((s.setMe { s.me with timed := s.me.timed.set 0 {} }).setS 5 3) &&
     goes (.atwait 5 9 0) s ((s.setMe { s.me with timed := s.me.timed.set 0 {} }).setS 5 3)) = true ∧
    waitsB (.atwait 5 0 0) (slotB (slotA true false 1000 0)) = true ∧ trapsB (.atcan 5 9 0) (reg ptrs 9 8) 1 = true ∧
    trapsB (.atwait 5 9 0) (reg ptrs 9 8) 1 = true ∧
    (let s := slotB (slotA true false 1000 0)
     s.timersOn 0 && to_ .timedActionFire s (s.fireSlot 0 0 (slotA true false 1000 0) false) &&
       decide (s.fireSlot 0 0 (slotA true false 1000 0) false = s.modHg 0 fun h =>
         { h with timed := h.timed.set 0 { slotA true false 1000 0 with fired := true, late := false }, pev := h.pev ||| 2 })) = true ∧
    (let s := slotB (slotA true false 1001 0); to_ .timedActionFire s s) = true ∧
    (let x := slotA true false 1000 0x3000000000000000
     let s := slotB x
     decide (s.fireSlot 0 0 x false = s.modHg 0 fun h =>
       { h with timed := h.timed.set 0 { x with fired := true, late := false, err := true, cause := 0x1A }, pev := h.pev ||| 2 })) = true ∧
    (let s := reg (reg ptrs 9 0x5) 11 2000
     goes (.bwph 9 11 0) s ((s.modPart 0 fun y => { y with bwphase := 5, bwphwt := 2000, bwHold := y.holds s.wt }).applyPhase 0)) = true ∧
    trapsB (.bwph 9 7 0) (reg ptrs 9 0x100000000) 1 = true ∧ goes (.bwqry 5 0 0) ptrs (ptrs.setS 5 0) = true ∧
    (let s := reg (ptrs.modPart 0 fun q => { q with bwphwt := 7, short := true }) 9 1
     goes (.bwqry 5 9 0) s (s.setS 5 7)) = true ∧
    (let s := reg (ptrs.modPart 0 fun q => { q with bwphwt := 7, short := true }) 9 2
     goes (.bwqry 5 9 0) s (s.setS 5 3)) = true ∧ trapsB (.bwqry 5 7 0) ptrs 1 = true := by decide +kernel

/-- ATSET and ATCAN of a plot's start (kind 1), which its ballast follows. -/
theorem witness_TimedActionsOfPlots :
    (let s := reg (reg (plotB.modPart 0 id) 9 4000) 11 0x1000000000000000
     match s.plot? (s.hgPart 0) 0 with
     | some q => goes (.atset 5 9 11 0) s (((s.setMe { s.me with timed := s.me.timed.set 0 (armedSlot s 9 11) }).armBallast q 4000).setS 5 0)
     | none => false) = true ∧
    (let s := with_ plotB fun h => { h with timed := h.timed.set 0 (slotA true false 4000 0x1000000000000000) }
     match s.plot? (s.hgPart 0) 0 with
     | some q => goes (.atcan 5 0 0) s (((s.endBallast q false).modMe fun h => { h with timed := h.timed.set 0 {} }).setS 5 0)
     | none => false) = true := by decide +kernel

/-! ## Witnesses: the fabric, sluices, engine commands -/

/-- Plot 7 of partition 0 in a state; s9 = 7. -/
def plotIn (q : Plot) : State := reg (ptrs.modPart 0 fun p => { p with plots := [(7, q)] }) 9 7
def q1 (st : PlotState) : Plot := { st, rows := 1, cols := 1 }

/-- A 64-byte record at word 256 of the scratchpad, and its pointer in s11. -/
def recAt (s : State) (x : Nat) : State := reg (s.writeN (bankAddr 0 16 256) 64 x) 11 (scratch0 + 256)

theorem witness_PlotsStartStopAndTakeTheirRecords :
    (([.ready, .stopped] : List PlotState).all fun st => let s := plotIn (q1 st)
      goes (.start 9) s (s.startPlot 0 7 0 s.me.fmode s.me.g) &&
        waitsB (.start 9) (plotIn { q1 st with startable := false })) = true ∧
    (([.unconf, .running, .stopping] : List PlotState).all fun st => trapsB (.start 9) (plotIn (q1 st)) 1) = true ∧
    (let s := plotIn (q1 .running); goes (.stopp 9) s (s.setPlot 0 7 (q1 .stopping))) = true ∧
    (([.ready, .stopping, .stopped] : List PlotState).all fun st => goes (.stopp 9) (plotIn (q1 st)) (plotIn (q1 st))) = true ∧
    (([.ready, .running, .stopping, .stopped] : List PlotState).all fun st => let s := plotIn (q1 st)
      goes (.stoppNow 9) s (s.stopNow 0 7) && goes (.cfgwaitQ 9) s (s.setS 9 (BitVec.ofNat 64 (q1 st).st.code))) = true ∧
    (let s := plotIn (q1 .unconf); trapsB (.stopp 9) s 1 && trapsB (.stoppNow 9) s 1) = true ∧
    (let s := plotIn { q1 .running with rc := 9, rcMark := 4 }
     decide (((s.stopNow 0 7).plot? 0 7).map (fun r => (r.st, r.rc, r.pend)) = some (.stopped, 4, []))) = true ∧
    (let s := plotIn { q1 .stopped with rc := 9 }
     decide (((s.startPlot 0 7 3 1 2).plot? 0 7).map (fun r => (r.st, r.rc, r.fmode, r.starter)) = some (.running, 9, 1, 3))) = true ∧
    (trapsB (.start 7) (plotIn (q1 .ready)) 1 && trapsB (.stopp 7) ptrs 1 && trapsB (.stoppNow 7) ptrs 1 && goes (.cfgwaitQ 7) ptrs (ptrs.setS 7 0)) = true ∧
    (let s := reg ptrs 9 65536; trapsB (.start 9) s 1 && trapsB (.stopp 9) s 1 && trapsB (.stoppNow 9) s 1 && trapsB (.cfgwaitQ 9) s 1) = true ∧
    goes (.cfgwait 9) ptrs (ptrs.setS 9 0) = true ∧ waitsB (.cfgwait 9) (with_ ptrs fun h => { h with cfg := { h.cfg with busy := true } }) = true := by
  decide +kernel

/-- The records of BYPMAP (1 row, 1 column at the origin), DLYSET (lane 0 delayed by 63) and HOLDTAB (the smallest limits). -/
def holdRec : Nat := 7 + ((List.range 7).foldl (fun n k => n + 2 ^ (32 * (k + 1))) 0)

theorem witness_FabricRecords :
    (let s := recAt (plotIn (q1 .ready)) (1 + 2 ^ 16)
     match s.loadVia 0 (s.getS 11) 64 false with
     | .ok (t, x) => (match t.storeVia 0 (s.getS 11) 64 (s.bypRecord 0 x false) false with | .ok u => goes (.bypmap 11) s u | .error _ => false) &&
         (match t.storeVia 0 (s.getS 11) 64 (s.bypRecord 0 x true) false with | .ok u => goes (.bypmapCol 11) s u | .error _ => false)
     | .error _ => false) = true ∧
    trapsB (.bypmap 10) ptrs 4 = true ∧ trapsB (.bypmapCol 10) ptrs 4 = true ∧
    (let s := recAt (plotIn (q1 .ready)) (7 + 63 * 2 ^ 64)
     match s.loadVia 0 (s.getS 11) 32 false with
     | .ok (t, x) => goes (.dlyset 11) s (t.setPlot 0 7 { q1 .ready with
         dly := (dlyLanes (q1 .ready) x).foldl (fun m k => SMap.set m (laneKey 0 k) (bits x (64 + 8 * k) 8)) [] })
     | .error _ => false) = true ∧
    (let s := recAt (plotIn (q1 .stopped)) holdRec
     match s.loadVia 0 (s.getS 11) 32 false with
     | .ok (t, _) => goes (.holdtab 11) s (t.setPlot 0 7 { q1 .stopped with limits := [0, 1, 1, 1, 1, 1, 1, 1] })
     | .error _ => false) = true ∧
    (let s := recAt (plotIn (q1 .running)) holdRec; trapsB (.dlyset 11) s 1 && trapsB (.holdtab 11) s 1) = true ∧
    (let s := recAt (plotIn (q1 .ready)) (7 + 2 ^ 16); trapsB (.dlyset 11) s 1 && trapsB (.holdtab 11) s 1) = true ∧
    (let s := recAt (plotIn (q1 .ready)) 8; trapsB (.dlyset 11) s 1 && trapsB (.holdtab 11) s 1) = true := by decide +kernel

/-- A configuration image of one plot of one cell with one instruction slot, all zero, at word 256 of the scratchpad. -/
def imgHead : Nat := 0x46435A4B + 2 ^ 32 + 2 ^ 48 + 64 * 2 ^ 256
def imgPlot : Nat := 2 ^ 64 + 2 ^ 80 + 2 ^ 96 + (scratch0 + 448).toNat * 2 ^ 256
def imgB : State := (recAt ptrs imgHead).writeN (bankAddr 0 16 320) 64 imgPlot

theorem witness_FabricLoadsStageAndSwitch :
    (match imgB.stage 0 0 (imgB.getS 11) false with
     | .ok (t, l) =>
       let u := t.discardStaging 0 0x10000 l.plots
       let v := u.setMe { u.me with staged := some l, wait := .cfg false }
       to_ (.cfg 11) imgB v && waitsB (.cfg 11) v && v.storesDone 0 .partition &&
         (0 :: boundHgs (v.overlapped 0 l.plots)).all (fun j => (v.hg j).enginesDone) &&
         l.plots.all (fun e => e.2.cores.all fun n => okWith (v.tasksReady n) fun _ => true) && okWith (v.fenceL1 0 .partition true false) (fun _ => true) &&
         to_ .cfgSwitching v (((left (v.fenceL1 0 .partition true false) v).switchLoad 0 0 l).modHg 0 fun h =>
           Hg.retire { h with staged := none, wait := .none, icache := [], cfg := { plots := l.plots.map fun e => e.1, busy := true } })
     | .error _ => false) = true ∧
    faultWith (ptrs.stage 0 0 (ptrs.getS 9) false) 0xA = true ∧ trapsB (.cfg 9) ptrs 0xA [1, 0xFFFF, 0, 0] = true ∧
    to_ .cfgSwitching base base = true ∧ to_ .cfgBackgroundDone base base = true ∧
    (let s := with_ base fun h => { h with cfg := { busy := true } }
     to_ .cfgBackgroundDone s (with_ base fun h => { h with cfg := { busy := false } })) = true ∧
    (let s := with_ (plotIn (q1 .ready)) fun h => { h with cfg := { plots := [7], busy := true } }
     match s.readStores (waiterOf 0 12) 7 (q1 .ready) with
     | .ok (t, m) => decide (s.cfgBackground 0 0 2 = ((((t.putStores m).modPlot 0 7 fun q => { q with startable := true }).modHg 0 fun h =>
         { h with cfg := { h.cfg with plots := [] } }).cfgBackground 0 0 1))
     | .error _ => false) = true := by decide +kernel

/-- A splice armed; staged; staged with a fault. -/
def spl (x : Splice) : State := with_ imgB fun h => { h with splice := some x }

theorem witness_Splices :
    (match imgB.readRec 0 (imgB.getS 11) 64 with
     | .ok (t, _) => goes (.splarm 11) imgB (t.setMe { t.me with splice := some { image := imgB.getS 11 } })
     | .error _ => false) = true ∧
    trapsB (.splarm 11) (spl { image := 0 }) 1 = true ∧ waitsB .splice (spl { image := 0 }) = true ∧ trapsB .splice imgB 1 = true ∧
    (let x : Splice := { image := 0, staged := true }; goes .splice (spl x) ((spl x).splice 0 0 x)) = true ∧
    (let x : Splice := { image := 0, staged := true, cause := 0xA, detail := [4] }
     to_ .splice (spl x) (imgB.precise 0xA [4])) = true ∧
    (let s := spl { image := scratch0 }
     match s.stage 0 (waiterOf 0 13) scratch0 true with
     | .error (.fault c d) => to_ .spliceStagingDone s (spl { image := scratch0, staged := true, cause := c, detail := d })
     | _ => false) = true ∧
    (let s := spl { image := scratch0 + 256 }
     match s.stage 0 (waiterOf 0 13) (scratch0 + 256) true with
     | .ok (t, l) => (match spliceStores t 0 l with
       | .ok (u, m) => to_ .spliceStagingDone s (((u.discardStaging 0 0 l.plots).modHg 0 fun h => { h with splice := some {
           image := scratch0 + 256, staged := true, load := { l with stores := m }, preds := (u.overlapped 0 l.plots).map (·.1) } }).enterWaves 0)
       | .error _ => false)
     | _ => false) = true := by decide +kernel

/-- Sluice 3 holds units: 8 units of 16 bytes at offset 0, its pointers given; s9 is the count. -/
def sluiced (p c : Nat) (open_ : Bool) (n : Word) : State := reg (ptrs.modCore 0 fun k => { k with
  sluices := k.sluices.set 3 { set := true, desc := BitVec.ofNat 64 (3 * 2 ^ 56), p, c, open_ } }) 9 n

theorem witness_SluicesCountTheirUnits :
    (let d : Word := BitVec.ofNat 64 (3 * 2 ^ 56)
     let s := reg ptrs 9 d
     decide (slLegal d ∧ slEnd d ≤ s.regionBytes 0 2) && goes (.slset 3 9) s (s.modCore 0 fun k => { k with
       sluices := k.sluices.set 3 { set := true, desc := d, p := 0, c := 0, open_ := true, claim := 0 } }) &&
     (let t := with_ s fun h => { h with chain := { h.chain with queue := [⟨0, BitVec.ofNat 64 (2 ^ 32 + 3 * 2 ^ 12 + 3), 1, 0, 0, [], 0, 0, 0⟩] } }
      (t.hg 0).namesSluice 3 && trapsB (.slset 3 9) t 0x1A)) = true ∧
    trapsB (.slset 3 9) (reg ptrs 9 0x400000) 1 = true ∧ trapsB (.slset 3 9) (reg ptrs 9 (BitVec.ofNat 64 (9 * 2 ^ 60 + 15 * 2 ^ 56))) 3 = true ∧
    (let s := sluiced 0xFFFFFFFF 0xFFFFFFFA true 3
     goes (.slput 3 9) s ((s.modCore 0 fun k => { k with sluices := k.sluices.set 3 { k.sluices.get 3 with p := 2 } }).latchCore 0 2)) = true ∧
    (let s := sluiced 2 0 true 2
     goes (.sltake 3 9) s ((s.modCore 0 fun k => { k with sluices := k.sluices.set 3 { k.sluices.get 3 with c := 2 } }).latchCore 0 2) &&
       goes (.sltake 3 9) s ((s.lowerClaim 3 2).advanceC 0 3 2)) = true ∧
    goes (.slput 3 9) (sluiced 2 0 true 0) (sluiced 2 0 true 0) = true ∧ trapsB (.slput 3 9) (sluiced 6 0 true 3) 0x1A = true ∧
    trapsB (.sltake 3 9) (sluiced 6 0 false 1) 0x1A = true ∧ goes (.slqry 3 9) (sluiced 6 5 true 1) ((sluiced 6 5 true 1).setS 9 0x600000005) = true ∧
    goes (.slqryD 3 9) (sluiced 6 5 true 1) ((sluiced 6 5 true 1).setS 9 (BitVec.ofNat 64 (3 * 2 ^ 56 + 2 ^ 52))) = true ∧
    goes (.slwaitData 3 9) (sluiced 6 0 true 6) (sluiced 6 0 true 6) = true ∧ waitsB (.slwaitData 3 9) (sluiced 6 0 true 7) = true ∧
    goes (.slwaitRoom 3 9) (sluiced 6 0 true 2) (sluiced 6 0 true 2) = true ∧ waitsB (.slwaitRoom 3 9) (sluiced 6 0 true 3) = true ∧
    trapsB (.slwaitData 3 9) (sluiced 6 0 true 9) 0x1A = true ∧ trapsB (.slwaitRoom 3 9) (sluiced 6 0 true 9) 0x1A = true ∧
    (([.slput, .sltake, .slqry, .slqryD, .slwaitData, .slwaitRoom] : List (SlReg → SReg → Instr)).all fun f => trapsB (f 4 9) (reg ptrs 9 0) 0x1A) = true := by
  decide +kernel

/-- A fixed (KIND 1) sluice. -/
theorem witness_FixedSluice :
    (let s := ptrs.modCore 0 fun k => { k with sluices := k.sluices.set 3 { set := true, desc := BitVec.ofNat 64 (2 ^ 54) } }
     trapsB (.slput 3 7) s 0x1A && trapsB (.sltake 3 7) s 0x1A) = true := by decide +kernel

/-- A chain record of one MOV slot into the output; a descriptor from sluice 3 to sluice 3, f32 both ways. -/
def chainRec : Nat := 19 * 2 ^ 27 + 8 * 2 ^ 21 + 16
def chainDesc (n : Nat) : Word := BitVec.ofNat 64 (n * 2 ^ 32 + 3 * 2 ^ 12 + 3)
def chainB (n : Nat) : State := reg (recAt (sluiced 6 0 true 0) chainRec) 12 (chainDesc n)

/-- A state whose slots 1 and 2 hold a record of four f32, and s9 a count. -/
def strmB (n : Word) : State := with_ (sluiced 6 0 true n) fun h => (h.setSh 1 shp).setSh 2 shp
def queued (s : State) : StreamCmd :=
  { src := s.me.getSh 1, dst := s.me.getSh 2, desc := s.getS 9, xform := 0, fmode := s.me.fmode, g := s.me.g }

theorem witness_StreamAndChainCommandsPerform :
    (let s := recAt ptrs shp.toNat
     match s.loadVia 0 (s.getS 11) 32 false with
     | .ok (t, v) => shValid (BitVec.ofNat 256 v) && goes (.shld 15 11) s (t.setMe (t.me.setSh 15 shp))
     | .error _ => false) = true ∧
    (let s := recAt ptrs 0
     match s.loadVia 0 (s.getS 11) 32 false with
     | .ok (t, v) => goes (.shld 15 11) s (t.setMe (t.me.setSh 15 (BitVec.ofNat 256 v))) && s.me.codebookFree &&
         goes (.cbload 11) s (t.setMe { t.me with codebook := Vector.replicate 16 0 })
     | .error _ => false) = true ∧
    trapsB (.shld 15 11) (recAt ptrs 5) 1 = true ∧ trapsB (.cbload 11) (recAt ptrs (0x7C00 * 2 ^ 240)) 1 = true ∧
    trapsB (.shld 15 10) ptrs 4 = true ∧ trapsB (.cbload 10) ptrs 4 = true ∧
    waitsB (.cbload 11) (with_ (recAt ptrs 0) fun h => { h with dec := { h.dec with queue := [⟨0, 0, 0, 0, 1, 0, .cb4, 0, 0, none, 0, 0, none, false⟩] } }) = true ∧
    (let s := chainB 5
     match s.loadVia 0 (s.getS 11) 32 false with
     | .ok (t, v) => s.chainOk (s.getS 12) && chainRecordOk (BitVec.ofNat 256 v) &&
         goes (.chain 11 12 0) s (((chainQueued t (chainCmd s t (BitVec.ofNat 256 v) 12)).chainTrim 0 2).modMe Hg.stepG)
     | .error _ => false) = true ∧
    (let s := recAt (reg (sluiced 6 0 true 0) 12 (chainDesc 5)) 0; trapsB (.chain 11 12 0) s 1) = true ∧
    trapsB (.chain 11 12 0) (reg (chainB 5) 12 0x200) 1 = true ∧
    (let c : ChainCmd := ⟨0, 0, 1, 0, 0, [], 0, 0, 0⟩
     waitsB (.chain 11 12 0) (with_ (chainB 5) fun h => { h with chain := { h.chain with queue := [c, c] } })) = true ∧
    (match (strmB 0).storeVia 0 ((strmB 0).getS 8) 32 shp.toNat false with
     | .ok t => goes (.shst 1 8) (strmB 0) t
     | .error _ => false) = true ∧
    goes (.xform 1 9) (reg ptrs 9 0xC1) (with_ (reg ptrs 9 0xC1) fun h => { h with node1 := { h.node1 with xform := 0xC1 } }) = true ∧
    trapsB (.xform 0 9) (reg ptrs 9 0x2) 1 = true ∧
    (let s := strmB 0
     s.strmOk (strmOps s 1 2 9) 0 && goes (.strm 1 2 0 9) s ((with_ s fun h => { h with node0 := { h.node0 with queue := [queued s] } }).modMe fun k =>
       { k with g := (drawG k.g).1 }) &&
     waitsB (.strm 1 2 0 9) (with_ s fun h => { h with node0 := { h.node0 with queue := List.replicate 4 (queued s) } })) = true ∧
    trapsB (.strm 1 2 0 9) (strmB 8) 1 = true ∧
    goes (.strmq 1 9) (strmB 0) ((strmB 0).setS 9 0) = true := by decide +kernel

theorem witness_ScaleCacheAndConstants :
    ptrs.me.scaleBusy = false ∧
    goes (.scset 5 6 0) ptrs (with_ ptrs fun h => { h with scale := { h.scale with scbase := -1, runs := [] } }) = true ∧
    (let s := reg ptrs 5 1; goes (.scset 5 6 0) s (with_ s fun h => { h with scale := { h.scale with elbase := -1, runs := [] } })) = true ∧
    (let s := reg (reg ptrs 5 2) 6 63; goes (.scset 5 6 0) s (with_ s fun h => { h with scale := { h.scale with shift := 63, runs := [] } })) = true ∧
    goes (.scset 7 6 0) ptrs (with_ ptrs fun h => { h with scale := { h.scale with bandbase := -1, runs := [] } }) = true ∧
    goes (.scfl 0) ptrs (with_ ptrs fun h => { h with scale := { h.scale with runs := [] } }) = true ∧
    (let s := with_ ptrs fun h => { h with dec := { h.dec with queue := [⟨0, 0, 0, 0, 1, 0, .cb4, 0, 0, none, 0, 0, none, false⟩] } }
     s.me.scaleBusy && waitsB (.scfl 0) s && waitsB (.scset 5 6 0) s) = true ∧
    trapsB (.scset 5 6 0) (reg ptrs 5 4) 1 = true ∧ trapsB (.scset 5 6 0) (reg (reg ptrs 5 2) 6 64) 1 = true ∧
    goes (.chconst 7 6 0) ptrs (with_ ptrs fun h => { h with chain := { h.chain with k := h.chain.k.set 3 0xFFFFFFFF } }) = true ∧
    trapsB (.chconst 5 6 0) (reg ptrs 5 4) 1 = true := by decide +kernel

/-- A tile of one row of four f32; the headgate bound to plot 0 for a feed and a drain; step word 0 in s12, base in s11. -/
def tshp : BitVec 256 := BitVec.ofNat 256 (4 * 2 ^ 64 + 2 ^ 80 + 2 ^ 228)
def tileB (kind : Nat) : State := with_ (recAt (sluiced 0 0 true 0) 0) fun h => { h.setSh 1 tshp with bound := some ⟨0, 0, 0, kind⟩ }

/-- A table slot that decodes e4m3 symbols; a WDEC descriptor of one tile of it for the lanes. -/
def withTable (s : State) : State := with_ s fun h => { h with dec := { h.dec with t0 := { valid := true, tabid := 9, logAlpha := 8, entries := [] } } }
def wdecRec : Nat := 2 ^ 160 + 3 * 2 ^ 208
def wdecB : State := withTable (with_ (recAt ptrs wdecRec) fun h => { h with bound := some ⟨0, 0, 0, 0⟩ })

theorem witness_TileAndDecodeCommandsPerform :
    (([0, 2] : List Nat).all fun kind =>
      let s := tileB kind
      let y : SlReg := if kind = 2 then 3 else 0
      okWith s.tstepBinding (fun e => e.kind == kind) &&
      okWith (s.tstepOk (tileOps s 1 11) y 11 0) (fun _ => true) &&
        goes (.tstep 1 y 11 511) s (s.setMe (tileQueued s.me kind (tileCmd s.me (tileOps s 1 11) y 511 none))) &&
      okWith (s.tstepOk (tileOpsV s 1 6) y 0 6) (fun _ => true) &&
        goes (.tstepV 1 y 6 1) s (s.setMe (tileQueued s.me kind (tileCmd s.me (tileOpsV s 1 6) y 1 (some (s.getV 6)))))) = true ∧
    (let s := tileB 2
     let f := with_ s fun h => { h with feed := { h.feed with queue := List.replicate 8 ⟨0, 0, 0, none, 0, 0, 1, 0, 0⟩ } }
     waitsB (.tstep 1 3 11 1) f && waitsB (.tstepV 1 3 6 1) f) = true ∧
    trapsB (.tstep 1 3 11 1) ptrs 1 = true ∧ trapsB (.tstepV 1 3 6 1) ptrs 1 = true := by decide +kernel

/-! A table image: its record is read whole, and 4,096 zero entries are accepted. -/

/-- The bytes behind every listed one read as zero. -/
theorem readN_behind (T : State) (hu : T.mod.undef = []) (lo : Nat) (hm : ∀ e ∈ T.mem, e.1 < lo) (n : Nat) :
    ∀ a, lo ≤ a → T.readN a n = 0 := by
  have get0 : ∀ (l : List Host.Cell), (∀ e ∈ l, e.1 < lo) → ∀ a, lo ≤ a → memGet l a = 0 := by
    intro l
    induction l with
    | nil => intro _ a _; rfl
    | cons e t ih =>
      intro h a ha
      have h1 := h e (by simp)
      obtain ⟨k, v⟩ := e
      simp only [memGet]
      rw [if_neg (by simp only at h1; omega)]
      exact ih (fun e he => h e (by simp [he])) a ha
  induction n with
  | zero => intro a _; rfl
  | succ n ih =>
    intro a ha
    simp [State.readN, State.byte, hu, undefMask, get0 T.mem hm a ha, ih (a + 1) (by omega)]

/-- A load in a core bank that has just been accessed, by a waiter that asks no arbiter, leaves the state as it is. -/
theorem loadVia_again {T : State} {w n a cl k : Nat} {p : Word} (hr : T.resolve w p n .load = .ok (.home a)) (hd : isDram a = false)
    (hw : portNo w false = none) (hp : T.mod.poison = []) (hb : T.bankOfAddr a = some (cl, k)) (hk : k < 272) (ht : T.touchBank cl k = T) :
    T.loadVia w p n false = .ok (T, T.readN a n) := by
  have h1 : T.homeReady w (space p) a n false = .ok () := by simp [State.homeReady, hd]
  have h2 : T.turnAt w (space p) a false false = .ok T := by simp [State.turnAt, hw]
  have h3 : T.touchAs (space p) a w false = T := by simp [State.touchAs, hb, hk, ht]
  have h4 : T.homeRead a n = .ok (T.readN a n) := by simp [State.homeRead, State.poisoned, hp]
  have h5 : T.loadAt w (space p) a n false = .ok (T, T.readN a n) := by
    simp [State.loadAt, State.l1Serves, hd, h3, h4, bind, Except.bind]
  simp [State.loadVia, hr, h1, h2, h5, bind, Except.bind]

/-- Loads of zero bytes in such a bank. -/
theorem readChunks_again {T : State} {w cl k lo : Nat} (l : List (Word × Nat)) (hw : portNo w false = none) (hp : T.mod.poison = [])
    (hu : T.mod.undef = []) (hm : ∀ e ∈ T.mem, e.1 < lo) (hk : k < 272) (ht : T.touchBank cl k = T)
    (hl : (l.all fun e => match T.resolve w e.1 e.2 .load with
      | .ok (.home a) => decide (lo ≤ a) && !isDram a && decide (T.bankOfAddr a = some (cl, k))
      | _ => false) = true) : T.readChunks w l = .ok (T, 0) := by
  induction l with
  | nil => rfl
  | cons e t ih =>
    obtain ⟨p, c⟩ := e
    simp only [List.all_cons, Bool.and_eq_true] at hl
    have h2 := ih hl.2
    have h1 := hl.1
    split at h1
    · next a hr =>
      simp only [Bool.and_eq_true, decide_eq_true_eq, Bool.not_eq_true'] at h1
      have := loadVia_again hr h1.1.2 hw hp h1.2 hk ht
      simp [State.readChunks, this, h2, bind, Except.bind, readN_behind T hu lo hm c a h1.1.1]
    · cases h1

/-- A scratchpad whose word 64 begins a table image of zero entries, its bank accessed in this cycle. -/
def tabB (x : Nat) : State := (ptrs.writeN (bankAddr 0 16 64) 64 x).touchBank 0 16

/-- The image's first 64 bytes: LOGSIZE 12, LOGALPHA 8, TABID 7, its CRC; with LOGSIZE 11. -/
def tabHead (logSize : Nat) : Nat := logSize + 8 * 2 ^ 8 + 7 * 2 ^ 16 + 2489584517 * 2 ^ 32

/-- The loads behind the image's first. -/
def tabRest : List (Word × Nat) := (List.range 256).map fun i => (scratch0 + BitVec.ofNat 64 (128 + 64 * i), 64)

theorem tabB_reads (x : Nat) (hx : x = tabHead 12 ∨ x = tabHead 11) : (tabB x).readRec 0 ((tabB x).getS 9) 16448 = .ok (tabB x, x) := by
  have hc : chunks 16448 (scratch0 + 64) 16448 = (scratch0 + 64, 64) :: tabRest := by decide +kernel
  have key : (tabB x).readChunks 0 tabRest = .ok (tabB x, 0) := by
    rcases hx with rfl | rfl <;>
      exact readChunks_again (cl := 0) (k := 16) (lo := bankAddr 0 16 128) _ (by decide) (by decide +kernel) (by decide +kernel) (by decide +kernel)
        (by decide) (by decide +kernel) (by decide +kernel)
  have first : (tabB x).loadVia 0 (scratch0 + 64) 64 false = .ok (tabB x, x) := by
    have e : (tabB x).readN (bankAddr 0 16 64) 64 = x := by rcases hx with rfl | rfl <;> decide +kernel
    have := loadVia_again (T := tabB x) (w := 0) (n := 64) (a := bankAddr 0 16 64) (cl := 0) (k := 16) (p := scratch0 + 64)
      (by rcases hx with rfl | rfl <;> decide +kernel) (by decide +kernel) (by decide) (by rcases hx with rfl | rfl <;> decide +kernel)
      (by rcases hx with rfl | rfl <;> decide +kernel) (by decide) (by rcases hx with rfl | rfl <;> decide +kernel)
    rw [e] at this; exact this
  have hs : (tabB x).getS 9 = scratch0 + 64 := by rcases hx with rfl | rfl <;> decide +kernel
  have hf : ((tabB x).clusters.all fun e => e.2.eff == 0) = true := by rcases hx with rfl | rfl <;> decide +kernel
  rw [hs]
  have hr : (tabB x).readChunks 0 (chunks 16448 (scratch0 + 64) 16448) = .ok (tabB x, x) := by
    rw [hc]; simp only [State.readChunks, first, key, bind, Except.bind, Nat.mul_zero, Nat.add_zero]
  simp only [State.readRec, State.blockReady, hf, hr, bind, Except.bind, if_true]

theorem unpack_zero (w n : Nat) : unpack 0 w n = List.replicate n 0 := by
  induction n with
  | zero => rfl
  | succ n ih => simp [unpack, ih, List.replicate_succ]

/-- A function applied n times, each result in full before the next. -/
def iterate (f : Nat → Nat) : Nat → Nat → Nat
  | 0, c => c
  | n + 1, c => match f c with
    | 0 => iterate f n 0
    | m + 1 => iterate f n (m + 1)

theorem iterate_succ (f : Nat → Nat) (n c : Nat) : iterate f (n + 1) c = iterate f n (f c) := by
  rw [iterate]; split <;> simp_all

theorem iterate_add (f : Nat → Nat) (a b : Nat) : ∀ c, iterate f (a + b) c = iterate f b (iterate f a c) := by
  induction a with
  | zero => intro c; rw [Nat.zero_add]; rfl
  | succ a ih => intro c; rw [Nat.add_right_comm, iterate_succ, ih, iterate_succ]

theorem iterate_chain {f : Nat → Nat} {a b n c m d : Nat} (hn : n = a + b) (h1 : iterate f a c = m) (h2 : iterate f b m = d) :
    iterate f n c = d := by
  subst hn; subst h1; subst h2; exact iterate_add f a b c

theorem foldl_zeros (f : Nat → Nat) (n : Nat) : ∀ c, (List.replicate n 0).foldl (fun c b => f (c ^^^ b)) c = iterate f n c := by
  induction n with
  | zero => intro c; rfl
  | succ n ih => intro c; rw [iterate_succ, List.replicate_succ, List.foldl_cons, Nat.xor_zero, ih]

theorem crc_zeros : crc32c (List.replicate 16384 0) = 2489584517 := by
  have h0 : iterate (crcShift 8) 1024 4294967295 = 290529667 := by decide +kernel
  have h1 : iterate (crcShift 8) 1024 290529667 = 1534491824 := by decide +kernel
  have h2 : iterate (crcShift 8) 1024 1534491824 = 3746741852 := by decide +kernel
  have h3 : iterate (crcShift 8) 1024 3746741852 = 1728495222 := by decide +kernel
  have h4 : iterate (crcShift 8) 1024 1728495222 = 3366762805 := by decide +kernel
  have h5 : iterate (crcShift 8) 1024 3366762805 = 3318291390 := by decide +kernel
  have h6 : iterate (crcShift 8) 1024 3318291390 = 3552788178 := by decide +kernel
  have h7 : iterate (crcShift 8) 1024 3552788178 = 1874573788 := by decide +kernel
  have h8 : iterate (crcShift 8) 1024 1874573788 = 1147909611 := by decide +kernel
  have h9 : iterate (crcShift 8) 1024 1147909611 = 2497596638 := by decide +kernel
  have h10 : iterate (crcShift 8) 1024 2497596638 = 2344551053 := by decide +kernel
  have h11 : iterate (crcShift 8) 1024 2344551053 = 3736331674 := by decide +kernel
  have h12 : iterate (crcShift 8) 1024 3736331674 = 1709450701 := by decide +kernel
  have h13 : iterate (crcShift 8) 1024 1709450701 = 3486842968 := by decide +kernel
  have h14 : iterate (crcShift 8) 1024 3486842968 = 2385738443 := by decide +kernel
  have h15 : iterate (crcShift 8) 1024 2385738443 = 1805382778 := by decide +kernel
  have h := iterate_chain (n := 16384) (a := 1024) (b := 15360) (by norm_num) h0
    (iterate_chain (a := 1024) (b := 14336) (by norm_num) h1
    (iterate_chain (a := 1024) (b := 13312) (by norm_num) h2
    (iterate_chain (a := 1024) (b := 12288) (by norm_num) h3
    (iterate_chain (a := 1024) (b := 11264) (by norm_num) h4
    (iterate_chain (a := 1024) (b := 10240) (by norm_num) h5
    (iterate_chain (a := 1024) (b := 9216) (by norm_num) h6
    (iterate_chain (a := 1024) (b := 8192) (by norm_num) h7
    (iterate_chain (a := 1024) (b := 7168) (by norm_num) h8
    (iterate_chain (a := 1024) (b := 6144) (by norm_num) h9
    (iterate_chain (a := 1024) (b := 5120) (by norm_num) h10
    (iterate_chain (a := 1024) (b := 4096) (by norm_num) h11
    (iterate_chain (a := 1024) (b := 3072) (by norm_num) h12
    (iterate_chain (a := 1024) (b := 2048) (by norm_num) h13
    (iterate_chain (a := 1024) (b := 1024) (by norm_num) h14
    h15))))))))))))))
  have e : crcBytes 0xFFFFFFFF (List.replicate 16384 0) = 1805382778 := (foldl_zeros (crcShift 8) 16384 _).trans h
  rw [crc32c, e]
  rfl

/-- An image of 4,096 zero entries is accepted with LOGSIZE 12, and not with 11. -/
theorem tabSlots : (tableSlot (tabHead 12)).valid = true ∧ (tableSlot (tabHead 11)).valid = false := by
  have h0 : tabHead 12 / 2 ^ 512 = 0 := by decide +kernel
  have h1 : (List.replicate 4096 0).all (tableEntryOk 8) = true := by
    rw [List.all_replicate]; decide +kernel
  constructor
  · simp only [tableSlot, h0, unpack_zero, crc_zeros]
    have h2 : bits (tabHead 12) 8 8 = 8 := by decide +kernel
    have h3 : (bits (tabHead 12) 0 8 == 12 && (bits (tabHead 12) 8 8 == 4 || bits (tabHead 12) 8 8 == 8) && bits (tabHead 12) 64 448 == 0 &&
      2489584517 == bits (tabHead 12) 32 32) = true := by decide +kernel
    rw [h2] at h3 ⊢
    simp only [h3, h1, Bool.and_self, if_true]
  · simp only [tableSlot]
    have h3 : (bits (tabHead 11) 0 8 == 12) = false := by decide +kernel
    simp [h3]

/-- An accepted image, and a refused one. -/
theorem witness_TableImages (n : Nat) (hn : n = 12 ∨ n = 11) :
    (tabB (tabHead n)).readRec 0 ((tabB (tabHead n)).getS 9) 16448 = .ok (tabB (tabHead n), tabHead n) ∧
    codedSpace ((tabB (tabHead n)).getS 9) = true ∧ (tabB (tabHead n)).me.dec.queue = [] ∧ (tableSlot (tabHead n)).valid = decide (n = 12) := by
  refine ⟨tabB_reads _ (by rcases hn with rfl | rfl <;> simp), ?_, ?_, ?_⟩ <;> rcases hn with rfl | rfl
  · decide +kernel
  · decide +kernel
  · decide +kernel
  · decide +kernel
  · simp [tabSlots.1]
  · simp [tabSlots.2]

theorem witness_DecodeCommandsPerform :
    (let s := with_ ptrs fun h => { h with dec := { h.dec with queue := [⟨0, 0, 0, 0, 1, 0, .cb4, 0, 0, none, 0, 0, none, false⟩] } }
     waitsB (.wtbl 9 0 0) s) = true ∧ trapsB (.wtbl 9 7 0) ptrs 1 = true ∧
    trapsB (.wtbl 12 0 0) (reg ptrs 12 0xF000000000000000) 2 = true ∧ trapsB (.wtbl 12 0 0) (reg ptrs 12 0xE000000000000000) 3 = true ∧
    codedSpace (ptrs.getS 9) = true ∧
    (match wdecB.performWdec { va := wdecB.getS 11, fmode := 0, g := wdecB.me.g } with
     | .ok t => goes (.wdec 11 0) wdecB t && decide (t.me.dec.seek = none) && decide (t.me.dec.queue.length = 1)
     | .error _ => false) = true ∧
    trapsB (.wdec 11 0) (recAt ptrs 0) 1 = true ∧
    (let s := reg ptrs 12 0x1FFF
     goes (.wseek 12 0) s (with_ s fun h => { h with dec := { h.dec with seek := some (0, 0, 8191) } })) = true ∧
    trapsB (.wseek 12 0) (reg ptrs 12 0x2000) 1 = true ∧ goes (.wdqry 5 12 0) ptrs (ptrs.setS 5 0) = true ∧
    (let s := reg (withTable ptrs) 12 1; goes (.wdqry 5 12 0) s (s.setS 5 512)) = true ∧ trapsB (.wdqry 5 7 0) ptrs 1 = true := by decide +kernel

/-- One held instruction of each group, with its operand checks passed. -/
def heldOnes : List (Instr × State) :=
  [(.st 6 8 0 .b8 .port false, ptrs), (.stv 6 8 0 .b64 .partition true, ptrs), (.shld 1 8, ptrs), (.shst 1 8, ptrs), (.xform 0 0, ptrs),
   (.strm 1 2 0 9, strmB 0), (.strmq 0 9, ptrs), (.cbload 8, ptrs), (.tstep 1 3 11 1, tileB 2), (.tstepV 1 3 6 1, tileB 2)] ++
  [(.wtbl 8 0 0, ptrs), (.wdec 8 0, ptrs), (.wseek 0 0, ptrs), (.wdqry 5 0 0, ptrs), (.scset 7 6 0, ptrs), (.scfl 0, ptrs), (.chain 11 12 0, chainB 5),
   (.chconst 7 6 0, ptrs)]

theorem witness_HeldInstructionsJoinTheirBank : (heldOnes.all fun e =>
    let s := with_ e.2 fun h => { h with forked := true }
    let full := with_ s fun h => { h with bank0 := List.replicate 32 ⟨.nop, {}, 0⟩, qb := false }
    match heldForm e.1 with
    | some (g, f, _, steps) => s.getP g && goes e.1 s (with_ s fun h =>
        let h := { h with bank0 := [⟨e.1, f s, s.me.pc⟩] }
        if steps then { h with g := (drawG h.g).1 } else h) && trapsB e.1 full 1
    | none => false) = true := by decide +kernel

/-! ## Witnesses: the management space, launches and graphs -/

/-- An event of the root monitor's write, or of another agent's, at a register of a region. -/
def mgmtAt (region body : Nat) : Word := BitVec.ofNat 64 (15 * 2 ^ 60 + region * 2 ^ 56 + body)
def evAt (s : State) (sub region body : Nat) (v : Word := 0) : State := { s with inp := { sub, idx := 8, addr := mgmtAt region body, val := v } }
def rootEv (s : State) (region body : Nat) (v : Word := 0) : State := evAt s 6 region body v
def done_ (t : State) (data : Nat := 0) : State := completes t false data
def denied_ (t : State) : State := completes t true 0

/-- One event of each register, with the region, the bits and the value that it is for. -/
def registerEvents : List (Instr × Nat × Nat × Word) :=
  [(.semFree, 0, 0x2F8, 0), (.partitionEnable, 1, 0, 0), (.pcmdResume, 1, 0x10, 1), (.pcmdHalt, 1, 0x10, 2), (.pcmdSwitch, 1, 0x10, 3),
   (.pstopbaseWrite, 1, 0x30, 0), (.pringbaseWrite, 1, 0x38, 0), (.pringctlWrite, 1, 0x40, 6), (.pringrdWrite, 1, 0x50, 0),
   (.ctxCreate, 0, 0x17FE0, 1), (.ctxDestroy, 0, 0x10000, 0), (.xinvCtx, 0, 0x10, 0x4000000000000000), (.xinvPage, 0, 0x10, 0x8000000000000000),
   (.xinvAll, 0, 0x10, 0xC000000000000000)] ++
  [(.retcmdTest, 0, 0x28, 0x4000000000000000), (.retcmdRetire, 0, 0x28, 0x8000000000000000), (.retcmdCellbad, 0, 0x28, 0xC000000000000000),
   (.tskctlWrite, 3, 0x20, 1), (.ttbaseWrite, 3, 0x28, 0x4000FFFF00000000), (.routeTableWrite, 6, 0x10 * 2 ^ 40 + 0x2F8, 0), (.bpcClassWrite, 2, 0x1C0, 0),
   (.clQreqWrite, 2, 0, 1), (.clSwallowReqWrite, 2, 0x10, 1), (.clRailReqWrite, 2, 0x18, 0), (.clWakeWrite, 2, 0x20, 0)] ++
  [(.rmcDoorbell, 6, 2 * 2 ^ 40, 0), (.dbgctlHaltall, 6, 7 * 2 ^ 40, 1), (.dbgctlResumeall, 6, 7 * 2 ^ 40, 2), (.registerWrite, 1, 0x18, 5)]

/-- The write of an event is acknowledged as the access does; from a headgate's agent, of another space or of another register, and without
the right, it does nothing or is DENIED. -/
theorem witness_AgentsReachTheManagementSpace :
    (registerEvents.all fun (i, r, b, v) =>
      let s := rootEv base r b v
      let f := if i = .registerWrite then some plainRegister else writesRegister i
      (match f with | some f => f s.inp.addr.toNat v.toNat | none => false) &&
      (match s.mgmtWrite .root (agentWaiter .root) s.inp.addr 8 v.toNat with | .ok t => to_ i s (done_ t) | .error _ => false) &&
      (let u := evAt base 0 r b v; faultWith (u.mgmtWrite .portA (agentWaiter .portA) u.inp.addr 8 v.toNat) 6 && to_ i u (denied_ u)) &&
      (let u := evAt base 3 r b v; to_ i u u) &&
      (let u := { rootEv base r b v with inp := { (rootEv base r b v).inp with addr := mgmtAt r b - 0x1000000000000000 } }; to_ i u u) &&
      (let u := rootEv base 1 0x98 4; i == .registerWrite || to_ i u u)) = true ∧
    (let s := rootEv base 0 0x100
     (match s.mgmtRead .root (agentWaiter .root) s.inp.addr 8 .load with
       | .ok (t, v) => to_ .semRead s (done_ t v) && to_ .mread s (done_ t v)
       | .error _ => false)) = true ∧
    (let s := rootEv base 3 0x40
     decide (s.live 0 = true ∧ (s.core 0).kmfifo = []) && to_ .kmfifoRead s (done_ s 0)) = true ∧
    (let s := (rootEv base 3 0x40).modCore 0 fun k => { k with kmfifo := [7 + 2 ^ 128], kmpos := 2 }
     to_ .kmfifoRead s (done_ (s.modCore 0 fun k => { k with kmpos := 3 }) 1)) = true ∧
    (let s := rootEv base 1 0x18 9
     (match s.mgmtWrite .root (agentWaiter .root) s.inp.addr 8 9 with | .ok t => to_ .mwrite s (done_ t) | .error _ => false)) = true ∧
    (let s := { base.modCluster 0 (fun c => { c with banks := SMap.set c.banks 272 { cls := 1 } }) with inp := { sub := 6, idx := 64, addr := mgmtAt 5 64, data := [1, 2, 3] } }
     hostSizeOk s.inp.addr 64 &&
     (match s.mgmtWrite .root (agentWaiter .root) s.inp.addr 64 (pack 8 s.inp.data % 256 ^ 64) with
      | .ok t => to_ .mwrite s (done_ t) && t.byte 66 == 3
      | .error _ => false)) = true ∧
    (let s := { rootEv base 1 0 with inp := { (rootEv base 1 0).inp with idx := 3 } }
     !hostSizeOk s.inp.addr 3 && to_ .mread s (denied_ s) && to_ .mwrite s (denied_ s)) = true := by decide +kernel

/-- Port A may load and store the semaphores. -/
def semB (x : Word) (v : Word) : State := evAt (base.modMod fun m => { m with
  caps := [(0, capEntry 1 0 (2 ^ 56 - 1) true true)], sems := m.sems.set 63 x }) 0 0 0x2F8 v

theorem witness_Semaphores :
    (semB 0 0).mgmtAllowed .portA (mgmtAt 0 0x2F8).toNat .load = true ∧ (semB 0 0).mgmtAllowed .portA (mgmtAt 0 0x2F8).toNat .store = true ∧
    (semB 0 0).inTurn (.sem 63) 1 = true ∧
    to_ .semRead (semB 0 0) (done_ (((semB 0 0).noteTurn (.sem 63) 1).modMod fun m => { m with sems := m.sems.set 63 0x101 }) 0) = true ∧
    to_ .semRead (semB 0x101 0) (done_ ((semB 0x101 0).noteTurn (.sem 63) 1) 0x101) = true ∧
    (let s := (semB 0 0).noteTurn (.sem 63) 3; !s.inTurn (.sem 63) 1 && to_ .semRead s s) = true ∧
    to_ .semFree (semB 0x101 0) (done_ ((semB 0x101 0).modMod fun m => { m with sems := m.sems.set 63 0 })) = true ∧
    to_ .semFree (semB 0x201 0) (done_ (semB 0x201 0)) = true := by decide +kernel

/-- Partition 5, disabled; enabled; halted. -/
def p5 (off : Nat) (v : Word) (f : Part → Part := id) : State := rootEv (base.modPart 5 f) 1 (5 * 2 ^ 40 + off) v

theorem witness_PartitionRegistersTakeEffect :
    (let s := p5 0 0; to_ .partitionEnable s (done_ (s.modPart 5 fun q => { q with nrect := 0 }))) = true ∧
    (let s := p5 0 3 fun q => { q with rects := q.rects.set 0 0x0001000100010001 }
     let u := s.modPart 5 fun q => { q with nrect := 1 }
     if u.enableOk 5 then
       let w := u.modPart 5 fun q => { q with en := true, cores := u.coresOfRects (u.part 5).rectList, waysNow := q.ways }
       to_ .partitionEnable s (done_ (((w.lclusters 5).foldl (fun s cl => s.l2Leave cl fun y => decide (y < (s.part 5).waysNow)) w).modMod
         fun m => { m with placegen := 1 }))
     else to_ .partitionEnable s (done_ (u.modPart 5 fun q => { q with err := true }))) = true ∧
    (let s := p5 0 1
     let u := s.modPart 5 fun q => { q with nrect := 0 }
     !u.enableOk 5 && to_ .partitionEnable s (done_ (u.modPart 5 fun q => { q with err := true }))) = true ∧
    (let s := p5 0 1 fun q => { q with en := true }; to_ .partitionEnable s (done_ s)) = true ∧
    (let s := p5 0 0 fun q => { q with en := true, cores := [9] }
     to_ .partitionEnable s (done_ ((s.modPart 5 fun q => { q with en := false, cores := [] }).modMod fun m => { m with placegen := 1 }))) = true ∧
    (let s := rootEv (with_ (base.modPart 0 fun q => { q with halted := true, done := true }) fun h => { h with stopped := true }) 1 0x10 1
     after .pcmdResume s fun t => !(t.part 0).halted && !(t.part 0).done && !(t.hg 0).stopped && (t.hg 0).pc == scratch0) = true ∧
    (let s := p5 0x10 1; to_ .pcmdResume s (done_ s)) = true ∧
    (let s := p5 0x10 2; to_ .pcmdHalt s (done_ (s.modPart 5 fun q => { q with halted := true, done := false, haltWt := s.wt }))) = true ∧
    (let s := p5 0x10 2 fun q => { q with halted := true }; to_ .pcmdHalt s (done_ s)) = true ∧
    (let s := p5 0x10 3 fun q => { q with sv := true, shadow := 1023 }
     to_ .pcmdSwitch s (done_ (s.modPart 5 fun q => { q with preq := q.preq ++ [2047] }))) = true ∧
    (let s := p5 0x10 3; to_ .pcmdSwitch s (done_ s)) = true ∧
    (let s := p5 0x30 0xF500000000000040
     s.areaOk 0xF500000000000040 (32768 + 1024 * 4032) && to_ .pstopbaseWrite s (done_ (s.modPart 5 fun q => { q with stopbase := 0xF500000000000040 }))) = true ∧
    (let s := p5 0x30 0xF500000000000041; to_ .pstopbaseWrite s (done_ s)) = true ∧
    (let s := p5 0x38 0xF500000000000040
     s.areaOk 0xF500000000000040 (64 * 2 ^ 6) && to_ .pringbaseWrite s (done_ ((s.modPart 5 fun q =>
       { q with ringbase := 0xF500000000000040, wr := 0, rd := 0, ovf := false }).flushPending 5))) = true ∧
    (let s := p5 0x38 1; to_ .pringbaseWrite s (done_ s)) = true ∧
    (([6, 16] : List Nat).all fun n =>
      let s := p5 0x40 (BitVec.ofNat 64 (n + 64))
      to_ .pringctlWrite s (done_ (((s.modPart 5 fun q => { q with compat := true }).modPart 5 fun q =>
        { q with logsize := n, wr := 0, rd := 0, ovf := false }).flushPending 5))) = true ∧
    (let s := p5 0x40 (17 + 128) fun q => { q with ovf := true }
     to_ .pringctlWrite s (done_ ((s.modPart 5 fun q => { q with ovf := false }).flushPending 5))) = true ∧
    (let s := p5 0x50 1 fun q => { q with wr := 1, rd := 0xFFFFFFFF }
     to_ .pringrdWrite s (done_ ((s.modPart 5 fun q => { q with rd := 1 }).flushPending 5))) = true ∧
    (let s := p5 0x50 2 fun q => { q with wr := 1, rd := 0xFFFFFFFF }; to_ .pringrdWrite s (done_ s)) = true := by decide +kernel

/-- Context 1023's first descriptor word is written while the context is in a state. -/
def ctxB (st : Nat) (v : Word) : State := rootEv (base.modCtx 1023 fun c => { c with state := st }) 0 0x17FE0 v
def joinA : Joined := { waiter := 0, va := 65536, d := [7] }
def walkB : State := { base.modCluster 2 fun c => { c with walks := [⟨0, 65536, [joinA]⟩] } with inp := { unit := 2 } }

theorem witness_ContextsTranslationsAndRoutesFollowTheirRegisters :
    (([0, 1, 2, 3, 4] : List Nat).all fun st =>
      let s := ctxB st (1 + 2 ^ 33 + 5 * 2 ^ 34)
      let d := fun (c : Ctx) => { c with part := 5, sys := true }
      let t := ctxB st (2 ^ 33 + 5 * 2 ^ 34)
      (if st = 0 then to_ .ctxCreate s (done_ (s.setCtx 1023 { d (s.ctx 1023) with state := 1, saved := { placement := [] }, parked := false, tokens := newTokens [] }))
       else if st = 1 then to_ .ctxCreate s (done_ (s.setCtx 1023 (d (s.ctx 1023)))) else to_ .ctxCreate s (done_ s)) &&
      (if st = 1 then to_ .ctxDestroy t (done_ (t.setCtx 1023 { d (t.ctx 1023) with state := 0, saved := {}, parked := false, tokens := [] }))
       else if st = 0 then to_ .ctxDestroy t (done_ (t.setCtx 1023 (d (t.ctx 1023)))) else to_ .ctxDestroy t (done_ t))) = true ∧
    (([(.xinvCtx, 1), (.xinvPage, 2), (.xinvAll, 3)] : List (Instr × Nat)).all fun (i, op) =>
      let s := rootEv (base.modCluster 9 fun c => { c with tlb := [⟨0, 0, 65536, 0, true, true, true⟩, ⟨1, 65536, 65536, 0, true, true, true⟩] }) 0 0x10
        (BitVec.ofNat 64 (op * 2 ^ 62))
      after i s (fun t => t.mod.xinvBusy && (t.cluster 9).tlb.length == (if op = 3 then 0 else 1)) &&
      (let b := s.modMod fun m => { m with xinvBusy := true }; to_ i b (done_ (b.modMod fun m => { m with xinvLost := true })))) = true ∧
    to_ .xinvComplete base base = true ∧ after .xinvComplete (base.modMod fun m => { m with xinvBusy := true }) (fun t => !t.mod.xinvBusy) = true ∧
    to_ .translationWalkDone { base with inp := { unit := 2 } } { base with inp := { unit := 2 } } = true ∧
    (match walkB.walk 2 0 65536 with
     | (t, .fail c) => to_ .translationWalkDone walkB
         ((((t.modCluster 2 fun c => { c with walks := [] }).record 0 0 8 0 c 0xFFFF 0 [65536, 0, 0]).haltLine 0).walkFailed c joinA)
     | _ => false) = true ∧ okWith (base.flushReady (walkWaiter 512) (base.cores.map (·.1))) (fun _ => true) = true ∧
    okWith ((base.modCore 0 fun k => { k with tskctl := 0xFF00FF }).tasksReady 0) (fun _ => true) = true ∧
    okWith ((base.modCore 0 fun k => { k with ttbase := 0x4000FFFF00000020 }).tasksReady 0) (fun _ => true) = true ∧
    (let s := rootEv base 3 0x20 0xFFFFFFFF
     to_ .tskctlWrite s (done_ ((s.modCore 0 fun k => { k with tskctl := 0xFF00FF }).copyTasks 0))) = true ∧
    (let s := rootEv base 3 0x28 0x4000FFFF00000020
     to_ .ttbaseWrite s (done_ ((s.modCore 0 fun k => { k with ttbase := 0x4000FFFF00000020 }).copyTasks 0))) = true ∧
    (let s := rootEv base 3 0x28 0x4000FFFF00000010; to_ .ttbaseWrite s (denied_ s)) = true ∧
    (let s := rootEv base 6 (0x10 * 2 ^ 40 + 0x2F8) 7
     to_ .routeTableWrite s (done_ (s.modCore 0 fun k => { k with routes := k.routes.set 3 ((k.routes.get 3).set 15 7) }))) = true ∧
    (let s := rootEv base 6 (0x10 * 2 ^ 40 + 0x100) 0xFFFFFFFFF
     match s.rteRefusal 0 0xFFFFFFFFF with
     | some r => to_ .routeTableWrite s (done_ (s.modCore 0 fun k => { k with rtstat := BitVec.ofNat 64 (r * 2 + 1) }))
     | none => false) = true := by decide +kernel

/-- A leaf at the second level of a translation, and the same with its tables' bank asleep. -/
def leafB : State := (((walkB.modCtx 0 fun c => { c with xroot := 0x1000 }).writeN 0x1000 8 0x2001).writeN 0x2000 8 0x1F)

theorem witness_Walks :
    (match leafB.walk 2 0 65536 with
     | (t, .leaf e) => to_ .translationWalkDone leafB ((t.modCluster 2 fun c => { c with walks := [] }).modCluster 2 fun c => c.cacheLeaf e)
     | _ => false) = true ∧
    (let s := leafB.modCluster 0 fun c => { c with banks := SMap.set c.banks 272 { c.bank 272 with state := 1 } }
     match s.walk 2 0 65536 with
     | (t, .wait w) => to_ .translationWalkDone s (t.startWait (walkWaiter 2) w)
     | _ => false) = true := by decide +kernel

/-- The dispatcher runs; port A's command word waits; the record it names is in a state. -/
def portB_ (v : Word) (f : State → State := id) : State := f (base.modMod fun m => { m with bootstat := 5, portA := { m.portA with dcmd := some v } })
def cmdWord (op rest : Nat) : Word := BitVec.ofNat 64 (op * 2 ^ 60 + rest)
def inState (r st : Nat) (s : State) : State := s.modLaunch r fun l => { l with state := st }
def acc_ (i : Instr) (s t : State) (result : Nat) : Bool := to_ i s (t.accept 0 result)

/-- A record image of one node for context 0. -/
def image1 : Vector Word 16 := (Vector.replicate 16 0).set 1 1

theorem witness_DispatcherCommandsAndLaunches :
    (portB_ (cmdWord 1 4095)).mayAccept 0 = true ∧ to_ .hostBuild base base = true ∧
    (([.hostBuild, .hostLaunch, .hostCancel, .hostClear, .hostTeardown] : List Instr).all fun i =>
      acc_ i (portB_ (cmdWord 6 0)) (portB_ (cmdWord 6 0)) 1 && acc_ i (portB_ (cmdWord 1 0x1000)) (portB_ (cmdWord 1 0x1000)) 1 &&
      (let s := (portB_ (cmdWord 6 0)).modMod fun m => { m with bootstat := 4 }; to_ i s s)) = true ∧
    (([2, 3] : List Nat).all fun st => let s := portB_ (cmdWord 1 4095) (inState 4095 st); acc_ .hostBuild s s 2) = true ∧
    (let s := (portB_ (cmdWord 1 4095)).modMod fun m => { m with portA := { m.portA with lstage := image1 } }
     s.imageOk image1 && acc_ .hostBuild s (s.setLaunch 4095 { s.launch 4095 with words := image1, state := 1, count := 0, code := 0, port := 0 }) 0) = true ∧
    acc_ .hostBuild (portB_ (cmdWord 1 4095)) (portB_ (cmdWord 1 4095)) 3 = true ∧
    (let s := (portB_ (cmdWord 1 4095)).modMod fun m => { m with portA := { m.portA with lstage := image1.set 1 0x3FF000000000001 } }
     shapeOk (image1.set 1 0x3FF000000000001) && acc_ .hostBuild s s 4) = true ∧
    (([1, 4, 5] : List Nat).all fun st => let s := portB_ (cmdWord 2 7) (inState 7 st)
      acc_ .hostLaunch s ((s.setLaunch 7 { s.launch 7 with state := 2, via := 0, order := s.mod.armSeq, accepted := true, armedWt := s.wt }).modMod fun m =>
        { m with armSeq := m.armSeq + 1 }) 0 &&
      (let s := portB_ (cmdWord 4 7) (inState 7 st); acc_ .hostClear s (s.setLaunch 7 { s.launch 7 with state := 0 }) 0) &&
      (let s := portB_ (cmdWord 3 7) (inState 7 st); acc_ .hostCancel s s 2)) = true ∧
    (([0, 2, 3] : List Nat).all fun st => (let s := portB_ (cmdWord 2 7) (inState 7 st); acc_ .hostLaunch s s 2) &&
      (let s := portB_ (cmdWord 4 7) (inState 7 st); acc_ .hostClear s s 2)) = true ∧
    (([2, 3] : List Nat).all fun st => let s := portB_ (cmdWord 3 7) (inState 7 st)
      match s.endLaunch 7 5 2 with
      | .ok t => acc_ .hostCancel s t 0 && (t.launch 7).state == 5
      | .error _ => false) = true ∧
    (let s := portB_ (cmdWord 5 0)
     match s.tearDown 0 with
     | .ok t => acc_ .hostTeardown s t 0 && (t.ctx 0).state == 0 && (t.ctx 0).tokens.isEmpty
     | .error _ => false) = true ∧
    (let s := portB_ (cmdWord 5 (1023 * 2 ^ 32)); acc_ .hostTeardown s s 4) = true ∧
    (let s := inState 9 2 (base.modMod fun m => { m with bootstat := 5, dcmds := [(9, 0)] })
     to_ .deviceLaunch s ((s.modMod fun m => { m with dcmds := [] }).setLaunch 9 { s.launch 9 with accepted := true })) = true ∧
    (let s := base.modMod fun m => { m with bootstat := 5, dcmds := [(9, 0)] }
     to_ .deviceLaunch s (s.modMod fun m => { m with dcmds := [] })) = true := by decide +kernel

/-- A record of the active context is armed and accepted. -/
def readyB (owner : Nat) : State := ((base.modMod fun m => { m with bootstat := 5 }).modCtx 1 fun c => { c with state := 1 }).modLaunch 9 fun l =>
  { l with state := 2, accepted := true, words := image1.set 1 (BitVec.ofNat 64 (owner * 2 ^ 48 + 1)) }

theorem witness_LaunchDispatch :
    (let s := readyB 0
     match s.bestCand 0 (s.cands 0) with
     | some c => decide (c.rec_ = some 9 ∧ c.ctx = 0) && s.imageOk (s.launch 9).words && !s.preemptWaits && decide (s.runningOf 0 = none) &&
         to_ .launchDispatch s (((((s.part 0).cores.foldl (fun s k => s.selfInval k) s).modPart 0 fun q =>
           { q with served := SMap.set q.served c.level c.ctx }).modLaunch 9 fun l => { l with state := 3, runWt := s.wt }).modPart 0 fun q =>
           { q with walker := .at_ 9 0, iters := [], load := none })
     | none => false) = true ∧
    (let s := readyB 1
     match s.bestCand 0 (s.cands 0) with
     | some c => decide (c.rec_ = some 9 ∧ c.ctx = 1) && to_ .launchDispatch s (s.modPart 0 fun q => { q with preq := [1] })
     | none => false) = true ∧
    (let s := base.modMod fun m => { m with bootstat := 5 }
     decide (s.cands 0 = []) && to_ .launchDispatch s s) = true := by decide +kernel

/-- Partition 0's walker stands at node 1 of record 3, of four nodes at 0x1000; context 0's first page is mapped to itself, with x as
node 1 and the condition word w at 0x2000. -/
def graphB (x w : Nat) : State :=
  let s := (base.modCluster 0 fun c => { c with tlb := [⟨0, 0, 65536, 0, true, true, true⟩], banks := SMap.set c.banks 272 { cls := 1 } }).modPart 0 fun q =>
    { q with walker := .at_ 3 1 }
  let s := s.modLaunch 3 fun l => { l with state := 3, words := (l.words.set 0 0x1000).set 1 4 }
  (s.writeN 0x1040 64 x).writeN 0x2000 8 w

/-- Nodes: COND, WHILE, HOLD on the word at 0x2000 with mask 6 and value 2, next 2, other 3, at most one turn; ARM of record 5; LOAD of
headgate E of logical core 0. -/
def node (kind : Nat) (alt iter : Nat) : Nat := kind + 2 * 2 ^ 16 + alt * 2 ^ 32 + iter * 2 ^ 48 + 0x2000 * 2 ^ 64 + 6 * 2 ^ 128 + 2 * 2 ^ 192
def nodeArm : Nat := 5 + 2 * 2 ^ 16 + 5 * 2 ^ 64
def nodeLoad : Nat := 1 + 2 * 2 ^ 16 + 1 * 2 ^ 144 + 2 * 2 ^ 160 + scratch0.toNat * 2 ^ 320

/-- The walker reads node 1 of graphB, and the state after the read satisfies a test. -/
def readsNode (s : State) (x : Nat) (f : State → Bool) : Bool :=
  s.walkerOn 0 && decide (1 < (s.launch 3).nnodes) && nodeOk x (s.launch 3).nnodes (s.part 0).cores.length &&
  match s.loadVia (s.walkerW 0) (padd (s.launch 3).graph (64 * 1 : Nat)) 64 true with
  | .ok (t, y) => y == x && f t
  | .error _ => false

/-- And then its condition word. -/
def readsCond (s : State) (x : Nat) (f : State → Nat → Bool) : Bool := readsNode s x fun t =>
  match t.loadVia (t.walkerW 0) 0x2000 8 true with
  | .ok (u, w) => f u w
  | .error _ => false

theorem witness_GraphNodesDoWhatTheirKindsSay :
    (let s := graphB 0 0
     readsNode s 0 fun t => match t.endLaunch 3 4 0 with | .ok u => to_ .graphNodeEnd s u && (u.launch 3).state == 4 | .error _ => false) = true ∧
    (([3, 5] : List Nat).all fun w => let s := graphB (node 2 3 0) w
      readsCond s (node 2 3 0) fun u v => v == w && to_ .graphNodeCond s (goesTo u 0 3 (if w = 3 then 2 else 3))) = true ∧
    (let s := graphB (node 3 3 1) 3
     readsCond s (node 3 3 1) fun u _ => to_ .graphNodeWhile s (goesTo (u.modPart 0 fun q => { q with iters := [(1, 1)] }) 0 3 2)) = true ∧
    (let s := graphB (node 3 3 1) 5; readsCond s (node 3 3 1) fun u _ => to_ .graphNodeWhile s (goesTo u 0 3 3)) = true ∧
    (let s := (graphB (node 3 3 1) 3).modPart 0 fun q => { q with iters := [(1, 1)] }
     readsCond s (node 3 3 1) fun u _ => match u.endLaunch 3 5 5 with | .ok v => to_ .graphNodeWhile s v | .error _ => false) = true ∧
    (let s := graphB (node 4 0 0) 3; readsCond s (node 4 0 0) fun u _ => to_ .graphNodeHold s (goesTo u 0 3 2)) = true ∧
    (let s := graphB (node 4 0 0) 5
     readsCond s (node 4 0 0) fun u _ => to_ .graphNodeHold s (u.modPart 0 fun q => { q with walker := .holding 3 1 u.wt (node 4 0 0) })) = true ∧
    (let s := inState 5 1 (graphB nodeArm 0)
     readsNode s nodeArm fun t => match t.armRecord 5 (some (t.launch 3).owner) with | .ok u => to_ .graphNodeArm s (goesTo u 0 3 2) | .error _ => false) = true ∧
    (let s := graphB nodeArm 0
     readsNode s nodeArm fun t => match t.armRecord 5 (some (t.launch 3).owner), t.endLaunch 3 5 6 with
       | .error _, .ok u => to_ .graphNodeArm s u
       | _, _ => false) = true ∧
    (let s := graphB nodeLoad 0
     readsNode s nodeLoad fun t => (t.loadCores 0 nodeLoad).all (fun c => !t.quiescing (clusterOf c)) &&
       match (t.pendingRoles 0).loadTasks 0 3 nodeLoad with
       | .ok u => to_ .graphNodeLoad s (u.startLoad 0 3 1 nodeLoad)
       | .error _ => false) = true ∧
    (let s := (graphB nodeLoad 0).modCluster 0 fun c => { c with ctl := 1 }
     readsNode s nodeLoad fun t => (t.loadCores 0 nodeLoad).any (fun c => t.quiescing (clusterOf c)) && to_ .graphNodeLoad s s) = true ∧
    (let s := graphB nodeLoad 0
     let k := (s.startLoad 0 3 1 nodeLoad).hg 1
     decide (s.loadCores 0 nodeLoad = [0] ∧ k.run = .program ∧ k.pc = scratch0 ∧ k.getS 1 = BitVec.ofNat 64 (3 * 2 ^ 16 + 1)) && s.isFree 1) = true := by
  decide +kernel

theorem witness_NodesThatAreBadOrPast :
    (let s := (graphB 0 0).modPart 0 fun q => { q with walker := .at_ 3 4 }
     match s.endLaunch 3 5 4 with | .ok u => to_ .graphNodeEnd s u && to_ .graphNodeHold s u | .error _ => false) = true ∧
    (let s := graphB 9 0
     match s.loadVia (s.walkerW 0) (padd (s.launch 3).graph (64 * 1 : Nat)) 64 true with
     | .ok (t, x) => !nodeOk x 4 1 && (match t.endLaunch 3 5 4 with | .ok u => to_ .graphNodeCond s u | .error _ => false)
     | .error _ => false) = true ∧
    (let s := (graphB 0 0).modPart 0 fun q => { q with halted := true }; !s.walkerOn 0 && !s.notifyLost 3 && to_ .graphNodeEnd s s) = true ∧
    (let s := { (graphB 0 3).modPart 0 fun q => { q with walker := .holding 3 1 400 (node 4 0 0) } with wt := 2000 }
     match s.loadVia (s.walkerW 0) 0x2000 8 true with
     | .ok (u, _) => to_ .holdNodeReread s (goesTo u 0 3 2)
     | .error _ => false) = true ∧
    (let s := { (graphB 0 3).modPart 0 fun q => { q with walker := .holding 3 1 400 (node 4 0 0) } with wt := 1999 }; to_ .holdNodeReread s s) = true ∧
    (let s := with_ ((graphB 0 0).modPart 0 fun q => { q with walker := .loading 3 1 2, load := some (0, 1, 1) }) fun h => { h with run := .idle }
     s.loadEnded 0 && okWith (s.loadBoundaryAt 0) fun u => to_ .loadEnd s (goesTo (u.modPart 0 fun q => { q with load := none }) 0 3 2)) = true ∧
    (let s := (graphB 0 0).modPart 0 fun q => { q with walker := .loading 3 1 2, load := some (0, 1, 1) }
     !s.loadEnded 0 && to_ .loadEnd s s) = true := by decide +kernel

/-! ## Witnesses: switches, halts, tasks, plots, engines -/

/-- Partition 0 with a switch to context 1, which is bound to it. -/
def ev0 (s : State) (unit : Nat) (idx sub : Nat := 0) : State := { s with inp := { unit, idx, sub } }
def swB (sw : Switch) (f : Part → Part := id) : State :=
  (ev0 (base.modMod fun m => { m with bootstat := 5 }) 0).modPart 0 fun q => f { q with sw, sv := true, shadow := 1 }
def ctx1 (st p : Nat) (s : State) : State := s.modCtx 1 fun c => { c with state := st, part := p }

theorem witness_SwitchesHaltsAndTasks :
    (let s := ctx1 1 0 (swB .none fun q => { q with preq := [1025, 3] })
     after .preemptRequest s fun t => decide ((t.part 0).sw = .requested 1 0 16000 false ∧ (t.part 0).preq = [3]) && (t.part 0).switch && (t.ctx 1).state == 2) = true ∧
    (([ctx1 2 0, ctx1 1 7] : List (State → State)).all fun f =>
      let s := f (swB .none fun q => { q with preq := [1] })
      to_ .preemptRequest s (s.modPart 0 fun q => { q with preq := [] })) = true ∧
    (let s := swB (.requested 1 4 9 false)
     let l := { s with wt := 10 }
     to_ .yieldDeadline l (l.beginFlip 0 1) && to_ .yieldDeadline { s with wt := 9 } { s with wt := 9 }) = true ∧
    (let s := swB (.requested 1 4 9 true)
     to_ .cooperativeStop s (s.beginFlip 0 1) && to_ .cooperativeTimeout { s with wt := 14 } ({ s with wt := 14 }.beginFlip 0 1) &&
       to_ .cooperativeTimeout { s with wt := 13 } { s with wt := 13 } &&
       decide (((s.beginFlip 0 1).part 0).sw = .flip 1 s.wt ∧ ((s.beginFlip 0 1).ctx 0).state = 4)) = true ∧
    (let s := swB (.requested 1 4 9 true) fun q => { q with plots := [(7, q1 .running)] }; to_ .cooperativeStop s s) = true ∧
    (let s := ctx1 2 0 (swB (.flip 1 0))
     match s.flip 0 1 with
     | .ok t => to_ .contextFlip s t && decide ((t.part 0).sw = .none ∧ (t.part 0).restoring = some (1, s.outgoing 0))
     | .error _ => false) = true ∧
    (let s := ctx1 2 0 (swB (.flip 1 0) fun q => { q with restoring := some (0, none) }); to_ .contextFlip s s) = true ∧
    (let s := (ctx1 3 0 (swB .none fun q => { q with active := 1, switch := true, restoring := some (1, some 0) })).modCore 0 fun k => { k with unrestored := [16] }
     okWith (s.spillRestore 0 1 (some 0) 0) fun t => to_ .bankSpillRestore s (t.endSwitch 0 1 (some 0)) && (t.core 0).unrestored.isEmpty &&
       (let u := (t.endSwitch 0 1 (some 0)).part 0; decide (u.restoring = none) && !u.switch)) = true ∧
    (let s := (ev0 base 0).modPart 0 fun q => { q with halted := true }
     after .haltLineArrival s (fun t => (t.core 0).halted && (t.core 0).haltWt == s.wt && (List.range 4).all fun h => (t.hg h).stopped) &&
     (let u := s.modCore 0 fun k => { k with halted := true }
      to_ .haltLineArrival u u && to_ .stopRecordsDone u ((u.writeStops 0).modPart 0 fun q => { q with done := true }) && decide (u.writeStops 0 = u))) = true ∧
    to_ .haltLineArrival base base = true := by decide +kernel

/-- A task of type 0 for headgate E waits in queue 5 of core 0; its entry point stands in its table entry. -/
def taskEntryB : Nat := 2 * 2 ^ 28 + scratch0.toNat * 2 ^ 192
def taskB (entry : Nat) : State := (ev0 base 0).modCore 0 fun k => { k with
  tskctl := 0x010020, table := [.entry (BitVec.ofNat 256 entry)], queues := k.queues.set 5 [{ msgA with header := 0x10000 }] }

theorem witness_Tasks :
    to_ .taskSchedulerCycle (ev0 base 0) (ev0 base 0) = true ∧
    (let s := taskB taskEntryB
     let m : Msg := { msgA with header := 0x10000 }
     decide ((s.core 0).ttcount = 1 ∧ (s.core 0).heads = [(5, m)] ∧ (s.core 0).taskFault 0 = none ∧ s.taskHg 0 taskEntryB = some 1) && s.taskPasses 0 taskEntryB &&
     !s.quiescing 0 && to_ .taskSchedulerCycle s (((s.wakeNamed 0 taskEntryB).modCore 0 fun k => { k with taskReady := 32 }).startTask 0 5 1 m taskEntryB) &&
     (let k := (s.startTask 0 5 1 m taskEntryB).hg 1
      decide (k.pc = scratch0 ∧ k.startAt = s.cycleOf 0 + 2 ∧ k.getS 1 = m.header ∧ k.getS 2 = 0x100000007 ∧ k.getS 3 = 5 ∧ k.getV 0 = 5 ∧ k.loops = []))) = true ∧
    (let s := taskB (taskEntryB - 2 * 2 ^ 28 + 2 ^ 28)
     !s.taskPasses 0 (taskEntryB - 2 * 2 ^ 28 + 2 ^ 28) && decide ((s.core 0).taskFault 0 = none) &&
     to_ .taskSchedulerCycle s ((s.wakeNamed 0 0).modCore 0 fun k => { k with taskReady := 0 })) = true ∧
    (let s := taskB 0
     match (s.core 0).taskFault 0 with
     | some c => to_ .taskSchedulerCycle s ((((s.modCore 0 fun k => { k with taskReady := 0 }).modCore 0 fun k => k.setQueue 5 []).record 0 0 6 0 c 0xFFFF 0 [5, 0]).haltLine 0)
     | none => false) = true := by decide +kernel

/-- The slot PASS of a source code, driven west, with a hold class and a mark. -/
def passSlot (src cls mark : Nat) : Nat := 2 ^ 32 * (0x1B * 2 ^ 26 + 14 * 2 ^ 22 + src * 2 ^ 17 + cls * 2 ^ 4 + mark * 2 ^ 3) + 6 * 2 ^ 64

/-- Plot 7 runs one cell with a slot; the event names it. -/
def runB (slot : Nat) (q : Plot := q1 .running) : State := ev0 ((plotIn q).modCell 0 fun c => { c with slots := [(0, slot)] }) 0 7

/-- The row that is due, as PLOT_ROW_ATTEMPT sees it. -/
def rowOf (s : State) (q : Plot) := s.rowHolders 0 q (q.cells.map fun e => s.runCell 0 7 q (s.plotCycle q) e.1 e.2) (s.plotCycle q)

theorem witness_PlotRows :
    (let s := runB (passSlot 0 0 1)
     match s.plot? 0 7 with
     | some q => let x := rowOf s q
       decide (rowDue s q ∧ x.1 = [] ∧ x.2.2.2.mismatch = none) && to_ .plotRowAttempt s (s.doRow 0 7 q (s.plotCycle q) x.2.1 x.2.2.1 x.2.2.2)
     | none => false) = true ∧
    (let s := runB (passSlot 30 1 0)
     match s.plot? 0 7 with
     | some q => let x := rowOf s q
       decide (rowDue s q ∧ x.1 ≠ []) && to_ .plotRowAttempt s (s.holdRow 0 7 (s.plotCycle q) x.1 x.2.2.2.faults)
     | none => false) = true ∧
    (let q : Plot := { q1 .running with redun := true, binds := [(3, 0, 1, 1)] }
     let s := (runB (passSlot 0 0 0) q).modCell (q.cellAt 1 0) fun c => { c with slots := [(0, passSlot 0 0 0)], regs := { c.regs with c := c.regs.c.set 0 9 } }
     match (rowOf s q).2.2.2.mismatch with
     | some (j, lane) => decide (rowDue s q ∧ (rowOf s q).1 = []) && to_ .plotRowAttempt s (s.redunFault 0 7 q j lane)
     | none => false) = true ∧
    (let s := runB 0 { q1 .running with next := 5 }; to_ .plotRowAttempt s s) = true ∧
    to_ .plotRowAttempt (ev0 base 0 7) (ev0 base 0 7) = true ∧ to_ .markCommit (ev0 base 0 7) (ev0 base 0 7) = true ∧
    (let m : PendMark := ⟨3, 0, [], 0, false, [], [], [], [], []⟩
     let q : Plot := { q1 .running with pend := [m] }
     (let s := runB 0 q; to_ .markCommit s ((s.commitMark 0 7 q).endPredecessor 0 7)) &&
     (let s := runB 0 { q with pend := [{ m with ready := 9 }] }; to_ .markCommit s s)) = true ∧
    (let s := runB 0; to_ .markCommit s s && to_ .timingLimit s s && to_ .plotRelease s s) = true ∧
    (let q : Plot := { q1 .running with held := 65 }
     let s := runB (passSlot 30 1 0) q
     s.plotOn q && s.pastLimit q && to_ .timingLimit s (s.timing 0 7 q)) = true ∧
    (let q : Plot := { q1 .running with waiting := true, waits := [.unexplained] }
     let s := runB 0 q
     to_ .plotRelease s (s.setPlot 0 7 { q with waiting := false, waits := [], held := 0, next := s.plotCycle q + 4 })) = true := by decide +kernel

/-- A sector of the L1, held by bank 0, with a dirty mask. -/
def sectorA (dirty : Nat) : Sector := ⟨0, 5, 0xFF, dirty, 0⟩

/-- Engines with no work: nothing happens. Engines with work: one step. -/
theorem witness_EnginesAdvance :
    (([.tstepFeedPresent, .streamNodeRead, .streamNodeWriteWalk, .streamNodeFire, .chainFire, .decoderSegmentDecode, .decoderWordDeliver, .scaleCacheFill,
       .l1SectorAgeWriteback] : List Instr).all fun i => to_ i base base) = true ∧
    (let s := with_ (strmB 0) fun h => { h with node0 := { h.node0 with queue := [queued (strmB 0)] } }
     s.engineOn 0 &&
     (s.me.node 0).rdRate.room (s.hgCycle 0) 32 &&
     (match s.loadElem (waiterOf 0 1) shp .f32 0 with
      | .ok (t, v) => to_ .streamNodeRead s ((t.nodeTake 0 0 [v]).modHg 0 fun h => h.modNode 0 fun y =>
          { y.modCmd (fun d => if strmIn (queued (strmB 0)).desc then { d with xoff := d.xoff + 1 } else d) with
            rdRate := y.rdRate.move (s.hgCycle 0) 32 })
      | .error _ => false)) = true ∧
    (let s := with_ (strmB 0) fun h => { h with node0 := { h.node0 with queue := [{ queued (strmB 0) with staged := [5, 6], rd := 2 }] } }
     (match s.storeElem (waiterOf 0 1) shp .f32 0 5 with
      | .ok t => to_ .streamNodeWriteWalk s ((t.modHg 0 fun h => h.modNode 0 fun y =>
          { y.modCmd StreamCmd.wrote with wrRate := y.wrRate.move (s.hgCycle 0) 32 }).nodeEnd 0 0) && (s.me.node 0).wrRate.room (s.hgCycle 0) 32
      | .error _ => false)) = true ∧
    (let c : StreamCmd := { queued (strmB 0) with desc := 0x3303 }
     let s := with_ (strmB 0) fun h => { h with node1 := { h.node1 with queue := [c] } }
     (!strmIn c.desc || to_ .streamNodeFire (ev0 s 0 0 1) ((ev0 s 0 0 1).nodeFireIn 0 1 c)) &&
       (!strmOut c.desc || to_ .streamNodeFire (ev0 s 0 1 1) ((ev0 s 0 1 1).nodeFireOut 0 1 c)) && (strmIn c.desc || strmOut c.desc)) = true ∧
    (let c : ChainCmd := { slots := BitVec.ofNat 256 chainRec, desc := chainDesc 1, left := 1, fmode := 0, g := 0, k := [] }
     let s := with_ (sluiced 6 0 true 0) fun h => { h with chain := { h.chain with queue := [c] } }
     (match s.chainStep 0 c with | .ok t => to_ .chainFire s t && decide (t ≠ s) | .error _ => false)) = true ∧
    (let s := with_ ptrs fun h => { h with scale := { h.scale with misses := [(scratch0, 1)] } }
     (match s.loadVia (waiterOf 0 1) scratch0 16 false with
      | .ok (t, v) => to_ .scaleCacheFill s (with_ t fun h => { h with scale := { h.scale with misses := [], runs := [(0, scratch0, v)] } })
      | .error _ => false)) = true ∧
    (let s := { base.modCore 0 fun k => { k with l1 := [(0, sectorA 1)] } with wt := 16384 }
     to_ .l1SectorAgeWriteback s (s.l1WriteBack 0 0 [0]) && decide (s.cycleOf 0 = 16384) && okWith (s.sectorsReady 0 0 [0]) fun _ => true) = true ∧
    (let s := base.modCore 0 fun k => { k with l1 := [(0, sectorA 0)] }; to_ .l1SectorAgeWriteback s s) = true := by decide +kernel

/-- The decoder: a segment waits behind two buffers; delivery to lanes and to a weight store. -/
def decB (dest : Nat) (bufs : List SegBuf) : State := with_ ptrs fun h =>
  { h with
    bound := some ⟨0, 0, 0, 0⟩
    dec := { h.dec with started := true, bufs, queue := [⟨0, scratch0, scratch0, 0, 1, 0, .e4m3, dest, 0, none, 0, 0, none, false⟩] } }

theorem witness_Decoder :
    (let b : SegBuf := ⟨0, 0, 0, [], false, 0, 0, 0⟩
     (let s := decB 0 [b, b]; s.engineOn 0 && to_ .decoderSegmentDecode s s) &&
     (([0, 1] : List Nat).all fun d =>
       let s := decB d [b]
       match s.me.dec.queue with
       | c :: _ => !s.decBlocked 0 c && to_ .decoderWordDeliver s ((if d = 0 then s.deliverLanes 0 c else s.deliverStore 0 c).decFinish 0)
       | [] => false)) = true := by decide +kernel

/-! ## Witnesses: packets, time, other modules -/

/-- One packet on the mesh, at a place; event index 0. -/
def pkt (src dst : Nat) (place : PacketAt) : Packet := { cls := 2, src, seqr := 4 * src, dst, queue := 3, msg := { msgA with sent := 0 }, place }
def meshB (x : Packet) : State := ev0 { base.modMod fun m => { m with packets := [x] } with wt := 100 } 0
/-- The packet after its hop through output o of the router of c, which it entered at an input. -/
def hopped (s : State) (x : Packet) (c input o : Nat) : State :=
  putAt (s.modCore c fun k => { k with links := SMap.set k.links (8 * x.cls + o) (input, s.wt) })
    { x with place := nextHop c o, ready := s.wt + hopCycles c (nextHop c o), out := none }

theorem witness_PacketHops :
    (([(0, 1, 1), (0, 64, 0), (0, 0, 4), (65, 0, 3), (64, 0, 2)] : List (Nat × Nat × Nat)).all fun e =>
      let x := pkt e.1 e.2.1 .source
      let s := meshB x
      decide (s.takesOut e.1 4 x = some e.2.2 ∧ s.routeOut e.1 2 4 e.2.1 = some e.2.2 ∧ s.openOut e.1 e.2.2 = true ∧
        ((s.core e.1).link 2 e.2.2).2 ≠ some s.wt) && s.comesFirst 0 e.1 4 e.2.2 x && to_ .routerForward s (hopped s x e.1 4 e.2.2)) = true ∧
    (let x := { pkt 1 0 (.router 1 1) with ready := 101 }
     let s := meshB x
     to_ .routerForward s s) = true ∧
    (let x := pkt 0 1 .source
     let s := (meshB x).modCore 0 fun k => { k with links := [(17, (4, 100))] }
     decide (s.takesOut 0 4 x = some 1 ∧ ((s.core 0).link 2 1).2 = some s.wt) && to_ .routerForward s s) = true ∧
    (let x := pkt 0 1 .source
     let s := (meshB x).modMod fun m => { m with packets := [x, pkt 64 1 (.router 0 2)] }
     let u := { s with inp := { s.inp with idx := 1 } }
     !u.comesFirst 1 0 2 1 (pkt 64 1 (.router 0 2)) || !s.comesFirst 0 0 4 1 x) = true := by decide +kernel

theorem witness_PacketArrivals :
    (let x := pkt 1 0 (.router 65 2)
     let s := meshB x
     decide (s.takesOut 65 2 x = none) && to_ .routerForward s s) = true ∧
    (let s := meshB (pkt 1 0 .leaving)
     to_ .routerForward s s && to_ .packetDeliver s (putAt s { pkt 1 0 .leaving with place := .arrived, ready := 101 }) &&
       (let u := meshB { pkt 1 0 .leaving with ready := 101 }; to_ .packetDeliver u u) &&
       (([fun c => { c with cur := 0 }, fun c => { c with rail := 1 }] : List (Cluster → Cluster)).all fun f =>
         let u := s.modCluster 0 f
         let k := (putAt u { pkt 1 0 .leaving with knocked := true }).setKnock 0
         to_ .packetDeliver u k && to_ .packetDeliver k k)) = true ∧
    (let x := pkt 1 0 .arrived
     let s := meshB x
     to_ .queueMessageArrival s (((s.modCore 0 fun k => k.setQueue 3 (k.queue 3 ++ [{ x.msg with arrived := 100 }])).modMod fun m =>
       { m with packets := m.packets.eraseIdx 0 }).latchCore 0 0) &&
       (let u := s.modCore 0 fun k => k.setQueue 3 (List.replicate 64 msgA)
        to_ .queueMessageArrival u u)) = true ∧
    (let s := ev0 base 0; to_ .routerForward s s && to_ .packetDeliver s s && to_ .remoteAcknowledgement s s) = true ∧
    decide ((base.routeOut 65 0 4 0, base.routeOut 64 0 1 130, base.routeOut 64 0 4 0, base.routeOut 64 0 4 128, base.routeOut 64 0 4 64) =
      (some 3, some 1, some 2, some 0, some 4)) = true := by decide +kernel

/-- Entry 1 of partition 0's module table names context 1, which is known and whose tables map address 0x10000. -/
def domB (kind n : Nat) (data : List Nat) (addr : Word := 0x10000) : State :=
  let s := (leafB.modCtx 1 fun c => { c with state := 1, xroot := (leafB.ctx 0).xroot }).modMod fun m =>
    { m with domtab := SMap.set m.domtab (domKey 0 1) (BitVec.ofNat 64 (2 ^ 63 + 1)) }
  let s := s.modCluster 0 fun c => { c with banks := SMap.set c.banks 272 { cls := 1 } }
  { s with inp := { unit := 0, sub := 1, idx := kind, addr, val := BitVec.ofNat 64 n, data } }
def domGo (s : State) : Acc (State × Nat) :=
  s.remoteAccess 32785 1 s.inp.idx (bits s.inp.addr.toNat 0 48) s.inp.val.toNat (pack 8 s.inp.data)

theorem witness_TimeAndModules :
    (let s := ev0 { base.modMod fun m => { m with dtctl := 1600 + 2 ^ 32 } with wt := 3200 } 0
     to_ .domainWindowBoundary s (s.modMod fun m => { m with sync := m.syncNow }) && decide (3200 % s.mod.window = 0) &&
       (let u := { s with wt := 3201 }; to_ .domainWindowBoundary u u)) = true ∧
    (let s := { base.modMod fun m => { m with dtstat := 1 } with wt := 8192, inp := { val := 1 } }
     s.mod.locked && to_ .servoAdjust s { s with wt := 8193, turns := [] } &&
       (([{ s with wt := 8193 }, { s with inp := {} }, base] : List State).all fun u => to_ .servoAdjust u u)) = true ∧
    (let s := { base with inp := { idx := 25, val := 1 } }
     after .servoLockChange s fun u => u.mod.locked && u.mod.offb == 25) = true ∧
    (let s := { base with inp := { unit := 3, idx := 7, val := 1 } }
     let set := fun (v : Nat) => s.modMod fun m => { m with eth := SMap.set m.eth 3 (BitVec.ofNat 64 v) }
     to_ .ptpEvent s (set 2) && to_ .ethLinkEvent s (set (1 + 7 * 65536)) && to_ .ethFrameRetransmit s (set 16)) = true ∧
    (let s := domB 0 8 []
     match domGo s with
     | .ok (t, v) => to_ .remoteAccessArrival s (completes t false v) && bit (SMap.getD s.mod.domtab (domKey 0 1) 0).toNat 63 && s.known 1
     | .error _ => false) = true ∧
    (let s := domB 0 8 [] 0x10004
     match domGo s with
     | .error (.fault c _) => to_ .remoteAccessArrival s (completes s true c) && c == 4
     | _ => false) = true ∧
    (let s := { base with inp := { sub := 1 } }
     to_ .remoteAccessArrival s (completes s true 5)) = true := by decide +kernel

/-- A request to module 7, which a link of port 3 reaches. -/
def remB (blocking : Bool) (sub : Nat) : State :=
  let s := base.modMod fun m => { m with
    eth := [(3, 1 + 7 * 65536)], remotes := [⟨0, 7, 0, 64, 8, 0, 0, scratch0, blocking, none, false⟩] }
  { s with inp := { sub, val := 0x123 } }
def remDropped (s : State) : State := s.modMod fun m => { m with remotes := [] }

theorem witness_RemoteAcknowledgement :
    (let s := remB true 0
     s.mod.linked 7 && after .remoteAcknowledgement s fun t => decide ((t.mod.remotes.map (·.reply)) = [some 0x123])) = true ∧
    (let s := remB false 0
     to_ .remoteAcknowledgement s (remDropped s)) = true ∧
    (let s := remB true 5
     to_ .remoteAcknowledgement s ((remDropped s).trapAt 0 5 scratch0 s.me.pc 0 [])) = true ∧
    (let s := remB true 256
     to_ .remoteAcknowledgement s (s.modMod fun m => { m with remotes := m.remotes.map fun r => { r with passed := true } })) = true ∧
    (let s := remB true 7
     to_ .remoteAcknowledgement s s) = true ∧
    (let s := (remB true 5).modMod fun m => { m with remotes := m.remotes.map fun r => { r with passed := true } }
     to_ .remoteAcknowledgement s s) = true := by decide +kernel

/-! ## Witnesses: banks, budgets, clusters -/

/-- Bank n of cluster 0 at a WT, as an event's. -/
def bankB (n wt : Nat) (b : Bank) : State := { base.modCluster 0 fun c => { c with banks := SMap.set c.banks n b } with wt, inp := { idx := n } }

theorem witness_Banks :
    (([(16, 2, 64, 1), (16, 1, 1000000, 1), (272, 2, 10000, 2), (272, 1, 100000, 1)] : List (Nat × Nat × Nat × Nat)).all fun (n, cls, wt, low) =>
      let s := bankB n wt { cls }
      decide ((s.cluster 0).cycles wt = wt ∧ idleTarget (s.cluster 0).idle (s.demand 0) (floorOf cls) wt = low) && !s.phaseHolds 0 n && !s.unalloc 0 n &&
        to_ .bankIdleLower s (withBank s 0 n { cls, state := low, lowered := some wt })) = true ∧
    (let s := { bankB 272 1000000 { cls := 3 } with mem := [⟨5, 9⟩] }
     decide (s.bankOfAddr 5 = some (0, 272) ∧ s.leaveReady 0 272 = .ok ()) && after .bankIdleLower s fun t => ((t.cluster 0).bank 272).state == 3 && memGet t.mem 5 == 0) = true ∧
    (let s := bankB 16 63 { cls := 3 }; to_ .bankIdleLower s s) = true ∧
    (let s := bankB 16 100 { cls := 3, state := 3, wake := some 100 }
     to_ .bankWakeComplete s (withBank s 0 16 { cls := 3, last := 100, lost := true })) = true ∧
    (let s := bankB 16 99 { cls := 3, state := 3, wake := some 100 }; to_ .bankWakeComplete s s) = true ∧
    (let s := bankB 16 99 {}; to_ .bankWakeComplete s s) = true := by decide +kernel

/-- Partition 0 declares a phase: a HOT set and its time, applied at WT 5. -/
def phaseB (hot time : Nat) (n wt : Nat) (b : Bank) (f : Part → Part := id) : State := (bankB n wt b).modPart 0 fun q => f { q with
  bwphase := BitVec.ofNat 64 hot, bwphwt := BitVec.ofNat 64 time, bwSet := some 5 }

theorem witness_Phases :
    (let s := phaseB 0x10 50 16 20 { cls := 2, state := 1 } fun q => { q with bwDue := true }
     to_ .bwphApply s (s.applyPhase 0) && decide (((s.applyPhase 0).part 0).bwDue = false ∧ ((s.applyPhase 0).part 0).bwSet = some 20)) = true ∧
    (let s := phaseB 0x10 50 16 20 { cls := 2, state := 1 }
     to_ .bwphApply s s && (s.parts.any fun e => e.2.en && e.2.names e.2.hot 0 16) && to_ .bankPhaseWakeStart s (s.beginWake 0 16) && to_ .bwphPhaseTime s s) = true ∧
    (let s := phaseB 0 50 16 20 { cls := 2, state := 1 }; to_ .bankPhaseWakeStart s s) = true ∧
    (let s := phaseB 0x10 50 16 20 {}; s.unalloc 0 16 && to_ .bankPhaseWakeStart s s) = true ∧
    (let s := phaseB 0x0 50 16 60 { cls := 2, state := 1 }; decide (s.namedBanks 0 = []) && to_ .bwphPhaseTime s s) = true ∧
    (([(0, false), (1, false), (1, true)] : List (Nat × Bool)).all fun (state, short) =>
      let s := phaseB 0x10 50 16 60 { cls := 2, state } fun q => { q with short }
      decide (s.namedBanks 0 = [(0, 16)]) && to_ .bwphPhaseTime s (if state = 0 then s else if short then s.beginWake 0 16 else s.bankUp 0 16)) = true := by
  decide +kernel

theorem witness_BudgetsAndEnergy :
    (let s := rootEv base 2 0x1C0 0x2103
     (s.cluster 0).rail == 0 && (s.cluster 0).cur != 0 && bpcReg s.inp.addr.toNat &&
       to_ .bpcClassWrite s (completes ((List.range 16).foldl (fun s k => s.classWrite 0 (16 * 24 + k) (bits 0x2103 (4 * k) 2)) s) false 0)) = true ∧
    (let s := bankB 16 0 { state := 1 }; decide (s.classWrite 0 16 2 = withBank s 0 16 { state := 1, cls := 2 })) = true ∧
    (let x : Transfer := { seqr := 0, units := 10, got := 0 }
     let s := ev0 { base.modCluster 0 fun c => { c with budget := 0x0000040000000010, transfers := [x, x] } with wt := 1600 } 0
     after .budgetIntervalBoundary s (fun t => decide ((t.cluster 0).granted = (grantTransfers 16 0 [x, x]).1 ∧ (t.cluster 0).interval = 1024 ∧ (t.cluster 0).boundWt = some 1600)) &&
       (let u := { s with wt := 1601 }; to_ .budgetIntervalBoundary u u) &&
       (let u := s.modCluster 0 fun c => { c with boundWt := some 1600 }; to_ .budgetIntervalBoundary u u)) = true ∧
    (([some 1, none] : List (Option Nat)).all fun a =>
      let s := { base.modPart 0 fun q => { q with av := a.isSome, active := 1 } with wt := 3200, inp := { data := [1, 2, 0, 4] } }
      decide (s.activeCtx 0 = a) && after .energyInterval s fun t => decide (t.mod.ensys = if a.isNone then 7 else 3)) = true ∧
    (let s := { base with wt := 1, inp := { data := [1, 2, 0, 4] } }; to_ .energyInterval s s) = true := by decide +kernel

/-- The root monitor writes a register of cluster 9; an event of cluster 9. -/
def clReg (off : Nat) (v : Word) (f : Cluster → Cluster := id) : State := rootEv (base.modCluster 9 f) 2 (9 * 2 ^ 32 + off) v
def clEv (wt : Nat) (f : Cluster → Cluster) : State := ev0 { base.modCluster 9 f with wt } 9
def hot (n : Nat) (s : State) : State := s.modReticle (reticleOfCluster 9) fun r => { r with levels := r.levels.set! (n - 1) { on := true } }

theorem witness_ClusterRegisters :
    (let s := clReg 0 7; to_ .clQreqWrite s (completes (s.modCluster 9 fun c => { c with ctl := 3 }) false 0)) = true ∧
    (let s := clReg 0x10 0; to_ .clSwallowReqWrite s (completes (s.modCluster 9 fun c => { c with err := true, errcode := 1 }) false 0)) = true ∧
    (([clReg 0x10 0x5555, clReg 0x10 0 fun c => { c with ctl := 1 }, hot 2 (clReg 0x10 0xFFFF), clReg 0x10 0xFFFF] : List State).all fun s =>
      after .clSwallowReqWrite s fun t => decide ((t.cluster 9).req = bits s.inp.val.toNat 0 16 ∧ (t.cluster 9).cur = 0xFFFF ∧
        ((t.cluster 9).swpend = none ↔ 0xFFFF = (if s.thermal 9 2 then bits s.inp.val.toNat 0 16 &&& 0x5555 else bits s.inp.val.toNat 0 16)))) = true ∧
    (let s := clReg 0x18 0; to_ .clRailReqWrite s (completes s false 0)) = true ∧
    (let s := clReg 0x18 1; decide (s.railRefusal 9 1 = some 2) && to_ .clRailReqWrite s (completes (s.modCluster 9 fun c => { c with err := true, errcode := 2 }) false 0)) = true ∧
    (let s := clReg 0x18 1 fun c => { c with cur := 0 }
     decide (s.railRefusal 9 1 = none) && to_ .clRailReqWrite s (completes (s.modCluster 9 fun c => { c with railReq := 1, railTo := some 1 }) false 0)) = true ∧
    (let s := clReg 0x20 0xFF; to_ .clWakeWrite s (completes s false 0)) = true ∧
    (let s := clReg 0x20 0x1FFFF fun c => { c with railTo := some 1 }
     to_ .clWakeWrite s (completes (s.modCluster 9 fun c => { c with wakePat := some 0xFFFF, wakeBy := none }) false 0)) = true ∧
    (let s := clReg 0x20 0x1FFFF fun c => { c with railTo := some 0, wakePat := some 1 }
     to_ .clWakeWrite s (completes (s.modCluster 9 fun c => { c with wakePat := some 0xFFFF }) false 0)) = true ∧
    (let s := hot 3 (clReg 0x20 0x1FFFF)
     s.thermal 9 3 && to_ .clWakeWrite s (completes (s.modCluster 9 fun c => { c with err := true, errcode := 5, wakePat := none, wakeBy := none }) false 0)) = true ∧
    (let s := clReg 0x20 0x1FFFF fun c => { c with cur := 0 }
     !s.thermal 9 3 && to_ .clWakeWrite s (completes (s.wakeFinish 9 0xFFFF) false 0)) = true ∧
    (let s := clReg 0x20 0x1FFFF fun c => { c with cur := 0, rail := 1 }
     to_ .clWakeWrite s (completes (s.modCluster 9 fun c => { c with railReq := 0, railTo := some 0, railAt := s.wt, wakePat := some 0xFFFF, wakeBy := none }) false 0)) = true := by decide +kernel

theorem witness_ClusterEvents :
    (let s := clEv 16 fun c => { c with req := 0x5555, swpend := some 3 }
     (s.concerned 9).all (fun d => !s.inFlight d) && after .quiescePointChange s fun t => decide ((t.cluster 9).cur = 0x5555 ∧ (t.cluster 9).swpend = none)) = true ∧
    (let s := clEv 17 fun c => { c with req := 0x5555, swpend := some 3 }; to_ .quiescePointChange s s) = true ∧
    (let s := clEv 16 fun c => { c with req := 0x5555, swpend := some 3, rail := 1 }; !(s.cluster 9).changing && to_ .quiescePointChange s s) = true ∧
    (let s := clEv 16 id; to_ .quiescePointChange s s && to_ .swallowForceTimeout s s) = true ∧
    (let s := clEv 4099 fun c => { c with swpend := some 3 }; after .swallowForceTimeout s fun t => (t.cluster 9).forced) = true ∧
    (let s := clEv 4098 fun c => { c with swpend := some 3 }; to_ .swallowForceTimeout s s) = true ∧
    (let s := clEv 320 fun c => { c with railTo := some 1 }
     to_ .railTransitionDone s (s.modCluster 9 fun c => { c with rail := 1, railTo := none })) = true ∧
    (let s := clEv 319 fun c => { c with railTo := some 1 }; to_ .railTransitionDone s s) = true ∧
    (let s := clEv 800 fun c => { c with railTo := some 0, wakePat := some 0xFF, rail := 1 }; to_ .clusterWakeDone s (s.wakeFinish 9 0xFF)) = true ∧
    (let s := clEv 799 fun c => { c with railTo := some 0, wakePat := some 0xFF, rail := 1 }; to_ .clusterWakeDone s s) = true ∧
    (([({ ballastAt := some 101 }, 15), ({ ballastAt := some 3300 }, 0), ({ ballastFall := some (100, 16) }, 16), ({ ballastFall := some (0, 3) }, 3),
       ({}, 0)] : List (Cluster × Nat)).all fun e =>
      let s := clEv 100 fun _ => e.1
      decide (((s.cluster 9).ballastLevel 100) = e.2) && to_ .ballastStep s (s.modCluster 9 fun c => { c with ballast := e.2 })) = true ∧
    (let s := ev0 { base with wt := 1600 } 0
     to_ .thermalSample s (s.thermalSample 0 []) && (let u := { s with wt := 1 }; to_ .thermalSample u u)) = true ∧
    decide ((({} : SensorLevel).sample 0xAA 0xAA 5).on = true ∧ (({} : SensorLevel).sample 0xA9 0xAA 5).on = false ∧
      ((SensorLevel.mk true 0 999).sample 0xA6 0xAA 3200000).on = false ∧ ((SensorLevel.mk true 0 998).sample 0xA6 0xAA 3200000).on = true) = true := by
  decide +kernel

/-- The transitions to and from OFF, which the last clauses of the rail events are about: their hypotheses hold. -/
theorem witness_RailOff :
    (let s := clEv 0 fun c => { c with railTo := some 2 }
     (s.cluster 9).railTo = some 2 ∧ (s.cluster 9).wakePat = none ∧ s.offReady 9 = .ok ()) := by decide +kernel

theorem witness_RailBack :
    let s := clEv 0 fun c => { c with railTo := some 0, wakePat := some 5, rail := 2 }
    ((s.cluster 9).railTo = some 0 ∧ (s.cluster 9).wakePat = some 5 ∧ (s.cluster 9).rail = 2) ∧ ∃ t, s.readRetention 9 = .ok t := by
  intro s
  have h : s.awake (s.areaBanks (s.cluster 9).retsave.toNat 4096) = .ok () := by decide +kernel
  refine ⟨by decide +kernel, (List.range 64).foldl (fun s i => s.touch ((clEv 0 fun c => { c with railTo := some 0, wakePat := some 5, rail := 2 }).cluster 9 |>.retsave.toNat |> (· + 64 * i))) s |>.restoreRetention 9 (s.readN (s.cluster 9).retsave.toNat 4096), ?_⟩
  simp only [State.readRetention, h, bind, Except.bind]
  rfl

/-! ## Witnesses: boot, mailbox, RMCs, health, debug -/

def bootB (stage : Nat) : State := base.modMod fun m => { m with bootstat := BitVec.ofNat 64 stage }
def mailB (op arg : Nat) (data : List Word := []) (f : Module → Module := id) : State := (bootB 2).modMod fun m =>
  f { m with mbstat := 1, mbcmd := BitVec.ofNat 64 (op * 2 ^ 56 + arg), mbdata := data }
def mailEndsB (i : Instr) (s t : State) (r : Nat) : Bool := to_ i s (t.modMod fun m => { m with mbstat := (m.mbstat &&& 2#64) ||| BitVec.ofNat 64 (r * 256) })
def mailOps : List (Instr × Nat) := [(.mbBoot, 1), (.mbAttest, 2), (.mbPubkey, 3), (.mbManifest, 4), (.mbInstall, 5), (.mbCmap, 6)]

theorem witness_Boot :
    (([0, 1] : List Nat).all fun port =>
      let s := { base with inp := { unit := port, val := 0x1FF } }
      after .hostPortTraining s fun t => decide ((if port = 0 then t.mod.portA else t.mod.portB).mods = 0xFF)) = true ∧
    (mailOps.all fun (i, op) => to_ i base base &&
      (([mailB 0 0, mailB 7 0, mailB 1 (2 ^ 40)] : List State).all fun s => mailEndsB i s s 1) &&
      (let s := mailB (op % 6 + 1) 0; to_ i s s)) = true ∧
    (let s := (mailB 1 0).modMod fun m => { m with bootstat := 4 }; mailEndsB .mbBoot s s 1) = true ∧
    (let s := { mailB 1 0 with mem := [⟨8, 1⟩] }
     after .mbBoot s fun t => bits t.mod.bootstat.toNat 0 8 == 2 && bits t.mod.mbstat.toNat 8 8 == 1) = true ∧
    mailReady (mailB 2 0) 2 ∧
    (let s := mailB 3 7 [1, 2]; mailEndsB .mbPubkey s (s.modMod fun m => { m with pubkeys := SMap.set m.pubkeys 7 (2 ^ 65 + 1) }) 0) = true ∧
    (let s := mailB 3 8; mailEndsB .mbPubkey s s 1) = true ∧
    (let s := mailB 4 0 [0xF500000000000000]; mailEndsB .mbManifest s s 1 && decide ((s.manifest).2 = 1 ∧ (s.manifest).1 = s)) = true ∧
    (let s := mailB 5 0; mailEndsB .mbInstall s s 4 && decide (s.mod.manifest = none ∧ bits (s.mod.mbNum 0 4) 64 8 ≤ 2)) = true ∧
    (let s := mailB 6 2 [0xF500000000000000 + 3 * 2 ^ 21, 2 ^ 63] fun m => { m with cmap := [9] }
     after .mbCmap s fun t => decide (t.mod.cmap = [3, 4, 9]) && t.mod.mbstat == 0) = true ∧
    (let s := mailB 6 1 [0xF400000000000000]; mailEndsB .mbCmap s s 5) = true := by decide +kernel

/-- RMC 0 of the module, halted or not; with a fault or a wake pending. -/
def rmcAt (halted : Bool) (f : Rmc → Rmc) : State :=
  (base.modReticle 0 fun r => { r with rmc := f r.rmc }).modHg 16384 fun h => if halted then { h with run := .idle, wait := .halt } else { h with run := .program }
def bell (s : State) : State := rootEv s 6 (2 * 2 ^ 40)

theorem witness_Rmcs :
    (let s := rmcAt true fun m => { m with wakepend := true }
     after .rmcWake s fun t => decide ((t.hg 16384).run = .program) && !(t.reticle 0).rmc.wakepend) = true ∧
    (([rmcAt true id, rmcAt true fun m => { m with wakepend := true, fault := true }, rmcAt false fun m => { m with wakepend := true }] : List State).all fun s =>
      to_ .rmcWake s s) = true ∧
    (let s := bell (rmcAt true id); after .rmcDoorbell s fun t => decide ((t.hg 16384).run = .program ∧ (t.hg 16384).wait = .none)) = true ∧
    (let s := bell (rmcAt false id); after .rmcDoorbell s fun t => (t.reticle 0).rmc.wakepend) = true ∧
    (let s := bell (rmcAt true fun m => { m with fault := true, pc := 64 })
     after .rmcDoorbell s fun t => !(t.reticle 0).rmc.fault && decide ((t.hg 16384).pc = 64 ∧ (t.hg 16384).run = .program)) = true := by decide +kernel

/-- The root monitor writes RETCMD: an operation on core 9, which no partition holds. -/
def retB (op rest : Nat) (f : Module → Module := id) : State := rootEv (base.modMod f) 0 0x28 (BitVec.ofNat 64 (op * 2 ^ 62 + 9 + rest))
def retOps : List (Instr × Nat) := [(.retcmdTest, 1), (.retcmdRetire, 2), (.retcmdCellbad, 3)]

theorem witness_Retirement :
    (retOps.all fun (i, op) =>
      (let s := retB op 0 fun m => { m with retstat := 1 }; to_ i s (completes (s.modMod fun m => { m with retstat := 5 }) false 0)) &&
      (let s := retB op (2 ^ 30); decide (s.retRefusal s.inp.val = some 1) && to_ i s (completes (s.modMod fun m => { m with retstat := 0x102 }) false 0)) &&
      (let s := retB op 0
       decide (s.retRefusal s.inp.val = none) &&
         to_ i s (completes (if op = 1 then s.beginTest 9 else if op = 2 then s.beginRetire 9 else s.cellBad 9 0) false 0))) = true ∧
    decide ((base.modMod fun m => { m with defects := { m.defects with dead := [9] } }).retRefusal (BitVec.ofNat 64 (2 ^ 63 + 9)) = some 3) = true ∧
    to_ .testComplete base base = true ∧ to_ .retireComplete base base = true ∧
    (let s := { base.modMod fun m => { m with retOp := 1, retCore := 9, retstat := 1 } with inp := { val := 0x11 } }
     after .testComplete s fun t => decide (t.mod.retOp = 0 ∧ t.mod.retstat = 0x1100)) = true ∧
    (let s := base.modMod fun m => { m with retOp := 2, retCore := 9, retstat := 1 }
     after .retireComplete s fun t => decide (t.mod.retOp = 0 ∧ t.mod.retstat = 0 ∧ t.mod.placegen = 1 ∧ t.mod.mapgen = 1)) = true := by decide +kernel

/-- Patrol reaches DRAM bank 0 of cluster 0's first slice, which is awake. -/
def scrubB (found : Nat) : State := { base with inp := { idx := found, addr := 8 } }
def remapB (spares : Nat) : State := { base.modMod fun m => { m with defects := { m.defects with spares := [(144, spares)] } } with inp := { unit := 9, val := 100 } }
def dbgB (v stat : Nat) : State := rootEv (base.modMod fun m => { m with dbgstat := BitVec.ofNat 64 stat }) 6 (7 * 2 ^ 40) (BitVec.ofNat 64 v)

theorem witness_HealthAndDebug :
    (let s := scrubB 0
     match s.bankOfAddr 8 with
     | some (cl, n) => decide (s.mod.scrubctl ≠ 0 ∧ ((s.cluster cl).bank n).state < 2) && to_ .patrolScrub s (s.touchBank cl n) &&
       (let u := scrubB 1; to_ .patrolScrub u ((u.touchBank cl n).eccLog false 8))
     | none => false) = true ∧
    (after .patrolScrub (scrubB 2) fun t => decide (t.mod.eccu = 1) && t.mod.poison.contains 1) = true ∧
    (let s := (scrubB 2).modMod fun m => { m with scrubctl := 0 }; to_ .patrolScrub s s) = true ∧
    (after .sliceRowRemap (remapB 2) fun t => decide (t.mod.defects.spares = [(144, 1)])) = true ∧
    (after .sliceRowRemap (remapB 0) fun t => t.mod.replaceReq && decide (SMap.getD t.mod.defects.usable 9 480 = 100)) = true ∧
    (let s := (remapB 2).modMod fun m => { m with defects := { m.defects with dead := [9] } }; to_ .sliceRowRemap s s) = true ∧
    (after .dbgctlHaltall (dbgB 1 0) fun t => decide (t.mod.dbgstat = 0x201) && (t.part 0).halted) = true ∧
    (let s := dbgB 2 0x201; (s.modMod fun m => { m with dbgctl := 0 }).dbgDone || to_ .dbgctlResumeall s (completes (s.modMod fun m => { m with dbgctl := 0 }) false 0)) = true ∧
    (let s := (dbgB 2 0x201).modPart 0 fun q => { q with halted := true, done := true }
     (s.modMod fun m => { m with dbgctl := 0 }).dbgDone && after .dbgctlResumeall s fun t => decide (t.mod.dbgstat = 0)) = true ∧
    (let t := base.waferHalt 3; decide (t.mod.dbgstat = 0x301 ∧ t.mem = base.mem) && (t.part 0).halted && to_ .testPortHalt base t) = true ∧
    trapsB .illegalEncoding base 1 = true ∧
    trapsB .instructionFetchFault { base with inp := { idx := 5, data := [3] } } 5 [3] = true := by decide +kernel

/-! ## Witnesses: encoding, steps, memory -/

theorem witness_Encoding : encode (.add 5 6 7 3) = some 0x04A63B00#32 ∧ Instr.wellFormed (.add 5 6 7 3) = true ∧
    decode 0x04A63B00#32 = .ok (.add 5 6 7 3) := by decide +kernel

/-- A step leads to exactly a state, once what it leaves has settled; has exec's outcome at a state. -/
def stepsTo (s t : State) : Bool := match step s, settled (.next t) with | .next u, .next v => decide (u = v) | _, _ => false
def stepIs (s : State) (i : Instr) (t : State) : Bool := match exec i t with | .next u => stepsTo s u | _ => false

/-- A word stands at the program counter; the program counter's address; an agenda. -/
def progB (w : Nat) : State := State.reset.withFetchWord 32 w
def atPc (pc : Word) : State := with_ base fun h => { h with pc, icache := [] }
def plan (s : State) (dt : Nat) (a : Action) : State := { s with agenda := [⟨dt, a⟩] }
/-- The current sequencer issues an instruction. -/
def issuesIt (s : State) (w : Nat) (i : Instr) : Bool :=
  decide (s.forced = none) && s.agenda.isEmpty && s.issues s.cur && (match s.fetch with
    | .ok (t, x) => decide (x = BitVec.ofNat 32 w ∧ decode x = .ok i) && (let l := s.issuePlaces s.cur i
        if s.allows l then stepIs s i (t.noted l) else stepsTo s (s.noteTurn (.seqr s.cur) 0))
    | .error _ => false)
/-- Headgate 3 of the core has declared a phase in this tick; the current sequencer would, too late. -/
def lateB : State := (progB 0x90000000).noted ((progB 0x90000000).issuePlaces 3 (.bwph 0 0 0))

theorem witness_StepIssues :
    (([(0x04A63B00, .add 5 6 7 3), (0x2080FFFE, .li 4 0xFFFE), (0xFC000000, .nop), (0x5C000000, .fork 0)] : List (Nat × Instr)).all fun e =>
      issuesIt (progB e.1) e.1 e.2) = true ∧
    (let s := lateB; !s.allows (s.issuePlaces s.cur (.bwph 0 0 0)) && issuesIt s 0x90000000 (.bwph 0 0 0)) = true ∧
    (let s := progB 0
     match s.fetch with
     | .ok (t, w) => let l := s.issuePlaces s.cur .illegalEncoding
       decide (w = 0) && s.allows l && stepsTo s ((t.noted l).precise 1 [])
     | .error _ => false) = true ∧
    (let s := with_ (progB 0) fun h => { h with icache := [(h.pc.toNat, 0x04A63B00#32)] }
     match s.fetch with
     | .ok (t, w) => decide (t = s ∧ w = 0x04A63B00#32)
     | .error _ => false) = true := by decide +kernel

theorem witness_StepFetchEnds :
    (let s := atPc 0x4000FFFF00000002
     match s.fetch with
     | .error (.fault c d) => let l := s.issuePlaces s.cur .instructionFetchFault
       s.allows l && stepsTo s (({ s with inp := { idx := c, data := d } }.noted l).precise c d)
     | _ => false) = true ∧
    (let s := (progB 0).modCluster 0 fun c => { c with banks := SMap.set c.banks 16 { cls := 2, state := 1 } }
     match s.fetch with
     | .error (.wait x) => stepsTo s ((s.startWait s.cur x).noteTurn (.seqr s.cur) 0)
     | .error (.held t x) => stepsTo s ((t.startWait s.cur x).noteTurn (.seqr s.cur) 0)
     | _ => false) = true ∧
    (let s := with_ base fun h => { h with run := .idle }
     !s.issues s.cur && decide (s.forced = none) && stepsTo s { s with wt := 1, turns := [] }) = true := by decide +kernel

theorem witness_StepAgenda :
    (let s := plan (progB 0x04A63B00) 0 (.issue base.cur)
     let v := { s with agenda := [] }
     v.issues base.cur && (match v.fetch with
       | .ok (t, w) => let m := v.issuePlaces base.cur (.add 5 6 7 3)
         decide (decode w = .ok (.add 5 6 7 3)) && v.allows m && stepIs s (.add 5 6 7 3) (t.noted m)
       | .error _ => false)) = true ∧
    (let s := plan lateB 0 (.issue base.cur)
     let v := { s with agenda := [] }
     v.issues base.cur && !v.allows (v.issuePlaces base.cur (.bwph 0 0 0)) && stepsTo s (v.noteTurn (.seqr base.cur) 0)) = true ∧
    (let s := plan base 0 (.issue 40); let u := { s with agenda := [] }; !u.issues 40 && stepsTo s u) = true ∧
    (let s := plan base 0 (.event .ptpEvent { unit := 3 }); let u := { s with agenda := [] }; let e := u.eventPlaces .ptpEvent { unit := 3 }
     u.allows e && stepIs s .ptpEvent { u.noted e with inp := { unit := 3 } }) = true ∧
    encode .ptpEvent = none ∧
    (let s := plan base 0 (.event .nop {}); stepsTo s { s with agenda := [] }) = true := by decide +kernel

theorem witness_StepActions :
    (let s := plan base 0 (.evict 0 5); stepsTo s ({ s with agenda := [] }.evictSector 0 5)) = true ∧
    (let s := plan base 0 (.evictI base.cur 5)
     stepsTo s ({ s with agenda := [] }.modHg base.cur fun h => { h with icache := SMap.erase h.icache 5 })) = true ∧
    (let s := plan base 0 (.evictL2 0 5); stepsTo s ({ s with agenda := [] }.evictLine 0 5)) = true ∧
    (let s := plan base 0 (.pick 5); stepsTo s { s with agenda := [], pick := 5 }) = true ∧
    (let s := plan base 0 (.ecc true 5); stepsTo s ({ s with agenda := [] }.eccError true 5)) = true ∧
    (let s := plan base 7 (.pick 5); stepsTo s ({ s with agenda := [⟨6, .pick 5⟩] } : State).tick) = true := by decide +kernel

/-- A budget that begins a new interval at this tick does so before anything else. -/
theorem witness_StepForced :
    (let s := { plan base 0 (.pick 5) with wt := 1600, parts := [] }
     let s := s.modCluster 0 fun c => { c with budget := 0x0000064000000010 }
     match s.forced with
     | some z => stepIs s z.1 { s.noted (s.eventPlaces z.1 z.2) with inp := z.2 }
     | none => false) = true := by decide +kernel

theorem witness_StepKeepsMemoryCanonical :
    (let s := progB 0x04A63B00
     Memory.wf s.mem && !s.mem.isEmpty && (match step s with | .next t => Memory.wf t.mem | _ => false)) = true := by decide +kernel

/-! ## The decoder's worked segment of forty symbols (11), and a lane row of a tile-step row -/

/-- Entry i of the table that passes raw nibbles through; the marker's states and bytes; the packed symbols. -/
def nibbleTable : List Nat := (List.range 4096).map fun i => i / 256 * 2 ^ 24 + 8 * 2 ^ 20 + i % 16 * 256 * 2 ^ 8
def nibbles : List Nat := List.range 16 ++ List.range 16 ++ List.replicate 8 3
def segMarker : Nat := 0x5EC7 + 40 * 2 ^ 32 + 40 * 2 ^ 48 +
  (List.range 32).foldl (fun n l => n + (0x100 * (l % 16) + 0xC3) * 2 ^ (80 + 12 * l)) 0 + crc32c (packSyms 4 nibbles) * 2 ^ 464
def segB : State :=
  let s := ((ptrs.writeN (bankAddr 0 16 0) 128 segMarker).writeN (bankAddr 0 16 256) 8 0x80)
  with_ s fun h => { h with
    dec := { h.dec with
      started := true, t0 := { valid := true, tabid := 1, logAlpha := 4, entries := nibbleTable }
      queue := [⟨0, scratch0, scratch0 + 256, 0, 1, 0, .e2m1, 0, 0, none, 0, 0, none, false⟩] } }

theorem test_worked_segment_bytes : (List.range 13).map (fun k => bits segMarker (8 * k) 8) =
    [0xC7, 0x5E, 0, 0, 0x28, 0, 0x28, 0, 0, 0, 0xC3, 0x30, 0x1C] ∧ nibbleTable.getD 0x5A3 0 = 0x05830000 ∧
    packSyms 4 nibbles = [0x10, 0x32, 0x54, 0x76, 0x98, 0xBA, 0xDC, 0xFE, 0x10, 0x32, 0x54, 0x76, 0x98, 0xBA, 0xDC, 0xFE, 0x33, 0x33, 0x33, 0x33] := by
  decide +kernel

theorem witness_DecoderSegment :
    (match segB.me.dec.queue with
     | c :: _ =>
       segB.engineOn 0 && !segB.decBlocked 0 c && !segB.me.dec.allDecoded c && (match segB.nextSegment 0 c segB.me.dec with
         | .ok (t, d) => decide (d.bufs.map (·.syms) = [nibbles]) && after .decoderSegmentDecode segB (fun u => decide (u.me.dec.bufs = d.bufs ∧ u.mem = t.mem))
         | .error _ => false)
     | [] => false) = true := by decide +kernel

/-- Headgate N of core 0 feeds the north side of plot 0, which runs, with one row of four f32 from a vector register. -/
def feedB : State :=
  let s := ptrs.modPart 0 fun p => { p with plots := [(0, q1 .running)] }
  with_ s fun h => { h with bound := some ⟨0, 0, 0, 0⟩, feed := { h.feed with queue := [⟨0, tshp, 0, some 9, 0, 0, 1, 0, 0⟩] } }

theorem witness_TileFeed :
    (match feedB.fedSegment 0, feedB.me.feed.queue with
     | some (p, id, q, b), c :: _ => feedB.mayPresent 0 q b && feedB.me.tileFirst c && feedB.me.tileHere c &&
       (match feedB.tileRow 0 c 0 0 with
        | .ok (t, r) => to_ .tstepFeedPresent feedB ((t.presentRow 0 p id q b (.tile c.serial 0 0) r).modHg 0 Hg.feedStep) && decide (r = [(0, 9, 0)])
        | .error _ => false)
     | _, _ => false) = true := by decide +kernel

end Sys2Proof.Tests
end

section
/-! SUPPORT. Accesses of a headgate to the scratchpad of its own core (00 R3; 07 R166): what touching a bank and writing at a home leave
alone, where a pointer of the own scratchpad leads, and the loads and stores there. -/

namespace Sys2Proof.Machine

open Sys2Proof.Claims

variable (s : State)

/-! ## What a touch of a bank leaves alone -/

/-- What every step of a fold keeps, the fold keeps. -/
theorem foldl_keeps {α β : Type} (f : State → α) (g : State → β → State) (hg : ∀ s b, f (g s b) = f s) (l : List β) :
    f (l.foldl g s) = f s := by
  induction l generalizing s with
  | nil => rfl
  | cons b l ih => rw [List.foldl_cons, ih, hg]

/-- A touch of a bank changes clusters and partitions only: whatever does not look at them stays. -/
theorem touchBank_keeps {α : Type} (f : State → α) (hc : ∀ s k x, f (s.setCluster k x) = f s)
    (hp : ∀ s k x, f (s.setPart k x) = f s) (cl n : Nat) : f (s.touchBank cl n) = f s := by
  have hbank : ∀ (s : State) (g : Bank → Bank), f (s.modBank cl n g) = f s := fun s g => hc s _ _
  have hwake : f (s.beginWake cl n) = f s := by
    unfold State.beginWake
    dsimp only
    split
    · rfl
    · exact hbank _ _
  have hlost : ∀ (s : State) (l : List Nat),
      f (l.foldl (fun s p => s.modPart p fun q => { q with lostBw := true, lostBwWt := s.wt }) s) = f s :=
    fun s l => foldl_keeps s f _ (fun s _ => hp s _ _) l
  unfold State.touchBank
  dsimp only
  split
  · rw [hlost, modCluster_eq, hc, hbank, hwake]
  · rw [hbank, hwake]

@[simp] theorem mem_touchBank (cl n : Nat) : (s.touchBank cl n).mem = s.mem :=
  touchBank_keeps s State.mem (fun _ _ _ => rfl) (fun _ _ _ => rfl) cl n
@[simp] theorem mod_touchBank (cl n : Nat) : (s.touchBank cl n).mod = s.mod :=
  touchBank_keeps s State.mod (fun _ _ _ => rfl) (fun _ _ _ => rfl) cl n
@[simp] theorem hgs_touchBank (cl n : Nat) : (s.touchBank cl n).hgs = s.hgs :=
  touchBank_keeps s State.hgs (fun _ _ _ => rfl) (fun _ _ _ => rfl) cl n

/-! ## What a write at a home leaves alone -/

@[simp] theorem hgs_writeN (n : Nat) : ∀ (s : State) (a v : Nat), (s.writeN a n v).hgs = s.hgs := by
  induction n with
  | zero => intro s a v; rfl
  | succ n ih => intro s a v; exact ih _ _ _

@[simp] theorem hgs_unpoison (a n : Nat) : (s.unpoison a n).hgs = s.hgs := by unfold State.unpoison; split <;> rfl

@[simp] theorem undef_unpoison (a n : Nat) : (s.unpoison a n).mod.undef = s.mod.undef := by unfold State.unpoison; split <;> rfl

@[simp] theorem hgs_homeWrite (a n v : Nat) : (s.homeWrite a n v).hgs = s.hgs := by simp [State.homeWrite]

/-! ## The bytes of a state depend on its memory and its undefined ranges only -/

theorem byte_congr {s t : State} (hm : t.mem = s.mem) (hu : t.mod.undef = s.mod.undef) (x : Nat) : t.byte x = s.byte x := by
  simp only [State.byte, hm, hu]

theorem readN_congr {s t : State} (h : ∀ x, t.byte x = s.byte x) (n : Nat) : ∀ a, t.readN a n = s.readN a n := by
  induction n with
  | zero => intro a; rfl
  | succ n ih => intro a; simp only [State.readN, h, ih]

@[simp] theorem byte_touchBank (cl n x : Nat) : (s.touchBank cl n).byte x = s.byte x := byte_congr (by simp) (by simp) x

theorem byte_homeWrite (a n v x : Nat) : (s.homeWrite a n v).byte x = (s.writeN a n v).byte x :=
  byte_congr (mem_unpoison _ a n) (undef_unpoison _ a n) x

theorem byte_homeWrite_outside (h : s.memOk) (a n v x : Nat) (hx : x < a ∨ a + n ≤ x) : (s.homeWrite a n v).byte x = s.byte x := by
  rw [byte_homeWrite, byte_writeN_outside n s a v x h hx]

theorem readN_homeWrite (h : s.memOk) (a n v : Nat) : (s.homeWrite a n v).readN a n = v % 256 ^ n := by
  rw [readN_congr (byte_homeWrite s a n v), readN_writeN n s a v h]

/-! ## Homes above DRAM: core banks, ways and host memory -/

theorem le_bankAddr (c b off : Nat) : 2 ^ 42 ≤ bankAddr c b off := by unfold bankAddr; omega

section AboveDram

variable {a : Nat} (ha : 2 ^ 42 ≤ a)
include ha

theorem isDram_above : isDram a = false := by simp only [isDram, decide_eq_false_iff_not]; omega

/-- The bank behind a home address above DRAM does not depend on which cores are live. -/
theorem bankOfAddr_above (s t : State) : t.bankOfAddr a = s.bankOfAddr a := by
  simp only [State.bankOfAddr, if_neg (show ¬a < 2 ^ 41 by omega)]

theorem l1Serves_above (c sp : Nat) (wide : Bool) : s.l1Serves c sp a wide = false := by
  simp [State.l1Serves, isDram_above ha]

theorem homeReady_above (w sp n : Nat) (wide : Bool) : s.homeReady w sp a n wide = .ok () := by
  simp [State.homeReady, isDram_above ha]

theorem loadAt_above (w sp n : Nat) (wide : Bool) (hp : s.poisoned a n = false) :
    s.loadAt w sp a n wide = .ok (s.touchAs sp a w false, s.readN a n) := by
  simp [State.loadAt, l1Serves_above s ha, isDram_above ha, State.homeRead, hp]

theorem storeAt_above (w sp n v : Nat) (wide : Bool) :
    s.storeAt w sp a n v wide = (s.homeWrite a n v).touchAs sp a w true := by
  simp [State.storeAt, l1Serves_above s ha, isDram_above ha]

end AboveDram

/-- An access of any waiter through any space touches just the SRAM bank that holds its home. -/
theorem touchAs_sram {a cl n : Nat} (hb : s.bankOfAddr a = some (cl, n)) (hn : n < 272) (sp w : Nat) (st : Bool) :
    s.touchAs sp a w st = s.touchBank cl n := by
  simp only [State.touchAs, hb, if_pos hn]

/-! ## The pointers of the own scratchpad (01 R18; 05 R117, R118) -/

theorem seqOf_headgate {k : Nat} (h : isRmc k = false) : seqOf k = k := by
  have : k < 16384 := by simpa [isRmc, rmcBase] using h
  exact Nat.mod_eq_of_lt (by omega)

theorem toNat_ownScratch {off : Nat} (h : off < 2 ^ 22) : (ownScratch off).toNat = 4 * 2 ^ 60 + 0xFFFF * 2 ^ 32 + off :=
  BitVec.toNat_ofNat .. ▸ Nat.mod_eq_of_lt (by omega)

theorem space_ownScratch {off : Nat} (h : off < 2 ^ 22) : space (ownScratch off) = 4 := by
  rw [space, toNat_ownScratch h]; omega

theorem bits_ownScratch {off : Nat} (h : off < 2 ^ 22) :
    bits (ownScratch off).toNat 48 12 = 0 ∧ bits (ownScratch off).toNat 22 10 = 0 ∧
    bits (ownScratch off).toNat 32 16 = 0xFFFF ∧ bits (ownScratch off).toNat 0 22 = off := by
  rw [toNat_ownScratch h]; unfold bits; omega

theorem zeroOk_ownScratch {off : Nat} (h : off < 2 ^ 22) : zeroOk (ownScratch off) = true := by
  obtain ⟨hhigh, hmid, -, -⟩ := bits_ownScratch h
  simp [zeroOk, space_ownScratch h, hhigh, hmid]

/-- The high fields of such a pointer are multiples of every access size, so that its alignment is the offset's. -/
theorem ownScratch_mod {off n : Nat} (h : off < 2 ^ 22) (hn : n ∣ 64) : (ownScratch off).toNat % n = off % n := by
  obtain ⟨m, hm⟩ := hn
  have : (ownScratch off).toNat = off + n * (m * (2 ^ 56 + 0xFFFF * 2 ^ 26)) := by
    rw [toNat_ownScratch h, ← Nat.mul_assoc, ← hm]; omega
  rw [this, Nat.add_mul_mod_self_left]

theorem sizeBytes_dvd (z : Size) : sizeBytes z ∣ 64 := by cases z <;> decide

theorem vsizeBytes_dvd (z : VSize) : vsizeBytes z ∣ 64 := by cases z <;> decide

@[simp] theorem crossing_self (c : Nat) : s.crossing c c = .ok () := by simp [State.crossing]

section Own

variable {s} {u : State} {off a n : Nat} (h : scratchAt s off a)
include h

theorem scratchAt_above : 2 ^ 42 ≤ a := by
  obtain ⟨-, -, -, b, -, -, -, -, rfl⟩ := h
  exact le_bankAddr _ _ _

/-- The bank of a scratchpad offset is ready, and gives the home address. -/
theorem inBanks_scratchAt : s.inBanks (coreOf s.cur) 2 off = .ok a := by
  obtain ⟨-, -, -, b, hb, hrest, hcls, hst, rfl⟩ := h
  have hready : s.bankReady (clusterOf (coreOf s.cur)) (32 * cicOf (coreOf s.cur) + b) = .ok () := by
    simp [State.bankReady, State.classOk, State.awake, State.bank, bne_iff_ne.mpr hcls, hst]
  simp only [State.inBanks, hb, hready, State.restored, hrest, acc_bind_ok, Bool.false_eq_true, if_false]

/-- Every check of an aligned access through a pointer of the own scratchpad passes. -/
theorem resolve_ownScratch (hn : n ∣ 64) (ho : off % n = 0) (k : Kind) :
    s.resolve s.cur (ownScratch off) n k = .ok (.home a) := by
  obtain ⟨hcur, ⟨p, hp⟩, hoff, -⟩ := id h
  obtain ⟨-, -, hcore, hlow⟩ := bits_ownScratch hoff
  have hpart : s.partOfHg s.cur = some p := by simp [State.partOfHg, hcur, hp]
  simp [State.resolve, seqOf_headgate hcur, space_ownScratch hoff, zeroOk_ownScratch hoff, ownScratch_mod hoff hn, ho, hpart, hcore,
    hlow, State.byLcore, inBanks_scratchAt h]

/-! ## The turn at the bank (10 R265) -/

variable (hg : bankGrants s u a)
include hg

theorem turnAt_bankGrants (sp : Nat) (wide : Bool) : s.turnAt s.cur sp a wide true = .ok u := by
  obtain ⟨cl, k, hb, hk, hfree, hspent, rfl⟩ := hg
  have hseq := seqOf_headgate h.1
  have hport : portNo s.cur true = some (24 + hgnOf s.cur) := by simp [portNo, hseq, h.1]
  have hbank : s.accessBank (coreOf (seqOf s.cur)) sp a wide = some (cl, k) := by
    simp [State.accessBank, l1Serves_above s (scratchAt_above h), hb, Option.filter, hk]
  have hgets : (s.bank cl k).arb.hgGets (s.cycleOf cl) = true := by simp [Arb.hgGets, hfree, hspent]
  simp only [State.turnAt, hport, hbank, State.bankTurn, Nat.le_add_right, if_true, hgets]

omit h in
/-- The grant is noted at the bank, and nothing else changes. -/
theorem bankGrants_frame : u.mem = s.mem ∧ u.mod = s.mod ∧ u.hgs = s.hgs := by
  obtain ⟨cl, k, -, -, -, -, rfl⟩ := hg
  exact ⟨rfl, rfl, rfl⟩

/-- In any state, a touch at the home address touches its core bank, whoever asks. -/
theorem touchAs_bankGrants (t : State) : ∃ cl k, ∀ sp w st, t.touchAs sp a w st = t.touchBank cl k := by
  obtain ⟨cl, k, hb, hk, -⟩ := hg
  exact ⟨cl, k, touchAs_sram t (bankOfAddr_above (scratchAt_above h) s t ▸ hb) (by omega)⟩

/-! ## Loads and stores of the own scratchpad (07 R166) -/

theorem loadVia_ownScratch (hn : n ∣ 64) (ho : off % n = 0) (hp : s.poisoned a n = false) (wide : Bool) :
    s.loadVia s.cur (ownScratch off) n wide true = .ok (u.touch a, s.readN a n) := by
  have ha := scratchAt_above h
  obtain ⟨hmem, hmod, -⟩ := bankGrants_frame hg
  obtain ⟨cl, k, htouch⟩ := touchAs_bankGrants h hg u
  have hpu : u.poisoned a n = false := by rw [State.poisoned, hmod]; exact hp
  have hread : u.readN a n = s.readN a n := readN_congr (byte_congr hmem (congrArg Module.undef hmod)) n a
  simp [State.loadVia, resolve_ownScratch h hn ho, homeReady_above s ha, turnAt_bankGrants h hg, loadAt_above u ha _ _ _ _ hpu, hread,
    State.touch, htouch]

theorem storeVia_ownScratch (hn : n ∣ 64) (ho : off % n = 0) (v : Nat) (wide : Bool) :
    s.storeVia s.cur (ownScratch off) n v wide true = .ok ((u.homeWrite a n v).touched a) := by
  have ha := scratchAt_above h
  obtain ⟨cl, k, htouch⟩ := touchAs_bankGrants h hg (u.homeWrite a n v)
  simp [State.storeVia, resolve_ownScratch h hn ho, homeReady_above s ha, turnAt_bankGrants h hg, storeAt_above u ha, State.touched, htouch]

/-- A load without acquire, while no store is held over it. -/
theorem loadEa_ownScratch (hf : s.me.forked = false) (hn : n ∣ 64) (ho : off % n = 0) (hp : s.poisoned a n = false) (sc : Scope) :
    s.loadEa (ownScratch off) n sc false = .ok (u.touch a, s.readN a n) := by
  simp [State.loadEa, loadVia_ownScratch h hg hn ho hp, State.overlay, hf]

/-- A store without release. -/
theorem storeEa_ownScratch (hn : n ∣ 64) (ho : off % n = 0) (v : Nat) (sc : Scope) :
    s.storeEa (ownScratch off) n v sc false = .ok ((u.homeWrite a n v).touched a) := by
  simp [State.storeEa, storeVia_ownScratch h hg hn ho, keeping]

/-- What such a store leaves: its bytes at the home, and every other byte and every register as before. -/
theorem storeEa_ownScratch_effect (hm : s.memOk) (hn : n ∣ 64) (ho : off % n = 0) (v : Nat) (sc : Scope) :
    ∃ t, s.storeEa (ownScratch off) n (v % 256 ^ n) sc false = .ok t ∧
      t.readN a n = v % 256 ^ n ∧ (∀ x, x < a ∨ a + n ≤ x → t.byte x = s.byte x) ∧ t.hgs = s.hgs := by
  obtain ⟨hmem, hmod, hhgs⟩ := bankGrants_frame hg
  obtain ⟨cl, k, htouch⟩ := touchAs_bankGrants h hg (u.homeWrite a n (v % 256 ^ n))
  have hmu : u.memOk := by rw [State.memOk, hmem]; exact hm
  refine ⟨_, storeEa_ownScratch h hg hn ho _ sc, ?_⟩
  rw [State.touched, htouch]
  refine ⟨?_, fun x hx => ?_, ?_⟩
  · rw [readN_congr (byte_touchBank _ cl k), readN_homeWrite u hmu, Nat.mod_mod]
  · rw [byte_touchBank, byte_homeWrite_outside u hmu _ _ _ _ hx, byte_congr hmem (congrArg Module.undef hmod)]
  · rw [hgs_touchBank, hgs_homeWrite, hhgs]

end Own

/-! ## The four instructions from their effects (07 R166) -/

section Perform

variable {s} {t : State} {v : Nat} {d r : SReg} {dv : VReg} {o : BitVec 8} {z : Size} {zv : VSize} {sc : Scope} {m : Bool}

theorem ld_goesOn (h : s.loadEa (effAddr (s.getS r) o (sizeBytes z)) (sizeBytes z) sc m = .ok (t, v)) :
    goesOn (.ld d r o z sc m) s (t.setS d (BitVec.ofNat 64 v)) := by
  show execLd d r o z sc m s = _
  simp [execLd, plain_run s (state_getP_zero s), h]

theorem ldv_goesOn (h : s.loadEa (effAddr (s.getS r) o (vsizeBytes zv)) (vsizeBytes zv) sc m = .ok (t, v)) :
    goesOn (.ldv dv r o zv sc m) s (t.setV dv (BitVec.ofNat 512 v)) := by
  show execLdv dv r o zv sc m s = _
  simp [execLdv, plain_run s (state_getP_zero s), h]

variable (hf : s.me.forked = false)
include hf

theorem st_goesOn (h : s.storeEa (effAddr (s.getS r) o (sizeBytes z)) (sizeBytes z) ((s.getS d).toNat % 256 ^ sizeBytes z) sc m = .ok t) :
    goesOn (.st d r o z sc m) s t := by
  show execSt d r o z sc m s = _
  simp [execSt, State.holdable, State.performSt, plain_run s (state_getP_zero s), hf, h]

theorem stv_goesOn
    (h : s.storeEa (effAddr (s.getS r) o (vsizeBytes zv)) (vsizeBytes zv) ((s.getV dv).toNat % 256 ^ vsizeBytes zv) sc m = .ok t) :
    goesOn (.stv dv r o zv sc m) s t := by
  show execStv dv r o zv sc m s = _
  simp [execStv, State.holdable, State.performStv, plain_run s (state_getP_zero s), hf, h]

end Perform

end Sys2Proof.Machine

namespace Sys2Proof.Proofs

open Sys2Proof.Machine Sys2Proof.Claims

/-- Settles O24: the effective address resolves to the home (`loadEa_ownScratch`), and LD and LDV take what is read there. -/
theorem scratchLoadsReadTheirBytes : Obligations.ScratchLoadsReadTheirBytes := by
  intro s u off a d r dv o z zv sc hf h hg
  constructor
  · intro ho hp he
    exact ld_goesOn (he ▸ loadEa_ownScratch h hg hf (sizeBytes_dvd z) ho hp sc)
  · intro ho hp he
    exact ldv_goesOn (he ▸ loadEa_ownScratch h hg hf (vsizeBytes_dvd zv) ho hp sc)

/-- Settles O25: the effective address resolves to the home, and ST and STV leave the state of `storeEa_ownScratch_effect`. -/
theorem scratchStoresWriteExactlyTheirBytes : Obligations.ScratchStoresWriteExactlyTheirBytes := by
  intro s u off a d r dv o z zv sc hm hf h hg
  constructor
  · intro ho he
    obtain ⟨t, ht, heffect⟩ := storeEa_ownScratch_effect h hg hm (sizeBytes_dvd z) ho (s.getS d).toNat sc
    exact ⟨t, st_goesOn hf (he ▸ ht), heffect⟩
  · intro ho he
    obtain ⟨t, ht, heffect⟩ := storeEa_ownScratch_effect h hg hm (vsizeBytes_dvd zv) ho (s.getV dv).toNat sc
    exact ⟨t, stv_goesOn hf (he ▸ ht), heffect⟩

end Sys2Proof.Proofs
end

section
/-! SUPPORT. Where an access stops on its pointer alone: steps 1 to 3 of the check order (05 R117, R118). -/

namespace Sys2Proof.Machine

theorem seqOf_lt {w : Nat} (h : w < 65536) : seqOf w = w := Nat.mod_eq_of_lt h

/-- A space code that R117 does not list has no pointer whose reserved bits pass. -/
theorem zeroOk_unassigned {p : Word}
    (h : space p = 0x3 ∨ space p = 0x9 ∨ space p = 0xA ∨ space p = 0xB ∨ space p = 0xD ∨ space p = 0xE) : zeroOk p = false := by
  rcases h with h | h | h | h | h | h <;> simp [zeroOk, h]

variable {s : State} {w n : Nat} {p : Word} {k : Kind}

/-- Step 1: the management space is closed to user mode. -/
theorem resolve_priv (hsp : space p = 0xF) (hsys : (s.hg (seqOf w)).sys = false) : s.resolve w p n k = .error (.fault cPriv []) := by
  simp [State.resolve, hsp, hsys]

section Unprivileged

variable (hsp : space p ≠ 0xF)
include hsp

/-- Step 2: a space that R117 does not list, or a reserved bit that is set. -/
theorem resolve_addr (hz : zeroOk p = false) : s.resolve w p n k = .error (.fault cAddr []) := by
  simp [State.resolve, hsp, beq_false_of_ne hsp, hz]

/-- Step 3, for an access that step 2 lets pass: an atomic operation has no window and no host memory. -/
theorem resolve_align (hz : zeroOk p = true) (hamo : k = .amo → space p ≠ 0x7 ∧ space p ≠ 0xC) (hal : p.toNat % n ≠ 0) :
    s.resolve w p n k = .error (.fault cAlign []) := by
  have hreach : (!((space p == 7 || space p == 12) && decide (k = .amo))) = true := by
    by_cases hk : k = .amo
    · obtain ⟨hwin, hhost⟩ := hamo hk
      simp [hwin, hhost]
    · simp [hk]
  simp [State.resolve, hsp, beq_false_of_ne hsp, hz, hreach, beq_false_of_ne hal]

end Unprivileged

end Sys2Proof.Machine

namespace Sys2Proof.Proofs

open Sys2Proof.Machine Sys2Proof.Claims

/-- Settles O22: a bad pointer stops at step 1, 2 or 3 of R118 (`resolve_priv`, `resolve_addr`, `resolve_align`), and an own
scratchpad pointer passes every step (`resolve_ownScratch`), since every access size divides 64. -/
theorem pointersReachTheirBankOrFault : Obligations.PointersReachTheirBankOrFault := by
  constructor
  · intro s p n k hcur
    refine ⟨fun hsp hsys => resolve_priv hsp ?_, fun hsp hz => resolve_addr hsp hz, zeroOk_unassigned, fun hsp hz hal => ?_⟩
    · rw [seqOf_lt hcur]
      exact hsys
    · exact resolve_align (by omega) hz (fun _ => by omega) hal
  · intro s off a n k h hn ho
    have hdvd : n ∣ 64 := by rcases hn with rfl | rfl | rfl | rfl | rfl | rfl | rfl <;> decide
    exact resolve_ownScratch h hdvd ho k

end Sys2Proof.Proofs
end

section
/-! SUPPORT. The encoding as a whole, from its laws instruction by instruction (05 R119 to R121, R125, R126). -/

namespace Sys2Proof.Proofs

open Sys2Proof Sys2Proof.Laws

/-- Every instruction obeys the encoding law of its own: a headgate instruction by the law proved for its word, an event because it has none. -/
theorem encoding_law : ∀ i : Instr, Encoding.Statement i
  | .add d a b g => Encoding.add d a b g | .sub d a b g => Encoding.sub d a b g | .and d a b g => Encoding.and d a b g
  | .or d a b g => Encoding.or d a b g | .xor d a b g => Encoding.xor d a b g | .andn d a b g => Encoding.andn d a b g
  | .shl d a b g => Encoding.shl d a b g | .shr d a b g => Encoding.shr d a b g | .sra d a b g => Encoding.sra d a b g
  | .ror d a b g => Encoding.ror d a b g | .min d a b g => Encoding.min d a b g | .max d a b g => Encoding.max d a b g
  | .minn d a b g => Encoding.minn d a b g | .maxn d a b g => Encoding.maxn d a b g | .mul d a b g => Encoding.mul d a b g
  | .mulh d a b g => Encoding.mulh d a b g | .mulhn d a b g => Encoding.mulhn d a b g | .div d a b g => Encoding.div d a b g
  | .divn d a b g => Encoding.divn d a b g | .rem d a b g => Encoding.rem d a b g | .remn d a b g => Encoding.remn d a b g
  | .clz d a g => Encoding.clz d a g | .ctz d a g => Encoding.ctz d a g | .popc d a g => Encoding.popc d a g
  | .brev d a g => Encoding.brev d a g | .sext d a b g => Encoding.sext d a b g | .zext d a b g => Encoding.zext d a b g
  | .sel d a b p => Encoding.sel d a b p | .addi d a i => Encoding.addi d a i | .andi d a i => Encoding.andi d a i
  | .ori d a i => Encoding.ori d a i | .xori d a i => Encoding.xori d a i | .shfiShl d a c => Encoding.shfiShl d a c
  | .shfiShr d a c => Encoding.shfiShr d a c | .shfiSra d a c => Encoding.shfiSra d a c | .shfiRor d a c => Encoding.shfiRor d a c
  | .muli d a i => Encoding.muli d a i | .li d i => Encoding.li d i | .lis d i => Encoding.lis d i
  | .setpEq d a b g => Encoding.setpEq d a b g | .setpNe d a b g => Encoding.setpNe d a b g
  | .setpLt d a b g => Encoding.setpLt d a b g | .setpGe d a b g => Encoding.setpGe d a b g
  | .setpLtn d a b g => Encoding.setpLtn d a b g | .setpGen d a b g => Encoding.setpGen d a b g
  | .setpiEq p a i => Encoding.setpiEq p a i | .setpiNe p a i => Encoding.setpiNe p a i | .setpiLt p a i => Encoding.setpiLt p a i
  | .setpiGe p a i => Encoding.setpiGe p a i | .pand d a b g => Encoding.pand d a b g | .por d a b g => Encoding.por d a b g
  | .pxor d a b g => Encoding.pxor d a b g | .pnot d a g => Encoding.pnot d a g | .pmov d a g => Encoding.pmov d a g
  | .ptos d a g => Encoding.ptos d a g | .mkptr d a b g => Encoding.mkptr d a b g | .pspc d a g => Encoding.pspc d a g
  | .padd d a b g => Encoding.padd d a b g | .pcore d a b g => Encoding.pcore d a b g | .keylk d a b g => Encoding.keylk d a b g
  | .br g v o => Encoding.br g v o | .call g v o => Encoding.call g v o | .jr a g => Encoding.jr a g
  | .jalr d a g => Encoding.jalr d a g | .ret g => Encoding.ret g | .jtab d a n => Encoding.jtab d a n
  | .loop a l => Encoding.loop a l | .loopi l c => Encoding.loopi l c | .lbrk g => Encoding.lbrk g | .fork g => Encoding.fork g
  | .swq g => Encoding.swq g | .pick p g => Encoding.pick p g | .ld d a o z s m => Encoding.ld d a o z s m
  | .st d a o z s m => Encoding.st d a o z s m | .ldv d a o z s m => Encoding.ldv d a o z s m
  | .stv d a o z s m => Encoding.stv d a o z s m | .amoAadd d a b s r z => Encoding.amoAadd d a b s r z
  | .amoAmin d a b s r z => Encoding.amoAmin d a b s r z | .amoAmax d a b s r z => Encoding.amoAmax d a b s r z
  | .amoAminn d a b s r z => Encoding.amoAminn d a b s r z | .amoAmaxn d a b s r z => Encoding.amoAmaxn d a b s r z
  | .amoAand d a b s r z => Encoding.amoAand d a b s r z | .amoAor d a b s r z => Encoding.amoAor d a b s r z
  | .amoAxor d a b s r z => Encoding.amoAxor d a b s r z | .amoAswap d a b s r z => Encoding.amoAswap d a b s r z
  | .amoAcas d a b s r z => Encoding.amoAcas d a b s r z | .amoAfadd d a b s r z => Encoding.amoAfadd d a b s r z
  | .fence s g => Encoding.fence s g | .fenceLd s g => Encoding.fenceLd s g | .fenceSt s g => Encoding.fenceSt s g
  | .wfence g => Encoding.wfence g | .mfence g => Encoding.mfence g | .ifence g => Encoding.ifence g
  | .binit a b g => Encoding.binit a b g | .barr d a b g => Encoding.barr d a b g | .bwait a b g => Encoding.bwait a b g
  | .bleave a b g => Encoding.bleave a b g | .bqry d a b g => Encoding.bqry d a b g | .qsend d a b g => Encoding.qsend d a b g
  | .qrecv d a b g => Encoding.qrecv d a b g | .qpoll d a g => Encoding.qpoll d a g
  | .collAllred x y a r f => Encoding.collAllred x y a r f | .collRedscat x y a r f => Encoding.collRedscat x y a r f
  | .collAllgath x y a f => Encoding.collAllgath x y a f | .collBcast x y a f => Encoding.collBcast x y a f
  | .collA2a x y a f => Encoding.collA2a x y a f | .lrpatch a b g => Encoding.lrpatch a b g | .lrarm a g => Encoding.lrarm a g
  | .lrqry d a g => Encoding.lrqry d a g | .cntadd a b g => Encoding.cntadd a b g | .vcnt a b g => Encoding.vcnt a b g
  | .cntrd d a g => Encoding.cntrd d a g | .cntsnap d a g => Encoding.cntsnap d a g | .wtrd d g => Encoding.wtrd d g
  | .atset d a b g => Encoding.atset d a b g | .atcan d a g => Encoding.atcan d a g | .atwait d a g => Encoding.atwait d a g
  | .bwph a b g => Encoding.bwph a b g | .bwqry d a g => Encoding.bwqry d a g | .cfg a => Encoding.cfg a
  | .cfgwait a => Encoding.cfgwait a | .cfgwaitQ a => Encoding.cfgwaitQ a | .start a => Encoding.start a
  | .stopp a => Encoding.stopp a | .stoppNow a => Encoding.stoppNow a | .splarm a => Encoding.splarm a
  | .splice => Encoding.splice | .bypmap a => Encoding.bypmap a | .bypmapCol a => Encoding.bypmapCol a
  | .dlyset a => Encoding.dlyset a | .holdtab a => Encoding.holdtab a | .shld x a => Encoding.shld x a
  | .shst x a => Encoding.shst x a | .strm x y n a => Encoding.strm x y n a | .strmq n a => Encoding.strmq n a
  | .xform n a => Encoding.xform n a | .cbload a => Encoding.cbload a | .slset x a => Encoding.slset x a
  | .slput x a => Encoding.slput x a | .sltake x a => Encoding.sltake x a | .slqry x a => Encoding.slqry x a
  | .slqryD x a => Encoding.slqryD x a | .slwaitData x a => Encoding.slwaitData x a | .slwaitRoom x a => Encoding.slwaitRoom x a
  | .tstep x y a n => Encoding.tstep x y a n | .tstepV x y z n => Encoding.tstepV x y z n | .wtbl a b g => Encoding.wtbl a b g
  | .wdec a g => Encoding.wdec a g | .wseek a g => Encoding.wseek a g | .wdqry d a g => Encoding.wdqry d a g
  | .scset a b g => Encoding.scset a b g | .scfl g => Encoding.scfl g | .chain a b g => Encoding.chain a b g
  | .chconst a b g => Encoding.chconst a b g | .vopAdd d a b g t => Encoding.vopAdd d a b g t
  | .vopSub d a b g t => Encoding.vopSub d a b g t | .vopMul d a b g t => Encoding.vopMul d a b g t
  | .vopFma d a b g t => Encoding.vopFma d a b g t | .vopFnma d a b g t => Encoding.vopFnma d a b g t
  | .vopMin d a b g t => Encoding.vopMin d a b g t | .vopMax d a b g t => Encoding.vopMax d a b g t
  | .vopAbs d a g t => Encoding.vopAbs d a g t | .vopNeg d a g t => Encoding.vopNeg d a g t
  | .vopRsqs d a g t => Encoding.vopRsqs d a g t | .vopRcps d a g t => Encoding.vopRcps d a g t
  | .vopExp2s d a g t => Encoding.vopExp2s d a g t | .vopLog2s d a g t => Encoding.vopLog2s d a g t
  | .vopRelu d a g t => Encoding.vopRelu d a g t | .vopClamp d a b g t => Encoding.vopClamp d a b g t
  | .vopSel d a b g t => Encoding.vopSel d a b g t | .vopCmpeq d a b g t => Encoding.vopCmpeq d a b g t
  | .vopCmplt d a b g t => Encoding.vopCmplt d a b g t | .vopCmple d a b g t => Encoding.vopCmple d a b g t
  | .vopMov d a g t => Encoding.vopMov d a g t | .vopAmaxu d a g t => Encoding.vopAmaxu d a g t
  | .vcvt d a g t f => Encoding.vcvt d a g t f | .vsum d a g => Encoding.vsum d a g | .vmax d a g => Encoding.vmax d a g
  | .vmin d a g => Encoding.vmin d a g | .vamax d a g => Encoding.vamax d a g | .vbcast d a g => Encoding.vbcast d a g
  | .vext d a b g => Encoding.vext d a b g | .vshuf d a b g => Encoding.vshuf d a b g | .vins d a b g => Encoding.vins d a b g
  | .fscAdd d a b g => Encoding.fscAdd d a b g | .fscSub d a b g => Encoding.fscSub d a b g
  | .fscMul d a b g => Encoding.fscMul d a b g | .fscFma d a b g => Encoding.fscFma d a b g
  | .fscFnma d a b g => Encoding.fscFnma d a b g | .fscMin d a b g => Encoding.fscMin d a b g
  | .fscMax d a b g => Encoding.fscMax d a b g | .fscAbs d a g => Encoding.fscAbs d a g | .fscNeg d a g => Encoding.fscNeg d a g
  | .fscRsqs d a g => Encoding.fscRsqs d a g | .fscRcps d a g => Encoding.fscRcps d a g
  | .fscExp2s d a g => Encoding.fscExp2s d a g | .fscLog2s d a g => Encoding.fscLog2s d a g
  | .fscRelu d a g => Encoding.fscRelu d a g | .fscClamp d a b g => Encoding.fscClamp d a b g
  | .fscSel d a b g => Encoding.fscSel d a b g | .fscCmpeq d a b g => Encoding.fscCmpeq d a b g
  | .fscCmplt d a b g => Encoding.fscCmplt d a b g | .fscCmple d a b g => Encoding.fscCmple d a b g
  | .fscMov d a g => Encoding.fscMov d a g | .vqnt d a g f => Encoding.vqnt d a g f
  | .vsaccE2m1 d a b g => Encoding.vsaccE2m1 d a b g | .vsaccE4m3 d a b g => Encoding.vsaccE4m3 d a b g | .nop => Encoding.nop
  | .trap n => Encoding.trap n | .eret => Encoding.eret | .mrd r d => Encoding.mrd r d | .mwr r a => Encoding.mwr r a
  | .yield => Encoding.yield | .wait d a => Encoding.wait d a | .halt => Encoding.halt | .brk n => Encoding.brk n
  | .dbgh a => Encoding.dbgh a | .seed a => Encoding.seed a
  | .powerOnReset | .hostPortTraining | .mread | .mwrite | .registerWrite | .mbBoot | .mbAttest | .mbPubkey | .mbManifest
  | .mbInstall | .mbCmap | .hostBuild | .hostLaunch | .hostCancel | .hostClear | .hostTeardown | .semRead | .semFree
  | .deviceLaunch | .launchDispatch | .preemptRequest | .graphNodeEnd | .graphNodeLoad | .loadEnd | .graphNodeCond
  | .graphNodeWhile | .graphNodeHold | .holdNodeReread | .graphNodeArm | .partitionEnable | .pcmdResume | .pcmdHalt
  | .pcmdSwitch | .pringrdWrite | .pringbaseWrite | .pstopbaseWrite | .pringctlWrite | .kmfifoRead | .ctxCreate | .ctxDestroy
  | .xinvCtx | .xinvPage | .xinvAll | .xinvComplete | .translationWalkDone | .yieldDeadline | .cooperativeStop
  | .cooperativeTimeout | .contextFlip | .bankSpillRestore | .haltLineArrival | .stopRecordsDone | .plotRowAttempt
  | .markCommit | .timingLimit | .plotRelease | .tstepFeedPresent | .cfgSwitching | .cfgBackgroundDone | .spliceStagingDone
  | .streamNodeRead | .streamNodeFire | .chainFire | .decoderSegmentDecode | .decoderWordDeliver | .scaleCacheFill
  | .taskSchedulerCycle | .tskctlWrite | .ttbaseWrite | .queueMessageArrival | .routerForward | .packetDeliver
  | .routeTableWrite | .timedActionFire | .domainWindowBoundary | .servoAdjust | .ptpEvent | .ethLinkEvent
  | .remoteAccessArrival | .l1SectorAgeWriteback | .bankIdleLower | .bankWakeComplete | .bwphApply | .bankPhaseWakeStart
  | .bwphPhaseTime | .bpcClassWrite | .budgetIntervalBoundary | .clQreqWrite | .clSwallowReqWrite | .quiescePointChange
  | .swallowForceTimeout | .clRailReqWrite | .railTransitionDone | .clWakeWrite | .clusterWakeDone | .thermalSample
  | .energyInterval | .ballastStep | .rmcWake | .rmcDoorbell | .retcmdTest | .testComplete | .retcmdRetire | .retcmdCellbad
  | .retireComplete | .patrolScrub | .sliceRowRemap | .dbgctlHaltall | .dbgctlResumeall | .testPortHalt | .collComplete
  | .illegalEncoding | .instructionFetchFault | .streamNodeWriteWalk | .remoteAcknowledgement | .ethFrameRetransmit
  | .servoLockChange => Encoding.ofEvent rfl

/-- The decoder lets only well-formed instructions pass. -/
theorem wellFormed_of_decode {i : Instr} {w : IWord} (h : decode w = .ok i) : i.wellFormed = true := by
  unfold decode at h
  split at h
  · next j _ =>
    split at h
    · next hwf =>
      cases h
      exact hwf
    · cases h
  · cases h

/-- Settles O56: the encoding law of every instruction (`encoding_law`), and the test at the decoder's end (`wellFormed_of_decode`). -/
theorem everyEncodedInstructionDecodesBack : Obligations.EveryEncodedInstructionDecodesBack :=
  ⟨encoding_law, fun _ _ => wellFormed_of_decode⟩

end Sys2Proof.Proofs
end

section
/-! SUPPORT. Under which guard each instruction is issued (05 R119, R124). -/

namespace Sys2Proof.Machine

open Sys2Proof.Claims

variable (s : State) {i : Instr} {g : PReg}

/-- The issue of an instruction that nothing forbids, under a false guard: no effect (05 R124). -/
theorem issue_skip {fk : Forked} {body : Eff} (hf : s.me.forked = false) (hg : s.getP g = false) :
    s.issue fk false g body = .next s.retire := by
  simp [State.issue, hf, hg]

/-- A guarded instruction is issued under its guard, but for WTBL, which leaves a refused table's slot behind when it traps: it is
issued so where it does not perform at once. -/
theorem exec_of_guardOf (h : guardOf i = some g) (hskip : s.getP g = false) : ∃ fk body, exec i s = s.issue fk false g body := by
  cases i
  case wtbl a b p =>
    cases h
    exact ⟨_, _, if_pos (by simp [hskip])⟩
  all_goals cases h <;> exact ⟨_, _, rfl⟩

end Sys2Proof.Machine

namespace Sys2Proof.Proofs

open Sys2Proof.Machine Sys2Proof.Claims

/-- Settles O7: a guarded instruction is issued under its guard (`exec_of_guardOf`), and its issue ends at a false one (`issue_skip`). -/
theorem falseGuardHasNoEffect : Obligations.FalseGuardHasNoEffect := by
  intro i g s hi hg hf
  obtain ⟨fk, body, hexec⟩ := exec_of_guardOf s hi hg
  exact hexec.trans (issue_skip s hf hg)

end Sys2Proof.Proofs
end

section
/-! SUPPORT. Every instruction, event, action and step answers a next state (log 2). -/

namespace Sys2Proof.Machine

variable (s : State)

/-- A choice between two outcomes answers a next state when both do. -/
theorem exists_next_ite {c : Prop} [Decidable c] {x y : Host.Outcome State Fault Refusal} (hx : ∃ t, x = .next t) (hy : ∃ t, y = .next t) :
    ∃ t, (if c then x else y) = .next t := by
  split
  · exact hx
  · exact hy

theorem execSplice_next : ∃ t, execSplice s = .next t := by
  unfold execSplice
  split
  · exact exists_next_ite ⟨_, rfl⟩ (issue_next ..)
  · exact issue_next ..

theorem execWtbl_next (a b : SReg) (g : PReg) : ∃ t, execWtbl a b g s = .next t := by
  unfold execWtbl
  refine exists_next_ite (issue_next ..) ?_
  split
  · exact exists_next_ite (issue_next ..) ⟨_, rfl⟩
  · exact issue_next ..

/-- An event's meaning is a next state. -/
theorem exec_event_next {i : Instr} (h : encodeNat i = none) : ∃ t, exec i s = .next t := by
  cases i
  case queueMessageArrival => exact exists_next_ite ⟨_, rfl⟩ ⟨_, rfl⟩
  all_goals cases h <;> exact ⟨_, rfl⟩

/-- A headgate instruction is issued under its guard, where it does not trap before. -/
theorem exec_instr_next {i : Instr} {n : Nat} (h : encodeNat i = some n) : ∃ t, exec i s = .next t := by
  cases i
  case mrd | mwr => exact exists_next_ite ⟨_, rfl⟩ (issue_next ..)
  case swq => exact exists_next_ite (issue_next ..) ⟨_, rfl⟩
  case pick => exact exists_next_ite ⟨_, rfl⟩ (exists_next_ite (issue_next ..) ⟨_, rfl⟩)
  case splice => exact execSplice_next s
  case wtbl a b g => exact execWtbl_next s a b g
  all_goals cases h <;> exact issue_next ..

theorem exec_next (i : Instr) : ∃ t, exec i s = .next t := by
  cases h : encodeNat i with
  | none => exact exec_event_next s h
  | some n => exact exec_instr_next s h

theorem issueNext_next (k : Nat) : ∃ t, issueNext k s = .next t := by
  unfold issueNext
  dsimp only
  split
  · split
    · exact exists_next_ite (exec_next ..) ⟨_, rfl⟩
    · exact exists_next_ite (exec_next ..) ⟨_, rfl⟩
  · exact exists_next_ite (exec_next ..) ⟨_, rfl⟩
  · exact ⟨_, rfl⟩

theorem act_next (a : Action) : ∃ t, act a s = .next t := by
  cases a with
  | issue k => exact exists_next_ite (issueNext_next s k) ⟨s, rfl⟩
  | event i inp => exact exists_next_ite (exists_next_ite (exec_next _ i) ⟨s, rfl⟩) ⟨s, rfl⟩
  | evict | evictI | evictL2 | pick | ecc => exact ⟨_, rfl⟩

theorem agendaStep_next : ∃ t, agendaStep s = .next t := by
  rcases agendaStep_cases s with ⟨a, rest, -, h⟩ | ⟨n, a, rest, -, h⟩ | ⟨-, -, h⟩ | ⟨-, -, h⟩
  · exact h ▸ act_next _ a
  · exact ⟨_, h⟩
  · exact h ▸ issueNext_next s s.cur
  · exact ⟨_, h⟩

end Sys2Proof.Machine

namespace Sys2Proof.Proofs

open Sys2Proof.Machine

/-- Settles O60: an event that is due answers a next state (`exec_next`), so does what the agenda names (`agendaStep_next`), and settling
keeps it one. -/
theorem everyStepAnswersANextState : Obligations.EveryStepAnswersANextState := by
  intro s
  rcases step_cases s with ⟨e, -, h⟩ | ⟨-, h⟩
  · obtain ⟨t, ht⟩ := exec_next { s.noted (s.eventPlaces e.1 e.2) with inp := e.2 } e.1
    exact ⟨_, h.trans (congrArg settled ht)⟩
  · obtain ⟨t, ht⟩ := agendaStep_next s
    exact ⟨_, h.trans (congrArg settled ht)⟩

end Sys2Proof.Proofs
end

section
/-! SUPPORT. MRD and MWR: which registers there are, what a write of one does, and the checks before (05 R112; 06 R159). -/

namespace Sys2Proof.Machine

open Sys2Proof.Claims

variable (s : State)

/-- An instruction of system mode that nothing else forbids, in user mode. -/
theorem issue_priv {fk : Forked} {g : PReg} {body : Eff} (hf : fk = .banned → s.me.forked = false) (hs : s.me.sys = false) :
    s.issue fk true g body = .next (s.precise cPriv []) := by
  have hfk : (s.me.forked && decide (fk = .banned)) = false := by
    by_cases h : fk = .banned
    · simp [hf h]
    · simp [h]
  simp [State.issue, hfk, hs]

section Issue

variable {fk : Forked} {body : Eff} {r : Nat} (hf : fk = .banned → s.me.forked = false)
include hf

/-- The issue of MRD or MWR for a register that the mode gives access to, and for one that it does not. -/
theorem issue_register (h : r < 0x100 ∨ s.me.sys = true) : s.issue fk (decide (0x100 ≤ r)) 0 body = .next (s.finish body) :=
  issue_run s hf (fun hr => h.resolve_left (by simpa using hr)) rfl

theorem issue_register_priv (hr : 0x100 ≤ r) (hs : s.me.sys = false) :
    s.issue fk (decide (0x100 ≤ r)) 0 body = .next (s.precise cPriv []) := by
  rw [decide_eq_true hr]
  exact issue_priv s hf hs

end Issue

/-! ## MRD -/

/-- The table of the registers' values has an entry for the assigned numbers, the value that is read. -/
theorem registerValue_eq (r : Nat) : registerValue s r = if sysRegOk r then some (s.sysRead r) else none := by
  unfold registerValue
  split
  case h_13 => simp_all [sysRegOk]
  all_goals rfl

variable {r : BitVec 10} {d a : SReg}

theorem exec_mrd_unassigned (h : sysRegOk r.toNat = false) : traps (.mrd r d) s cIllegal [] :=
  if_pos (by simp [h])

theorem exec_mrd_assigned (h : sysRegOk r.toNat = true) :
    exec (.mrd r d) s = s.issue .normal (decide (0x100 ≤ r.toNat)) 0 (done (s.setS d (s.sysRead r.toNat))) :=
  if_neg (by simp [h])

/-! ## MWR -/

/-- MWR of a register that is read-only or unassigned. -/
theorem exec_mwr_unwritable (h : (!sysRegOk r.toNat || sysRegRo r.toNat) = true) : traps (.mwr r a) s cIllegal [] :=
  if_pos h

/-- The numbers that MWR accepts: those of the table of written registers, and the two role registers. -/
theorem writable_iff (h : Hg) (v : Word) (r : Nat) :
    (!sysRegOk r || sysRegRo r) = false ↔ (∃ k, registerWritten h v r = some k) ∨ r = 0x110 ∨ r = 0x111 := by
  unfold registerWritten
  split
  case h_8 =>
    simp only [reduceCtorEq, exists_false, false_or]
    simp [sysRegOk, sysRegRo]
    grind
  all_goals simp [sysRegOk, sysRegRo]

/-- A register of the table takes its value; FMODE does when the rounding mode is assigned. -/
theorem sysWrite_registerWritten {n : Nat} {v : Word} {h : Hg} (hn : registerWritten s.me v n = some h)
    (hrm : n = 0x010 → v.toNat % 8 ≤ 4) : s.sysWrite n v = .ok (s.setMe h) := by
  unfold registerWritten at hn
  split at hn <;> cases hn
  case h_1 => simp [State.sysWrite, bits, hrm]
  case h_2 => simp [State.sysWrite, bits]
  case h_3 =>
    have hbit : (!bit v.toNat 0) = (v.toNat % 2 == 0) := by
      rcases Nat.mod_two_eq_zero_or_one v.toNat with h | h <;> simp [bit, h]
    rw [← hbit]
    rfl
  all_goals rfl

theorem sysWrite_rounding {v : Word} (h : 4 < v.toNat % 8) : s.sysWrite 0x010 v = .error (.fault cIllegal []) := by
  simp [State.sysWrite, bits, Nat.not_le.mpr h]

theorem rolesOk_iff (v : Word) : rolesOk v = true ↔ ∀ k, k < 16 → v.toNat / 16 ^ k % 16 ≤ 4 := by
  simp [rolesOk, bits, Nat.pow_mul]

/-- A role image waits as pending when every role of it is assigned (01 R15). -/
theorem roleWrite_eq (c which : Nat) (v : Word) : s.roleWrite c which v =
    if rolesOk v then .ok (s.modCore c fun k => if which = 0 then { k with pendRole0 := some v } else { k with pendRole1 := some v })
    else .error (.fault cIllegal []) := by
  cases h : rolesOk v <;> simp [State.roleWrite, h]

variable (hf : s.me.forked = false) (hw : (!sysRegOk r.toNat || sysRegRo r.toNat) = false)
include hf hw

/-- MWR of a register that can be written, in a mode that gives access to it: the write's own checks and effect. -/
theorem exec_mwr_writable (hmode : r.toNat < 0x100 ∨ s.me.sys = true) :
    exec (.mwr r a) s = .next (s.finish (do done (← s.sysWrite r.toNat (s.getS a)))) :=
  (if_neg (by simp [hw])).trans (issue_register s (fun _ => hf) hmode)

theorem mwr_goesOn {t : State} (hmode : r.toNat < 0x100 ∨ s.me.sys = true) (ht : s.sysWrite r.toNat (s.getS a) = .ok t) :
    goesOn (.mwr r a) s t := by
  rw [goesOn, exec_mwr_writable s hf hw hmode, ht]
  rfl

theorem mwr_traps {c : Nat} (hmode : r.toNat < 0x100 ∨ s.me.sys = true) (ht : s.sysWrite r.toNat (s.getS a) = .error (.fault c [])) :
    traps (.mwr r a) s c [] := by
  rw [traps, exec_mwr_writable s hf hw hmode, ht]
  rfl

theorem mwr_priv (hr : 0x100 ≤ r.toNat) (hs : s.me.sys = false) : traps (.mwr r a) s cPriv [] :=
  (if_neg (by simp [hw])).trans (issue_register_priv s (fun _ => hf) hr hs)

end Sys2Proof.Machine

namespace Sys2Proof.Proofs

open Sys2Proof.Machine Sys2Proof.Claims

/-- Settles O14: the table of values is what MRD reads (`registerValue_eq`), under the check of the mode. -/
theorem mrdReadsEveryRegister : Obligations.MrdReadsEveryRegister := by
  intro s r d
  rw [registerValue_eq]
  cases h : sysRegOk r.toNat
  · exact ⟨by simp, by simp, fun _ => exec_mrd_unassigned s h⟩
  · refine ⟨?_, ?_, by simp⟩
    · rintro v ⟨rfl⟩ hmode
      exact (exec_mrd_assigned s h).trans (issue_register s nofun hmode)
    · rintro v ⟨rfl⟩ hr hs
      exact (exec_mrd_assigned s h).trans (issue_register_priv s nofun hr hs)

/-- Settles O15: MWR accepts the numbers of the table of written registers and the two role registers (`writable_iff`), under the check of the
mode; what it then does is `sysWrite_registerWritten` and `roleWrite_eq`, and `sysWrite_rounding` where a rounding mode is refused. -/
theorem mwrWritesEveryRegister : Obligations.MwrWritesEveryRegister := by
  intro s r a hf
  have hw := writable_iff s.me (s.getS a) r.toNat
  refine ⟨?_, ?_, ?_, ?_, ?_, ?_, ?_⟩
  · intro h hh hmode hrm
    exact mwr_goesOn s hf (hw.2 (.inl ⟨h, hh⟩)) hmode (sysWrite_registerWritten s hh hrm)
  · intro hr hrm
    refine mwr_traps s hf (hw.2 ?_) (.inl (by omega)) ?_
    · rw [hr]
      exact .inl ⟨_, rfl⟩
    · rw [hr]
      exact sysWrite_rounding s hrm
  · intro hr hs hroles
    refine mwr_goesOn s hf (hw.2 (.inr (.inl hr))) (.inr hs) ?_
    rw [hr]
    exact (roleWrite_eq s _ 0 _).trans (if_pos ((rolesOk_iff _).2 hroles))
  · intro hr hs hroles
    refine mwr_goesOn s hf (hw.2 (.inr (.inr hr))) (.inr hs) ?_
    rw [hr]
    exact (roleWrite_eq s _ 1 _).trans (if_pos ((rolesOk_iff _).2 hroles))
  · rintro hr hs ⟨k, hk, hrole⟩
    have hroles : ¬rolesOk (s.getS a) = true := fun h => absurd ((rolesOk_iff _).1 h k hk) (by omega)
    refine mwr_traps (c := cIllegal) s hf (hw.2 (.inr hr)) (.inr hs) ?_
    rcases hr with hr | hr <;> rw [hr] <;> exact (roleWrite_eq s _ _ _).trans (if_neg hroles)
  · intro h hr hs
    exact mwr_priv s hf (hw.2 h) hr hs
  · intro hn h0 h1
    exact exec_mwr_unwritable s (Bool.eq_true_of_not_eq_false fun h => by simp_all)

end Sys2Proof.Proofs
end

section
/-! SUPPORT. A precise trap of a headgate: where its record goes, and what taking it leaves alone (05 R123; 14 R327, R337; 18 R384,
R385). -/

namespace Sys2Proof.Machine

open Sys2Proof.Claims

variable (s : State)

/-! ## What a store of the device at a home leaves alone -/

theorem writeN_eq (n : Nat) : ∀ (s : State) (a v : Nat), ∃ m, s.writeN a n v = { s with mem := m } := by
  induction n with
  | zero => exact fun s _ _ => ⟨s.mem, rfl⟩
  | succ n ih => exact fun s a v => ih (s.setByte a _) (a + 1) (v / 256)

/-- A write at a home changes the memory, and in the module's own state no more than the poisoned words. -/
theorem homeWrite_eq (a n v : Nat) : ∃ m d, s.homeWrite a n v = { s with mem := m, mod := d } := by
  obtain ⟨m, hm⟩ := writeN_eq n s a v
  rw [State.homeWrite, hm, State.unpoison]
  split
  · exact ⟨m, s.mod, rfl⟩
  · exact ⟨m, _, rfl⟩

/-- A view of the state that an access's touch of banks never changes: it sees no cluster, and of a partition not that bytes of it are lost. -/
structure Untouched {α : Type} (f : State → α) : Prop where
  cluster : ∀ s k x, f (s.setCluster k x) = f s
  lost : ∀ s k, f (s.modPart k fun q => { q with lostBw := true, lostBwWt := s.wt }) = f s

section Untouched

variable {s} {α : Type} {f : State → α} (hf : Untouched f)
include hf

theorem Untouched.touchBank (cl n : Nat) : f (s.touchBank cl n) = f s := by
  have hbank : ∀ (s : State) (g : Bank → Bank), f (s.modBank cl n g) = f s := fun s g => hf.cluster s _ _
  have hwake : f (s.beginWake cl n) = f s := by
    unfold State.beginWake
    dsimp only
    split
    · rfl
    · exact hbank _ _
  unfold State.touchBank
  dsimp only
  split
  · rw [foldl_keeps _ f _ hf.lost, modCluster_eq, hf.cluster, hbank, hwake]
  · rw [hbank, hwake]

theorem Untouched.devTouch (l : List (Nat × Nat)) : f (s.devTouch l) = f s :=
  foldl_keeps s f _ (fun _ _ => hf.touchBank _ _) l

variable (hl : noLineLost s)
include hl

/-- A line that leaves an L2 slice clears no byte when its DRAM bank has lost none. -/
theorem Untouched.l2Evict (cl line w : Nat) : f (s.l2Evict cl line w) = f s := by
  unfold State.l2Evict
  split
  · rfl
  · next x hx =>
    simp only [hl cl line x hx, modCluster_eq, hf.cluster]
    split
    · exact (hf.cluster _ _ _).trans (hf.devTouch _)
    · rfl

theorem Untouched.touchAs (sp a w : Nat) (st : Bool) : f (s.touchAs sp a w st) = f s := by
  have hevict : ∀ cl (v : Option (Nat × L2Line)), f (match v with | some x => s.l2Evict cl x.1 w | none => s) = f s := by
    intro cl v
    cases v with
    | none => rfl
    | some x => exact hf.l2Evict hl cl x.1 w
  unfold State.touchAs
  split
  · rfl
  · split
    · exact hf.touchBank _ _
    · dsimp only
      split <;> simp only [modCluster_eq, hf.cluster, hf.touchBank]
      exact hevict _ _

/-- A device's store of one line, for a view that memory and the module's own state do not change either. -/
theorem Untouched.devStore (hm : ∀ m d, f { s with mem := m, mod := d } = f s) (a v : Nat) : f (s.devStore a 64 v) = f s := by
  obtain ⟨m, d, hw⟩ := homeWrite_eq s a 64 v
  have hl' : noLineLost (s.homeWrite a 64 v) := by rw [hw]; exact hl
  show f ((s.homeWrite a 64 v).touchAs 0 a 0 true) = f s
  rw [hf.touchAs hl', hw, hm]

end Untouched

theorem untouched_mem : Untouched State.mem := ⟨fun _ _ _ => rfl, fun _ _ => rfl⟩
theorem untouched_mod : Untouched State.mod := ⟨fun _ _ _ => rfl, fun _ _ => rfl⟩
theorem untouched_hg (k : Nat) : Untouched (State.hg · k) := ⟨fun _ _ _ => rfl, fun _ _ => rfl⟩
theorem untouched_core (c : Nat) : Untouched (State.core · c) := ⟨fun _ _ _ => rfl, fun _ _ => rfl⟩
theorem untouched_cur : Untouched State.cur := ⟨fun _ _ _ => rfl, fun _ _ => rfl⟩
theorem untouched_wt : Untouched State.wt := ⟨fun _ _ _ => rfl, fun _ _ => rfl⟩

/-- A field of a partition other than the two of lost bytes. -/
theorem untouched_part {β : Type} (p : Nat) (g : Part → β) (hg : ∀ q n, g { q with lostBw := true, lostBwWt := n } = g q) :
    Untouched fun s => g (s.part p) where
  cluster _ _ _ := rfl
  lost s k := by
    simp only [modPart_eq, part_setPart]
    split
    · next h => rw [hg, h]
    · rfl

section DevStore

variable {s} (hl : noLineLost s) (a v : Nat)
include hl

theorem hg_devStore (k : Nat) : (s.devStore a 64 v).hg k = s.hg k := (untouched_hg k).devStore hl (fun _ _ => rfl) a v
theorem core_devStore (c : Nat) : (s.devStore a 64 v).core c = s.core c := (untouched_core c).devStore hl (fun _ _ => rfl) a v
theorem cur_devStore : (s.devStore a 64 v).cur = s.cur := untouched_cur.devStore hl (fun _ _ => rfl) a v
theorem wt_devStore : (s.devStore a 64 v).wt = s.wt := untouched_wt.devStore hl (fun _ _ => rfl) a v
theorem wr_devStore (p : Nat) : ((s.devStore a 64 v).part p).wr = (s.part p).wr :=
  (untouched_part p Part.wr fun _ _ => rfl).devStore hl (fun _ _ => rfl) a v
theorem halted_devStore (p : Nat) : ((s.devStore a 64 v).part p).halted = (s.part p).halted :=
  (untouched_part p Part.halted fun _ _ => rfl).devStore hl (fun _ _ => rfl) a v

theorem byte_devStore (x : Nat) : (s.devStore a 64 v).byte x = (s.homeWrite a 64 v).byte x := by
  obtain ⟨m, d, hw⟩ := homeWrite_eq s a 64 v
  have hl' : noLineLost (s.homeWrite a 64 v) := by rw [hw]; exact hl
  exact byte_congr (untouched_mem.touchAs hl' ..) (congrArg Module.undef (untouched_mod.touchAs hl' ..)) x

variable (hm : s.memOk)
include hm

theorem readN_devStore : (s.devStore a 64 v).readN a 64 = v % 2 ^ 512 := by
  rw [readN_congr (byte_devStore hl a v), readN_homeWrite s hm, show 512 = 8 * 64 from rfl, Nat.pow_mul]

theorem byte_devStore_outside (x : Nat) (hx : x < a ∨ a + 64 ≤ x) : (s.devStore a 64 v).byte x = s.byte x := by
  rw [byte_devStore hl, byte_homeWrite_outside s hm _ _ _ _ hx]

end DevStore

/-! ## The record and the halt line -/

/-- Where a partition's ring takes its next record (18 R385). -/
def ringSlot (q : Part) : Nat := region5 q.ringbase + 64 * (q.wr % 2 ^ q.logsize)

/-- A partition's ring takes a record of the own format while it has room (18 R385). -/
theorem putRecord_ring {p : Nat} {r : TrapRec} (hc : (s.part p).compat = false) (hb : (s.part p).ringbase ≠ 0)
    (hroom : ((s.part p).wr + 2 ^ 32 - (s.part p).rd) % 2 ^ 32 < 2 ^ (s.part p).logsize) :
    s.putRecord p r = (s.devStore (ringSlot (s.part p)) 64 r.image).modPart p
      fun q => { q with wr := (q.wr + 1) % 2 ^ 32 } := by
  have hfull : ¬((s.part p).ringbase = 0 ∨ ((s.part p).wr + 2 ^ 32 - (s.part p).rd) % 2 ^ 32 ≥ 2 ^ (s.part p).logsize) := by
    rintro (h | h)
    · exact hb h
    · exact absurd h (Nat.not_le.mpr hroom)
  simp only [State.putRecord, hc, hfull, Bool.false_eq_true, if_false, ringSlot]

/-- A headgate that a precise trap stops at its own PC; a fault at a word of a loop body leaves its address in EPC (06 R147; 14 R327). -/
def Hg.trapped (h : Hg) (cause wt : Nat) : Hg :=
  { h with
    stopped := true
    stop := ⟨cause, 0, wt, h.pc.toNat, 0⟩
    epc := if ∃ l ∈ h.loops, l.start.toNat ≤ h.pc.toNat ∧ h.pc.toNat ≤ l.stop.toNat then h.pc else h.epc }

/-- A partition's ring has taken a record, and its halt line goes up (14 R337; 18 R385). -/
def State.recorded (s : State) (p : Nat) : State :=
  (s.modPart p fun q => { q with wr := (q.wr + 1) % 2 ^ 32 }).modPart p fun q => { q with halted := true, done := false, haltWt := s.wt }

theorem byte_recorded (p x : Nat) : (s.recorded p).byte x = s.byte x := byte_congr rfl rfl x
theorem hg_recorded (p k : Nat) : (s.recorded p).hg k = s.hg k := rfl
theorem core_recorded (p c : Nat) : (s.recorded p).core c = s.core c := rfl
theorem cur_recorded (p : Nat) : (s.recorded p).cur = s.cur := rfl
theorem part_recorded (p : Nat) : (s.recorded p).part p =
    { s.part p with wr := ((s.part p).wr + 1) % 2 ^ 32, halted := true, done := false, haltWt := s.wt } := by
  simp [State.recorded]

/-- The state in which a headgate's trap writes its record: the headgate has stopped, and its core has given a SEQ. -/
def State.trapped (s : State) (cause : Nat) : State :=
  (s.setMe (s.me.trapped cause s.wt)).modCore (coreOf s.cur) fun k => { k with seq := (k.seq + 1) % 2 ^ 32 }

theorem hg_trapped (cause k : Nat) : (s.trapped cause).hg k = if k = s.cur then s.me.trapped cause s.wt else s.hg k := by
  simp [State.trapped, State.setMe]

theorem seq_trapped (cause : Nat) : ((s.trapped cause).core (coreOf s.cur)).seq = ((s.core (coreOf s.cur)).seq + 1) % 2 ^ 32 := by
  simp [State.trapped, State.setMe]

/-- The record of a headgate's trap at its own PC (18 R384). -/
def State.trapRec (s : State) (p cause : Nat) (d : List Nat) : TrapRec :=
  { cause, repeat_ := false, unit := 0, hg := hgnOf s.cur, x := coreX (coreOf s.cur), y := coreY (coreOf s.cur), ctx := (s.part p).active,
    lcore := s.lcore (coreOf s.cur), plot := 0xFFFF, seq := (s.core (coreOf s.cur)).seq, iaddr := s.me.pc, wt := s.wt, d }

section Headgate

variable {s} {p : Nat} (cause : Nat) (d : List Nat) (hcur : isRmc s.cur = false) (hp : s.partOf (coreOf s.cur) = some p)
include hcur hp

theorem precise_headgate : s.precise cause d = ((s.trapped cause).putRecord p (s.trapRec p cause d)).haltLine p := by
  have hme : s.me.trapped cause s.wt = { s.me with
      stopped := true, stop := ⟨cause, 0, s.wt, s.me.pc.toNat, 0⟩,
      epc := if s.me.loops.any fun l => decide (l.start.toNat ≤ s.me.pc.toNat ∧ s.me.pc.toNat ≤ l.stop.toNat) then s.me.pc
        else s.me.epc } := by
    simp only [Hg.trapped, List.any_eq_true, decide_eq_true_eq]
  unfold State.precise State.trapAt
  rw [if_neg (by simp [hcur])]
  dsimp only
  split
  · next q hq =>
    rw [Option.some.inj (hq.symm.trans hp), State.trapped, hme]
    rfl
  · next hq => cases hq.symm.trans hp

variable (hc : (s.part p).compat = false) (hb : (s.part p).ringbase ≠ 0)
  (hroom : ((s.part p).wr + 2 ^ 32 - (s.part p).rd) % 2 ^ 32 < 2 ^ (s.part p).logsize) (hh : (s.part p).halted = false) (hl : noLineLost s)
include hc hb hroom hh hl

/-- A trap that finds room in the ring and the halt line down: what its record's store leaves, the partition's WR and its halt line. -/
theorem precise_ring :
    s.precise cause d = ((s.trapped cause).devStore (ringSlot (s.part p)) 64 (s.trapRec p cause d).image).recorded p := by
  have hhalt := (halted_devStore (s := s.trapped cause) hl (ringSlot (s.part p)) (s.trapRec p cause d).image p).trans hh
  rw [precise_headgate cause d hcur hp, putRecord_ring (s.trapped cause) hc hb hroom,
    show (s.trapped cause).part p = s.part p from rfl]
  exact if_neg (by simpa using hhalt)

end Headgate

end Sys2Proof.Machine

namespace Sys2Proof.Proofs

open Sys2Proof.Machine Sys2Proof.Claims

/-- Settles O20: the trap leaves what its record's store leaves, with WR and the halt line moved (`precise_ring`); that store changes the
record's bytes alone (`readN_devStore`, `byte_devStore_outside`) and touches banks, which no other part named here sees (`Untouched`). -/
theorem preciseTrapIsRecorded : Obligations.PreciseTrapIsRecorded := by
  intro s p cause d hm hcur hp hc hb hroom hh hl
  have hmu : (s.trapped cause).memOk := hm
  have hlu : noLineLost (s.trapped cause) := hl
  dsimp only
  rw [precise_ring cause d hcur hp hc hb hroom hh hl, readN_congr (byte_recorded _ p), part_recorded]
  refine ⟨readN_devStore hlu _ _ hmu, fun x hx => ?_, congrArg (fun n => (n + 1) % 2 ^ 32) (wr_devStore hlu _ _ p), rfl, rfl,
    wt_devStore hlu _ _, ?_, fun k hk => ?_, ?_⟩
  · rw [byte_recorded]
    exact byte_devStore_outside hlu _ _ hmu x hx
  · rw [State.me, hg_recorded, hg_devStore hlu, cur_recorded, cur_devStore hlu, hg_trapped]
    exact if_pos rfl
  · rw [hg_recorded, hg_devStore hlu, hg_trapped, if_neg hk]
  · rw [core_recorded, core_devStore hlu, seq_trapped]

end Sys2Proof.Proofs
end

section
/-! SUPPORT. The state right after reset, part by part: an absent entry of a table is the part at its reset values. -/

namespace Sys2Proof.Machine

theorem vector_get_replicate {α : Type} {n : Nat} (x : α) (i : Fin n) : (Vector.replicate n x).get i = x :=
  Vector.getElem_replicate i.isLt

theorem hg_reset (k : Nat) : State.reset.hg k = resetHg k := rfl
theorem core_reset (c : Nat) : State.reset.core c = {} := rfl
theorem part_reset (p : Nat) : State.reset.part p = {} := rfl

/-- No message waits in a queue of a core after reset. -/
theorem queue_reset (q : Nat) : ({} : Core).queue q = [] := vector_get_replicate [] _

/-- No sluice of a core is set after reset. -/
theorem sluice_reset (n : Nat) : ({} : Core).sluice n = {} := vector_get_replicate ({} : Sluice) _

end Sys2Proof.Machine

namespace Sys2Proof.Proofs
open Sys2Proof.Machine Sys2Proof.Claims

/-- Settles O58: every table of the reset state is empty, so that each part has the values of its declaration (`hg_reset`, `core_reset`,
`part_reset`). -/
theorem resetLeaves : Obligations.ResetLeaves := by
  refine ⟨rfl, reset_memOk, rfl, fun k => ?_, fun c => ?_, fun p => ?_, fun _ => rfl, fun _ => rfl, rfl, rfl, rfl, rfl, rfl, rfl, rfl⟩
  · rw [hg_reset]
    exact ⟨rfl, rfl, rfl, rfl, rfl, rfl, rfl, rfl, rfl, rfl, rfl, rfl, rfl, rfl, rfl⟩
  · rw [core_reset]
    exact ⟨rfl, rfl, queue_reset, rfl, fun n => by rw [sluice_reset], rfl⟩
  · rw [part_reset]
    exact ⟨rfl, rfl, rfl, rfl⟩

end Sys2Proof.Proofs
end

section
/-! SUPPORT. How a step goes, case by case: the fetched word of the sequencer that issues, the agenda's item (06 R143; logs 1, 10). -/

namespace Sys2Proof.Machine

variable (s : State)

/-- A word that the instruction cache holds is fetched from there (05 R110). -/
theorem fetch_cached {w : IWord} (h : SMap.get? s.me.icache s.me.pc.toNat = some w) : s.fetch = .ok (s, w) := by
  simp only [State.fetch, h]

theorem step_forced {e : Event} (h : s.forced = some e) : step s = settled (forcedStep e s) := by
  simp only [step, h]

section Unforced

variable {s} (hf : s.forced = none)
include hf

theorem step_unforced : step s = settled (agendaStep s) := by
  simp only [step, hf]

/-- With an empty agenda the current sequencer issues, or a tick passes. -/
theorem step_issues (ha : s.agenda = []) (hi : s.issues s.cur = true) : step s = settled (issueNext s.cur s) := by
  simp only [step_unforced hf, agendaStep, ha, hi, if_true]

theorem step_idle (ha : s.agenda = []) (hi : s.issues s.cur = false) : step s = settled (.next s.tick) := by
  simp only [step_unforced hf, agendaStep, ha, hi, Bool.false_eq_true, if_false]

/-- With an item on the agenda, its action takes place once its ticks have passed. -/
theorem step_acts {a : Action} {rest : List Item} (ha : s.agenda = ⟨0, a⟩ :: rest) : step s = settled (act a { s with agenda := rest }) := by
  simp only [step_unforced hf, agendaStep, ha]

theorem step_ticks {n : Nat} {a : Action} {rest : List Item} (ha : s.agenda = ⟨n + 1, a⟩ :: rest) :
    step s = settled (.next ({ s with agenda := ⟨n, a⟩ :: rest } : State).tick) := by
  simp only [step_unforced hf, agendaStep, ha]

end Unforced

/-! ## The issue of the current sequencer's next word -/

theorem noted_inp (l : List Place) : (s.noted l).inp = s.inp :=
  foldl_keeps s State.inp _ (fun s x => by unfold State.noteTurn; split <;> rfl) l

section Issue

variable {s} {t : State} {w : IWord} {i : Instr}

theorem issueNext_runs (hfetch : s.fetch = .ok (t, w)) (hd : decode w = .ok i) (ha : s.allows (s.issuePlaces s.cur i) = true) :
    issueNext s.cur s = exec i (t.noted (s.issuePlaces s.cur i)) :=
  issueNext_run s hfetch hd ha

theorem issueNext_late (hfetch : s.fetch = .ok (t, w)) (hd : decode w = .ok i) (ha : s.allows (s.issuePlaces s.cur i) = false) :
    issueNext s.cur s = .next (s.noteTurn (.seqr s.cur) 0) := by
  simp only [issueNext, hfetch, hd, ha, Bool.false_eq_true, if_false]

theorem issueNext_illegal (hfetch : s.fetch = .ok (t, w)) (hd : ∀ i, decode w ≠ .ok i)
    (ha : s.allows (s.issuePlaces s.cur .illegalEncoding) = true) :
    issueNext s.cur s = .next ((t.noted (s.issuePlaces s.cur .illegalEncoding)).precise cIllegal []) := by
  cases he : decode w with
  | ok i => exact absurd he (hd i)
  | error e =>
    simp only [issueNext, hfetch, he, ha, if_true]
    rfl

theorem issueNext_fault {c : Nat} {d : List Nat} (hfetch : s.fetch = .error (.fault c d))
    (ha : s.allows (s.issuePlaces s.cur .instructionFetchFault) = true) :
    issueNext s.cur s =
      .next ((({ s with inp := { idx := c, data := d } } : State).noted (s.issuePlaces s.cur .instructionFetchFault)).precise c d) := by
  simp only [issueNext, hfetch, ha, if_true]
  show execInstructionFetchFault _ = _
  simp only [execInstructionFetchFault, noted_inp]

theorem issueNext_wait {x : Wait} (hfetch : s.fetch = .error (.wait x)) :
    issueNext s.cur s = .next ((s.startWait s.cur x).noteTurn (.seqr s.cur) 0) := by
  simp only [issueNext, hfetch]
  rfl

theorem issueNext_held {x : Wait} (hfetch : s.fetch = .error (.held t x)) :
    issueNext s.cur s = .next ((t.startWait s.cur x).noteTurn (.seqr s.cur) 0) := by
  simp only [issueNext, hfetch]
  rfl

end Issue

/-! ## The agenda's actions -/

section Act

variable {s} {k : Nat} {i : Instr} {inp : Inp}

theorem act_issue (h : s.issues k = true) : act (.issue k) s = issueNext k s := if_pos h

theorem act_issue_idle (h : s.issues k = false) : act (.issue k) s = .next s := if_neg (by simp [h])

/-- An event of the agenda takes place in its turn. -/
theorem act_event (h : isEvent i = true) (ha : s.allows (s.eventPlaces i inp) = true) :
    act (.event i inp) s = exec i { s.noted (s.eventPlaces i inp) with inp } :=
  (if_pos h).trans (if_pos ha)

theorem act_event_late (h : isEvent i = true) (ha : s.allows (s.eventPlaces i inp) = false) : act (.event i inp) s = .next s :=
  (if_pos h).trans (if_neg (by simp [ha]))

theorem act_event_instr (h : isEvent i = false) : act (.event i inp) s = .next s := if_neg (by simp [h])

/-- A constructor is an event of the agenda when it has no word and is none of the two steps of a sequencer without an instruction. -/
theorem isEvent_iff : isEvent i = true ↔ encode i = none ∧ i ≠ .illegalEncoding ∧ i ≠ .instructionFetchFault := by
  simp [isEvent, encode, and_assoc]

end Act

end Sys2Proof.Machine
namespace Sys2Proof.Proofs
open Sys2Proof.Machine Sys2Proof.Claims

/-- Settles O57: an event of its own comes first (`step_forced`); without one a step is the issue of the current sequencer's next word
(`step_issues`), a tick that passes (`step_idle`, `step_ticks`) or the agenda's first action (`step_acts`). -/
theorem stepRunsTheDecodedInstruction : Obligations.StepRunsTheDecodedInstruction := by
  intro s t w i k n c a b act d inp rest x u v l m e
  refine ⟨fetch_cached s, rfl, fun z => step_forced s, fun hf => ?_, rfl⟩
  refine ⟨fun ha => ⟨fun hi => ?_, step_idle hf ha⟩, fun ha => ?_, fun ha => ?_, step_acts hf, step_acts hf, step_acts hf, step_acts hf,
    step_acts hf, step_ticks hf⟩
  · rw [step_issues hf ha hi]
    refine ⟨fun hfetch hd => ⟨fun hall => ?_, fun hall => ?_⟩, ?_, ?_, fun hfetch => ?_, fun hfetch => ?_⟩
    · rw [issueNext_runs hfetch hd hall]
    · rw [issueNext_late hfetch hd hall]
    · rintro hfetch hd rfl hall
      rw [issueNext_illegal hfetch hd hall]
      rfl
    · rintro hfetch rfl hall
      rw [issueNext_fault hfetch hall]
    · rw [issueNext_wait hfetch]
    · rw [issueNext_held hfetch]
  · rw [step_acts hf ha]
    refine ⟨fun hi hfetch hd => ?_, fun hi => congrArg settled (act_issue_idle hi)⟩
    rw [act_issue hi]
    exact ⟨fun hall => congrArg settled (issueNext_runs hfetch hd hall), fun hall => congrArg settled (issueNext_late hfetch hd hall)⟩
  · rw [step_acts hf ha]
    refine ⟨fun henc hill hfault => ?_, fun y henc => congrArg settled (act_event_instr ?_)⟩
    · have hev : isEvent i = true := isEvent_iff.2 ⟨henc, hill, hfault⟩
      exact ⟨fun hall => congrArg settled (act_event hev hall), fun hall => congrArg settled (act_event_late hev hall)⟩
    · exact Bool.eq_false_iff.2 fun h => by simp [(isEvent_iff.1 h).1] at henc

end Sys2Proof.Proofs
end

section
/-! SUPPORT. The register instructions (06 R131 to R139; 08 R230 to R235): each is issued as one write of its destination, with the value that
its table gives, and such a write leaves the rest alone (06 R130). -/

namespace Sys2Proof.Machine

open Sys2Proof.Claims

/-! ## The values, as the tables write them -/

theorem minS_eq (x y : Word) : minS x y = if x.toInt < y.toInt then x else y := by
  simp [minS, BitVec.slt]
theorem maxS_eq (x y : Word) : maxS x y = if x.toInt < y.toInt then y else x := by
  simp [maxS, BitVec.slt]
theorem minU_eq (x y : Word) : minU x y = if x.toNat < y.toNat then x else y := by
  simp [minU, BitVec.ult]
theorem maxU_eq (x y : Word) : maxU x y = if x.toNat < y.toNat then y else x := by
  simp [maxU, BitVec.ult]

/-- A register keeps the low bits of an integer (00 R5). -/
theorem toWord_eq (x : Int) : toWord x = BitVec.ofInt 64 x := by
  have hlow : x % 2 ^ 64 < 2 ^ 64 := Int.emod_lt_of_pos x (by decide)
  apply BitVec.eq_of_toNat_eq
  rw [toWord, keep, BitVec.toNat_ofNat, BitVec.toNat_ofInt]
  omega

/-- A sign-extended number is the signed value of the bit vector of its width (04 R78). -/
theorem sx_eq_toInt (x n : Nat) : sx x (n + 1) = (BitVec.ofNat (n + 1) x).toInt := by
  rw [BitVec.toInt_eq_toNat_cond, BitVec.toNat_ofNat, sx, Nat.add_sub_cancel]
  have hpow : 2 ^ (n + 1) = 2 * 2 ^ n := Nat.pow_succ'
  by_cases h : 2 ^ n ≤ x % 2 ^ (n + 1)
  · rw [if_pos h, if_neg (by omega)]
    norm_cast
  · rw [if_neg h, if_pos (by omega)]

theorem mulH_eq (x y : Word) : mulH x y = BitVec.ofInt 64 (x.toInt * y.toInt / 2 ^ 64) := toWord_eq _
theorem divS_eq (x y : Word) : divS x y = if y = 0 then BitVec.allOnes 64 else BitVec.ofInt 64 (x.toInt.tdiv y.toInt) := by
  rw [divS, toWord_eq]
theorem remS_eq (x y : Word) : remS x y = if y = 0 then x else BitVec.ofInt 64 (x.toInt.tmod y.toInt) := by
  rw [remS, toWord_eq]
theorem divU_eq (x y : Word) : divU x y = if y = 0 then BitVec.allOnes 64 else BitVec.ofNat 64 (x.toNat / y.toNat) := by
  rw [divU, BitVec.udiv_eq, BitVec.udiv_def]
theorem remU_eq (x y : Word) : remU x y = if y = 0 then x else BitVec.ofNat 64 (x.toNat % y.toNat) := by
  rw [remU, BitVec.umod_eq, BitVec.umod_def]

theorem mkptr_eq (x y : Word) : mkptr x y = BitVec.ofNat 64 (y.toNat % 16 * 2 ^ 60 + x.toNat % 2 ^ 60) := by
  rw [mkptr, Nat.add_comm]

theorem space_eq (x : Word) : BitVec.ofNat 64 (space x) = x >>> 60 := by
  apply BitVec.eq_of_toNat_eq
  rw [BitVec.toNat_ushiftRight, BitVec.toNat_ofNat, space, Nat.shiftRight_eq_div_pow]
  omega

theorem fscVal_sel (fm a b c : Word) : fscVal fm .sel a b c =
    if c.toNat % 2 ^ 32 ≠ 0 then BitVec.ofNat 64 (a.toNat % 2 ^ 32) else BitVec.ofNat 64 (b.toNat % 2 ^ 32) := by
  show BitVec.ofNat 64 (if low32 c % 2 ^ 32 ≠ 0 then low32 a % 2 ^ 32 else low32 b % 2 ^ 32) = _
  simp only [low32, Nat.mod_mod]
  split <;> rfl

theorem fscVal_mov (fm a b c : Word) : fscVal fm .mov a b c = BitVec.ofNat 64 (a.toNat % 2 ^ 32) := by
  show BitVec.ofNat 64 (low32 a % 2 ^ 32) = _
  rw [low32, Nat.mod_mod]

theorem holds_ne (x y : Word) : Cond.holds .ne x y = decide (x ≠ y) := by
  rw [Cond.holds, bne, decide_not, beq_eq_decide]
theorem holds_ge (x y : Word) : Cond.holds .ge x y = decide (y.toInt ≤ x.toInt) := by
  rw [Cond.holds, BitVec.slt, ← decide_not, decide_eq_decide]
  exact Int.not_lt
theorem holds_gen (x y : Word) : Cond.holds .gen x y = decide (y.toNat ≤ x.toNat) := by
  rw [Cond.holds, BitVec.ult, ← decide_not, decide_eq_decide]
  exact Nat.not_lt

/-- An immediate keeps its signed value (05 R121). -/
theorem toInt_simm (i : BitVec 16) : (simm i).toInt = i.toInt := BitVec.toInt_signExtend_of_le (by decide)
theorem holds_lt_simm (x : Word) (i : BitVec 16) : Cond.holds .lt x (simm i) = decide (x.toInt < i.toInt) := by
  rw [← toInt_simm]
  rfl
theorem holds_ge_simm (x : Word) (i : BitVec 16) : Cond.holds .ge x (simm i) = decide (i.toInt ≤ x.toInt) := by
  rw [holds_ge, toInt_simm]

theorem lane_zero (v : VWord) : lane v 32 0 = v.toNat % 2 ^ 32 := by
  simp [lane, elem, bits]
theorem bit_four (x : Nat) : bit x 4 = true ↔ x / 16 % 2 = 1 := by
  simp [bit]

/-! ## Each is issued as one write of its destination -/

variable (s : State) {i : Instr} {g : PReg}

theorem plain_setS {d : SReg} {x y : Word} (h : x = y) : s.plain g (done (s.setS d x)) = s.plain g (done (s.setS d y)) := by rw [h]
theorem plain_setP {d : PReg} {x y : Bool} (h : x = y) : s.plain g (done (s.setP d x)) = s.plain g (done (s.setP d y)) := by rw [h]
theorem plain_setV {d : VReg} {x y : VWord} (h : x = y) : s.plain g (done (s.setV d x)) = s.plain g (done (s.setV d y)) := by rw [h]

theorem exec_of_scalarResult {d : SReg} {f : State → Word} (h : scalarResult i = some (g, d, f)) :
    exec i s = s.plain g (done (s.setS d (f s))) := by
  cases i <;> cases h
  case min => exact plain_setS s (minS_eq ..)
  case max => exact plain_setS s (maxS_eq ..)
  case minn => exact plain_setS s (minU_eq ..)
  case maxn => exact plain_setS s (maxU_eq ..)
  case mulh => exact plain_setS s (mulH_eq ..)
  case div => exact plain_setS s (divS_eq ..)
  case divn => exact plain_setS s (divU_eq ..)
  case rem => exact plain_setS s (remS_eq ..)
  case remn => exact plain_setS s (remU_eq ..)
  case mkptr => exact plain_setS s (mkptr_eq ..)
  case pspc => exact plain_setS s (space_eq ..)
  case fscSel => exact plain_setS s (fscVal_sel ..)
  case fscMov => exact plain_setS s (fscVal_mov ..)
  all_goals rfl

theorem exec_of_predicateResult {d : PReg} {f : State → Bool} (h : predicateResult i = some (g, d, f)) :
    exec i s = s.plain g (done (s.setP d (f s))) := by
  cases i <;> cases h
  case setpNe | setpiNe => exact plain_setP s (holds_ne ..)
  case setpiLt => exact plain_setP s (holds_lt_simm ..)
  case setpiGe => exact plain_setP s (holds_ge_simm ..)
  case setpGe => exact plain_setP s (holds_ge ..)
  case setpGen => exact plain_setP s (holds_gen ..)
  all_goals rfl

theorem exec_of_vectorResult {d : VReg} {f : State → VWord} (h : vectorResult i = some (g, d, f)) :
    exec i s = s.plain g (done (s.setV d (f s))) := by
  cases i <;> cases h
  case vbcast => exact plain_setV s (by rw [lane_zero])
  case vshuf => exact plain_setV s (by simp only [bit_four])
  all_goals rfl

/-! ## What a register instruction leaves alone -/

/-- A plain instruction that goes on leaves its effect or, where its guard is false, no effect. -/
theorem plain_done_cases {t u : State} (h : s.plain g (done u) = .next t) : t = u.retire ∨ t = s.retire := by
  cases hg : s.getP g
  · rw [plain_skip s hg] at h
    cases h
    exact .inr rfl
  · rw [plain_run s hg] at h
    cases h
    exact .inl rfl

theorem sameBut_refl : sameBut s s := by
  simp [sameBut]

variable {s} in
/-- A change of the issuing sequencer is none of the rest. -/
theorem sameBut_setMe {t : State} (h : sameBut s t) (x : Hg) : sameBut s (t.setMe x) := by
  obtain ⟨hmem, hwt, hcur, hinp, hcompl, hagenda, hfresh, hpick, hturns, hhg, hrest⟩ := h
  refine ⟨hmem, hwt, hcur, hinp, hcompl, hagenda, hfresh, hpick, hturns, fun k hk => ?_, hrest⟩
  rw [hg_setMe, if_neg (by rwa [hcur]), hhg k hk]

theorem sameBut_retire : sameBut s s.retire := sameBut_setMe (sameBut_refl s) _
theorem sameBut_setMe_retire (x : Hg) : sameBut s (s.setMe x).retire := sameBut_setMe (sameBut_setMe (sameBut_refl s) x) _

variable (h : Hg)

theorem p_hg_setS (d : SReg) (x : Word) : (h.setS d x).p = h.p := by unfold Hg.setS; split <;> rfl
theorem v_hg_setS (d : SReg) (x : Word) : (h.setS d x).v = h.v := by unfold Hg.setS; split <;> rfl
theorem s_hg_setP (d : PReg) (x : Bool) : (h.setP d x).s = h.s := by unfold Hg.setP; split <;> rfl
theorem v_hg_setP (d : PReg) (x : Bool) : (h.setP d x).v = h.v := by unfold Hg.setP; split <;> rfl

theorem sameMode_retire : sameMode h h.retire := by
  simp [sameMode, Hg.retire]
theorem sameMode_setS_retire (d : SReg) (x : Word) : sameMode h (h.setS d x).retire := by
  unfold Hg.setS
  split <;> exact sameMode_retire _
theorem sameMode_setP_retire (d : PReg) (x : Bool) : sameMode h (h.setP d x).retire := by
  unfold Hg.setP
  split <;> exact sameMode_retire _
theorem sameMode_setV_retire (d : VReg) (x : VWord) : sameMode h (h.setV d x).retire := sameMode_retire h

variable {s} {t : State}

/-- What a plain write of s[d] leaves alone. -/
theorem plain_setS_frame {d : SReg} {x : Word} (ht : s.plain g (done (s.setS d x)) = .next t) :
    sameBut s t ∧ sameMode s.me t.me ∧ (∀ r, r ≠ d → t.me.getS r = s.me.getS r) ∧ t.me.p = s.me.p ∧ t.me.v = s.me.v := by
  rcases plain_done_cases s ht with rfl | rfl <;> rw [me_retire]
  · rw [me_setS]
    exact ⟨sameBut_setMe_retire s _, sameMode_setS_retire s.me d x, fun r hr => by simp [hr], p_hg_setS .., v_hg_setS ..⟩
  · exact ⟨sameBut_retire s, sameMode_retire s.me, fun _ _ => rfl, rfl, rfl⟩

/-- What a plain write of p[d] leaves alone. -/
theorem plain_setP_frame {d : PReg} {x : Bool} (ht : s.plain g (done (s.setP d x)) = .next t) :
    sameBut s t ∧ sameMode s.me t.me ∧ t.me.s = s.me.s ∧ (∀ r, r ≠ d → t.me.getP r = s.me.getP r) ∧ t.me.v = s.me.v := by
  rcases plain_done_cases s ht with rfl | rfl <;> rw [me_retire]
  · rw [me_setP]
    exact ⟨sameBut_setMe_retire s _, sameMode_setP_retire s.me d x, s_hg_setP .., fun r hr => by simp [hr], v_hg_setP ..⟩
  · exact ⟨sameBut_retire s, sameMode_retire s.me, rfl, fun _ _ => rfl, rfl⟩

/-- What a plain write of v[d] leaves alone. -/
theorem plain_setV_frame {d : VReg} {x : VWord} (ht : s.plain g (done (s.setV d x)) = .next t) :
    sameBut s t ∧ sameMode s.me t.me ∧ t.me.s = s.me.s ∧ t.me.p = s.me.p ∧ (∀ r, r ≠ d → t.me.getV r = s.me.getV r) := by
  rcases plain_done_cases s ht with rfl | rfl <;> rw [me_retire]
  · rw [me_setV]
    exact ⟨sameBut_setMe_retire s _, sameMode_setV_retire s.me d x, rfl, rfl, fun r hr => by simp [hr]⟩
  · exact ⟨sameBut_retire s, sameMode_retire s.me, rfl, rfl, fun _ _ => rfl⟩

end Sys2Proof.Machine

namespace Sys2Proof.Proofs

open Sys2Proof.Machine Sys2Proof.Claims

/-- Settles O1: each is issued as a plain write of s[d] (`exec_of_scalarResult`). -/
theorem scalarInstructionsGiveTheirResults : Obligations.ScalarInstructionsGiveTheirResults := by
  intro i g d f s hi hg
  exact (exec_of_scalarResult s hi).trans (plain_run s hg)

/-- Settles O3: each is issued as a plain write of p[d] (`exec_of_predicateResult`). -/
theorem predicateInstructionsGiveTheirResults : Obligations.PredicateInstructionsGiveTheirResults := by
  intro i g d f s hi hg
  exact (exec_of_predicateResult s hi).trans (plain_run s hg)

/-- Settles O6: each is issued as one plain write of its destination, whose frame is `plain_setS_frame` and its two fellows. -/
theorem registerInstructionsLeaveTheRest : Obligations.RegisterInstructionsLeaveTheRest := by
  intro i s t ht
  refine ⟨fun g d f hi => ?_, fun g d f hi => ?_, fun g d f hi => ?_⟩
  · rw [exec_of_scalarResult s hi] at ht
    exact plain_setS_frame ht
  · rw [exec_of_predicateResult s hi] at ht
    exact plain_setP_frame ht
  · rw [exec_of_vectorResult s hi] at ht
    exact plain_setV_frame ht

end Sys2Proof.Proofs
end

section
/-! SUPPORT. The bits that CLZ, CTZ, POPC, BREV and SEXT count and move (06 R131). -/

namespace Sys2Proof.Machine

open Sys2Proof.Claims

/-! ## Leading and trailing zeros -/

theorem bitLen_pos {n : Nat} (h : n ≠ 0) : bitLen n = n.log2 + 1 := if_neg h

theorem bitLen_two_pow (k : Nat) : bitLen (2 ^ k) = k + 1 := by
  rw [bitLen_pos (Nat.two_pow_pos k).ne', Nat.log2_two_pow]

theorem log2_lt_64 {x : Word} (h : x.toNat ≠ 0) : x.toNat.log2 < 64 := (Nat.log2_lt h).2 x.isLt

theorem toNat_clz {x : Word} (h : x.toNat ≠ 0) : (clz x).toNat = 63 - x.toNat.log2 := by
  have hlog := log2_lt_64 h
  rw [clz, bitLen_pos h, BitVec.toNat_ofNat]
  omega

/-- A word other than 0 has a lowest 1 bit. -/
theorem exists_lowest_bit {x : Word} (h : x ≠ 0) : ∃ k < 64, x.getLsbD k = true ∧ ∀ j < k, x.getLsbD j = false := by
  have hbit : ∃ k, x.getLsbD k = true := by
    by_contra hnone
    exact h (BitVec.eq_of_getLsbD_eq fun k _ => by simpa using fun hk => hnone ⟨k, hk⟩)
  exact ⟨Nat.find hbit, BitVec.lt_of_getLsbD (Nat.find_spec hbit), Nat.find_spec hbit,
    fun j hj => Bool.eq_false_of_not_eq_true (Nat.find_min hbit hj)⟩

/-- A word and its negation share the lowest 1 bit alone. -/
theorem and_neg_eq_twoPow {x : Word} {k : Nat} (hbit : x.getLsbD k = true) (hlow : ∀ j < k, x.getLsbD j = false) :
    x &&& -x = BitVec.twoPow 64 k := by
  refine BitVec.eq_of_getLsbD_eq fun i hi => ?_
  rw [BitVec.getLsbD_and, BitVec.getLsbD_neg, BitVec.getLsbD_twoPow]
  rcases Nat.lt_trichotomy i k with hik | rfl | hik
  · simp [hlow i hik, hik.ne']
  · have hnone : ¬∃ j < i, x.getLsbD j = true := fun ⟨j, hj, hone⟩ => by simp [hlow j hj] at hone
    simp [hbit, hnone, hi]
  · have hsome : ∃ j < i, x.getLsbD j = true := ⟨k, hik, hbit⟩
    simp [hsome, hi, hik.ne]

theorem toNat_ctz {x : Word} {k : Nat} (hk : k < 64) (hbit : x.getLsbD k = true) (hlow : ∀ j < k, x.getLsbD j = false) :
    (ctz x).toNat = k := by
  have hx : x ≠ 0 := by
    rintro rfl
    simp at hbit
  have hpow : 2 ^ k < 2 ^ 64 := Nat.pow_lt_pow_right (by decide) hk
  rw [ctz, if_neg hx, and_neg_eq_twoPow hbit hlow, BitVec.toNat_twoPow, Nat.mod_eq_of_lt hpow, bitLen_two_pow, BitVec.toNat_ofNat]
  omega

theorem mod_two_pow_eq_zero {x k : Nat} (hlow : ∀ j < k, x.testBit j = false) : x % 2 ^ k = 0 := by
  refine Nat.eq_of_testBit_eq fun i => ?_
  rw [Nat.testBit_mod_two_pow, Nat.zero_testBit]
  by_cases hi : i < k
  · simp [hlow i hi]
  · simp [hi]

/-! ## Single bits -/

/-- Elements of one bit are the bits. -/
theorem unpack_one (x n : Nat) : unpack x 1 n = (List.range n).map fun k => (x.testBit k).toNat := by
  induction n generalizing x with
  | zero => rfl
  | succ n ih =>
    have hhead : x % 2 ^ 1 = (x.testBit 0).toNat := by
      rw [Nat.testBit_zero]
      rcases Nat.mod_two_eq_zero_or_one x with h | h <;> simp [h]
    have htail : ∀ k, ((x / 2 ^ 1).testBit k).toNat = (x.testBit (k + 1)).toNat := fun k => by
      rw [Nat.testBit_add_one, Nat.pow_one]
    rw [unpack, ih, List.range_succ_eq_map, List.map_cons, List.map_map, hhead]
    exact congrArg _ (List.map_congr_left fun k _ => htail k)

theorem sum_map_toNat (p : Nat → Bool) (l : List Nat) : (l.map fun k => (p k).toNat).sum = (l.filter p).length := by
  induction l with
  | nil => rfl
  | cons k l ih => cases hk : p k <;> simp [hk, ih, Nat.add_comm]

theorem testBit_pack_one (l : List Nat) (i : Nat) : (pack 1 l).testBit i = (l.getD i 0).testBit 0 := by
  induction l generalizing i with
  | nil => simp [pack]
  | cons e l ih =>
    cases i with
    | zero => simp [pack, Nat.testBit_zero]
    | succ i =>
      have htail : (e % 2 ^ 1 + 2 ^ 1 * pack 1 l) / 2 = pack 1 l := by omega
      rw [pack, Nat.testBit_add_one, htail, ih, List.getD_cons_succ]

theorem toNat_popc (x : Word) : (popc x).toNat = ((List.range 64).filter fun k => x.getLsbD k).length := by
  have hle : ((List.range 64).filter fun k => x.getLsbD k).length < 2 ^ 64 :=
    (List.length_filter_le ..).trans_lt (by decide)
  rw [popc, unpack_one, ← List.sum_eq_foldl_nat, sum_map_toNat, BitVec.toNat_ofNat]
  exact Nat.mod_eq_of_lt hle

theorem getLsbD_brev (x : Word) {k : Nat} (hk : k < 64) : (brev x).getLsbD (63 - k) = x.getLsbD k := by
  have hget : ((List.range 64).map fun k => (x.toNat.testBit k).toNat).reverse.getD (63 - k) 0 = (x.toNat.testBit k).toNat := by
    have hrev : 64 - 1 - (63 - k) = k := by omega
    rw [List.getD_eq_getElem?_getD, List.getElem?_reverse (by simp; omega), List.length_map, List.length_range, hrev]
    simp [hk]
  rw [brev, BitVec.getLsbD_ofNat, testBit_pack_one, unpack_one, hget, decide_eq_true (by omega : 63 - k < 64), Bool.true_and,
    Nat.testBit_zero]
  show decide ((x.getLsbD k).toNat % 2 = 1) = x.getLsbD k
  cases x.getLsbD k <;> rfl

/-- Bits above the one that SEXT extends from are copies of it. -/
theorem getLsbD_sextFrom (x y : Word) {k : Nat} (hk : k < 64) : (sextFrom x y).getLsbD k = x.getLsbD (min k (six y)) := by
  have hsext : sextFrom x y = (BitVec.ofNat (six y + 1) x.toNat).signExtend 64 := by
    rw [sextFrom, cnt6, sx_eq_toInt, toWord_eq]
    rfl
  rw [hsext, BitVec.getLsbD_signExtend]
  rw [BitVec.msb_eq_getLsbD_last, BitVec.getLsbD_ofNat, BitVec.getLsbD_ofNat, Nat.add_sub_cancel, decide_eq_true hk, Bool.true_and]
  by_cases hin : k < six y + 1
  · rw [if_pos hin, min_eq_left (by omega), decide_eq_true hin, Bool.true_and]
    rfl
  · rw [if_neg hin, min_eq_right (by omega), decide_eq_true (Nat.lt_succ_self _), Bool.true_and]
    rfl

end Sys2Proof.Machine

namespace Sys2Proof.Proofs

open Sys2Proof.Machine Sys2Proof.Claims

/-- Settles O2: CLZ's and CTZ's counts are `toNat_clz` and `toNat_ctz`, the bits of the others `toNat_popc`, `getLsbD_brev` and
`getLsbD_sextFrom`. -/
theorem bitCountsAndReversalAreRight : Obligations.BitCountsAndReversalAreRight := by
  intro x
  refine ⟨rfl, rfl, fun h => ?_, fun h => ?_, ?_, fun k hk => ?_, fun y k hk => ?_⟩
  · have hx : x.toNat ≠ 0 := fun h0 => h (BitVec.eq_of_toNat_eq h0)
    have hlog := log2_lt_64 hx
    rw [toNat_clz hx, show 64 - (63 - x.toNat.log2) = x.toNat.log2 + 1 by omega, show 63 - (63 - x.toNat.log2) = x.toNat.log2 by omega]
    exact ⟨by omega, Nat.lt_log2_self, Nat.log2_self_le hx⟩
  · obtain ⟨k, hk, hbit, hlow⟩ := exists_lowest_bit h
    rw [toNat_ctz hk hbit hlow]
    exact ⟨hk, mod_two_pow_eq_zero hlow, of_decide_eq_true (Nat.testBit_eq_decide_div_mod_eq ▸ hbit)⟩
  · exact toNat_popc x
  · exact getLsbD_brev x hk
  · exact getLsbD_sextFrom x y hk

end Sys2Proof.Proofs
end

section
/-! SUPPORT. The ban on instructions while FORKED = 1 (05 R124; 06 R151). -/

namespace Sys2Proof.Machine

open Sys2Proof.Claims

variable (s : State)

/-- While FORKED = 1 an instruction of a group that it forbids raises ILLEGAL, before its privilege and its guard (05 R124; 06 R151). -/
theorem issue_banned {so : Bool} {g : PReg} {body : Eff} (hf : s.me.forked = true) :
    s.issue .banned so g body = .next (s.precise cIllegal []) := by
  simp [State.issue, hf]

/-- SPLICE's own fault comes after the ban. -/
theorem execSplice_banned (hf : s.me.forked = true) : execSplice s = .next (s.precise cIllegal []) := by
  unfold execSplice
  split
  · rw [if_neg (by simp [hf])]
    exact issue_banned s hf
  · exact issue_banned s hf

/-- Two outcomes with one next state. -/
theorem ite_next_same {c : Prop} [Decidable c] {x y : Host.Outcome State Fault Refusal} {t : State} (hx : x = .next t) (hy : y = .next t) :
    (if c then x else y) = .next t := by
  split
  · exact hx
  · exact hy

end Sys2Proof.Machine

namespace Sys2Proof.Proofs

open Sys2Proof.Machine Sys2Proof.Claims

/-- Settles O8: each is issued as one that FORKED forbids, whose ban comes before its mode and its guard (`issue_banned`). -/
theorem forkedForbidsTheListedGroups : Obligations.ForkedForbidsTheListedGroups := by
  intro i s hi hf
  cases i
  case mwr => exact ite_next_same rfl (issue_banned s hf)
  case splice => exact execSplice_banned s hf
  all_goals cases hi <;> exact issue_banned s hf

end Sys2Proof.Proofs
end

section
/-! SUPPORT. Branches, calls and jumps (06 R141 to R144). -/

namespace Sys2Proof.Machine

open Sys2Proof.Claims

variable (s : State)

theorem jumpTo_aligned {t : Word} (h : t.toNat % 4 = 0) : jumpTo s t = .ok (s, .jump t) := if_pos h
theorem jumpTo_misaligned {t : Word} (h : t.toNat % 4 ≠ 0) : jumpTo s t = .error (.fault cAlign []) := if_neg h

theorem taken_iff {g : PReg} {v : Bool} : s.taken g v = true ↔ s.getP g ≠ v := bne_iff_ne

/-- An entry of JTAB's table counts words, signed (06 R144). -/
theorem toWord_four_mul_sx (v : Nat) : toWord (4 * sx v 32) = 4 * (BitVec.ofNat 32 v).signExtend 64 := by
  rw [toWord_eq, sx_eq_toInt, BitVec.ofInt_mul, BitVec.signExtend]
  rfl

end Sys2Proof.Machine

namespace Sys2Proof.Proofs

open Sys2Proof.Machine Sys2Proof.Claims

/-- Settles O9: a transfer that is taken goes to its target, and a register target must be aligned (`jumpTo_aligned`,
`jumpTo_misaligned`); JTAB's entry counts words (`toWord_four_mul_sx`). -/
theorem transfersGoToTheirTargets : Obligations.TransfersGoToTheirTargets := by
  intro s g inv o d a n
  refine ⟨fun hne => ?_, fun heq => ?_, fun hg hal => ?_, fun hg hal => ?_, fun hg hal => ?_, fun hg hal => ?_, fun t e => ?_⟩
  · have htaken := (taken_iff s).2 hne
    exact ⟨(plain_run s rfl).trans (by rw [if_pos htaken]; rfl), (plain_run s rfl).trans (by rw [if_pos htaken]; rfl)⟩
  · have htaken : ¬s.taken g inv = true := fun h => (taken_iff s).1 h heq
    exact ⟨(plain_run s rfl).trans (by rw [if_neg htaken]; rfl), (plain_run s rfl).trans (by rw [if_neg htaken]; rfl)⟩
  · exact ⟨(plain_run s hg).trans (by rw [jumpTo_aligned s hal]; rfl), (plain_run s hg).trans (by rw [jumpTo_aligned _ hal]; rfl)⟩
  · exact ⟨(plain_run s hg).trans (by rw [jumpTo_misaligned s hal]; rfl), (plain_run s hg).trans (by rw [jumpTo_misaligned _ hal]; rfl)⟩
  · exact (plain_run s hg).trans (by rw [jumpTo_aligned s hal]; rfl)
  · exact (plain_run s hg).trans (by rw [jumpTo_misaligned s hal]; rfl)
  · intro q hload
    refine (plain_run s rfl).trans ?_
    rw [← toWord_four_mul_sx]
    dsimp only [jtabIndex]
    rw [hload]
    rfl

end Sys2Proof.Proofs
end

section
/-! SUPPORT. Hardware loops: what a completion does to the levels, and how a loop begins and is left (06 R145 to R148). -/

namespace Sys2Proof.Machine

open Sys2Proof.Claims

variable (s : State)

/-! ## Two writes of one part -/

theorem smap_set_set {α : Type} (m : SMap α) (i : Nat) (v w : α) : SMap.set (SMap.set m i v) i w = SMap.set m i w := by
  induction m with
  | nil => simp [SMap.set]
  | cons e t ih =>
    obtain ⟨k, x⟩ := e
    by_cases hlt : i < k
    · simp [SMap.set, hlt]
    · by_cases heq : i = k
      · simp [SMap.set, heq]
      · simp [SMap.set, hlt, heq, ih]

/-- The later write of the issuing sequencer stands. -/
theorem setMe_setMe (x y : Hg) : (s.setMe x).setMe y = s.setMe y :=
  congrArg (fun m => { s with hgs := m }) (smap_set_set s.hgs s.cur x y)

/-! ## Levels at their last word (06 R146) -/

section Levels

variable {h : Hg} {l : Loop} {r : List Loop} {q : Word}

theorem retireTo_noLoop (hl : h.loops = []) : h.retireTo q = { h with pc := q } := by
  simp [Hg.retireTo, loopEnd, hl]

variable (hl : h.loops = l :: r)
include hl

theorem retireTo_inside (hpc : h.pc ≠ l.stop) : h.retireTo q = { h with pc := q } := by
  simp [Hg.retireTo, loopEnd, hl, hpc]

theorem retireTo_repeats (hpc : h.pc = l.stop) (hrem : 1 < l.rem) :
    h.retireTo q = { h with pc := l.start, loops := { l with rem := l.rem - 1 } :: r } := by
  simp [Hg.retireTo, loopEnd, hl, hpc, hrem]

theorem retireTo_pops (hpc : h.pc = l.stop) (hrem : l.rem ≤ 1) : h.retireTo q = { h with loops := r }.retireTo q := by
  simp [Hg.retireTo, loopEnd, hl, hpc, Nat.not_lt.mpr hrem]

end Levels

/-! ## Hardware loops -/

/-- A loop over the words up to an address lies within the innermost level, where there is one (06 R145). -/
def Hg.fits (h : Hg) (stop : Word) : Prop := ∀ l, h.loops.head? = some l → stop.toNat ≤ l.stop.toNat

/-- A body of at least one word ends at another word than the one that begins the loop. -/
theorem loopStop_ne (pc : Word) {len : Nat} (h0 : len ≠ 0) (hlt : len < 2 ^ 16) : pc ≠ pc + BitVec.ofNat 64 (4 * len) := by
  intro h
  have hnat := congrArg BitVec.toNat h
  rw [BitVec.toNat_add, BitVec.toNat_ofNat] at hnat
  omega

theorem toNat_ne_zero {n : Nat} {x : BitVec n} (h : x ≠ 0) : x.toNat ≠ 0 := fun h0 => h (BitVec.eq_of_toNat_eq h0)

section Begin

variable {s} {c len : Nat}

theorem beginLoop_zero : s.beginLoop 0 len = .ok (s, .skip (s.me.pc + 4 + BitVec.ofNat 64 (4 * len))) := by
  show Except.ok (s, Next.skip (s.me.pc + BitVec.ofNat 64 (4 * len) + 4)) = _
  rw [add_right_comm]

variable (hc : c ≠ 0)
include hc

/-- A loop that may begin pushes its level, which the word that begins it does not end, and goes on with its body (06 R145). -/
theorem finish_beginLoop (hbody : len ≠ 0) (hlt : len < 2 ^ 16) (hdepth : s.me.loops.length < 4)
    (hfits : s.me.fits (s.me.pc + BitVec.ofNat 64 (4 * len))) :
    s.finish (s.beginLoop c len) = s.setMe { s.me with
      pc := s.me.pc + 4
      loops := ⟨s.me.pc + 4, s.me.pc + BitVec.ofNat 64 (4 * len), c⟩ :: s.me.loops } := by
  have hbegin : s.beginLoop c len = done (s.setMe { s.me with
      loops := ⟨s.me.pc + 4, s.me.pc + BitVec.ofNat 64 (4 * len), c⟩ :: s.me.loops }) := by
    unfold State.beginLoop
    rw [if_neg hc]
    cases hl : s.me.loops <;> simp_all [Hg.fits]
  rw [hbegin, finish_done, State.retire, me_setMe, setMe_setMe]
  exact congrArg s.setMe (retireTo_inside rfl (loopStop_ne s.me.pc hbody hlt))

theorem beginLoop_deep (hlen : 4 ≤ s.me.loops.length) : s.beginLoop c len = .error (.fault cIllegal []) := by
  unfold State.beginLoop
  simp [hc, Nat.not_lt.mpr hlen]

theorem beginLoop_long {l : Loop} {r : List Loop} (hl : s.me.loops = l :: r)
    (hlong : l.stop.toNat < (s.me.pc + BitVec.ofNat 64 (4 * len)).toNat) : s.beginLoop c len = .error (.fault cIllegal []) := by
  unfold State.beginLoop
  simp only [if_neg hc, hl, decide_eq_false (Nat.not_le.mpr hlong)]
  cases decide ((l :: r).length < 4) <;> rfl

end Begin

/-- A loop of a register's count, below 2^32 (06 R145). -/
theorem exec_loop {a : SReg} (len : BitVec 16) (h : (s.getS a).toNat < 2 ^ 32) :
    exec (.loop a len) s = .next (s.finish (s.beginLoop (s.getS a).toNat len.toNat)) :=
  (plain_run s rfl).trans (by rw [if_pos h])

theorem exec_loop_large {a : SReg} (len : BitVec 16) (h : 2 ^ 32 ≤ (s.getS a).toNat) : traps (.loop a len) s cIllegal [] :=
  (plain_run s rfl).trans (by rw [if_neg (Nat.not_lt.mpr h)]; rfl)

/-- A LOOP that does not begin raises ILLEGAL, and so does one whose count is too large. -/
theorem exec_loop_refused {a : SReg} {len : BitVec 16}
    (h : s.beginLoop (s.getS a).toNat len.toNat = .error (.fault cIllegal [])) : traps (.loop a len) s cIllegal [] := by
  by_cases hcount : (s.getS a).toNat < 2 ^ 32
  · rw [traps, exec_loop s len hcount, h]
    rfl
  · exact exec_loop_large s len (Nat.not_lt.mp hcount)

theorem exec_loopi (len : BitVec 10) (c : BitVec 16) :
    exec (.loopi len c) s = .next (s.finish (s.beginLoop c.toNat len.toNat)) := plain_run s rfl

end Sys2Proof.Machine

namespace Sys2Proof.Proofs

open Sys2Proof.Machine Sys2Proof.Claims

/-- Settles O10: a loop that may begin pushes its level (`finish_beginLoop`), and LBRK pops one; a loop that may not is refused
(`beginLoop_deep`, `beginLoop_long`). -/
theorem loopsBeginAndBreak : Obligations.LoopsBeginAndBreak := by
  intro s a len l10 c g
  refine ⟨fun h0 => ?_, fun h0 hlt hbody hdepth hfits => ?_, exec_loop_large s len, fun h0 hdepth => ?_, fun h0 => ?_,
    fun h0 hbody hdepth hfits => ?_, fun h0 hdepth => ?_, fun l r hl => ⟨fun h0 hlong => ?_, fun h0 hlong => ?_⟩, fun hf hg => ?_,
    fun l r hl hg => ?_, fun hl hg => ?_⟩
  · refine (exec_loop s len (by simp [h0])).trans ?_
    rw [h0]
    exact congrArg (fun e => Host.Outcome.next (s.finish e)) beginLoop_zero
  · exact (exec_loop s len hlt).trans (congrArg _ (finish_beginLoop (toNat_ne_zero h0) (toNat_ne_zero hbody) len.isLt hdepth hfits))
  · exact exec_loop_refused s (beginLoop_deep (toNat_ne_zero h0) hdepth)
  · subst h0
    exact (exec_loopi s l10 0).trans (congrArg (fun e => Host.Outcome.next (s.finish e)) beginLoop_zero)
  · exact (exec_loopi s l10 c).trans (congrArg _ (finish_beginLoop (toNat_ne_zero h0) (toNat_ne_zero hbody) (by omega) hdepth hfits))
  · exact (exec_loopi s l10 c).trans (by rw [beginLoop_deep (toNat_ne_zero h0) hdepth]; rfl)
  · exact exec_loop_refused s (beginLoop_long (toNat_ne_zero h0) hl hlong)
  · exact (exec_loopi s l10 c).trans (by rw [beginLoop_long (toNat_ne_zero h0) hl hlong]; rfl)
  · exact plain_skip s hg
  · exact (plain_run s hg).trans (by rw [hl]; rfl)
  · exact (plain_run s hg).trans (by rw [hl]; rfl)

/-- Settles O11: `Hg.retire` is `Hg.retireTo` of the next word, and that goes level by level (`loopEnd`). -/
theorem loopLevelsCountAtTheirLastWord : Obligations.LoopLevelsCountAtTheirLastWord := by
  intro h l r
  exact ⟨retireTo_noLoop, retireTo_inside, retireTo_repeats, retireTo_pops,
    fun q => ⟨retireTo_noLoop, retireTo_inside, retireTo_repeats, retireTo_pops⟩, fun s => rfl⟩

end Sys2Proof.Proofs
end

section
/-! SUPPORT. The SYS group: NOP, SEED, WAIT, YIELD, TRAP, ERET, BRK, DBGH and HALT (06 R156 to R164). -/

namespace Sys2Proof.Machine

open Sys2Proof.Claims

variable (s : State)

/-! ## An instruction's own check comes before its effect -/

theorem finish_chk (b : Bool) (c : Nat) (k : Unit → Eff) :
    s.finish (chk b c >>= k) = if b then s.finish (k ()) else s.precise c [] := by
  cases b <;> rfl

theorem finish_waitFor (b : Bool) (k : Unit → Eff) : s.finish (waitFor b >>= k) = if b then s.finish (k ()) else s := by
  cases b <;> rfl

/-- An instruction of system mode that FORKED forbids, in system mode. -/
theorem banned_sys_run {body : Eff} (hf : s.me.forked = false) (hs : s.me.sys = true) : s.issue .banned true 0 body = .next (s.finish body) :=
  issue_run s (fun _ => hf) (fun _ => hs) rfl

variable {s} (hf : s.me.forked = false)

/-! ## YIELD and WAIT -/

theorem exec_wait (d a : SReg) : exec (.wait d a) s = .next (
    if s.getS a ≠ 0 ∧ (s.getS a).toNat < 32 then
      if s.me.pev &&& (s.getS a).setWidth 5 ≠ 0 then
        ((s.setMe { s.me with pev := s.me.pev &&& ~~~(s.me.pev &&& (s.getS a).setWidth 5) }).setS d
          ((s.me.pev &&& (s.getS a).setWidth 5).setWidth 64)).retire
      else s
    else s.precise cIllegal []) := by
  refine (plain_run s rfl).trans (congrArg _ ?_)
  dsimp only
  rw [finish_chk, finish_waitFor]
  simp only [Bool.and_eq_true, bne_iff_ne, decide_eq_true_eq]
  rfl

include hf in
theorem yield_goesOn {p : Nat} (hp : s.partOfHg s.cur = some p) : goesOn .yield s (s.modPart p fun q => q.yields s.wt) :=
  (unforked_run s hf rfl).trans (by rw [hp]; rfl)

/-- A switch that is requested and not yet cooperative becomes it until its deadline (06 R160; 18 R377). -/
theorem yields_requested {q : Part} {inc at_ dl wt : Nat} (hq : q.sw = .requested inc at_ dl false) (h : wt ≤ dl) :
    q.yields wt = { q with
      sw := .requested inc at_ dl true
      plots := q.plots.map fun e => (e.1, if e.2.active then { e.2 with yield := 1 } else e.2) } := by
  simp [Part.yields, hq, h]

theorem yields_none {q : Part} (hq : q.sw = .none) (wt : Nat) : q.yields wt = q := by
  simp [Part.yields, hq]

/-! ## TRAP, ERET, DBGH, HALT -/

section Unforked

include hf

theorem exec_trap (n : BitVec 10) :
    exec (.trap n) s = .next (if isRmc s.cur || !s.me.sys then s.setMe (s.me.takeTrap n.toNat) else s.precise cIllegal []) :=
  (unforked_run s hf rfl).trans (congrArg _ (finish_chk ..))

theorem exec_eret (hs : s.me.sys = true) : exec .eret s = .next (
    if s.me.epc.toNat % 4 == 0 then s.setMe (s.me.takeEret (isRmc s.cur)) else s.precise cAlign []) :=
  (banned_sys_run s hf hs).trans (congrArg _ (finish_chk ..))

omit hf in
/-- BRK's and DBGH's own address is that of the trap; the stop record has the one that follows (06 R163). -/
theorem debugHalt_eq (code : Nat) : s.debugHalt code = s.retire.trapAt s.cur 0x1F s.me.pc s.me.retire.pc code [] := by
  rw [State.debugHalt, me_retire]
  rfl

theorem exec_brk (n : BitVec 10) : exec (.brk n) s = .next (s.debugHalt n.toNat) := unforked_run s hf rfl

/-- DBGH in system mode: an RMC raises no DEBUG_HALT of its own (26 R458). -/
theorem exec_dbgh (a : SReg) (hs : s.me.sys = true) : exec (.dbgh a) s = .next (
    if decide ((s.getS a).toNat < 2) then
      if (s.getS a).toNat = 1 then (if isRmc s.cur then s.retire else s.debugHalt (s.getS a).toNat).waferHalt 1
      else if isRmc s.cur then s.retire else s.debugHalt (s.getS a).toNat
    else s.precise cIllegal []) :=
  (banned_sys_run s hf hs).trans (congrArg _ (finish_chk ..))

theorem exec_halt : exec .halt s = .next (
    if s.storesDone s.cur .domain && s.me.enginesIdle && s.me.readsDone then if isRmc s.cur then s.rmcHalt else s.becomeFree s.cur
    else s) :=
  (unforked_run s hf rfl).trans (congrArg _ (finish_waitFor ..))

end Unforked

theorem becomeFree_program {k : Nat} (hrun : (s.hg k).run = .program) (hpend : (s.hg k).pendStart = none) :
    s.becomeFree k = s.modHg k fun h => { h with loops := [], run := .idle, pc := h.pc + 4 } := by
  simp only [State.becomeFree, hrun, hpend]

theorem becomeFree_task {k : Nat} {l : List (Nat × Nat)} (hrun : (s.hg k).run = .task l) (hpend : (s.hg k).pendStart = none) :
    s.becomeFree k = (s.dropClaims (coreOf k) l).modHg k fun h => { h with loops := [], run := .idle, pc := h.pc + 4 } := by
  simp only [State.becomeFree, hrun, hpend]

end Sys2Proof.Machine

namespace Sys2Proof.Proofs

open Sys2Proof.Machine Sys2Proof.Claims

/-- Settles O13: a mask of WAIT is checked, then its events (`exec_wait`); what a YIELD makes of its partition's switch is `yields_requested` and
`yields_none`. -/
theorem nopSeedWaitAndYield : Obligations.NopSeedWaitAndYield := by
  intro s a d
  refine ⟨plain_run s rfl, fun hf => unforked_run s hf rfl, fun h0 hlt hev => ?_, fun h0 hlt hev => ?_, fun hbad => ?_, fun hf hp => ?_,
    fun p inc at_ dl hf hp hsw hdl => ?_, fun p hf hp hsw => ?_⟩
  · rw [goesOn, exec_wait, if_pos ⟨h0, hlt⟩, if_pos hev]
  · rw [waits, exec_wait, if_pos ⟨h0, hlt⟩, if_neg (not_not_intro hev)]
  · have hmask : ¬(s.getS a ≠ 0 ∧ (s.getS a).toNat < 32) := fun ⟨h0, hlt⟩ => hbad.elim h0 (Nat.not_le.mpr hlt)
    rw [traps, exec_wait, if_neg hmask]
    rfl
  · exact (unforked_run s hf rfl).trans (by rw [hp]; rfl)
  · rw [modPart_eq, ← yields_requested hsw hdl]
    exact yield_goesOn hf hp
  · rw [modPart_eq, id, ← yields_none hsw s.wt]
    exact yield_goesOn hf hp

/-- Settles O16: TRAP's check is the mode of a headgate (`exec_trap`). -/
theorem trapEntersSystemMode : Obligations.TrapEntersSystemMode := by
  intro s n hf
  rw [traps, exec_trap hf]
  refine ⟨fun h => ?_, fun hr hs => ?_⟩
  · rw [if_pos (by simpa using h), Hg.takeTrap, Nat.mod_eq_of_lt n.isLt]
    rfl
  · rw [if_neg (by simp [hr, hs])]
    rfl

/-- Settles O17: ERET's mode is checked first (`issue_priv`), then EPC (`exec_eret`). -/
theorem eretLeavesSystemMode : Obligations.EretLeavesSystemMode := by
  intro s hf
  refine ⟨fun hs hal => ?_, fun hs hal => ?_, fun hs => issue_priv s (fun _ => hf) hs⟩
  · rw [exec_eret hf hs, if_pos (by simpa using hal)]
    rfl
  · rw [traps, exec_eret hf hs, if_neg (by simpa using hal)]
    rfl

/-- Settles O18: the mode is checked first (`issue_priv`), then DBGH's value (`exec_dbgh`); the halt itself is `debugHalt_eq`. -/
theorem brkAndDbghRaiseDebugHalt : Obligations.BrkAndDbghRaiseDebugHalt := by
  intro s n a hf
  refine ⟨?_, fun hs h hr => ?_, fun hs h hr => ?_, fun hs h hr => ?_, fun hs h hr => ?_, fun hs h => ?_,
    fun hs => issue_priv s (fun _ => hf) hs⟩
  · rw [exec_brk hf n, debugHalt_eq]
  · rw [exec_dbgh hf a hs, h, hr, debugHalt_eq]
    rfl
  · rw [exec_dbgh hf a hs, h, hr, debugHalt_eq]
    rfl
  · rw [exec_dbgh hf a hs, h, hr]
    rfl
  · rw [exec_dbgh hf a hs, h, hr]
    rfl
  · rw [traps, exec_dbgh hf a hs, if_neg (by simpa using h)]
    rfl

/-- Settles O19: HALT waits for what is under way (`exec_halt`); then a headgate becomes free (`becomeFree_program`, `becomeFree_task`) and an RMC
halts. -/
theorem haltEndsTheProgramOrTask : Obligations.HaltEndsTheProgramOrTask := by
  intro s hf
  refine ⟨fun h => ?_, fun hst heng hreads => ?_⟩
  · rw [waits, exec_halt hf, if_neg (by simpa [and_assoc] using h)]
  · rw [exec_halt hf, if_pos (by simp [hst, heng, hreads])]
    refine ⟨fun hr hrun hpend => ?_, fun l hr hrun hpend => ?_, fun hr hw => ?_, fun hr hw => ?_⟩
    · rw [hr]
      exact congrArg _ (becomeFree_program hrun hpend)
    · rw [hr]
      exact congrArg _ (becomeFree_task hrun hpend)
    · rw [if_pos hr]
      refine congrArg _ (if_neg ?_)
      simpa using hw
    · rw [if_pos hr]
      exact congrArg _ (if_pos hw)

end Sys2Proof.Proofs
end

section
/-! SUPPORT. Forked issue: the banks, the instructions that are held in them, and PICK (06 R149 to R154). -/

namespace Sys2Proof.Machine

open Sys2Proof.Claims

variable {s : State}

/-! ## FORK, SWQ and PICK -/

theorem onlyForked_forked (g : PReg) (body : Eff) (hf : s.me.forked = true) : s.onlyForked g body = s.plain g body := if_pos hf
theorem onlyForked_unforked (g : PReg) (body : Eff) (hf : s.me.forked = false) : s.onlyForked g body = .next (s.precise cIllegal []) :=
  if_neg (by simp [hf])

theorem exec_pick {p g : PReg} (hf : s.me.forked = true) (hg : s.getP g = true) : exec (.pick p g) s = .next (s.pickBank (s.getP p)) :=
  if_pos (by simp [hf, hg])

/-- PICK under a false guard, or out of place. -/
theorem exec_pick_not {p g : PReg} (h : (s.me.forked && s.getP g) = false) : exec (.pick p g) s = s.onlyForked g (done s) :=
  if_neg (by simp [h])

/-- PICK keeps the effects of the bank and empties both (06 R153). -/
theorem pickBank_kept {b : Bool} {t : State} (h : s.pickRun b (if b then s.me.bank1 else s.me.bank0) = (t, none)) :
    s.pickBank b = (t.setMe (unforkedHg t.me)).retire := by
  rw [State.pickBank, h]

/-- A kept instruction that fails traps at the PICK (06 R154). -/
theorem pickBank_fault {b : Bool} {t : State} {x : Held} {c : Nat} {d : List Nat}
    (h : s.pickRun b (if b then s.me.bank1 else s.me.bank0) = (t, some (x, .fault c d))) :
    s.pickBank b = (t.heldRefused x).precise c (x.addr.toNat :: d.drop 1) := by
  rw [State.pickBank, h]

/-! ## Holding -/

/-- A headgate with one more instruction in its issuing bank (06 R150). -/
abbrev Hg.joined (h : Hg) (x : Held) : Hg := if h.qb then { h with bank1 := h.bank1 ++ [x] } else { h with bank0 := h.bank0 ++ [x] }

theorem hold_room {h : Hg} {x : Held} (hroom : h.bank.length < 32) : h.hold x = .ok (h.joined x) := if_neg (Nat.not_le.mpr hroom)
theorem hold_full {h : Hg} {x : Held} (hfull : 32 ≤ h.bank.length) : h.hold x = .error (.fault cIllegal []) := if_pos hfull

/-- What the issue of a held instruction does beside: it may draw from G (02 R39). -/
def afterIssue : Bool → State → State
  | true => fun t => t.modMe Hg.stepG
  | false => id

theorem afterIssue_setMe (steps : Bool) (h : Hg) :
    afterIssue steps (s.setMe h) = s.setMe (if steps then { h with g := (drawG h.g).1 } else h) := by
  cases steps
  · rfl
  · show (s.setMe h).setMe (s.setMe h).me.stepG = _
    rw [me_setMe, setMe_setMe]
    rfl

/-- Checks that accept an instruction are as none. -/
theorem holdable_accepted {g : PReg} {i : Instr} {o : Operands} {checks : Acc Unit} {perform : State → Acc State} {after : State → State}
    (h : checks = .ok ()) : s.holdable g i o (.ok ()) perform after = s.holdable g i o checks perform after := by
  rw [h]

theorem bits_zero (x n : Nat) : bits x 0 n = x % 2 ^ n := by
  rw [bits, pow_zero, Nat.div_one]

/-- SCSET's checks: one of four parameters, and a SHIFT of at most 63 (08 R226). -/
theorem scsetOk {x y : Nat} (h : x ≤ 3 ∧ (x = 2 → y ≤ 63)) : (decide (x ≤ 3) && (decide (x ≠ 2) || decide (y ≤ 63))) = true := by
  simpa [imp_iff_not_or] using h

/-- Each instruction of the table that its checks accept is issued as one that is held with the operands of the table; performed at once
it does what PICK would make of it. -/
theorem exec_of_heldForm {i : Instr} {g : PReg} {f : State → Operands} {ok : State → Prop} {steps : Bool}
    (h : heldForm i = some (g, f, ok, steps)) (hf : s.me.forked = true) (hok : ok s) :
    exec i s = s.holdable g i (f s) (.ok ()) (fun t => t.performHeld ⟨i, f s, s.me.pc⟩) (afterIssue steps) := by
  have hchk : ∀ {b : Bool}, b = true → chk b cIllegal = .ok () := fun h => by rw [h, chk_true]
  cases i <;> cases h
  case wtbl =>
    rw [holdable_accepted (hchk (decide_eq_true hok))]
    exact if_pos (by simp [hf])
  case scset =>
    rw [holdable_accepted (hchk (scsetOk hok))]
    rfl
  case tstep | tstepV =>
    rw [holdable_accepted hok]
    rfl
  case xform | strm | chain =>
    rw [holdable_accepted (hchk hok)]
    rfl
  case wseek =>
    rw [← bits_zero] at hok
    rw [holdable_accepted (hchk (decide_eq_true hok))]
    rfl
  case wdqry | chconst =>
    rw [holdable_accepted (hchk (decide_eq_true hok))]
    rfl
  all_goals rfl

/-- An instruction that is accepted goes to the issuing bank while FORKED = 1. -/
theorem holdable_forked {g : PReg} {i : Instr} {o : Operands} {perform : State → Acc State} {after : State → State}
    (hf : s.me.forked = true) (hg : s.getP g = true) : s.holdable g i o (.ok ()) perform after =
      .next (s.finish (do done (after (s.setMe (← s.me.hold ⟨i, o, s.me.pc⟩))))) :=
  (plain_run s hg).trans (congrArg (fun e => Host.Outcome.next (s.finish e)) (if_pos hf))

end Sys2Proof.Machine

namespace Sys2Proof.Proofs

open Sys2Proof.Machine Sys2Proof.Claims

/-- Settles O12: FORK and SWQ are plain writes of the banks' state; PICK runs its bank (`exec_pick`) and ends as that run does (`pickBank_kept`,
`pickBank_fault`). -/
theorem forkSwqAndPickKeepOneBank : Obligations.ForkSwqAndPickKeepOneBank := by
  intro s g p
  refine ⟨fun hf hg => unforked_run s hf hg, fun hf => issue_banned s hf, fun hf hg => ?_, fun hf hg => ⟨?_, ?_⟩, fun hf => ⟨?_, ?_⟩,
    fun hf hg hempty => ?_, fun t hf hg hrun => ?_, fun t x c d hf hg hrun => ?_⟩
  · exact (onlyForked_forked _ _ hf).trans (plain_run s hg)
  · exact (onlyForked_forked _ _ hf).trans (plain_skip s hg)
  · exact (exec_pick_not (by simp [hg])).trans ((onlyForked_forked _ _ hf).trans (plain_skip s hg))
  · exact onlyForked_unforked _ _ hf
  · exact (exec_pick_not (by simp [hf])).trans (onlyForked_unforked _ _ hf)
  · exact (exec_pick hf hg).trans (congrArg _ (pickBank_kept (by rw [hempty]; rfl)))
  · exact (exec_pick hf hg).trans (congrArg _ (pickBank_kept hrun))
  · exact (exec_pick hf hg).trans (congrArg _ (pickBank_fault hrun))

/-- Settles O42: each is issued as one that is held (`exec_of_heldForm`), and held it joins the issuing bank while there is room (`hold_room`,
`hold_full`). -/
theorem heldInstructionsJoinTheirBank : Obligations.HeldInstructionsJoinTheirBank := by
  intro i g f ok steps s hi hf hg hok
  have hexec := (exec_of_heldForm hi hf hok).trans (holdable_forked hf hg)
  refine ⟨fun hroom => hexec.trans ?_, fun hfull => hexec.trans ?_⟩
  · rw [hold_room hroom, acc_bind_ok, afterIssue_setMe]
    rfl
  · rw [hold_full hfull]
    rfl

end Sys2Proof.Proofs
end

section
/-! SUPPORT. Pointers: PADD's field and poison (06 R138), and the owner of a key on a ring (06 R140; 19 R403). -/

namespace Sys2Proof.Machine

open Sys2Proof.Claims

/-! ## PADD -/

theorem toNat_poisonPtr (p : Word) : (poisonPtr p).toNat = p.toNat % 2 ^ 60 + 0xE * 2 ^ 60 := by
  rw [poisonPtr, BitVec.toNat_ofNat]
  omega

/-- A poisoned pointer is in space 0xE and keeps its low 60 bits. -/
theorem poisonPtr_space (p : Word) : space (poisonPtr p) = 0xE ∧ (poisonPtr p).toNat % 2 ^ 60 = p.toNat % 2 ^ 60 := by
  rw [space, toNat_poisonPtr]
  omega

theorem offWidth_eq (sp : Nat) : offWidth sp =
    if sp = 0 ∨ sp = 1 ∨ sp = 2 ∨ sp = 8 ∨ sp = 0xC ∨ sp = 0xF then some 48
    else if sp = 4 then some 22 else if sp = 5 then some 25 else if sp = 6 then some 32
    else if sp = 7 then some 14 else none := by
  unfold offWidth
  split <;> simp_all

theorem offWidth_le {sp w : Nat} (h : offWidth sp = some w) : w ≤ 48 := by
  unfold offWidth at h
  split at h <;> cases h <;> decide

/-- A sum that stays in the offset field is the pointer's number with the field replaced. -/
theorem toNat_advance {p : Word} {w n : Nat} {d : Int} (hw : w ≤ 64) (hsum : ((p.toNat % 2 ^ w : Nat) : Int) + d = n) (hn : n < 2 ^ w) :
    (advance p w d).toNat = 2 ^ w * (p.toNat / 2 ^ w) + n := by
  have hdiv := Nat.div_add_mod p.toNat (2 ^ w)
  have hfield : 2 ^ w * (p.toNat / 2 ^ w + 1) ≤ 2 ^ 64 := by
    have hsplit : 2 ^ w * 2 ^ (64 - w) = 2 ^ 64 := by rw [← pow_add, Nat.add_sub_cancel' hw]
    rw [← hsplit]
    exact Nat.mul_le_mul_left _ (Nat.div_lt_of_lt_mul (hsplit ▸ p.isLt))
  rw [Nat.mul_add, Nat.mul_one] at hfield
  have hin : ¬(((n : Nat) : Int) < 0 ∨ (n : Int) ≥ 2 ^ w) := by
    push Not
    exact ⟨Int.natCast_nonneg n, by exact_mod_cast hn⟩
  simp only [advance, hsum]
  rw [if_neg hin, BitVec.toNat_ofNat, Int.toNat_natCast, Nat.mod_eq_of_lt (by omega)]
  omega

/-- A sum that stays in the field moves the pointer by its amount and changes nothing above the field. -/
theorem advance_inside {p : Word} {w : Nat} {d : Int} (hw : w ≤ 64) (h0 : 0 ≤ ((p.toNat % 2 ^ w : Nat) : Int) + d)
    (h1 : ((p.toNat % 2 ^ w : Nat) : Int) + d < 2 ^ w) :
    ((advance p w d).toNat : Int) = p.toNat + d ∧ (advance p w d).toNat / 2 ^ w = p.toNat / 2 ^ w := by
  obtain ⟨n, hsum⟩ := Int.eq_ofNat_of_zero_le h0
  have hn : n < 2 ^ w := by
    rw [hsum] at h1
    exact_mod_cast h1
  rw [toNat_advance hw hsum hn]
  refine ⟨?_, ?_⟩
  · have hdiv : ((2 ^ w * (p.toNat / 2 ^ w) + p.toNat % 2 ^ w : Nat) : Int) = p.toNat := congrArg _ (Nat.div_add_mod p.toNat (2 ^ w))
    rw [Nat.cast_add] at hdiv ⊢
    omega
  · rw [Nat.mul_add_div (Nat.two_pow_pos w), Nat.div_eq_of_lt hn, Nat.add_zero]

theorem advance_outside {p : Word} {w : Nat} {d : Int}
    (h : ((p.toNat % 2 ^ w : Nat) : Int) + d < 0 ∨ (2 ^ w : Int) ≤ ((p.toNat % 2 ^ w : Nat) : Int) + d) : advance p w d = poisonPtr p :=
  if_pos h

theorem padd_some {p : Word} {w : Nat} (h : offWidth (space p) = some w) (d : Int) : padd p d = advance p w d := by
  rw [padd, h]
theorem padd_none {p : Word} (h : offWidth (space p) = none) (d : Int) : padd p d = poisonPtr p := by
  rw [padd, h]

/-- No access through a poisoned pointer passes its checks (05 R117). -/
theorem zeroOk_poisoned {p : Word} (h : space p = 0xE) : zeroOk p = false := by
  simp only [zeroOk, h]

/-! ## The ring of keys -/

/-- A fold that keeps the entry of the lesser token finds the least. -/
theorem foldl_eq_argmin {f : Option (Nat × Nat) → Nat × Nat → Option (Nat × Nat)} (hnone : ∀ e, f none e = some e)
    (hsome : ∀ b e, f (some b) e = if e.2 < b.2 then some e else some b) (l : List (Nat × Nat)) :
    l.foldl f none = l.argmin Prod.snd := by
  have hf : f = List.argAux fun b c => b.2 < c.2 := by
    funext best e
    cases best
    · exact hnone e
    · exact hsome _ e
  rw [hf]
  rfl

/-- The owner of a hash is the holder of the least of the tokens at or above it, or else of the least of all (19 R403). -/
theorem ringOwner_eq (l : List (Nat × Nat)) (h : Nat) :
    ringOwner l h = ((l.filter fun e => decide (h ≤ e.2)).argmin Prod.snd).elim ((l.argmin Prod.snd).map (·.1)) fun e => some e.1 := by
  simp only [ringOwner]
  rw [foldl_eq_argmin (fun _ => rfl) (fun _ _ => rfl), foldl_eq_argmin (fun _ => rfl) (fun _ _ => rfl)]
  cases (l.filter fun e => decide (h ≤ e.2)).argmin Prod.snd <;> rfl

/-- A ring with a token has an owner for every hash, the holder that the ring holds it by. -/
theorem ringOwner_holds {l : List (Nat × Nat)} (hl : l ≠ []) (h : Nat) : ∃ e, ringHolds l h e ∧ ringOwner l h = some e.1 := by
  rw [ringOwner_eq]
  cases habove : (l.filter fun e => decide (h ≤ e.2)).argmin Prod.snd with
  | some e =>
    obtain ⟨hmem, hle⟩ := List.mem_filter.1 (List.argmin_mem habove)
    refine ⟨e, ⟨hmem, .inl ⟨of_decide_eq_true hle, fun x hx hxle => ?_⟩⟩, rfl⟩
    exact List.le_of_mem_argmin (List.mem_filter.2 ⟨hx, decide_eq_true hxle⟩) habove
  | none =>
    have hbelow : ∀ x ∈ l, x.2 < h := by simpa using habove
    obtain ⟨e, he⟩ : ∃ e, l.argmin Prod.snd = some e := Option.ne_none_iff_exists'.1 fun h0 => hl (List.argmin_eq_none.1 h0)
    rw [he]
    exact ⟨e, ⟨List.argmin_mem he, .inr ⟨hbelow, fun x hx => List.le_of_mem_argmin hx he⟩⟩, rfl⟩

theorem keyOwner_eq {s : State} {p key c : Nat} (hp : s.partOfHg s.cur = some p)
    (hc : ringOwner (s.ctx (s.part p).active).tokens (keyHash key) = some c) : s.keyOwner key = s.lcore c := by
  simp only [State.keyOwner, hp, hc]

theorem keyHash_low32 (x : Word) : keyHash (low32 x) = x.toNat % 2 ^ 32 * 0x9E3779B9 % 2 ^ 32 := by
  rw [keyHash, low32, Nat.mod_mod]

end Sys2Proof.Machine

namespace Sys2Proof.Proofs

open Sys2Proof.Machine Sys2Proof.Claims

/-- Settles O21: PADD moves the pointer within its field (`advance_inside`) or poisons it (`poisonPtr_space`), by the field of its space
(`offWidth_eq`). -/
theorem pointersAdvanceInTheirFieldOrPoison : Obligations.PointersAdvanceInTheirFieldOrPoison := by
  refine ⟨fun s d a b g hg => plain_run s hg, fun p => offWidth_eq _, fun p d w => ⟨fun hw h0 h1 => ?_, fun hw h => ?_, fun hw => ?_⟩,
    fun p => zeroOk_poisoned⟩
  · rw [padd_some hw]
    exact advance_inside ((offWidth_le hw).trans (by decide)) h0 h1
  · rw [padd_some hw, advance_outside h]
    exact poisonPtr_space p
  · rw [padd_none hw]
    exact poisonPtr_space p

/-- Settles O31: the ring of a partition's context has an owner for the key's hash (`ringOwner_holds`), and KEYLK points into it. -/
theorem keylkPointsIntoTheOwner : Obligations.KeylkPointsIntoTheOwner := by
  intro s d a b g p hg hp l hl
  obtain ⟨e, he, howner⟩ := ringOwner_holds hl (keyHash (low32 (s.getS a)))
  refine ⟨e, keyHash_low32 _ ▸ he, (plain_run s hg).trans ?_⟩
  rw [keyOwner_eq hp howner]
  rfl

end Sys2Proof.Proofs
end

section
/-! SUPPORT. What a release leaves alone (07 R169; 12 R294): it moves bytes between an L1 and their homes, and touches banks. -/

namespace Sys2Proof.Machine

open Sys2Proof.Claims

/-- A view of the state that no write-back changes: it sees no byte of memory and none that is poisoned or undefined, no core and no
cluster, and of a partition not that bytes of it are lost. -/
structure Aside {α : Type} (f : State → α) : Prop extends Untouched f where
  bytes : ∀ s m w u, f { s with mem := m, mod := { s.mod with poison := w, undef := u } } = f s
  core : ∀ s k x, f (s.setCore k x) = f s

section Aside

variable {α : Type} {f : State → α} (hf : Aside f)
include hf

theorem Aside.setByte (s : State) (a : Nat) (b : Byte) : f (s.setByte a b) = f s := hf.bytes s _ s.mod.poison s.mod.undef

theorem Aside.clearRange (s : State) (lo n : Nat) : f (s.clearRange lo n) = f s := hf.bytes s _ _ _

theorem Aside.writeMasked (n : Nat) : ∀ (s : State) (a m v : Nat), f (s.writeMasked a m v n) = f s := by
  induction n with
  | zero => exact fun _ _ _ _ => rfl
  | succ n ih =>
    intro s a m v
    rw [State.writeMasked, ih]
    split
    · exact hf.setByte s a _
    · rfl

theorem Aside.l2Evict (s : State) (cl line w : Nat) : f (s.l2Evict cl line w) = f s := by
  unfold State.l2Evict
  split
  · rfl
  · dsimp only
    rw [modCluster_eq, hf.cluster]
    split
    · exact (hf.cluster _ _ _).trans (hf.toUntouched.devTouch _)
    · split
      · exact hf.clearRange s _ _
      · rfl

theorem Aside.touchAs (s : State) (sp a w : Nat) (st : Bool) : f (s.touchAs sp a w st) = f s := by
  unfold State.touchAs
  split
  · rfl
  · split
    · exact hf.toUntouched.touchBank _ _
    · dsimp only
      split <;> simp only [modCluster_eq, hf.cluster, hf.toUntouched.touchBank]
      split
      · exact hf.l2Evict s _ _ _
      · rfl

theorem Aside.l1Clean (s : State) (c sec : Nat) : f (s.l1Clean c sec) = f s := by
  unfold State.l1Clean
  split
  · rw [modCore_eq, hf.core, hf.writeMasked]
  · rfl

theorem Aside.l1WriteBack (s : State) (c w : Nat) (secs : List Nat) : f (s.l1WriteBack c w secs) = f s := by
  unfold State.l1WriteBack
  split
  · rfl
  · rw [hf.touchAs, foldl_keeps _ f _ fun s sec => hf.l1Clean s c sec]
    exact hf.toUntouched.touchBank _ _

theorem Aside.writeBackAll (s : State) (w c : Nat) : f (s.writeBackAll w c) = f s :=
  foldl_keeps s f _ (fun s _ => hf.l1WriteBack s c w _) _

/-- A release changes no such view. -/
theorem Aside.release {s u : State} {k : Nat} {sc : Scope} (h : s.release k sc = .ok u) : f u = f s := by
  obtain ⟨-, -, h⟩ := acc_bind_cases h
  split at h
  · obtain ⟨-, -, h⟩ := acc_bind_cases h
    cases h
    exact hf.writeBackAll s k _
  · cases h
    rfl

theorem Aside.releases {s u : State} {rel : Bool} {sc : Scope} (h : releases s u rel sc) : f u = f s := by
  cases rel with
  | true => exact hf.release h
  | false => exact congrArg f h

end Aside

theorem aside_cur : Aside State.cur := ⟨untouched_cur, fun _ _ _ _ => rfl, fun _ _ _ => rfl⟩
theorem aside_wt : Aside State.wt := ⟨untouched_wt, fun _ _ _ _ => rfl, fun _ _ _ => rfl⟩
theorem aside_hg (k : Nat) : Aside (State.hg · k) := ⟨untouched_hg k, fun _ _ _ _ => rfl, fun _ _ _ => rfl⟩
theorem aside_launches : Aside State.launches := ⟨⟨fun _ _ _ => rfl, fun _ _ => rfl⟩, fun _ _ _ _ => rfl, fun _ _ _ => rfl⟩
theorem aside_armSeq : Aside fun s => s.mod.armSeq := ⟨⟨fun _ _ _ => rfl, fun _ _ => rfl⟩, fun _ _ _ _ => rfl, fun _ _ _ => rfl⟩

end Sys2Proof.Machine
end

section
/-! SUPPORT. Loads and stores through any pointer, from what the access gives (07 R166, R169; 06 R152). -/

namespace Sys2Proof.Machine

open Sys2Proof.Claims

variable {s t u : State} {ea : Word} {n v c : Nat} {dt : List Nat} {d r : SReg} {dv : VReg} {o : BitVec 8} {z : Size} {zv : VSize}
  {sc : Scope} {m : Bool}

/-- While nothing is held, no held store covers a load. -/
theorem overlay_unforked (hf : s.me.forked = false) (p : Word) : s.overlay p n v = v := by simp [State.overlay, hf]

/-- A load whose access ends: the value under the held stores, and the acquire. -/
theorem loadEa_ok (h : s.loadVia s.cur ea n (m && wideScope sc) true = .ok (t, v)) (hcur : t.cur = s.cur) :
    s.loadEa ea n sc m = .ok (acquired t m sc, s.overlay ea n v) := by
  rw [State.loadEa, h]
  cases m <;> simp [State.acquire, acquired, hcur]

theorem loadEa_fault (h : s.loadVia s.cur ea n (m && wideScope sc) true = .error (.fault c dt)) :
    s.loadEa ea n sc m = .error (.fault c dt) := by
  rw [State.loadEa, h]
  rfl

theorem ld_traps (h : s.loadEa (effAddr (s.getS r) o (sizeBytes z)) (sizeBytes z) sc m = .error (.fault c dt)) :
    traps (.ld d r o z sc m) s c dt := by
  show execLd d r o z sc m s = _
  simp [execLd, plain_run s (state_getP_zero s), h]

theorem ldv_traps (h : s.loadEa (effAddr (s.getS r) o (vsizeBytes zv)) (vsizeBytes zv) sc m = .error (.fault c dt)) :
    traps (.ldv dv r o zv sc m) s c dt := by
  show execLdv dv r o zv sc m s = _
  simp [execLdv, plain_run s (state_getP_zero s), h]

/-! ## Stores -/

/-- A store is its access, made after the release. -/
theorem storeEa_releases (hr : releases s u m sc) :
    s.storeEa ea n v sc m = keeping u (u.storeVia s.cur ea n v (m && wideScope sc) true) := by
  have hcur : u.cur = s.cur := aside_cur.releases hr
  cases m with
  | true => rw [State.storeEa, if_pos rfl, show s.release s.cur sc = .ok u from hr, acc_bind_ok, ← hcur]
  | false =>
    cases show u = s from hr
    rfl

theorem storeEa_ok (hr : releases s u m sc) (h : u.storeVia s.cur ea n v (m && wideScope sc) true = .ok t) :
    s.storeEa ea n v sc m = .ok t := by
  rw [storeEa_releases hr, h]
  rfl

theorem storeEa_fault (hr : releases s u m sc) (h : u.storeVia s.cur ea n v (m && wideScope sc) true = .error (.fault c dt)) :
    s.storeEa ea n v sc m = .error (.fault c dt) := by
  rw [storeEa_releases hr, h]
  rfl

section Store

variable (hf : s.me.forked = false)
include hf

theorem st_traps
    (h : s.storeEa (effAddr (s.getS r) o (sizeBytes z)) (sizeBytes z) ((s.getS d).toNat % 256 ^ sizeBytes z) sc m = .error (.fault c dt)) :
    traps (.st d r o z sc m) s c dt := by
  show execSt d r o z sc m s = _
  simp [execSt, State.holdable, State.performSt, plain_run s (state_getP_zero s), hf, h]

theorem stv_traps (h : s.storeEa (effAddr (s.getS r) o (vsizeBytes zv)) (vsizeBytes zv) ((s.getV dv).toNat % 256 ^ vsizeBytes zv) sc m =
    .error (.fault c dt)) : traps (.stv dv r o zv sc m) s c dt := by
  show execStv dv r o zv sc m s = _
  simp [execStv, State.holdable, State.performStv, plain_run s (state_getP_zero s), hf, h]

end Store

end Sys2Proof.Machine

namespace Sys2Proof.Proofs

open Sys2Proof.Machine Sys2Proof.Claims

/-- Settles O23: a load that its access ends gives the value of `loadEa_ok`, a fault of the access is its own (`loadEa_fault`), and nothing is
held while FORKED = 0 (`overlay_unforked`). -/
theorem loadsWriteTheirDestination : Obligations.LoadsWriteTheirDestination := by
  intro s t d a dv o z zv sc acq v c dt
  refine ⟨fun h hcur => ld_goesOn (loadEa_ok h hcur), fun h => ld_traps (loadEa_fault h), fun h hcur => ldv_goesOn (loadEa_ok h hcur),
    fun h => ldv_traps (loadEa_fault h), fun hf => ⟨overlay_unforked hf _, overlay_unforked hf _⟩⟩

/-- Settles O26: after the release a store ends as its access does (`storeEa_ok`, `storeEa_fault`). -/
theorem storesPerformThroughTheirPointer : Obligations.StoresPerformThroughTheirPointer := by
  intro s u t d a dv o z zv sc rel c dt hf hr
  exact ⟨fun h => st_goesOn hf (storeEa_ok hr h), fun h => st_traps hf (storeEa_fault hr h), fun h => stv_goesOn hf (storeEa_ok hr h),
    fun h => stv_traps hf (storeEa_fault hr h)⟩

end Sys2Proof.Proofs
end

section
/-! SUPPORT. The fences (07 R173 to R176; 12 R294): what a fence does to the L1 at a scope, and each fence from its waits. -/

namespace Sys2Proof.Machine

open Sys2Proof.Claims

variable {s u : State} {sc : Scope} {g : PReg}

/-! ## The L1 at a scope -/

/-- A scope reaches beyond the core's L1: cluster or wider, and the sequencer has an L1. -/
theorem wide_iff : (wideScope sc && !isRmc s.cur) = true ↔ wideScope sc = true ∧ isRmc s.cur = false := by simp

theorem fenceL1_narrow (hw : ¬(wideScope sc = true ∧ isRmc s.cur = false)) (wb inv : Bool) : s.fenceL1 s.cur sc wb inv = .ok s :=
  if_neg (mt wide_iff.1 hw)

/-- Without a write-back. -/
theorem fenceL1_inval (hw : wideScope sc = true ∧ isRmc s.cur = false) :
    s.fenceL1 s.cur sc false true = .ok (s.selfInval (coreOf s.cur)) :=
  if_pos (wide_iff.2 hw)

/-- With a write-back, which may go now. -/
theorem fenceL1_writeBack (hw : wideScope sc = true ∧ isRmc s.cur = false) (hready : s.flushReady s.cur [coreOf s.cur] = .ok ()) (inv : Bool) :
    s.fenceL1 s.cur sc true inv =
      .ok (if inv then (s.writeBackAll s.cur (coreOf s.cur)).selfInval (coreOf s.cur) else s.writeBackAll s.cur (coreOf s.cur)) := by
  rw [State.fenceL1, if_pos (wide_iff.2 hw), if_pos rfl, hready]
  rfl

/-! ## Releases -/

theorem release_waits (h : s.storesDone s.cur sc = false) : s.release s.cur sc = .error (.wait .busy) := by
  rw [State.release, h]
  rfl

theorem release_wide (h : s.storesDone s.cur sc = true) (hw : wideScope sc = true ∧ isRmc s.cur = false)
    (hready : s.flushReady s.cur [coreOf s.cur] = .ok ()) : s.release s.cur sc = .ok (s.writeBackAll s.cur (coreOf s.cur)) := by
  rw [State.release, h, waitFor_true, acc_bind_ok, if_pos (wide_iff.2 hw), hready]
  rfl

theorem release_narrow (h : s.storesDone s.cur sc = true) (hw : ¬(wideScope sc = true ∧ isRmc s.cur = false)) :
    s.release s.cur sc = .ok s := by
  rw [State.release, h, waitFor_true, acc_bind_ok, if_neg (mt wide_iff.1 hw)]

/-! ## A whole fence -/

theorem fullFence_done (hc : s.me.commandsDone = true) (hs : s.storesDone s.cur sc = true) :
    s.fullFence sc = s.fenceL1 s.cur sc true true := by
  rw [State.fullFence, hc, hs]
  rfl

theorem fullFence_waits (h : s.me.commandsDone = false ∨ s.storesDone s.cur sc = false) : s.fullFence sc = .error (.wait .busy) := by
  rw [State.fullFence, Bool.and_eq_false_iff.2 h]
  rfl

/-! ## The instructions -/

section Run

variable (hf : s.me.forked = false) (hg : s.getP g = true)
include hf hg

theorem fence_goesOn (h : s.fullFence sc = .ok u) : goesOn (.fence sc g) s u :=
  (unforked_run s hf hg).trans (by rw [h]; rfl)

theorem fence_waits (h : s.fullFence sc = .error (.wait .busy)) : waits (.fence sc g) s :=
  (unforked_run s hf hg).trans (by rw [h]; rfl)

theorem fenceLd_goesOn (h : s.fenceL1 s.cur sc false true = .ok u) : goesOn (.fenceLd sc g) s u :=
  (unforked_run s hf hg).trans (by rw [h]; rfl)

theorem exec_fenceSt : exec (.fenceSt sc g) s =
    .next (if s.storesDone s.cur sc then s.finish (do done (← s.fenceL1 s.cur sc true false)) else s) := by
  refine (unforked_run s hf hg).trans ?_
  rw [finish_waitFor]

theorem fenceSt_goesOn (hs : s.storesDone s.cur sc = true) (h : s.fenceL1 s.cur sc true false = .ok u) : goesOn (.fenceSt sc g) s u := by
  rw [goesOn, exec_fenceSt hf hg, if_pos hs, h]
  rfl

theorem exec_wfence : exec (.wfence g) s =
    .next (if s.remoteClear s.cur then (s.setMe { s.me with lastWin := none }).retire else s) :=
  (unforked_run s hf hg).trans (by rw [finish_waitFor]; rfl)

theorem ifence_goesOn (h : s.fenceL1 s.cur .cluster false true = .ok u) (hw : s.wakesDone s.cur = true) :
    goesOn (.ifence g) s (u.setMe { u.me with icache := [] }) :=
  (unforked_run s hf hg).trans (by rw [finish_waitFor, if_pos hw, h]; rfl)

/-! ## MFENCE (07 R175) -/

theorem mfence_waits (h : s.me.wait = .mfence false) : waits (.mfence g) s :=
  (unforked_run s hf hg).trans (by rw [h]; rfl)

theorem mfence_begins (h : s.me.wait = .none) (hb : s.boundActive s.cur = true) :
    exec (.mfence g) s = .next (s.setMe { s.me with wait := .mfence false }) := by
  refine (unforked_run s hf hg).trans ?_
  rw [h]
  dsimp only
  rw [if_pos hb]
  rfl

theorem mfence_idle (h : s.me.wait = .none) (hb : s.boundActive s.cur = false) (hfence : s.fullFence .partition = .ok u) :
    goesOn (.mfence g) s u := by
  refine (unforked_run s hf hg).trans ?_
  rw [h]
  dsimp only
  rw [if_neg (by simp [hb]), hfence]
  rfl

theorem mfence_came (h : s.me.wait = .mfence true) (hfence : s.fullFence .partition = .ok u) :
    goesOn (.mfence g) s (u.setMe { u.me with wait := .none }) := by
  refine (unforked_run s hf hg).trans ?_
  rw [h]
  dsimp only
  rw [hfence]
  rfl

end Run

end Sys2Proof.Machine

namespace Sys2Proof.Proofs

open Sys2Proof.Machine Sys2Proof.Claims

/-- Settles O29: what a fence or a release does to the L1 (`fenceL1_writeBack`, `fenceL1_inval`, `release_wide`), and each fence where it need not
wait; MFENCE by what its headgate waits for. -/
theorem fencesWaitAndOrder : Obligations.FencesWaitAndOrder := by
  refine ⟨fun s sc g hf hg => ?_, fun s u g hf hg => ?_⟩
  · dsimp only
    refine ⟨fun hs => ⟨release_wide hs, release_narrow hs⟩, release_waits, fun hc hs => ⟨fun hw hready => ?_, fun hw => ?_⟩,
      fun h => fence_waits hf hg (fullFence_waits h), ⟨fun hw => fenceLd_goesOn hf hg (fenceL1_inval hw),
        fun hw => fenceLd_goesOn hf hg (fenceL1_narrow hw false true)⟩,
      fun hs => ⟨fun hw hready => fenceSt_goesOn hf hg hs (fenceL1_writeBack hw hready false),
        fun hw => fenceSt_goesOn hf hg hs (fenceL1_narrow hw true false)⟩,
      fun hs => ?_, fun h => ?_, fun h => ?_, fun hw => ⟨_, rfl, ?_⟩⟩
    · exact fence_goesOn hf hg ((fullFence_done hc hs).trans (fenceL1_writeBack hw hready true))
    · exact fence_goesOn hf hg ((fullFence_done hc hs).trans (fenceL1_narrow hw true true))
    · rw [waits, exec_fenceSt hf hg, if_neg (by simp [hs])]
    · rw [goesOn, exec_wfence hf hg, if_pos h]
    · rw [waits, exec_wfence hf hg, if_neg (by simp [h])]
    · refine ifence_goesOn hf hg ?_ hw
      split
      · next h => exact fenceL1_narrow (by simp [h]) false true
      · next h => exact fenceL1_inval ⟨rfl, by simpa using h⟩
  · exact ⟨mfence_waits hf hg, mfence_begins hf hg, fun h hb hc hs hu => mfence_idle hf hg h hb ((fullFence_done hc hs).trans hu),
      fun h hc hs hu => mfence_came hf hg h ((fullFence_done hc hs).trans hu)⟩

end Sys2Proof.Proofs
end

section
/-! SUPPORT. Barrier records (07 R177, R178): their fields, and what an arrival and a leave of a slot make of them. -/

namespace Sys2Proof.Machine

open Sys2Proof.Claims

/-! ## The record and its slots -/

/-- The record that the fields of an image are. -/
theorem barRec_of_image {e r gen high : Nat} (he : e < 2 ^ 64) (hr : r < 2 ^ 64) (hgen : gen < 2 ^ 32) :
    BarRec.of (barrierImage e r gen high) = ⟨BitVec.ofNat 64 e, BitVec.ofNat 64 r, gen⟩ := by
  simp only [BarRec.of, bits, barrierImage, BarRec.mk.injEq]
  refine ⟨?_, ?_, ?_⟩
  · apply BitVec.eq_of_toNat_eq; simp only [BitVec.toNat_ofNat]; omega
  · apply BitVec.eq_of_toNat_eq; simp only [BitVec.toNat_ofNat]; omega
  · omega

theorem image_high {e r gen high : Nat} (he : e < 2 ^ 64) (hr : r < 2 ^ 64) (hgen : gen < 2 ^ 32) :
    barrierImage e r gen high / 2 ^ 160 = high := by
  unfold barrierImage; omega

theorem image_barRec {e r gen high : Nat} (he : e < 2 ^ 64) (hr : r < 2 ^ 64) (hgen : gen < 2 ^ 32) :
    BarRec.image ⟨BitVec.ofNat 64 e, BitVec.ofNat 64 r, gen⟩ high = barrierImage e r gen high := by
  simp only [BarRec.image, barrierImage, BitVec.toNat_ofNat, Nat.mod_eq_of_lt he, Nat.mod_eq_of_lt hr, Nat.mod_eq_of_lt hgen]


section Slot

variable {k : Word} (hk : k.toNat < 64)
include hk

theorem slotMask_eq : slotMask k = BitVec.twoPow 64 k.toNat := by rw [slotMask, Nat.mod_eq_of_lt hk, BitVec.twoPow_eq]

theorem slotMask_eq_ofNat : slotMask k = BitVec.ofNat 64 (2 ^ k.toNat) :=
  BitVec.eq_of_toNat_eq (by
    rw [slotMask_eq hk, BitVec.toNat_twoPow_of_lt hk, BitVec.toNat_ofNat, Nat.mod_eq_of_lt (Nat.pow_lt_pow_right (by decide) hk)])

theorem slotMask_ne_zero : slotMask k ≠ 0 := by
  intro h
  have := congrArg BitVec.toNat h
  rw [slotMask_eq hk, BitVec.toNat_twoPow_of_lt hk] at this
  exact absurd this (Nat.two_pow_pos _).ne'

/-- A word meets the mask in the slot's bit alone. -/
theorem and_slotMask (e : Nat) : BitVec.ofNat 64 e &&& slotMask k = if e / 2 ^ k.toNat % 2 = 1 then slotMask k else 0 := by
  rw [slotMask_eq hk, BitVec.and_twoPow, BitVec.getLsbD_ofNat, decide_eq_true hk, Bool.true_and, Nat.testBit_eq_decide_div_mod_eq]
  simp only [decide_eq_true_eq]
  rfl

/-- A slot that has not arrived joins ARR, which still fits its 64 bits. -/
theorem or_slotMask {r : Nat} (hr : r < 2 ^ 64) (h : r / 2 ^ k.toNat % 2 = 0) :
    BitVec.ofNat 64 r ||| slotMask k = BitVec.ofNat 64 (r + 2 ^ k.toNat) ∧ r + 2 ^ k.toNat < 2 ^ 64 := by
  have hand : BitVec.ofNat 64 r &&& slotMask k = 0 := by rw [and_slotMask hk, if_neg (by omega)]
  have hadd := BitVec.add_eq_or_of_and_eq_zero _ _ hand
  constructor
  · rw [← hadd, slotMask_eq_ofNat hk, BitVec.ofNat_add]
  · have hsum := BitVec.toNat_add_of_and_eq_zero hand
    rw [slotMask_eq hk, BitVec.toNat_twoPow_of_lt hk, BitVec.toNat_ofNat, Nat.mod_eq_of_lt hr] at hsum
    rw [← hsum]
    exact BitVec.isLt _

/-- A slot leaves a word: its bit goes where it was set. -/
theorem and_not_slotMask (r : Nat) : BitVec.ofNat 64 r &&& ~~~slotMask k =
    BitVec.ofNat 64 (if r / 2 ^ k.toNat % 2 = 1 then r - 2 ^ k.toNat else r) := by
  have hand := and_slotMask hk r
  split
  · next h =>
    rw [if_pos h] at hand
    have hsplit : BitVec.ofNat 64 r &&& ~~~slotMask k ||| slotMask k = BitVec.ofNat 64 r := by
      rw [BitVec.or_comm, ← hand]
      ext i hi
      simp only [BitVec.getElem_or, BitVec.getElem_and, BitVec.getElem_not]
      grind
    have hle : 2 ^ k.toNat ≤ r := Nat.ge_two_pow_of_testBit (by rw [Nat.testBit_eq_decide_div_mod_eq, decide_eq_true h])
    rw [← BitVec.ofNat_sub_ofNat_of_le _ _ (Nat.pow_lt_pow_right (by decide) hk) hle, ← slotMask_eq_ofNat hk, eq_sub_iff_add_eq,
      BitVec.add_eq_or_of_and_eq_zero _ _ (by rw [BitVec.and_assoc]; simp), hsplit]
  · next h =>
    rw [if_neg h] at hand
    ext i hi
    have hbit := congrArg (·[i]) hand
    simp only [BitVec.getElem_and, BitVec.getElem_not] at hbit ⊢
    grind

/-! ## An arrival and a leave (07 R178) -/

variable {e r gen high : Nat} (he : e < 2 ^ 64) (hr : r < 2 ^ 64) (hgen : gen < 2 ^ 32)
include he hr hgen

omit hk in
/-- The record after its slots may be complete. -/
theorem image_complete :
    (BarRec.complete ⟨BitVec.ofNat 64 e, BitVec.ofNat 64 r, gen⟩).image high = barrierComplete e r gen high := by
  have heq : BitVec.ofNat 64 r = BitVec.ofNat 64 e ↔ r = e := by
    rw [← BitVec.toNat_inj, BitVec.toNat_ofNat, BitVec.toNat_ofNat, Nat.mod_eq_of_lt he, Nat.mod_eq_of_lt hr]
  simp only [BarRec.complete, barrierComplete, heq]
  split
  · exact image_barRec he (by decide) (Nat.mod_lt _ (by decide))
  · exact image_barRec he hr hgen

/-- An expected slot that has not arrived arrives. -/
theorem arrive_expected (hexp : e / 2 ^ k.toNat % 2 = 1) (harr : r / 2 ^ k.toNat % 2 = 0) :
    ∃ x, BarRec.arrive ⟨BitVec.ofNat 64 e, BitVec.ofNat 64 r, gen⟩ k = .ok x ∧
      x.image high = barrierComplete e (r + 2 ^ k.toNat) gen high := by
  obtain ⟨hor, hlt⟩ := or_slotMask hk hr harr
  refine ⟨_, if_neg ?_, hor ▸ image_complete he hlt hgen⟩
  rintro (h | h)
  · rw [and_slotMask hk, if_pos hexp] at h
    exact slotMask_ne_zero hk h
  · rw [and_slotMask hk, if_neg (by omega)] at h
    exact h rfl

omit he hr hgen in
/-- Any other arrival raises ILLEGAL. -/
theorem arrive_illegal (h : e / 2 ^ k.toNat % 2 = 0 ∨ r / 2 ^ k.toNat % 2 = 1) :
    BarRec.arrive ⟨BitVec.ofNat 64 e, BitVec.ofNat 64 r, gen⟩ k = .error (.fault cIllegal []) := by
  refine if_pos (h.imp (fun h => ?_) fun h => ?_)
  · rw [and_slotMask hk, if_neg (by omega)]
  · rw [and_slotMask hk, if_pos h]
    exact slotMask_ne_zero hk

/-- An expected slot leaves EXP, and ARR where it has arrived. -/
theorem leave_expected (hexp : e / 2 ^ k.toNat % 2 = 1) :
    (BarRec.leave ⟨BitVec.ofNat 64 e, BitVec.ofNat 64 r, gen⟩ k).image high =
      barrierComplete (e - 2 ^ k.toNat) (if r / 2 ^ k.toNat % 2 = 1 then r - 2 ^ k.toNat else r) gen high := by
  have hmask : BitVec.ofNat 64 e &&& slotMask k ≠ 0 := by
    rw [and_slotMask hk, if_pos hexp]
    exact slotMask_ne_zero hk
  simp only [BarRec.leave, if_pos hmask, and_not_slotMask hk, if_pos hexp]
  exact image_complete ((Nat.sub_le _ _).trans_lt he) (by split; exacts [(Nat.sub_le _ _).trans_lt hr, hr]) hgen

/-- A slot that is not expected changes nothing. -/
theorem leave_unexpected (hexp : e / 2 ^ k.toNat % 2 = 0) :
    (BarRec.leave ⟨BitVec.ofNat 64 e, BitVec.ofNat 64 r, gen⟩ k).image high = barrierImage e r gen high := by
  have hmask : BitVec.ofNat 64 e &&& slotMask k = 0 := by rw [and_slotMask hk, if_neg (by omega)]
  simp only [BarRec.leave, hmask, ne_eq, not_true_eq_false, if_false]
  exact image_barRec he hr hgen

end Slot

/-- The record that BINIT leaves. -/
theorem image_cleared (exp : Word) {gen : Nat} (hgen : gen < 2 ^ 32) : BarRec.image ⟨exp, 0, gen⟩ 0 = barrierImage exp.toNat 0 gen 0 := by
  simp only [BarRec.image, barrierImage, Nat.mod_eq_of_lt hgen]
  rfl

/-! ## The instructions, on a record that can be read -/

section Run

variable {s u : State} {d a b : SReg} {g : PReg} {h x : Nat}

/-- The acquire after an access is that of the issuing sequencer. -/
theorem acquire_touch (sc : Scope) : (s.touch h).acquire s.cur sc = acquired (s.touch h) true sc := by
  simp only [State.acquire, acquired, Bool.true_and, show (s.touch h).cur = s.cur from aside_cur.touchAs s ..]

variable (hf : s.me.forked = false) (hg : s.getP g = true)
include hf hg

theorem barr_illegal (hk : 63 < (s.getS b).toNat) : traps (.barr d a b g) s cIllegal [] := by
  refine (unforked_run s hf hg).trans ?_
  rw [barSlotOk, finish_chk, if_neg (by simpa using Nat.succ_le_of_lt hk)]

theorem bleave_illegal (hk : 63 < (s.getS b).toNat) : traps (.bleave a b g) s cIllegal [] := by
  refine (unforked_run s hf hg).trans ?_
  rw [barSlotOk, finish_chk, if_neg (by simpa using Nat.succ_le_of_lt hk)]

theorem bqry_illegal (hk : 2 < (s.getS b).toNat) : traps (.bqry d a b g) s cIllegal [] := by
  refine (unforked_run s hf hg).trans ?_
  rw [finish_chk, if_neg (by simpa using Nat.succ_le_of_lt hk)]

/-- BARR after its release (07 R178, R179): as the arrival goes. -/
theorem exec_barr (hk : (s.getS b).toNat < 64) (hrel : s.release s.cur .partition = .ok u) (hread : u.barRead (s.getS a) = .ok (h, x)) :
    exec (.barr d a b g) s = .next (s.finish (do
      let r ← (BarRec.of x).arrive (s.getS b)
      done ((u.barWrite h (r.image (x / 2 ^ 160))).setS d (BitVec.ofNat 64 (BarRec.of x).gen)))) := by
  refine (unforked_run s hf hg).trans ?_
  rw [barSlotOk, finish_chk, if_pos (by simpa using hk), hrel, acc_bind_ok, hread]
  rfl

variable (hread : s.barRead (s.getS a) = .ok (h, x))
include hread

theorem binit_goesOn : goesOn (.binit a b g) s (s.barWrite h (BarRec.image { BarRec.of x with exp := s.getS b, arr := 0 } 0)) := by
  refine (unforked_run s hf hg).trans ?_
  rw [hread]
  rfl

theorem exec_bwait : exec (.bwait a b g) s =
    .next (if (BarRec.of x).gen ≠ low32 (s.getS b) then (acquired (s.touch h) true .partition).retire else s) := by
  refine (unforked_run s hf hg).trans ?_
  rw [hread, acc_bind_ok]
  dsimp only
  rw [finish_waitFor, acquire_touch]
  simp only [bne_iff_ne]
  rfl

theorem bleave_goesOn (hk : (s.getS b).toNat < 64) :
    goesOn (.bleave a b g) s (s.barWrite h (((BarRec.of x).leave (s.getS b)).image (x / 2 ^ 160))) := by
  refine (unforked_run s hf hg).trans ?_
  rw [barSlotOk, finish_chk, if_pos (by simpa using hk), hread]
  rfl

theorem bqry_goesOn (hk : (s.getS b).toNat < 3) : goesOn (.bqry d a b g) s ((s.touch h).setS d
    (if s.getS b = 0 then (BarRec.of x).exp else if s.getS b = 1 then (BarRec.of x).arr else BitVec.ofNat 64 (BarRec.of x).gen)) := by
  refine (unforked_run s hf hg).trans ?_
  rw [finish_chk, if_pos (by simpa using hk), hread]
  rfl

end Run

end Sys2Proof.Machine

namespace Sys2Proof.Proofs

open Sys2Proof.Machine Sys2Proof.Claims

/-- Settles O30: each barrier instruction on the record it reads (`binit_goesOn` to `exec_barr`), and that record's fields before and after
(`barRec_of_image`, `arrive_expected`, `leave_expected`). -/
theorem barriersCountTheirSlots : Obligations.BarriersCountTheirSlots := by
  intro s u d a b g h e r gen high hf hg he hr hgen _
  have hfields := barRec_of_image (high := high) he hr hgen
  have hhigh := image_high (high := high) he hr hgen
  refine ⟨fun hread => ?_, bqry_illegal hf hg, fun hk => ⟨barr_illegal hf hg hk, bleave_illegal hf hg hk⟩, fun hrel hread hk => ?_⟩
  · have hwait := exec_bwait (b := b) hf hg hread
    rw [hfields] at hwait
    refine ⟨?_, fun h => hwait.trans (congrArg _ (if_pos (Ne.symm h))), fun h => hwait.trans (congrArg _ (if_neg (not_not.2 h.symm))),
      fun hk hexp => ?_, fun hk hexp => ?_, fun hb => ?_, fun hb => ?_, fun hb => ?_⟩
    · have := binit_goesOn (b := b) hf hg hread
      rwa [hfields, image_cleared _ hgen] at this
    · have := bleave_goesOn hf hg hread hk
      rwa [hfields, hhigh, leave_expected hk he hr hgen hexp] at this
    · have := bleave_goesOn hf hg hread hk
      rwa [hfields, hhigh, leave_unexpected hk he hr hgen hexp] at this
    · have := bqry_goesOn (d := d) (b := b) hf hg hread (by rw [hb]; decide)
      rwa [if_pos hb, hfields] at this
    · have := bqry_goesOn (d := d) (b := b) hf hg hread (by rw [hb]; decide)
      rwa [if_neg (by rw [hb]; decide), if_pos hb, hfields] at this
    · have := bqry_goesOn (d := d) (b := b) hf hg hread (by rw [hb]; decide)
      rwa [if_neg (by rw [hb]; decide), if_neg (by rw [hb]; decide), hfields] at this
  · have hbarr := exec_barr (d := d) hf hg hk hrel hread
    rw [hfields, hhigh] at hbarr
    refine ⟨fun hexp harr => ?_, fun hbad => ?_⟩
    · obtain ⟨y, hy, himage⟩ := arrive_expected (high := high) hk he hr hgen hexp harr
      rw [hy, acc_bind_ok, himage] at hbarr
      exact hbarr
    · rw [arrive_illegal hk hbad] at hbarr
      exact hbarr

end Sys2Proof.Proofs
end

section
/-! SUPPORT. Messages (07 R180 to R182; 12 R309): the checks of QSEND, QRECV and QPOLL, and what each does after them. -/

namespace Sys2Proof.Machine

open Sys2Proof.Claims

variable {s u : State}

/-- The core that a message goes to (01 R8). -/
theorem byLcore_target {p i dst : Nat} (h : sendTarget s p i dst) : s.byLcore p (coreOf s.cur) i = .ok dst := by
  rcases h with ⟨rfl, rfl⟩ | ⟨hi, hdst⟩
  · rfl
  · rw [State.byLcore, if_neg hi, hdst]

theorem byLcore_beyond {p i : Nat} (c : Nat) (hi : i ≠ 0xFFFF) (h : (s.part p).cores.length ≤ i) :
    s.byLcore p c i = .error (.fault cAddr []) := by
  rw [State.byLcore, if_neg hi, List.getElem?_eq_none h]
  rfl

/-- The packet that a QSEND hands to the network interface (07 R180; 20 R406). -/
def State.qsendPacket (s : State) (d : VReg) (a b : SReg) (dst : Nat) : Packet :=
  { cls := 2, src := coreOf s.cur, seqr := s.cur, dst, queue := (s.getS a).toNat % 8, ready := s.wt + 6,
    msg :=
      { payload := (s.getV d).toNat, sent := s.wt, arrived := 0,
        header := BitVec.ofNat 64 (s.lcore (coreOf s.cur) * 2 ^ 48 + bits (s.getS b).toNat 0 48) } }

/-- A packet joins those of the module. -/
def State.sends (s : State) (x : Packet) : State := s.modMod fun m => { m with packets := m.packets ++ [x] }

/-- The rest of a QSEND once its target is known. -/
def State.qsendTo (s : State) (d : VReg) (a b : SReg) (dst : Nat) : Eff := do
  if clusterOf dst = clusterOf (coreOf s.cur) then pure () else s.leaving (clusterOf (coreOf s.cur))
  waitFor (s.niCount (coreOf s.cur) < 8)
  let t ← s.release s.cur .partition
  done (t.sends (s.qsendPacket d a b dst))

theorem qsendTo_crossing {d : VReg} {a b : SReg} {dst : Nat}
    (h : clusterOf dst = clusterOf (coreOf s.cur) ∨ s.leaving (clusterOf (coreOf s.cur)) = .ok ()) :
    s.qsendTo d a b dst = waitFor (s.niCount (coreOf s.cur) < 8) >>= fun _ =>
      s.release s.cur .partition >>= fun t => done (t.sends (s.qsendPacket d a b dst)) := by
  unfold State.qsendTo
  split
  · rfl
  · next hne => rw [h.resolve_left hne]; rfl

theorem bit_eq_testBit (x n : Nat) : bit x n = x.testBit n := by
  rw [Nat.testBit_eq_decide_div_mod_eq]; rfl

/-- The core queue that a number names. -/
theorem queue_fin (k : Core) (q : Fin 8) : k.queue q.val = k.queues.get q := by simp [Core.queue]

theorem setQueue_fin (k : Core) (q : Fin 8) (l : List Msg) : k.setQueue q.val l = { k with queues := k.queues.set q l } := by
  simp [Core.setQueue]

/-! ## A queue that a headgate may receive from (07 R181) -/

theorem queueOk_beyond {x : Word} (h : 8 ≤ x.toNat) : s.queueOk x = .error (.fault cIllegal []) := by
  rw [State.queueOk, decide_eq_false (Nat.not_lt.mpr h)]
  rfl

theorem queueOk_masked {x : Word} {q : Fin 8} (hx : x.toNat = q.val) (h : (s.core (unitCore s.cur)).tqmask.testBit q.val = true) :
    s.queueOk x = .error (.fault cProt []) := by
  rw [State.queueOk, hx, decide_eq_true q.isLt, bit_eq_testBit, h]
  rfl

theorem queueOk_open {x : Word} {q : Fin 8} (hx : x.toNat = q.val) (h : (s.core (unitCore s.cur)).tqmask.testBit q.val = false) :
    s.queueOk x = .ok () := by
  rw [State.queueOk, hx, decide_eq_true q.isLt, bit_eq_testBit, h]
  rfl

section Run

variable {d : VReg} {e a b : SReg} {g : PReg} (hf : s.me.forked = false) (hg : s.getP g = true)
include hf hg

/-! ## QSEND (07 R180, R182) -/

theorem qsend_illegal (h : bits (s.getS a).toNat 48 16 ≠ 0 ∨ bits (s.getS a).toNat 3 29 ≠ 0) : traps (.qsend d a b g) s cIllegal [] := by
  refine (unforked_run s hf hg).trans ?_
  dsimp only
  rw [finish_chk, if_neg (by simpa only [Bool.and_eq_true, beq_iff_eq, not_and_or] using h)]

section Legal

variable (hhigh : bits (s.getS a).toNat 48 16 = 0) (hmid : bits (s.getS a).toNat 3 29 = 0) {p : Nat} (hp : s.partOfHg s.cur = some p)
include hhigh hmid hp

/-- QSEND with a legal operand, in a partition: its target comes next. -/
theorem exec_qsend_legal : exec (.qsend d a b g) s =
    .next (s.finish (s.byLcore p (coreOf s.cur) (bits (s.getS a).toNat 32 16) >>= s.qsendTo d a b)) := by
  refine (unforked_run s hf hg).trans ?_
  dsimp only
  rw [finish_chk, if_pos (by simp [hhigh, hmid]), hp]
  rfl

theorem qsend_beyond (hi : bits (s.getS a).toNat 32 16 ≠ 0xFFFF) (h : (s.part p).cores.length ≤ bits (s.getS a).toNat 32 16) :
    traps (.qsend d a b g) s cAddr [] := by
  rw [traps, exec_qsend_legal hf hg hhigh hmid hp, byLcore_beyond _ hi h]
  rfl

/-- QSEND to a target that its cluster may send to: the network interface takes eight messages. -/
theorem exec_qsend {dst : Nat} (htarget : sendTarget s p (bits (s.getS a).toNat 32 16) dst)
    (hleave : clusterOf dst = clusterOf (coreOf s.cur) ∨ s.leaving (clusterOf (coreOf s.cur)) = .ok ()) :
    exec (.qsend d a b g) s = .next (if s.niCount (coreOf s.cur) < 8 then
      s.finish (s.release s.cur .partition >>= fun t => done (t.sends (s.qsendPacket d a b dst))) else s) := by
  rw [exec_qsend_legal hf hg hhigh hmid hp, byLcore_target htarget, acc_bind_ok, qsendTo_crossing hleave, finish_waitFor]
  simp only [decide_eq_true_eq]

end Legal

/-! ## QRECV and QPOLL (07 R181) -/

theorem qrecv_traps {c : Nat} (h : s.queueOk (s.getS a) = .error (.fault c [])) : traps (.qrecv d a b g) s c [] :=
  (unforked_run s hf hg).trans (by rw [h]; rfl)

theorem qpoll_traps {c : Nat} (h : s.queueOk (s.getS a) = .error (.fault c [])) : traps (.qpoll e a g) s c [] :=
  (unforked_run s hf hg).trans (by rw [h]; rfl)

variable {q : Fin 8} (hx : (s.getS a).toNat = q.val) (hopen : s.queueOk (s.getS a) = .ok ())
include hx hopen

theorem qrecv_empty (h : (s.core (unitCore s.cur)).queues.get q = []) : waits (.qrecv d a b g) s := by
  refine (unforked_run s hf hg).trans ?_
  dsimp only
  rw [hopen, acc_bind_ok, hx, queue_fin, h]
  rfl

theorem qrecv_oldest {m : Msg} {rest : List Msg} (h : (s.core (unitCore s.cur)).queues.get q = m :: rest) :
    goesOn (.qrecv d a b g) s ((((acquired (s.modCore (unitCore s.cur) fun k => { k with queues := k.queues.set q rest }) true .partition).setV d
      (BitVec.ofNat 512 m.payload)).setS b m.header).setS (b + 1) (BitVec.ofNat 64 (m.sent % 2 ^ 32 * 2 ^ 32 + m.arrived % 2 ^ 32))) := by
  refine (unforked_run s hf hg).trans ?_
  dsimp only
  rw [hopen, acc_bind_ok, hx, queue_fin, h]
  simp only [setQueue_fin]
  rfl

theorem qpoll_goesOn : goesOn (.qpoll e a g) s (s.setS e (BitVec.ofNat 64 ((s.core (unitCore s.cur)).queues.get q).length)) := by
  refine (unforked_run s hf hg).trans ?_
  rw [hopen, acc_bind_ok, hx, queue_fin]
  rfl

end Run

end Sys2Proof.Machine

namespace Sys2Proof.Proofs

open Sys2Proof.Machine Sys2Proof.Claims

/-- Settles O32: QSEND by its operand, its target and the room at the network interface (`exec_qsend`); QRECV and QPOLL by what their queue's
check finds (`queueOk_open`) and, for QRECV, by the oldest entry. -/
theorem messagesPassThroughTheirQueues : Obligations.MessagesPassThroughTheirQueues := by
  intro s u d e a b g p dst q m rest hf hg x c me
  refine ⟨fun hhigh hmid hp htarget hleave => ?_, qsend_illegal hf hg, fun hhigh hmid hp hi hlen => qsend_beyond hf hg hhigh hmid hp hi hlen,
    fun hx hq => ?_, fun hx => ?_, fun hx hq => ?_⟩
  · have hexec := exec_qsend (d := d) (b := b) hf hg hhigh hmid hp htarget hleave
    refine ⟨fun hroom hrel => ?_, fun hfull => hexec.trans (congrArg _ (if_neg (Nat.not_lt.mpr hfull)))⟩
    refine (hexec.trans (congrArg _ (if_pos hroom))).trans ?_
    rw [show s.release s.cur .partition = .ok u from hrel, acc_bind_ok, finish_done, State.qsendPacket, bits_zero]
    rfl
  · have hopen := queueOk_open hx hq
    exact ⟨qrecv_oldest hf hg hx hopen, qrecv_empty hf hg hx hopen, qpoll_goesOn hf hg hx hopen⟩
  · exact ⟨qrecv_traps hf hg (queueOk_beyond hx), qpoll_traps hf hg (queueOk_beyond hx)⟩
  · exact ⟨qrecv_traps hf hg (queueOk_masked hx hq), qpoll_traps hf hg (queueOk_masked hx hq)⟩

end Sys2Proof.Proofs
end

section
/-! SUPPORT. Route counters (07 R187, R188): an addition to one, and the instructions on them. -/

namespace Sys2Proof.Machine

open Sys2Proof.Claims

variable {s t : State}

/-- An addition to the counter that a number names (07 R187). -/
theorem count_eq_counted (k : Core) {n : Nat} {i : Fin 64} (h : n = i.val) (x : Nat) : k.count n x = counted k i x := by
  subst h
  have hbit : (!bit k.cntovf i.val) = true ↔ k.cntovf / 2 ^ i.val % 2 = 0 := by
    rcases Nat.mod_two_eq_zero_or_one (k.cntovf / 2 ^ i.val) with h | h <;> simp [bit, h]
  simp only [Core.count, counted, Fin.ofNat_eq_cast, Fin.cast_val_eq_self, ge_iff_le, hbit]

/-- VCNT counts the lanes that name a counter one after another. -/
theorem foldl_count (n : Nat) (l : List Nat) : ∀ k : Core, (l.filter (· < 64)).foldl (fun k i => k.count i n) k =
    (l.filter (· < 64)).foldl (fun y j => counted y (Fin.ofNat 64 j) n) k := by
  intro k
  refine List.foldl_ext _ _ _ fun y j hj => count_eq_counted y ?_ n
  exact (Nat.mod_eq_of_lt (by simpa using (List.mem_filter.1 hj).2)).symm

section Run

variable {d a b : SReg} {g : PReg} (hf : s.me.forked = false) (hg : s.getP g = true)
include hf hg

theorem cntadd_illegal (h : 64 ≤ (s.getS a).toNat) : traps (.cntadd a b g) s cIllegal [] := by
  refine (unforked_run s hf hg).trans ?_
  rw [finish_chk, if_neg (by simpa using h)]

theorem cntrd_illegal (h : 64 ≤ (s.getS a).toNat) : traps (.cntrd d a g) s cIllegal [] := by
  refine (unforked_run s hf hg).trans ?_
  rw [finish_chk, if_neg (by simpa using h)]

theorem cntadd_goesOn {i : Fin 64} (h : (s.getS a).toNat = i.val) :
    goesOn (.cntadd a b g) s (s.modCore (unitCore s.cur) fun y => counted y i (low32 (s.getS b))) := by
  refine (unforked_run s hf hg).trans ?_
  rw [finish_chk, if_pos (by simp [h])]
  simp only [count_eq_counted _ h]
  rfl

theorem cntrd_goesOn {i : Fin 64} (h : (s.getS a).toNat = i.val) :
    goesOn (.cntrd d a g) s (s.setS d (BitVec.ofNat 64 ((s.core (unitCore s.cur)).counters.get i))) := by
  refine (unforked_run s hf hg).trans ?_
  rw [finish_chk, if_pos (by simp [h]), h, Fin.ofNat_eq_cast, Fin.cast_val_eq_self]
  rfl

theorem vcnt_goesOn (v : VReg) : goesOn (.vcnt v b g) s (s.modCore (unitCore s.cur) fun y =>
    ((lanes (s.getV v) 32).filter (· < 64)).foldl (fun y j => counted y (Fin.ofNat 64 j) (low32 (s.getS b))) y) := by
  refine (unforked_run s hf hg).trans ?_
  simp only [foldl_count]
  rfl

theorem cntsnap_goesOn (h : s.storePieces s.cur (s.getS a) 4 (pack 32 (s.core (unitCore s.cur)).counters.toList) = .ok t) :
    goesOn (.cntsnap d a g) s ((t.modCore (unitCore s.cur) fun y => { y with counters := Vector.replicate 64 0, cntovf := 0 }).setS d
      (BitVec.ofNat 64 (s.core (unitCore s.cur)).cntovf)) :=
  (unforked_run s hf hg).trans (by dsimp only; rw [h]; rfl)

theorem cntsnap_traps {c : Nat} {dt : List Nat}
    (h : s.storePieces s.cur (s.getS a) 4 (pack 32 (s.core (unitCore s.cur)).counters.toList) = .error (.fault c dt)) :
    traps (.cntsnap d a g) s c dt :=
  (unforked_run s hf hg).trans (by dsimp only; rw [h]; rfl)

end Run

end Sys2Proof.Machine

namespace Sys2Proof.Proofs

open Sys2Proof.Machine Sys2Proof.Claims

/-- Settles O35: an addition is `counted` (`count_eq_counted`), lane by lane for VCNT (`foldl_count`); CNTSNAP clears what it has stored. -/
theorem routeCountersCountAndClear : Obligations.RouteCountersCountAndClear := by
  intro s t d a b v g i c dt hf hg
  exact ⟨fun h => ⟨cntadd_goesOn hf hg h, cntrd_goesOn hf hg h⟩, fun h => ⟨cntadd_illegal hf hg h, cntrd_illegal hf hg h⟩,
    vcnt_goesOn hf hg v, cntsnap_goesOn hf hg, cntsnap_traps hf hg⟩

end Sys2Proof.Proofs
end

section
/-! SUPPORT. Launch records from the device (07 R185; 17 R349, R351): whose they are, in what state, and what is done to them. -/

namespace Sys2Proof.Machine

open Sys2Proof.Claims

variable {s u : State}

/-- The issuing sequencer's context owns a record. -/
theorem owns_iff (l : Launch) : (s.ctxOf s.cur == some l.owner) = true ↔ owns s l := by
  rw [beq_iff_eq, State.ctxOf]
  constructor
  · intro h
    split at h
    · next p hp =>
      split at h
      · next hav => exact ⟨p, hp, hav, Option.some.inj h⟩
      · cases h
    · cases h
  · rintro ⟨p, hp, hav, howner⟩
    rw [hp]
    dsimp only
    rw [if_pos hav, howner]
    rfl

theorem idle_iff (l : Launch) : l.idle = true ↔ mayArm l := by
  simp only [Launch.idle, Bool.or_eq_true, beq_iff_eq, or_assoc]

section Run

variable {d a b : SReg} {g : PReg} (hf : s.me.forked = false) (hg : s.getP g = true)
include hf hg

/-! ## LRPATCH -/

theorem lrpatch_illegal (h : bits (s.getS a).toNat 20 44 ≠ 0 ∨ bits (s.getS a).toNat 12 4 ≠ 0) : traps (.lrpatch a b g) s cIllegal [] := by
  refine (unforked_run s hf hg).trans ?_
  dsimp only
  rw [finish_chk, if_neg (by simpa only [Bool.and_eq_true, beq_iff_eq, not_and_or] using h)]

/-- LRPATCH with a legal operand: its checks of the record in their order. -/
theorem exec_lrpatch (hhigh : bits (s.getS a).toNat 20 44 = 0) (hmid : bits (s.getS a).toNat 12 4 = 0) :
    exec (.lrpatch a b g) s = .next (
      let r := bits (s.getS a).toNat 0 12
      let w := bits (s.getS a).toNat 16 4
      if (s.ctxOf s.cur == some (s.launch r).owner) = true then
        if (s.launch r).idle then
          if bit (s.launch r).patchMask w then
            (s.modLaunch r fun y => { y with words := y.words.set (Fin.ofNat 16 w) (s.getS b) }).retire
          else s.precise cProt []
        else s.precise cLaunch []
      else s.precise cProt []) := by
  refine (unforked_run s hf hg).trans ?_
  dsimp only
  rw [finish_chk, if_pos (by simp [hhigh, hmid]), finish_chk, finish_chk, finish_chk]
  rfl

/-! ## LRARM and LRQRY -/

theorem lrarm_illegal (h : 4096 ≤ (s.getS a).toNat) : traps (.lrarm a g) s cIllegal [] := by
  refine (unforked_run s hf hg).trans ?_
  rw [finish_chk, if_neg (by simpa using h)]

theorem lrqry_illegal (h : 4096 ≤ (s.getS a).toNat) : traps (.lrqry d a g) s cIllegal [] := by
  refine (unforked_run s hf hg).trans ?_
  rw [finish_chk, if_neg (by simpa using h)]

/-- LRQRY of a record's number. -/
theorem exec_lrqry (h : (s.getS a).toNat < 4096) : exec (.lrqry d a g) s = .next (
    if (s.ctxOf s.cur == some (s.launch (s.getS a).toNat).owner) = true then
      (s.setS d (BitVec.ofNat 64 (s.launch (s.getS a).toNat).status)).retire
    else s.precise cProt []) := by
  refine (unforked_run s hf hg).trans ?_
  rw [finish_chk, if_pos (by simpa using h), finish_chk]
  rfl

/-- LRARM of a record's number, after its release: what it arms stands as before it (07 R186). -/
theorem exec_lrarm (h : (s.getS a).toNat < 4096) (hrel : s.release s.cur .partition = .ok u) : exec (.lrarm a g) s = .next (
    if (s.ctxOf s.cur == some (s.launch (s.getS a).toNat).owner) = true then
      if (s.launch (s.getS a).toNat).idle then
        ((u.modLaunch (s.getS a).toNat fun y =>
          { y with state := 2, via := y.port, order := s.mod.armSeq, accepted := false, armedWt := s.wt }).modMod fun m =>
            { m with armSeq := m.armSeq + 1, dcmds := m.dcmds ++ [((s.getS a).toNat, 0)] }).retire
      else s.precise cLaunch []
    else s.precise cProt []) := by
  have hlaunch : u.launch (s.getS a).toNat = s.launch (s.getS a).toNat := by
    rw [State.launch, aside_launches.release hrel]
    rfl
  refine (unforked_run s hf hg).trans ?_
  rw [finish_chk, if_pos (by simpa using h), hrel, acc_bind_ok, State.armRecord, hlaunch, ← aside_wt.release hrel, ← aside_armSeq.release hrel]
  split
  · next howner =>
    rw [howner, chk_true, acc_bind_ok]
    split
    · next hidle => rw [hidle]; rfl
    · next hidle => rw [Bool.eq_false_iff.2 hidle]; rfl
  · next howner => rw [Bool.eq_false_iff.2 howner]; rfl

end Run

end Sys2Proof.Machine

namespace Sys2Proof.Proofs

open Sys2Proof.Machine Sys2Proof.Claims

/-- Settles O34: the checks of each instruction on the record in their order (`exec_lrpatch`, `exec_lrarm`, `exec_lrqry`), which ask whose the
record is (`owns_iff`) and in what state (`idle_iff`). -/
theorem launchRecordsFollowTheirStates : Obligations.LaunchRecordsFollowTheirStates := by
  intro s u d a b g hf hg
  refine ⟨fun hhigh hmid => ?_, lrpatch_illegal hf hg, fun hx => ?_, fun hx => ⟨lrarm_illegal hf hg hx, lrqry_illegal hf hg hx⟩⟩
  · have hpatch := exec_lrpatch (b := b) hf hg hhigh hmid
    refine ⟨fun ho hs hm => hpatch.trans ?_, fun ho => hpatch.trans (congrArg _ (if_neg (mt (owns_iff _).1 ho))),
      fun ho hs => hpatch.trans ?_, fun ho hs hm => hpatch.trans ?_⟩
    · rw [if_pos ((owns_iff _).2 ho), if_pos ((idle_iff _).2 hs)]
      exact congrArg _ (if_pos hm)
    · rw [if_pos ((owns_iff _).2 ho), if_neg (mt (idle_iff _).1 hs)]
      rfl
    · rw [if_pos ((owns_iff _).2 ho), if_pos ((idle_iff _).2 hs)]
      exact congrArg _ (if_neg (Bool.eq_false_iff.1 hm))
  · have hr : bits (s.getS a).toNat 0 12 = (s.getS a).toNat := (bits_zero _ 12).trans (Nat.mod_eq_of_lt hx)
    rw [hr]
    have harm := fun hrel => exec_lrarm (u := u) hf hg hx hrel
    have hqry := exec_lrqry (d := d) hf hg hx
    refine ⟨fun ho hs hrel => (harm hrel).trans ?_, fun ho => ⟨fun hrel => (harm hrel).trans ?_, hqry.trans ?_⟩,
      fun ho hs hrel => (harm hrel).trans ?_, fun ho => hqry.trans ?_⟩
    · rw [if_pos ((owns_iff _).2 ho), if_pos ((idle_iff _).2 hs)]
    · exact congrArg _ (if_neg (mt (owns_iff _).1 ho))
    · exact congrArg _ (if_neg (mt (owns_iff _).1 ho))
    · rw [if_pos ((owns_iff _).2 ho), if_neg (mt (idle_iff _).1 hs)]
      rfl
    · exact congrArg _ (if_pos ((owns_iff _).2 ho))

end Sys2Proof.Proofs
end

section
/-! SUPPORT. Atomic operations at a home (07 R170 to R172; 10 R265). -/

namespace Sys2Proof.Machine

open Sys2Proof.Claims

variable {s t u y : State} {d a : SReg} {sc : Scope} {r z : Bool} {code data h old : Nat} {f : Nat → Nat}

/-- An AMO after its release, from what its access gives. -/
theorem amo_goesOn (hf : s.me.forked = false) (hrel : releases s u r sc)
    (h : u.amoVia s.cur (s.getS a) (amoBytes z) (fun old => f old % 256 ^ amoBytes z) code data = .ok (t, old)) :
    s.amo d a sc r z code data f = .next ((if r then t.acquire s.cur sc else t).setS d (BitVec.ofNat 64 old)).retire := by
  refine (unforked_run s hf rfl).trans ?_
  cases r with
  | true =>
    simp only [if_true]
    rw [show s.release s.cur sc = .ok u from hrel, acc_bind_ok, h]
    rfl
  | false =>
    cases show u = s from hrel
    simp only [Bool.false_eq_true, if_false, acc_pure, acc_bind_ok, h]
    rfl

/-- The signed operand of an AMO is that of its bytes (07 R170). -/
theorem amoSigned_eq (z : Bool) (x : Nat) : amoSigned z x = signedOf (if z then 8 else 4) x := by
  cases z <;> simp only [amoSigned, amoBytes, sx, signedOf, if_true, Bool.false_eq_true, if_false] <;> norm_num <;> grind

/-- Each atomic operation is an AMO whose new value is its form's (07 R170). -/
theorem exec_of_atomicForm {i : Instr} {x : AtomicForm} (hi : atomicForm i = some x) (s : State) : ∃ code data,
    exec i s = s.amo x.d x.a x.sc x.ra x.z code data fun old => x.new s old ((s.getS x.b).toNat % 256 ^ x.n) := by
  cases i <;> cases hi
  case amoAmin.refl d a b sc r z =>
    refine ⟨1, s.amoOperand b z, ?_⟩
    simp only [← amoSigned_eq]
    rfl
  case amoAmax.refl d a b sc r z =>
    refine ⟨2, s.amoOperand b z, ?_⟩
    simp only [← amoSigned_eq]
    rfl
  all_goals exact ⟨_, _, rfl⟩

/-- The access of a headgate's AMO at a home, once the home is ready and its bank's turn has come (07 R170; 10 R265). -/
theorem amoVia_home {k n : Nat} {p : Word} (hk : isRmc k = false) (hres : u.resolve k p n .amo = .ok (.home h))
    (hready : u.homeReady k (space p) h n true = .ok ()) (hturn : u.turnAt k (space p) h true true = .ok y) :
    u.amoVia k p n f code data =
      (let w := if isDram h then y.l1Bypass (coreOf k) k h n else y
      if w.poisoned h n then flt cEcc
      else .ok ((if f (w.readN h n) = w.readN h n then w else w.homeWrite h n (f (w.readN h n))).touchAs (space p) h k
        (f (w.readN h n) != w.readN h n), w.readN h n)) := by
  have hcond : (if isRmc k || !isDram h then y else y.l1Bypass (coreOf k) k h n) = if isDram h then y.l1Bypass (coreOf k) k h n else y := by
    cases hd : isDram h <;> simp [hk]
  rw [State.amoVia, hres, acc_bind_ok]
  dsimp only
  rw [hready, acc_bind_ok, hturn, acc_bind_ok, State.swapAt, seqOf_headgate hk, hcond, State.homeRead]
  generalize (if isDram h then y.l1Bypass (coreOf k) k h n else y) = w
  split <;> rfl

end Sys2Proof.Machine

namespace Sys2Proof.Proofs

open Sys2Proof.Machine Sys2Proof.Claims

/-- Settles O28: each operation is an AMO with its form's rule (`exec_of_atomicForm`), which ends as its access at the home does
(`amo_goesOn`, `amoVia_home`). -/
theorem atomicOperationsSwapInOneStep : Obligations.AtomicOperationsSwapInOneStep := by
  intro i x s u y a hi hf hk hrel sp hres hready hturn w hp old new t
  obtain ⟨code, data, hexec⟩ := exec_of_atomicForm hi s
  refine hexec.trans (amo_goesOn hf hrel ((amoVia_home hk hres hready hturn).trans (if_neg ?_)))
  exact Bool.eq_false_iff.1 hp

end Sys2Proof.Proofs
end

section
/-! SUPPORT. What a waiter stores at a home it reads back (07 R167; 12 R293, R294): the sectors of an L1, and what an access leaves of
whether an L1 serves the next. -/

namespace Sys2Proof.Machine

open Sys2Proof.Claims

/-! ## Bytes under a mask -/

theorem mergeBytes_low {n : Nat} : ∀ {k mask a b : Nat}, n ≤ k → (∀ i < n, mask.testBit i = true) →
    mergeBytes mask a b k % 256 ^ n = b % 256 ^ n := by
  induction n with
  | zero => simp [Nat.mod_one]
  | succ n ih =>
    intro k mask a b hk hmask
    obtain ⟨k, rfl⟩ : ∃ j, k = j + 1 := ⟨k - 1, by omega⟩
    have hbit : mask % 2 = 1 := by simpa using hmask 0 (by omega)
    have hrest := ih (k := k) (mask := mask / 2) (a := a / 256) (b := b / 256) (by omega) fun i hi => by
      rw [Nat.testBit_div_two]; exact hmask (i + 1) (by omega)
    rw [mergeBytes, if_pos hbit, Nat.pow_succ', Nat.mod_mul, Nat.mod_mul (x := b), ← hrest, Nat.add_mul_mod_self_left, Nat.mod_mod,
      Nat.add_mul_div_left _ _ (by decide), Nat.div_eq_of_lt (Nat.mod_lt b (by decide)), Nat.zero_add]

/-- Where the mask is 1 the merged bytes are those of the second number. -/
theorem mergeBytes_window {n : Nat} (o : Nat) : ∀ {k mask a b : Nat}, o + n ≤ k → (∀ i < n, mask.testBit (o + i) = true) →
    mergeBytes mask a b k / 256 ^ o % 256 ^ n = b / 256 ^ o % 256 ^ n := by
  induction o with
  | zero =>
    intro k mask a b hk hmask
    simpa using mergeBytes_low (by omega) (by simpa using hmask)
  | succ o ih =>
    intro k mask a b hk hmask
    obtain ⟨k, rfl⟩ : ∃ j, k = j + 1 := ⟨k - 1, by omega⟩
    have hrest := ih (k := k) (mask := mask / 2) (a := a / 256) (b := b / 256) (by omega) fun i hi => by
      rw [Nat.testBit_div_two, Nat.add_right_comm]; exact hmask i hi
    rw [mergeBytes, Nat.pow_succ', ← Nat.div_div_eq_div_mul, ← Nat.div_div_eq_div_mul, ← hrest]
    congr 2
    split <;> omega

/-- Bytes written at an offset are read back there. -/
theorem mergeBytes_put {o n v : Nat} (x : Nat) (h : o + n ≤ 32) (hv : v < 256 ^ n) :
    mergeBytes ((2 ^ n - 1) * 2 ^ o) x (v * 256 ^ o) 32 / 256 ^ o % 256 ^ n = v := by
  rw [mergeBytes_window o h, Nat.mul_div_cancel _ (by positivity), Nat.mod_eq_of_lt hv]
  intro i hi
  rw [Nat.testBit_mul_two_pow]
  simp [hi]

/-! ## Sparse tables -/

theorem smap_get_erase {α : Type} (m : SMap α) (i j : Nat) : SMap.get? (SMap.erase m i) j = if j = i then none else SMap.get? m j := by
  induction m with
  | nil => simp [SMap.erase, SMap.get?]
  | cons e t ih =>
    obtain ⟨k, w⟩ := e
    simp only [SMap.erase, SMap.get?]
    by_cases hk : k = i
    · rw [if_pos hk, ih]; grind
    · rw [if_neg hk, SMap.get?, ih]; grind

theorem mem_erase {α : Type} {m : SMap α} {i : Nat} {e : Nat × α} : e ∈ SMap.erase m i ↔ e ∈ m ∧ e.1 ≠ i := by
  induction m with
  | nil => simp [SMap.erase]
  | cons x t ih =>
    obtain ⟨k, w⟩ := x
    rw [SMap.erase]
    split <;> simp only [List.mem_cons, ih] <;> grind

variable {s : State}

/-! ## Which accesses an L1 serves does not change -/

/-- A change of banks that keeps their class. -/
theorem cls_modBank {cl n : Nat} {g : Bank → Bank} (hg : ∀ b, (g b).cls = b.cls) (x y : Nat) :
    ((s.modBank cl n g).bank x y).cls = (s.bank x y).cls := by
  simp only [State.bank, Cluster.bank, State.modBank, modCluster_eq, cluster_setCluster]
  split
  · next h =>
    subst h
    simp only [smap_getD_set]
    split
    · next h => subst h; exact hg _
    · rfl
  · rfl

theorem cls_modCluster {cl : Nat} {g : Cluster → Cluster} (hg : ∀ c, (g c).banks = c.banks) (x y : Nat) :
    ((s.modCluster cl g).bank x y).cls = (s.bank x y).cls := by
  simp only [State.bank, Cluster.bank, modCluster_eq, cluster_setCluster]
  split
  · next h => subst h; rw [hg]
  · rfl

/-- A view of the state that a touch of a bank does not change: it sees of a bank no more than its class, of a cluster its banks and the
lines of its slice, and no partition. -/
structure Banked {α : Type} (f : State → α) : Prop where
  bank : ∀ s cl n (g : Bank → Bank), (∀ b, (g b).cls = b.cls) → f (s.modBank cl n g) = f s
  cluster : ∀ s cl (g : Cluster → Cluster), (∀ c, (g c).banks = c.banks ∧ (g c).l2 = c.l2) → f (s.modCluster cl g) = f s
  part : ∀ s k x, f (s.setPart k x) = f s

theorem Banked.touchBank {α : Type} {f : State → α} (hf : Banked f) (cl n : Nat) : f (s.touchBank cl n) = f s := by
  have hwake : f (s.beginWake cl n) = f s := by
    unfold State.beginWake
    dsimp only
    split
    · rfl
    · exact hf.bank _ _ _ _ (by intro; rfl)
  unfold State.touchBank
  dsimp only
  split
  · refine (foldl_keeps _ f _ (fun s _ => hf.part s _ _) _).trans ?_
    rw [hf.cluster _ _ _ (by intro; exact ⟨rfl, rfl⟩), hf.bank _ _ _ _ (by intro; rfl), hwake]
  · rw [hf.bank _ _ _ _ (by intro; rfl), hwake]

theorem cls_touchBank (cl n x y : Nat) : ((s.touchBank cl n).bank x y).cls = (s.bank x y).cls :=
  Banked.touchBank (f := fun s => (s.bank x y).cls)
    ⟨fun _ _ _ _ hg => cls_modBank hg x y, fun _ _ _ hg => cls_modCluster (fun c => (hg c).1) x y, fun _ _ _ => rfl⟩ cl n

theorem cls_devTouch (l : List (Nat × Nat)) (x y : Nat) : ((s.devTouch l).bank x y).cls = (s.bank x y).cls :=
  foldl_keeps s (fun s => (s.bank x y).cls) _ (fun _ _ => cls_touchBank _ _ x y) l

theorem cls_l2Evict (cl line w x y : Nat) : ((s.l2Evict cl line w).bank x y).cls = (s.bank x y).cls := by
  unfold State.l2Evict
  split
  · rfl
  · refine (cls_modCluster (by intro; rfl) x y).trans ?_
    split
    · exact (cls_modCluster (by intro; rfl) x y).trans (cls_devTouch _ x y)
    · split <;> rfl

theorem cls_touchAs (sp a w : Nat) (st : Bool) (x y : Nat) : ((s.touchAs sp a w st).bank x y).cls = (s.bank x y).cls := by
  unfold State.touchAs
  split
  · rfl
  · split
    · exact cls_touchBank _ _ x y
    · dsimp only
      split
      · exact (cls_modCluster (by intro c; split <;> rfl) x y).trans (cls_touchBank _ _ x y)
      · rw [cls_modCluster (by intro; rfl), cls_touchBank, cls_touchBank]
        split
        · exact cls_l2Evict _ _ _ x y
        · rfl
      · exact (cls_modCluster (by intro; rfl) x y).trans (cls_touchBank _ _ x y)

/-- Two states in which every core's L1 has the same banks. -/
structure SameL1 (s t : State) : Prop where
  cls : ∀ x y, (t.bank x y).cls = (s.bank x y).cls
  roles : ∀ c, (t.core c).role0 = (s.core c).role0 ∧ (t.core c).role1 = (s.core c).role1

theorem SameL1.rfl : SameL1 s s := ⟨fun _ _ => .refl _, fun _ => ⟨.refl _, .refl _⟩⟩

theorem SameL1.trans {t u : State} (h : SameL1 s t) (h' : SameL1 t u) : SameL1 s u :=
  ⟨fun x y => (h'.cls x y).trans (h.cls x y), fun c => ⟨(h'.roles c).1.trans (h.roles c).1, (h'.roles c).2.trans (h.roles c).2⟩⟩

/-- Whether an L1 serves an access depends on its banks. -/
theorem SameL1.l1Serves {t : State} (h : SameL1 s t) (c sp a : Nat) (wide : Bool) : t.l1Serves c sp a wide = s.l1Serves c sp a wide := by
  have hroles : (t.core c).banksOf 1 = (s.core c).banksOf 1 := by
    obtain ⟨h0, h1⟩ := h.roles c
    simp only [Core.banksOf, Core.role, h0, h1]
  simp only [State.l1Serves, State.hasL1, State.l1Banks, hroles, h.cls]

theorem SameL1.foldl {β : Type} {g : State → β → State} (hg : ∀ s b, SameL1 s (g s b)) (l : List β) : ∀ s, SameL1 s (l.foldl g s) := by
  induction l with
  | nil => exact fun _ => .rfl
  | cons b l ih => exact fun s => (hg s b).trans (ih _)

/-- A change of sectors of an L1. -/
theorem SameL1.modCore {c : Nat} {g : Core → Core} (hg : ∀ k, (g k).role0 = k.role0 ∧ (g k).role1 = k.role1) : SameL1 s (s.modCore c g) := by
  refine ⟨fun _ _ => .refl _, fun x => ?_⟩
  rw [modCore_eq, core_setCore]
  split
  · next h => subst h; exact hg _
  · exact ⟨.refl _, .refl _⟩

theorem SameL1.touchBank (cl n : Nat) : SameL1 s (s.touchBank cl n) :=
  ⟨cls_touchBank cl n, fun c => by rw [(untouched_core c).touchBank]; exact ⟨.refl _, .refl _⟩⟩

theorem SameL1.touchAs (hl : noLineLost s) (sp a w : Nat) (st : Bool) : SameL1 s (s.touchAs sp a w st) :=
  ⟨cls_touchAs sp a w st, fun c => by rw [(untouched_core c).touchAs hl]; exact ⟨.refl _, .refl _⟩⟩

/-! ## Lines that a slice takes have lost nothing -/

theorem l2_modCluster {cl : Nat} {g : Cluster → Cluster} (x : Nat) :
    ((s.modCluster cl g).cluster x).l2 = if x = cl then (g (s.cluster cl)).l2 else (s.cluster x).l2 := by
  rw [modCluster_eq, cluster_setCluster]
  split <;> rfl

theorem l2_touchBank (cl n x : Nat) : ((s.touchBank cl n).cluster x).l2 = (s.cluster x).l2 := by
  refine Banked.touchBank (f := fun s => (s.cluster x).l2) ⟨fun s cl n g _ => ?_, fun s cl g hg => ?_, fun _ _ _ => rfl⟩ cl n
  · refine (l2_modCluster x).trans ?_
    split
    · next h => rw [h]
    · rfl
  · refine (l2_modCluster x).trans ?_
    split
    · next h => rw [h, (hg _).2]
    · rfl

theorem noLineLost_congr {t : State} (h : ∀ x, (t.cluster x).l2 = (s.cluster x).l2) (hl : noLineLost s) : noLineLost t :=
  fun cl line x hx => hl cl line x (h cl ▸ hx)

/-- A change of one slice's lines that leaves none lost. -/
theorem noLineLost_modCluster (hl : noLineLost s) {cl : Nat} {g : Cluster → Cluster}
    (hg : ∀ line x, SMap.get? (g (s.cluster cl)).l2 line = some x → x.lost = false) : noLineLost (s.modCluster cl g) := by
  intro y line x hx
  rw [l2_modCluster] at hx
  split at hx
  · exact hg line x hx
  · exact hl y line x hx

theorem noLineLost_charge (hl : noLineLost s) (cl w u : Nat) : noLineLost (s.modCluster cl fun c => c.charge w u) :=
  noLineLost_modCluster hl fun line x hx => hl cl line x hx

theorem noLineLost_devTouch (hl : noLineLost s) (l : List (Nat × Nat)) : noLineLost (s.devTouch l) :=
  noLineLost_congr (fun x => foldl_keeps s (fun s => (s.cluster x).l2) _ (fun _ _ => l2_touchBank _ _ x) l) hl

theorem noLineLost_l2Evict (hl : noLineLost s) (cl line w : Nat) : noLineLost (s.l2Evict cl line w) := by
  unfold State.l2Evict
  split
  · exact hl
  · next y hy =>
    simp only [hl cl line y hy, Bool.false_eq_true, if_false]
    have hout : noLineLost (if y.dirty then (s.devTouch (s.lineBank cl line)).modCluster cl fun c => c.charge w 1 else s) := by
      split
      · exact noLineLost_charge (noLineLost_devTouch hl _) cl w 1
      · exact hl
    generalize (if y.dirty then (s.devTouch (s.lineBank cl line)).modCluster cl fun c => c.charge w 1 else s) = t at hout ⊢
    refine noLineLost_modCluster hout fun l x hx => ?_
    rw [smap_get_erase] at hx
    split at hx
    · cases hx
    · exact hout cl l x hx

/-- Marking the lines of an entry dirty keeps the others, and no line lost. -/
theorem get_markDirty {m : SMap L2Line} {line l : Nat} {x : L2Line}
    (h : SMap.get? (m.map fun e => if e.1 = line then (e.1, { e.2 with dirty := true }) else e) l = some x) :
    ∃ y, SMap.get? m l = some y ∧ y.lost = x.lost := by
  induction m with
  | nil => cases h
  | cons e t ih =>
    obtain ⟨k, y⟩ := e
    simp only [List.map_cons, SMap.get?] at h ⊢
    split at h <;> grind [SMap.get?]

theorem noLineLost_hit (hl : noLineLost s) (cl line : Nat) (st : Bool) : noLineLost (s.modCluster cl fun c =>
    if st then { c with l2 := c.l2.map fun e => if e.1 = line then (e.1, { e.2 with dirty := true }) else e } else c) := by
  refine noLineLost_modCluster hl fun l x hx => ?_
  split at hx
  · obtain ⟨y, hy, hlost⟩ := get_markDirty hx
    exact hlost ▸ hl cl l y hy
  · exact hl cl l x hx

theorem noLineLost_fill (hl : noLineLost s) (cl line w way : Nat) (st early : Bool) : noLineLost (s.modCluster cl fun c =>
    { c.charge w 1 with l2 := SMap.set c.l2 line ⟨way, st, early, false⟩ }) := by
  refine noLineLost_modCluster hl fun l x hx => ?_
  rw [smap_get_set] at hx
  split at hx
  · cases hx; rfl
  · exact hl cl l x hx

theorem noLineLost_touchBank (hl : noLineLost s) (cl n : Nat) : noLineLost (s.touchBank cl n) := noLineLost_congr (l2_touchBank cl n) hl

theorem noLineLost_touchAs (hl : noLineLost s) (sp a w : Nat) (st : Bool) : noLineLost (s.touchAs sp a w st) := by
  unfold State.touchAs
  split
  · exact hl
  · split
    · exact noLineLost_touchBank hl _ _
    · dsimp only
      split
      · exact noLineLost_hit (noLineLost_touchBank hl _ _) _ _ st
      · refine noLineLost_fill (noLineLost_touchBank (noLineLost_touchBank ?_ _ _) _ _) _ _ w _ st _
        split
        · exact noLineLost_l2Evict hl _ _ _
        · exact hl
      · exact noLineLost_charge (noLineLost_touchBank hl _ _) _ w 1

end Sys2Proof.Machine
end

section
/-! SUPPORT. A waiter's store at a home and its load there again (07 R167; 12 R293, R294). -/

namespace Sys2Proof.Machine

open Sys2Proof.Claims

variable {s t u : State}

/-! ## What stands through an access -/

/-- What an access leaves standing where no slice holds a lost line: no line is lost, the module's own state and which L1 there are stay,
and memory keeps its canonical form. -/
structure Stands (s t : State) : Prop where
  lines : noLineLost t
  mod : t.mod = s.mod
  mem : s.memOk → t.memOk
  l1 : SameL1 s t

theorem Stands.rfl (hl : noLineLost s) : Stands s s := ⟨hl, .refl _, id, .rfl⟩

theorem Stands.trans (h : Stands s t) (h' : Stands t u) : Stands s u :=
  ⟨h'.lines, h'.mod.trans h.mod, fun hm => h'.mem (h.mem hm), h.l1.trans h'.l1⟩

theorem Stands.foldl {β : Type} {g : State → β → State} (hg : ∀ s b, noLineLost s → Stands s (g s b)) (l : List β) :
    ∀ s, noLineLost s → Stands s (l.foldl g s) := by
  induction l with
  | nil => exact fun _ => .rfl
  | cons b l ih => exact fun s hl => (hg s b hl).trans (ih _ (hg s b hl).lines)

theorem Stands.touchBank (hl : noLineLost s) (cl n : Nat) : Stands s (s.touchBank cl n) :=
  ⟨noLineLost_touchBank hl cl n, mod_touchBank s cl n, fun hm => by rw [State.memOk, mem_touchBank]; exact hm, .touchBank cl n⟩

theorem Stands.touchAs (hl : noLineLost s) (sp a w : Nat) (st : Bool) : Stands s (s.touchAs sp a w st) :=
  ⟨noLineLost_touchAs hl sp a w st, untouched_mod.touchAs hl .., fun hm => by rw [State.memOk, untouched_mem.touchAs hl]; exact hm,
    .touchAs hl sp a w st⟩

/-- A change of the sectors of an L1. -/
theorem Stands.modL1 (hl : noLineLost s) (c : Nat) (g : Core → SMap Sector) : Stands s (s.modCore c fun k => { k with l1 := g k }) :=
  ⟨hl, .refl _, id, .modCore fun _ => ⟨.refl _, .refl _⟩⟩

theorem writeMasked_eq (n : Nat) : ∀ (s : State) (a m v : Nat), ∃ x, s.writeMasked a m v n = { s with mem := x } := by
  induction n with
  | zero => exact fun s _ _ _ => ⟨s.mem, .refl _⟩
  | succ n ih =>
    intro s a m v
    rw [State.writeMasked]
    split
    · exact ih (s.setByte a _) (a + 1) (m / 2) (v / 256)
    · exact ih s (a + 1) (m / 2) (v / 256)

theorem Stands.writeMasked (hl : noLineLost s) (a m v n : Nat) : Stands s (s.writeMasked a m v n) := by
  refine ⟨?_, ?_, writeMasked_memOk n s a m v, ?_⟩ <;> obtain ⟨x, hx⟩ := writeMasked_eq n s a m v <;> rw [hx]
  · exact hl
  · exact ⟨fun _ _ => .refl _, fun _ => ⟨.refl _, .refl _⟩⟩

theorem Stands.l1Clean (hl : noLineLost s) (c sec : Nat) : Stands s (s.l1Clean c sec) := by
  unfold State.l1Clean
  split
  · next x _ =>
    have h := Stands.writeMasked hl (32 * sec) x.dirty x.data 32
    exact h.trans (.modL1 h.lines c _)
  · exact .rfl hl

theorem Stands.l1WriteBack (hl : noLineLost s) (c w : Nat) (secs : List Nat) : Stands s (s.l1WriteBack c w secs) := by
  unfold State.l1WriteBack
  split
  · exact .rfl hl
  · next sec rest _ =>
    have htouch : Stands s (s.l1Touch c sec) := .touchBank hl _ _
    have hclean := htouch.trans (.foldl (fun s x hl => Stands.l1Clean hl c x) (sec :: rest) _ htouch.lines)
    exact hclean.trans (.touchAs hclean.lines 0 (32 * sec) w true)

theorem Stands.l1Drop (hl : noLineLost s) (c sec : Nat) : Stands s (s.l1Drop c sec) := .modL1 hl c _

theorem Stands.l1Bypass (hl : noLineLost s) (c w a n : Nat) : Stands s (s.l1Bypass c w a n) := by
  have h := Stands.l1WriteBack hl c w (sectors a n)
  exact h.trans (.foldl (fun s sec hl => .l1Drop hl c sec) _ _ h.lines)

theorem Stands.l1Fill (hl : noLineLost s) (c sec : Nat) : Stands s (s.l1Fill c sec) := by
  unfold State.l1Fill
  exact .modL1 hl c _

theorem Stands.l1FillAll (hl : noLineLost s) (c w : Nat) (secs : List Nat) : Stands s (s.l1FillAll c w secs) := by
  unfold State.l1FillAll
  have hfill : Stands s (if secs.all (s.l1Whole c) then s else
      secs.foldl (fun s sec => s.l1Fill c sec) (s.touchAs 0 (32 * secs.headD 0) w false)) := by
    split
    · exact .rfl hl
    · have h := Stands.touchAs hl 0 (32 * secs.headD 0) w false
      exact h.trans (.foldl (fun s sec hl => .l1Fill hl c sec) _ _ h.lines)
  exact hfill.trans (.touchBank hfill.lines _ _)

theorem Stands.l1Put (hl : noLineLost s) (c a n v : Nat) : Stands s (s.l1Put c a n v) := by
  refine ⟨hl, .refl _, id, .modCore fun k => ?_⟩
  split <;> exact ⟨.refl _, .refl _⟩

/-- A store at a home where no word is poisoned. -/
theorem homeWrite_unpoisoned (hp : s.mod.poison = []) (a n v : Nat) : s.homeWrite a n v = s.writeN a n v := by
  obtain ⟨m, hm⟩ := writeN_eq n s a v
  rw [State.homeWrite, hm, State.unpoison]
  exact if_pos (by simp [hp])

theorem Stands.homeWrite (hl : noLineLost s) (hp : s.mod.poison = []) (a n v : Nat) : Stands s (s.homeWrite a n v) := by
  refine ⟨?_, ?_, fun hm => homeWrite_memOk s hm a n v, ?_⟩ <;> rw [homeWrite_unpoisoned hp] <;> obtain ⟨m, hm⟩ := writeN_eq n s a v <;> rw [hm]
  · exact hl
  · exact ⟨fun _ _ => .refl _, fun _ => ⟨.refl _, .refl _⟩⟩

theorem not_poisoned (hp : s.mod.poison = []) (a n : Nat) : s.poisoned a n = false := by simp [State.poisoned, hp]

/-! ## An access that performs at the home -/

/-- No sector of an access stands in a core's L1. -/
def State.bypassed (s : State) (c a n : Nat) : Prop := ∀ e ∈ (s.core c).l1, e.1 ∉ sectors a n

theorem l1_foldl_l1Drop (c : Nat) (l : List Nat) : ∀ (s : State) (e : Nat × Sector),
    e ∈ ((l.foldl (fun s sec => s.l1Drop c sec) s).core c).l1 ↔ e ∈ (s.core c).l1 ∧ e.1 ∉ l := by
  induction l with
  | nil => simp
  | cons x l ih =>
    intro s e
    rw [List.foldl_cons, ih, List.mem_cons]
    simp only [State.l1Drop, modCore_eq, core_setCore, if_true, mem_erase]
    tauto

theorem bypassed_l1Bypass (c w a n : Nat) : (s.l1Bypass c w a n).bypassed c a n :=
  fun e he => ((l1_foldl_l1Drop c (sectors a n) _ e).1 he).2

/-- An L1 without a sector of an access has none to write back for it. -/
theorem l1WriteBack_bypassed {c a n : Nat} (h : s.bypassed c a n) (w : Nat) : s.l1WriteBack c w (sectors a n) = s := by
  have hnone : (sectors a n).filter (s.dirtySectors c).contains = [] := by
    rw [List.filter_eq_nil_iff]
    intro sec hsec hdirty
    rw [List.contains_iff_mem, State.dirtySectors, List.mem_map] at hdirty
    obtain ⟨e, he, rfl⟩ := hdirty
    exact h e (List.mem_filter.1 he).1 hsec
  rw [State.l1WriteBack, hnone]

/-- The state in which an access of a core performs at the home: the core's copy of a DRAM sector has gone there (12 R294). -/
def State.atHome (s : State) (w a n : Nat) : State := if isDram a then s.l1Bypass (coreOf (seqOf w)) w a n else s

theorem Stands.atHome (hl : noLineLost s) (w a n : Nat) : Stands s (s.atHome w a n) := by
  unfold State.atHome
  split
  · exact .l1Bypass hl _ w a n
  · exact .rfl hl

theorem atHome_bypassed {a : Nat} (hd : isDram a = true) (w n : Nat) : (s.atHome w a n).bypassed (coreOf (seqOf w)) a n := by
  rw [State.atHome, if_pos hd]
  exact bypassed_l1Bypass _ w a n

/-- A second time nothing goes home: no byte changes. -/
theorem byte_atHome {w a n : Nat} (h : isDram a = true → s.bypassed (coreOf (seqOf w)) a n) (x : Nat) :
    (s.atHome w a n).byte x = s.byte x := by
  unfold State.atHome
  split
  · next hd =>
    rw [State.l1Bypass, l1WriteBack_bypassed (h hd)]
    exact foldl_keeps s (fun s => s.byte x) (fun s sec => s.l1Drop (coreOf (seqOf w)) sec) (fun _ _ => byte_congr rfl rfl x) _
  · rfl

section AtHome

variable {w sp a n v : Nat} (hserve : s.l1Serves (coreOf (seqOf w)) sp a false = false)
include hserve

theorem storeAt_home : s.storeAt w sp a n v false = ((s.atHome w a n).homeWrite a n v).touchAs sp a w true := by
  rw [State.storeAt]
  exact if_neg (by simp [hserve])

theorem loadAt_home (hp : (s.atHome w a n).mod.poison = []) :
    s.loadAt w sp a n false = .ok ((s.atHome w a n).touchAs sp a w false, (s.atHome w a n).readN a n) := by
  have hread : (s.atHome w a n).homeRead a n = .ok ((s.atHome w a n).readN a n) := if_neg (by simp [not_poisoned hp])
  unfold State.loadAt
  dsimp only
  rw [if_neg (by simp [hserve])]
  show ((s.atHome w a n).homeRead a n >>= _) = _
  rw [hread]
  rfl

/-- What is stored at a home is read there by an access that performs there, too. -/
theorem readBack_home (hm : s.memOk) (hp : s.mod.poison = []) (hl : noLineLost s) (hv : v < 256 ^ n) :
    ∃ t, (s.storeAt w sp a n v false).loadAt w sp a n false = .ok (t, v) := by
  rw [storeAt_home hserve]
  have hhome := Stands.atHome hl w a n
  have hbypassed : isDram a = true → (s.atHome w a n).bypassed (coreOf (seqOf w)) a n := fun hd => atHome_bypassed hd w n
  generalize s.atHome w a n = u at hhome hbypassed
  have hpu : u.mod.poison = [] := by rw [hhome.mod, hp]
  have hwrite := Stands.homeWrite hhome.lines hpu a n v
  have htouch := Stands.touchAs hwrite.lines sp a w true
  have hbyte : ∀ x, ((u.homeWrite a n v).touchAs sp a w true).byte x = (u.homeWrite a n v).byte x :=
    byte_congr (untouched_mem.touchAs hwrite.lines ..) (congrArg Module.undef htouch.mod)
  have hcore : ((u.homeWrite a n v).touchAs sp a w true).core (coreOf (seqOf w)) = u.core (coreOf (seqOf w)) := by
    obtain ⟨m, d, hw⟩ := homeWrite_eq u a n v
    rw [(untouched_core _).touchAs hwrite.lines, hw]
    rfl
  have hservet := ((hhome.trans hwrite).trans htouch).l1.l1Serves (coreOf (seqOf w)) sp a false
  generalize (u.homeWrite a n v).touchAs sp a w true = t at htouch hbyte hcore hservet
  have hpt : (t.atHome w a n).mod.poison = [] := by rw [(Stands.atHome htouch.lines w a n).mod, htouch.mod, hwrite.mod, hpu]
  have hread : (t.atHome w a n).readN a n = v := by
    have hbt : isDram a = true → t.bypassed (coreOf (seqOf w)) a n := fun hd e he => hbypassed hd e (hcore ▸ he)
    rw [readN_congr (fun x => (byte_atHome hbt x).trans (hbyte x)), readN_homeWrite u (hhome.mem hm), Nat.mod_eq_of_lt hv]
  exact ⟨_, hread ▸ loadAt_home (hservet.trans hserve) hpt⟩

end AtHome

/-! ## An access that the L1 serves -/

/-- A sector that a core's L1 holds whole. -/
theorem l1Whole_iff {c sec : Nat} :
    s.l1Whole c sec = true ↔ ∃ x, SMap.get? (s.core c).l1 sec = some x ∧ x.valid = 2 ^ 32 - 1 := by
  unfold State.l1Whole
  split
  · next x hx => simp [hx]
  · next hx => simp [hx]

theorem l1Whole_congr {c : Nat} (h : t.core c = s.core c) (sec : Nat) : t.l1Whole c sec = s.l1Whole c sec := by
  simp only [State.l1Whole, h]

theorem l1Whole_l1Fill (c sec j : Nat) : (s.l1Fill c sec).l1Whole c j = (decide (j = sec) || s.l1Whole c j) := by
  simp only [State.l1Whole, State.l1Fill, modCore_eq, core_setCore, if_true, smap_get_set]
  by_cases hj : j = sec
  · simp only [hj, if_true]
    split <;> simp
  · simp only [hj, if_false, decide_false, Bool.false_or]

theorem l1Whole_foldl_l1Fill (c j : Nat) (l : List Nat) : ∀ s : State,
    (l.foldl (fun s sec => s.l1Fill c sec) s).l1Whole c j = (decide (j ∈ l) || s.l1Whole c j) := by
  induction l with
  | nil => simp
  | cons x l ih =>
    intro s
    rw [List.foldl_cons, ih, l1Whole_l1Fill]
    by_cases hj : j = x <;> simp [hj]

/-- Every sector of an access is whole after its fill (12 R293). -/
theorem l1Whole_l1FillAll {c j : Nat} {secs : List Nat} (hj : j ∈ secs) (w : Nat) : (s.l1FillAll c w secs).l1Whole c j = true := by
  unfold State.l1FillAll
  rw [show ∀ t : State, (t.l1Touch c (secs.headD 0)).l1Whole c j = t.l1Whole c j from
    fun t => l1Whole_congr ((untouched_core c).touchBank _ _) j]
  split
  · next h => exact List.all_eq_true.1 h j hj
  · rw [l1Whole_foldl_l1Fill, decide_eq_true hj, Bool.true_or]

/-- Sectors that are whole are not filled again. -/
theorem l1FillAll_whole {c : Nat} {secs : List Nat} (h : ∀ j ∈ secs, s.l1Whole c j = true) (w : Nat) :
    s.l1FillAll c w secs = s.l1Touch c (secs.headD 0) := by
  rw [State.l1FillAll, if_pos (List.all_eq_true.2 h)]

/-! ## Bytes put into a whole sector -/

/-- A sector with n bytes of a number put at an address. -/
def State.putInto (s : State) (c a n v : Nat) (x : Sector) : Sector :=
  { x with
    data := mergeBytes ((2 ^ n - 1) * 2 ^ (a % 32)) x.data (v * 256 ^ (a % 32)) 32
    dirty := x.dirty ||| (2 ^ n - 1) * 2 ^ (a % 32)
    since := if x.dirty = 0 then s.cycleOf (clusterOf c) else x.since }

theorem get_l1Put (c a n v j : Nat) : SMap.get? ((s.l1Put c a n v).core c).l1 j =
    (SMap.get? (s.core c).l1 j).map fun x => if j = a / 32 then s.putInto c a n v x else x := by
  simp only [State.l1Put, modCore_eq, core_setCore, if_true]
  split
  · next x hx =>
    rw [smap_get_set]
    split
    · next hj => simp [hj, hx, State.putInto]
    · simp
  · next hx =>
    by_cases hj : j = a / 32
    · rw [hj, hx]; rfl
    · simp [hj]

theorem l1Whole_l1Put (c a n v j : Nat) : (s.l1Put c a n v).l1Whole c j = s.l1Whole c j := by
  simp only [State.l1Whole, get_l1Put]
  cases SMap.get? (s.core c).l1 j with
  | none => rfl
  | some x =>
    by_cases hj : j = a / 32 <;> simp [hj, State.putInto]

/-- The bytes put into a whole sector are read there. -/
theorem l1Get_l1Put_same {c a n v : Nat} (h : s.l1Whole c (a / 32) = true) (hn : a % 32 + n ≤ 32) (hv : v < 256 ^ n) :
    (s.l1Put c a n v).l1Get c a n = v := by
  obtain ⟨x, hx, -⟩ := l1Whole_iff.1 h
  simp only [State.l1Get, get_l1Put, hx, Option.map_some, if_true]
  exact mergeBytes_put x.data hn hv

theorem l1Get_l1Put_other {c a b : Nat} (h : b / 32 ≠ a / 32) (n v m : Nat) : (s.l1Put c a n v).l1Get c b m = s.l1Get c b m := by
  simp only [State.l1Get, get_l1Put, h, if_false, Option.map_id']

/-! ## Reading back through the L1 -/

theorem l1Get_congr {c : Nat} (h : t.core c = s.core c) (a n : Nat) : t.l1Get c a n = s.l1Get c a n := by
  simp only [State.l1Get, h]

/-- A read of sectors that are whole. -/
theorem l1Read_whole {c a n : Nat} (h : ∀ j ∈ sectors a n, s.l1Whole c j = true) (w : Nat) : ∃ t, s.l1Read c w a n =
    .ok (t, if n ≤ 32 then s.l1Get c a n else s.l1Get c a 32 + 2 ^ 256 * s.l1Get c (a + 32) 32) := by
  have hpoison : ¬((sectors a n).any fun sec => !s.l1Whole c sec && s.poisoned (32 * sec) 32) = true := by
    rw [List.any_eq_true]
    rintro ⟨j, hj, hbad⟩
    simp [h j hj] at hbad
  have hcore : (s.l1Touch c ((sectors a n).headD 0)).core c = s.core c := (untouched_core c).touchBank _ _
  refine ⟨s.l1Touch c ((sectors a n).headD 0), (if_neg hpoison).trans ?_⟩
  rw [l1FillAll_whole h]
  simp only [l1Get_congr hcore]

theorem sectors_small {a n : Nat} (h0 : 0 < n) (h : n ≤ 32) : sectors a n = [a / 32] := by
  rw [sectors, show (n + 31) / 32 = 1 by omega]
  rfl

theorem sectors_line (a : Nat) : sectors a 64 = [a / 32, a / 32 + 1] := rfl

/-- What is stored through an L1 is read there. -/
theorem readBack_l1 {c a n v : Nat} (w : Nat) (hn : n = 64 ∨ 0 < n ∧ n ≤ 32 ∧ a % 32 + n ≤ 32) (ha : n = 64 → a % 64 = 0)
    (hv : v < 256 ^ n) : ∃ t, (s.l1Write c w a n v).l1Read c w a n = .ok (t, v) := by
  have hwhole : ∀ j ∈ sectors a n, (s.l1FillAll c w (sectors a n)).l1Whole c j = true := fun j hj => l1Whole_l1FillAll hj w
  rw [State.l1Write]
  generalize s.l1FillAll c w (sectors a n) = u at hwhole
  rcases hn with rfl | ⟨h0, hn, hfit⟩
  · have ha := ha rfl
    rw [if_neg (by decide)]
    have hsame : a / 32 ∈ sectors a 64 ∧ (a + 32) / 32 ∈ sectors a 64 := by
      rw [sectors_line, Nat.add_div_right _ (by decide)]
      simp
    have hlow : (u.l1Put c a 32 (v % 2 ^ 256)).l1Get c a 32 = v % 2 ^ 256 :=
      l1Get_l1Put_same (hwhole _ hsame.1) (by omega) (Nat.mod_lt _ (by decide))
    have hdiv : v / 2 ^ 256 < 256 ^ 32 := Nat.div_lt_of_lt_mul (hv.trans_eq (by norm_num))
    have hhigh := l1Get_l1Put_same (s := u.l1Put c a 32 (v % 2 ^ 256)) (v := v / 2 ^ 256)
      ((l1Whole_l1Put ..).trans (hwhole _ hsame.2)) (show (a + 32) % 32 + 32 ≤ 32 by omega) hdiv
    obtain ⟨t, ht⟩ := l1Read_whole (s := (u.l1Put c a 32 (v % 2 ^ 256)).l1Put c (a + 32) 32 (v / 2 ^ 256)) (n := 64)
      (fun j hj => (l1Whole_l1Put ..).trans ((l1Whole_l1Put ..).trans (hwhole j hj))) w
    rw [if_neg (by decide), hhigh, l1Get_l1Put_other (by omega), hlow, Nat.mod_add_div] at ht
    exact ⟨t, ht⟩
  · rw [if_pos hn]
    obtain ⟨t, ht⟩ := l1Read_whole (s := u.l1Put c a n v) (fun j hj => (l1Whole_l1Put ..).trans (hwhole j hj)) w
    rw [if_pos hn, l1Get_l1Put_same (hwhole _ (by rw [sectors_small h0 hn]; exact List.mem_singleton_self _)) hfit hv] at ht
    exact ⟨t, ht⟩

theorem Stands.l1Write (hl : noLineLost s) (c w a n v : Nat) : Stands s (s.l1Write c w a n v) := by
  have hfill := Stands.l1FillAll hl c w (sectors a n)
  unfold State.l1Write
  dsimp only
  split
  · exact hfill.trans (.l1Put hfill.lines c a n v)
  · have hput := hfill.trans (.l1Put hfill.lines c a 32 (v % 2 ^ 256))
    exact hput.trans (.l1Put hput.lines c _ 32 _)

end Sys2Proof.Machine

namespace Sys2Proof.Proofs

open Sys2Proof.Machine Sys2Proof.Claims

/-- Settles O27: the L1 that serves the store serves the load and has its bytes (`readBack_l1`); without one both perform at the home
(`readBack_home`). -/
theorem aCoreReadsBackItsOwnStore : Obligations.ACoreReadsBackItsOwnStore := by
  intro s w sp a n v hm hp hl hn ha hv
  cases hserve : s.l1Serves (coreOf (seqOf w)) sp a false with
  | false => exact readBack_home hserve hm hp hl hv
  | true =>
    have hstore : s.storeAt w sp a n v false = s.l1Write (coreOf (seqOf w)) w a n v := if_pos hserve
    have hservet := (Stands.l1Write hl (coreOf (seqOf w)) w a n v).l1.l1Serves (coreOf (seqOf w)) sp a false
    have hfit : n = 64 ∨ 0 < n ∧ n ≤ 32 ∧ a % 32 + n ≤ 32 := by rcases hn with rfl | rfl | rfl | rfl | rfl | rfl | rfl <;> omega
    obtain ⟨t, ht⟩ := readBack_l1 (s := s) (c := coreOf (seqOf w)) w hfit (fun h => h ▸ ha) hv
    exact ⟨t, hstore ▸ (if_pos (hservet.trans hserve)).trans ht⟩

end Sys2Proof.Proofs
end

section
/-! SUPPORT. What a load leaves alone, through any pointer (07 R166): it moves bytes, touches banks, takes a turn, and may take an answer or a
value out of a register, whose core may then write the trap records that waited for room. -/

namespace Sys2Proof.Machine

open Sys2Proof.Claims

variable {s t : State}

/-- A view of the state that no load changes: beside what a write-back changes it does not see the module's own state, the partitions and
the turns taken in this step. -/
structure Beside {α : Type} (f : State → α) : Prop extends Aside f where
  mod : ∀ s d, f { s with mod := d } = f s
  part : ∀ s p q, f (s.setPart p q) = f s
  turns : ∀ s l, f { s with turns := l } = f s

theorem beside_cur : Beside State.cur := ⟨aside_cur, fun _ _ => rfl, fun _ _ _ => rfl, fun _ _ => rfl⟩
theorem beside_hg (k : Nat) : Beside (State.hg · k) := ⟨aside_hg k, fun _ _ => rfl, fun _ _ _ => rfl, fun _ _ => rfl⟩

theorem ite_fst_keeps {α β : Type} (f : State → α) {P : Prop} [Decidable P] {x y : State × β} (hx : f x.1 = f s) (hy : f y.1 = f s) :
    f (if P then x else y).1 = f s := by
  split
  · exact hx
  · exact hy

section Beside

variable {α : Type} {f : State → α} (hf : Beside f)
include hf

theorem Beside.l1Bypass (s : State) (c w a n : Nat) : f (s.l1Bypass c w a n) = f s :=
  (foldl_keeps _ f (fun s sec => s.l1Drop c sec) (fun s _ => hf.core s _ _) _).trans (hf.toAside.l1WriteBack s c w _)

theorem Beside.l1FillAll (s : State) (c w : Nat) (secs : List Nat) : f (s.l1FillAll c w secs) = f s := by
  refine (hf.toUntouched.touchBank _ _).trans ?_
  split
  · rfl
  · exact (foldl_keeps _ f (fun s sec => s.l1Fill c sec) (fun s _ => hf.core s _ _) _).trans (hf.toAside.touchAs s ..)

theorem Beside.bankTurn {cl n port : Nat} (h : s.bankTurn cl n port = .ok t) : f t = f s := by
  unfold State.bankTurn at h
  dsimp only at h
  by_cases hc : (if 24 ≤ port then (s.bank cl n).arb.hgGets (s.cycleOf cl) else (s.bank cl n).arb.engGets port (s.cycleOf cl)) = true
  · rw [if_pos hc] at h
    cases h
    exact hf.cluster s _ _
  · rw [if_neg hc] at h
    cases h

theorem Beside.turnAt {w sp a : Nat} {wide own : Bool} (h : s.turnAt w sp a wide own = .ok t) : f t = f s := by
  unfold State.turnAt at h
  split at h
  · exact hf.bankTurn h
  · cases h
    rfl

theorem Beside.l1Read {c w a n v : Nat} (h : s.l1Read c w a n = .ok (t, v)) : f t = f s := by
  unfold State.l1Read at h
  dsimp only at h
  split at h
  · cases h
  · cases h
    exact hf.l1FillAll s ..

theorem Beside.loadAt {w sp a n v : Nat} {wide : Bool} (h : s.loadAt w sp a n wide = .ok (t, v)) : f t = f s := by
  unfold State.loadAt at h
  dsimp only at h
  split at h
  · exact hf.l1Read h
  · obtain ⟨y, -, h⟩ := acc_bind_cases h
    cases h
    refine (hf.toAside.touchAs _ ..).trans ?_
    split
    · exact hf.l1Bypass s ..
    · rfl

theorem Beside.remoteCall {w m kind va n data v sent : Nat} (h : s.remoteCall w m kind va n data = .ok (t, v, sent)) : f t = f s := by
  unfold State.remoteCall at h
  dsimp only at h
  split at h
  · split at h
    · cases h
      exact hf.mod s _
    · cases h
  · cases h

theorem Beside.noteTurn (s : State) (x : Turn) (rank : Nat) : f (s.noteTurn x rank) = f s := by
  unfold State.noteTurn
  split
  · rfl
  · exact hf.turns s _

theorem Beside.semRead (s : State) (k : Nat) (a : Agent) : f (s.semRead k a).1 = f s := by
  unfold State.semRead
  dsimp only
  split
  · split
    · exact hf.noteTurn s _ _
    · exact (hf.mod _ _).trans (hf.noteTurn s _ _)
  · exact hf.noteTurn s _ _

theorem Beside.moduleRead (s : State) (off : Nat) (a : Agent) : f (s.moduleRead off a).1 = f s := by
  unfold State.moduleRead
  dsimp only
  iterate 9 refine ite_fst_keeps f rfl ?_
  refine ite_fst_keeps f (hf.semRead s _ a) ?_
  iterate 6 refine ite_fst_keeps f rfl ?_
  rfl

theorem Beside.devStore (s : State) (a n v : Nat) : f (s.devStore a n v) = f s := by
  obtain ⟨m, d, hw⟩ := homeWrite_eq s a n v
  refine (foldl_keeps _ f (fun s i => s.touched (a + 64 * i)) (fun s i => hf.toAside.touchAs s ..) _).trans ?_
  rw [hw]
  exact (hf.bytes { s with mod := d } m d.poison d.undef).trans (hf.mod s d)

theorem Beside.putRecord (s : State) (p : Nat) (r : TrapRec) : f (s.putRecord p r) = f s := by
  unfold State.putRecord
  dsimp only
  split
  · split
    · exact hf.core s _ _
    · exact (hf.part _ _ _).trans (hf.core s _ _)
  · split
    · exact hf.part s _ _
    · exact (hf.part _ _ _).trans (hf.devStore s _ _ _)

theorem Beside.flushPending (s : State) (p : Nat) : f (s.flushPending p) = f s :=
  (hf.part _ _ _).trans ((foldl_keeps _ f _ (fun s r => hf.putRecord s p r) _).trans (hf.part s _ _))

theorem Beside.kmRead (s : State) (c : Nat) : f (s.kmRead c).1 = f s := by
  unfold State.kmRead
  dsimp only
  split
  · rfl
  · split
    · exact hf.core s _ _
    · dsimp only
      split
      · exact (hf.flushPending _ _).trans (hf.core s _ _)
      · exact hf.core s _ _

theorem Beside.coreRead (s : State) (c off : Nat) : f (s.coreRead c off).1 = f s := by
  unfold State.coreRead
  dsimp only
  iterate 6 refine ite_fst_keeps f rfl ?_
  refine ite_fst_keeps f (hf.kmRead s c) ?_
  exact ite_fst_keeps f rfl rfl

theorem Beside.regRead (s : State) (a : Agent) (x : Nat) : f (s.regRead a x).1 = f s := by
  unfold State.regRead
  split
  · exact hf.moduleRead s _ a
  · rfl
  · rfl
  · exact hf.coreRead s _ _
  · rfl
  · rfl

theorem Beside.mgmtBypass (s : State) (w a n : Nat) : f (s.mgmtBypass w a n) = f s := by
  unfold State.mgmtBypass
  split
  · rfl
  · exact hf.l1Bypass s ..

theorem Beside.mgmtRead {a : Agent} {w n v : Nat} {p : Word} {kind : Kind} (h : s.mgmtRead a w p n kind = .ok (t, v)) : f t = f s := by
  unfold State.mgmtRead at h
  obtain ⟨target, -, h⟩ := acc_bind_cases h
  cases target with
  | reg =>
    have hs : t = (s.regRead a p.toNat).1 := congrArg Prod.fst (Except.ok.inj h).symm
    rw [hs]
    exact hf.regRead s a _
  | mem b =>
    obtain ⟨y, -, h⟩ := acc_bind_cases (f := fun v => .ok ((s.mgmtBypass w b n).touchAs 2 b w false, v)) h
    cases h
    exact (hf.toAside.touchAs _ ..).trans (hf.mgmtBypass s ..)

theorem Beside.loadVia {w n v : Nat} {p : Word} {wide own : Bool} (h : s.loadVia w p n wide own = .ok (t, v)) : f t = f s := by
  unfold State.loadVia at h
  obtain ⟨target, -, h⟩ := acc_bind_cases h
  cases target with
  | home a =>
    obtain ⟨-, -, h⟩ := acc_bind_cases h
    obtain ⟨u, hu, h⟩ := acc_bind_cases h
    exact (hf.loadAt h).trans (hf.turnAt hu)
  | window q id row col off =>
    obtain ⟨key, -, h⟩ := acc_bind_cases (β := State × Nat) h
    obtain ⟨-, -, h⟩ := acc_bind_cases (β := State × Nat) h
    cases h
    rfl
  | remote m va =>
    obtain ⟨⟨u, y, sent⟩, hu, h⟩ := acc_bind_cases h
    cases h
    exact hf.remoteCall hu
  | mgmt => exact hf.mgmtRead h

/-- Loads one after another. -/
theorem Beside.loads {w n : Nat} (l : List Word) : ∀ (s : State) (m : SMap Nat) (r : State × SMap Nat),
    l.foldlM (fun (a : State × SMap Nat) p => do
      let (s, v) ← a.1.loadVia w p n false
      .ok (s, SMap.set a.2 p.toNat v)) (s, m) = (.ok r : Acc _) → f r.1 = f s := by
  induction l with
  | nil =>
    intro s m r h
    cases h
    rfl
  | cons p l ih =>
    intro s m r h
    rw [List.foldlM_cons] at h
    obtain ⟨⟨u, m'⟩, hu, h⟩ := acc_bind_cases h
    obtain ⟨⟨u', v⟩, hv, hu⟩ := acc_bind_cases hu
    cases hu
    exact (ih _ _ _ h).trans (hf.loadVia hv)

theorem Beside.loadAll {w v : Nat} {x : BitVec 256} {e : Fmt} (h : s.loadAll w x e = .ok (t, v)) : f t = f s := by
  unfold State.loadAll at h
  obtain ⟨⟨u, m⟩, hu, h⟩ := acc_bind_cases h
  cases h
  exact hf.loads _ _ _ _ hu

end Beside

end Sys2Proof.Machine
end

section
/-! SUPPORT. The arrival of a headgate at a collective, what holds it off, its end, and what each rank receives (07 R183, R184; 19 R400,
R401). -/

namespace Sys2Proof.Machine

open Sys2Proof.Claims

variable {s t u : State} {kind red p key : Nat} {f : Fmt} {x y : ShReg} {a : SReg} {X Y : BitVec 256} {v : Word} {c : Collective}

/-- The five forms are COLL with the number of their kind. -/
theorem exec_of_collForm {i : Instr} (hi : collForm i = some (x, y, a, kind, red, f)) : exec i s = s.coll x y a kind red f := by
  unfold collForm at hi
  split at hi <;> cases hi <;> rfl

/-! ## The arrival -/

/-- A collective that a headgate of a rank has just joined, with the sizes and the group it named. -/
structure JoinedBy (z : Collective) (kind red : Nat) (f : Fmt) (X Y : BitVec 256) (group rank : Nat) : Prop where
  open_ : z.done = false
  kind : z.kind = kind
  red : z.red = red
  fmt : z.fmt = f
  group : z.group = group
  ex : z.ex = shCount X
  ey : z.ey = shCount Y
  last : ∃ w, z.arrived.getLast? = some w ∧ w.dst = Y ∧ w.rank = rank

/-- The state after an arrival: the collective stands in the partition and the headgate waits for it. -/
def State.joined (u : State) (p key : Nat) (z : Collective) : State :=
  (u.modPart p fun q => { q with colls := SMap.set q.colls key z }).modMe fun h => { h with wait := .coll key }

theorem me_joined (z : Collective) : (u.joined p key z).me = { u.me with wait := .coll key } := by
  simp only [State.joined, modMe_eq, me_setMe]
  rfl

theorem colls_joined (z : Collective) : SMap.get? ((u.joined p key z).part p).colls key = some z := by
  simp only [State.joined, modMe_eq, part_setMe, modPart_eq, part_setPart, if_true, smap_get_set]

theorem chk_passes {b : Bool} {n : Nat} {e : Unit} (h : chk b n = .ok e) : b = true := by
  cases b with
  | true => rfl
  | false => cases h

theorem keeping_passes {α : Type} {r : Acc α} {e : α} (h : keeping u r = .ok e) : r = .ok e := by
  cases r with
  | ok v => exact h
  | error q => cases h

/-- The collective that an arrival makes or joins. -/
theorem placed_joined {m : SMap Collective} {w : CollArrival} {group root n : Nat} (hY : w.dst = Y)
    (h : (match m.find? fun e => !e.2.done && e.2.group == group with
      | some (key, c) => do
        chk (c.kind == kind && c.red == red && c.fmt == f && c.ex == shCount X && c.ey == shCount Y) cIllegal
        .ok (u.joined p key { c with arrived := c.arrived ++ [w] })
      | none =>
        .ok (u.joined p (freshKey m) ⟨group, n, kind, red, f, shCount X, shCount Y, root, [w], false⟩) : Acc State) = .ok t) :
    ∃ key z, JoinedBy z kind red f X Y group w.rank ∧ t = u.joined p key z := by
  split at h
  next key c hfind =>
    have hopen := List.find?_some hfind
    simp only [Bool.and_eq_true, Bool.not_eq_true', beq_iff_eq] at hopen
    obtain ⟨_, hsame, h⟩ := acc_bind_cases h
    cases h
    have hsame := chk_passes hsame
    simp only [Bool.and_eq_true, beq_iff_eq] at hsame
    obtain ⟨⟨⟨⟨hkind, hred⟩, hfmt⟩, hex⟩, hey⟩ := hsame
    exact ⟨key, { c with arrived := c.arrived ++ [w] },
      ⟨hopen.1, hkind, hred, hfmt, hopen.2, hex, hey, w, List.getLast?_concat, hY, rfl⟩, rfl⟩
  next hfind =>
    cases h
    exact ⟨_, _, ⟨rfl, rfl, rfl, rfl, rfl, rfl, rfl, w, rfl, hY, rfl⟩, rfl⟩

/-- The checks, the release and the loads of an arrival leave the headgates alone; its place is then the last of its group's collective. -/
theorem collArrive_joined (hp : s.partOfHg s.cur = some p) (h : s.collArrive kind red f X Y v = .ok t) :
    ∃ (u : State) (key : Nat) (z : Collective) (n r : Nat), s.rankIn s.cur (v.toNat % 256) = some (n, r) ∧
      u.cur = s.cur ∧ u.hg s.cur = s.hg s.cur ∧ JoinedBy z kind red f X Y (v.toNat % 256) r ∧ t = u.joined p key z := by
  unfold State.collArrive at h
  dsimp only at h
  obtain ⟨-, -, h⟩ := acc_bind_cases h
  rw [hp] at h
  cases hr : s.rankIn s.cur (v.toNat % 256) with
  | none =>
    rw [hr] at h
    cases h
  | some nr =>
    obtain ⟨n, r⟩ := nr
    rw [hr] at h
    dsimp only at h
    iterate 7 obtain ⟨-, -, h⟩ := acc_bind_cases h
    obtain ⟨u, hu, h⟩ := acc_bind_cases h
    obtain ⟨⟨u', src⟩, hu', h⟩ := acc_bind_cases h
    obtain ⟨key, z, hz, ht⟩ := placed_joined (w := ⟨r, s.lhgOf s.cur, src, Y⟩) rfl h
    exact ⟨u', key, z, n, r, rfl, (beside_cur.loadAll (keeping_passes hu')).trans (aside_cur.release hu),
      ((beside_hg s.cur).loadAll (keeping_passes hu')).trans ((aside_hg s.cur).release hu), hz, ht⟩

/-! ## What holds an arrival off -/

theorem chk_bind_fault {α : Type} {b : Bool} {n : Nat} {k : Unit → Acc α} (h : b = true → k () = .error (.fault n [])) :
    chk b n >>= k = .error (.fault n []) := by
  cases b with
  | true => exact h rfl
  | false => rfl

/-- The reserved bits of COLL's operand are those from 24 on. -/
theorem reserved_zero (h : bits v.toNat 24 40 = 0) : v.toNat < 2 ^ 24 := by
  unfold bits at h
  have := v.isLt
  omega

theorem collArrive_illegal (h : s.rankIn s.cur (v.toNat % 256) = none ∨ shEmpty X = true ∨ shEmpty Y = true ∨
    shFmt X ≠ f.code ∨ shFmt Y ≠ f.code ∨ 2 ^ 24 ≤ v.toNat) : s.collArrive kind red f X Y v = .error (.fault cIllegal []) := by
  unfold State.collArrive
  refine chk_bind_fault fun hres => ?_
  simp only [Bool.and_eq_true, beq_iff_eq] at hres
  split
  next n r p hr _ =>
    refine chk_bind_fault fun _ => chk_bind_fault fun hslots => ?_
    simp only [Bool.and_eq_true, Bool.not_eq_true', beq_iff_eq] at hslots
    obtain ⟨⟨⟨hx, hy⟩, hxf⟩, hyf⟩ := hslots
    have := reserved_zero hres.1.1
    simp_all
    omega
  · rfl

/-! ## The instruction -/

section Run

variable {i : Instr} (hi : collForm i = some (x, y, a, kind, red, f)) (hf : s.me.forked = false)
include hi hf

/-- COLL at a headgate that waits for nothing arrives, and stays. -/
theorem exec_coll_arrives (hw : s.me.wait = .none) :
    exec i s = .next (s.finish (do .ok (← s.collArrive kind red f (s.me.getSh x) (s.me.getSh y) (s.getS a), .stay))) := by
  rw [exec_of_collForm hi, State.coll, unforked_run s hf (state_getP_zero s), hw]

variable (hp : s.partOfHg s.cur = some p)
include hp

/-- COLL at a headgate that waits for its collective. -/
theorem exec_coll_waiting (hw : s.me.wait = .coll key) (hc : SMap.get? (s.part p).colls key = some c) :
    exec i s = .next (s.finish (if c.done then done (s.collRetire p key c) else .error (.wait .busy))) := by
  rw [exec_of_collForm hi, State.coll, unforked_run s hf (state_getP_zero s), hw, hp]
  dsimp only
  rw [hc]

omit hp in
/-- The operand's reserved bits, a headgate that is no participant, an empty slot, and a slot of another format (07 R184). -/
theorem coll_illegal (hw : s.me.wait = .none)
    (h : s.rankIn s.cur ((s.getS a).toNat % 256) = none ∨ shEmpty (s.me.getSh x) = true ∨ shEmpty (s.me.getSh y) = true ∨
      shFmt (s.me.getSh x) ≠ f.code ∨ shFmt (s.me.getSh y) ≠ f.code ∨ 2 ^ 24 ≤ (s.getS a).toNat) : traps i s cIllegal [] := by
  rw [traps, exec_coll_arrives hi hf hw, collArrive_illegal h]
  rfl

end Run

/-! ## The end of a collective -/

section Complete

variable (hc : SMap.get? (s.part s.inp.unit).colls s.inp.idx = some c) (hopen : c.done = false) (hgroup : c.group < 0x80)
include hc hopen hgroup

/-- COLL_COMPLETE before the last participant's arrival, for a group of this module. -/
theorem collComplete_early (h : c.arrived.length < c.size) : exec .collComplete s = .next s := by
  show Host.Outcome.next (s.collComplete s.inp.unit s.inp.idx s.inp.data) = _
  unfold State.collComplete
  rw [hc]
  simp [hopen, Nat.not_le.2 hgroup, h]

/-- COLL_COMPLETE once all have arrived, when every destination can be written. -/
theorem collComplete_writes (h : c.size ≤ c.arrived.length)
    (ht : s.collWrite s.inp.unit c (c.sources s.inp.data) c.arrived = .ok t) :
    exec .collComplete s =
      .next (t.modPart s.inp.unit fun q => { q with colls := SMap.set q.colls s.inp.idx { c with done := true } }) := by
  show Host.Outcome.next (s.collComplete s.inp.unit s.inp.idx s.inp.data) = _
  unfold State.collComplete
  rw [hc]
  simp [hopen, Nat.not_le.2 hgroup, Nat.not_lt.2 h, ht]

end Complete

/-! ## What a rank receives (07 R183; 19 R401) -/

/-- Blocks of one length, one after another. -/
theorem length_flatMap_range {len : Nat} {g : Nat → List Nat} (n : Nat) (hlen : ∀ i < n, (g i).length = len) :
    ((List.range n).flatMap g).length = n * len := by
  rw [List.length_flatMap, List.map_congr_left fun i hi => hlen i (List.mem_range.1 hi)]
  simp

theorem getD_flatMap_range {len j k : Nat} {g : Nat → List Nat} (n : Nat) (hlen : ∀ i < n, (g i).length = len) (hj : j < n) (hk : k < len) :
    ((List.range n).flatMap g).getD (j * len + k) 0 = (g j).getD k 0 := by
  induction n with
  | zero => omega
  | succ n ih =>
    have hlen' : ∀ i < n, (g i).length = len := fun i hi => hlen i (Nat.lt_succ_of_lt hi)
    have hlast := length_flatMap_range n hlen'
    rw [List.range_succ, List.flatMap_append, List.flatMap_singleton]
    rcases Nat.lt_succ_iff_lt_or_eq.1 hj with hj | rfl
    · have hfit : j * len + k < n * len := by
        calc j * len + k < (j + 1) * len := by rw [Nat.succ_mul]; omega
          _ ≤ n * len := Nat.mul_le_mul_right _ hj
      rw [List.getD_append _ _ _ _ (by rw [hlast]; exact hfit), ih hlen' hj]
    · rw [List.getD_append_right _ _ _ _ (by rw [hlast]; omega), hlast, Nat.add_sub_cancel_left]

theorem foldl_add_mod (l : List Nat) : ∀ n < 2 ^ 32, l.foldl (fun a b => (a + b) % 2 ^ 32) n = (n + l.sum) % 2 ^ 32 := by
  induction l with
  | nil => exact fun n hn => (Nat.mod_eq_of_lt hn).symm
  | cons x l ih =>
    intro n _
    rw [List.foldl_cons, ih _ (Nat.mod_lt _ (by decide)), List.sum_cons]
    omega

/-- An i32 sum over the ranks. -/
theorem reduceElem_i32 {l : List Nat} (hl : ∀ x ∈ l, x < 2 ^ 32) : reduceElem 0 .i32 l = l.sum % 2 ^ 32 := by
  cases l with
  | nil => rfl
  | cons x l => exact foldl_add_mod l x (hl x List.mem_cons_self)

section Result

variable {srcs : List (List Nat)} {rank j k : Nat} (hsize : c.size = srcs.length)

/-- A broadcast. -/
theorem collResult_broadcast (hk : c.kind = 3) : collResult c srcs rank = srcs.getD c.root [] := by
  simp only [collResult, hk]

include hsize

/-- An all-gather. -/
theorem collResult_gather (hex : ∀ l ∈ srcs, l.length = c.ex) (hk : c.kind = 2) (hj : j < c.size) (ht : k < c.ex) :
    (collResult c srcs rank).getD (j * c.ex + k) 0 = (srcs.getD j []).getD k 0 := by
  have hlen : ∀ i < c.size, (srcs.getD i []).length = c.ex := fun i hi => by
    rw [List.getD_eq_getElem _ _ (hsize ▸ hi)]
    exact hex _ (List.getElem_mem _)
  unfold collResult
  rw [hk]
  exact getD_flatMap_range c.size hlen hj ht

omit hsize in
/-- An all-to-all. -/
theorem collResult_allToAll (hk : c.kind = 4) (hj : j < c.size) (ht : k < c.ex / c.size) :
    (collResult c srcs rank).getD (j * (c.ex / c.size) + k) 0 = (srcs.getD j []).getD (rank * (c.ex / c.size) + k) 0 := by
  simp only [collResult, hk]
  rw [getD_flatMap_range c.size (fun i _ => by rw [List.length_map, List.length_range]) hj ht,
    List.getD_eq_getElem _ _ (by simpa using ht), List.getElem_map, List.getElem_range]

/-- An i32 all-reduce of sums. -/
theorem collResult_sum (hk : c.kind = 0) (hr : c.red = 0) (hf : c.fmt = .i32) (ht : k < c.ey) (hlt : ∀ l ∈ srcs, ∀ x ∈ l, x < 2 ^ 32) :
    (collResult c srcs rank).getD k 0 = (srcs.map fun l => l.getD k 0).sum % 2 ^ 32 := by
  have hcolumn : ((List.range c.size).map fun j => (srcs.getD j []).getD k 0) = srcs.map fun l => l.getD k 0 := by
    refine List.ext_getElem (by simp [hsize]) fun i hi _ => ?_
    have hi : i < srcs.length := by simpa [hsize] using hi
    rw [List.getElem_map, List.getElem_map, List.getElem_range, List.getD_eq_getElem _ _ hi]
  have hbound : ∀ e ∈ srcs.map fun l => l.getD k 0, e < 2 ^ 32 := by
    intro e he
    obtain ⟨l, hl, rfl⟩ := List.mem_map.1 he
    rcases lt_or_ge k l.length with hkl | hkl
    · rw [List.getD_eq_getElem _ _ hkl]
      exact hlt l hl _ (List.getElem_mem _)
    · rw [List.getD_eq_default _ _ hkl]
      decide
  simp only [collResult, hk, hr, hf]
  rw [List.getD_eq_getElem _ _ (by simpa using ht), List.getElem_map, List.getElem_range, hcolumn, reduceElem_i32 hbound]

end Result

end Sys2Proof.Machine

namespace Sys2Proof.Proofs

open Sys2Proof.Machine Sys2Proof.Claims

/-- Settles O33: COLL by what its headgate waits for (`exec_coll_arrives`, `collArrive_joined`, `exec_coll_waiting`, `coll_illegal`),
COLL_COMPLETE by whether all have arrived, and the results kind by kind (`collResult_broadcast` to `collResult_sum`). -/
theorem collectivesArriveAndRetire : Obligations.CollectivesArriveAndRetire := by
  refine ⟨⟨fun i x y a kind red f s t p key c hi hf hp => ⟨fun hw hc => ?_, fun hw hok => ?_, coll_illegal hi hf⟩,
    fun s t c hc hopen hgroup => ⟨collComplete_early hc hopen hgroup, collComplete_writes hc hopen hgroup⟩⟩,
    fun c srcs rank j t hsize hex => ⟨collResult_broadcast, collResult_gather hsize hex, collResult_allToAll, collResult_sum hsize⟩⟩
  · have hexec := exec_coll_waiting hi hf hp hw hc
    refine ⟨fun hd => ?_, fun hd => ?_⟩
    · rw [hd] at hexec
      exact hexec
    · rw [hd] at hexec
      exact hexec
  · obtain ⟨u, key, z, n, r, hr, hcur, hhg, hz, ht⟩ := collArrive_joined hp hok
    have hme : u.me = s.me := by rw [State.me, State.me, hcur, hhg]
    obtain ⟨w, hlast, hdst, hrank⟩ := hz.last
    refine ⟨?_, ?_, key, z, ?_, ht ▸ colls_joined z, hz.open_, hz.kind, hz.red, hz.fmt, hz.group, hz.ex, hz.ey, w, n, r, hlast, hdst, hr, hrank⟩
    · rw [exec_coll_arrives hi hf hw, hok]
      rfl
    · rw [ht, me_joined, hme]
    · rw [ht, me_joined]

end Sys2Proof.Proofs
end

section
/-! SUPPORT. The mesh's events packet by packet, domain time, the Ethernet ports, and the accesses between modules (19 R389 to R394, R398,
R399; 26 R450, R451). -/

namespace Sys2Proof.Machine

open Sys2Proof.Claims

variable {s t : State} {x : Packet} {c input o : Nat}

/-! ## Routers (19 R389, R394) -/

theorem openOut_iff (c o : Nat) : s.openOut c o = true ↔ o = 4 ∨ ∃ n, neighbour c o = some n ∧ s.live n = true := by
  unfold State.openOut
  cases neighbour c o <;> simp

/-- A packet that no output has been fixed for takes the one its route names, if it leads somewhere. -/
theorem takesOut_iff (hout : x.out = none) (o : Nat) :
    s.takesOut c input x = some o ↔ s.routeOut c x.cls input x.dst = some o ∧ s.openOut c o = true := by
  simp [State.takesOut, hout, Option.filter_eq_some_iff]

/-- Without a table entry a packet goes by the default order, from an input that may turn west. -/
theorem routeOut_default {cls dst : Nat} (hrte : ∀ e : Fin 16, bit ((s.core c).rte cls e).toNat 35 = false) (hin : input = 4 ∨ input = 1) :
    s.routeOut c cls input dst = some (xThenY c dst) := by
  have hnone : ((List.range 16).find? fun e =>
      let v := ((s.core c).rte cls e).toNat
      bit v 35 && bit (rteIn v) input && rteHas v (coreX dst) (coreY dst)) = none := by
    refine List.find?_eq_none.2 fun e he => ?_
    have := hrte ⟨e, List.mem_range.1 he⟩
    simp [this]
  unfold State.routeOut
  rw [hnone]
  dsimp only
  rw [if_pos hin.symm, xThenY]
  split_ifs <;> rfl

section Forward

/-- A packet that stands at a router is forwarded from there. -/
theorem routerForward_stands (hx : packetAt s x) (hat : (x.place = .source ∧ c = x.src ∧ input = 4) ∨ x.place = .router c input) :
    exec .routerForward s = .next (s.forward s.inp.idx c input x) := by
  show Host.Outcome.next _ = _
  rw [hx]
  rcases hat with ⟨hp, rfl, rfl⟩ | hp
  all_goals
    dsimp only
    rw [hp]

theorem forward_moves (ho : s.takesOut c input x = some o) (hready : x.ready ≤ s.wt) (hfree : ((s.core c).link x.cls o).2 ≠ some s.wt)
    (hfirst : s.comesFirst s.inp.idx c input o x = true) :
    s.forward s.inp.idx c input x = putAt (s.modCore c fun k => { k with links := SMap.set k.links (8 * x.cls + o) (input, s.wt) })
      { x with place := nextHop c o, ready := s.wt + hopCycles c (nextHop c o), out := none } := by
  unfold State.forward
  rw [ho]
  simp [Nat.not_lt.2 hready, hfree, hfirst, Module.putPacket]
  rfl

theorem forward_taken (ho : s.takesOut c input x = some o) 
    (h : ((s.core c).link x.cls o).2 = some s.wt ∨ s.comesFirst s.inp.idx c input o x = false) : s.forward s.inp.idx c input x = s := by
  unfold State.forward
  rw [ho]
  rcases h with h | h <;> simp [h]

theorem forward_waits (h : s.takesOut c input x = none ∨ s.wt < x.ready) : s.forward s.inp.idx c input x = s := by
  unfold State.forward
  split
  · rfl
  · rcases h with h | h <;> simp_all

end Forward

/-! ## Delivery (07 R180; 19 R390, R391; 23 R424) -/

section Deliver

variable (hx : packetAt s x)
include hx

theorem routerForward_leaving (hp : x.place = .leaving) : exec .routerForward s = .next s := by
  show Host.Outcome.next _ = _
  rw [hx]
  dsimp only
  rw [hp]

theorem exec_packetDeliver (hp : x.place = .leaving) : exec .packetDeliver s = .next (
    if x.ready ≤ s.wt then
      if s.running (clusterOf x.dst) then putAt s { x with place := .arrived, ready := s.wt + 1 }
      else if x.knocked then s
      else (putAt s { x with knocked := true }).setKnock (clusterOf x.dst)
    else s) := by
  show Host.Outcome.next _ = _
  rw [hx]
  dsimp only
  simp only [hp, true_and]
  rfl

theorem exec_queueMessageArrival (hsub : s.inp.sub = 0) : exec .queueMessageArrival s = .next (
    if x.place = .arrived ∧ ((s.core x.dst).queue x.queue).length < 64 ∧ (s.core x.dst).arrivals.get (Fin.ofNat 8 x.queue) = []
      ∧ !(s.mod.packets.take s.inp.idx).any (·.sameStream x) ∧ x.ready ≤ s.wt then s.arrive s.inp.idx x
    else s) := by
  show (if s.inp.sub = 1 then _ else _) = _
  rw [if_neg (by omega), hx]

end Deliver

/-! ## Domain time (19 R398, R399) -/

/-- DTSTAT as the servo writes it: LOCKED and the offset bound. -/
theorem servoStatus (l : Bool) {n : Nat} (hn : n < 2 ^ 32) :
    bit (BitVec.ofNat 64 (n % 2 ^ 32 * 2 ^ 32 + if l then 1 else 0)).toNat 0 = l ∧
      bits (BitVec.ofNat 64 (n % 2 ^ 32 * 2 ^ 32 + if l then 1 else 0)).toNat 32 32 = n := by
  rw [BitVec.toNat_ofNat, Nat.mod_eq_of_lt hn]
  cases l
  all_goals
    simp only [bit, bits, beq_eq_false_iff_ne, beq_iff_eq, Bool.false_eq_true, if_true, if_false]
    omega

/-! ## Accesses of another module, and the answers to ours (26 R451; 12 R306, R307) -/

section Remote

/-- The permission of a module's accesses is the entry of the domain table. -/
theorem remoteCtx_eq (p m : Nat) : s.remoteCtx p m =
    if bit (SMap.getD s.mod.domtab (domKey p m) 0).toNat 63 && s.known (bits (SMap.getD s.mod.domtab (domKey p m) 0).toNat 0 10) then
      .ok (bits (SMap.getD s.mod.domtab (domKey p m) 0).toNat 0 10) else flt cXlate := by
  unfold State.remoteCtx chk
  dsimp only
  split <;> rfl

/-- What another module's access comes to. -/
def State.remoteDone (s : State) (w : Nat) : Acc (State × Nat) → State
  | .ok (t, v) => t.complete false v
  | .error (.fault c _) => s.complete true c
  | .error x => s.stall w x

section Arrival

variable {d : Nat} (hd : (SMap.getD s.mod.domtab (domKey (s.inp.unit % 128) (s.inp.sub % 16)) 0).toNat = d)
include hd

theorem exec_remoteAccessArrival (hv : bit d 63 = true) (hk : s.known (bits d 0 10) = true) :
    exec .remoteAccessArrival s = .next (s.remoteDone (32784 + s.inp.sub % 16) (s.remoteAccess (32784 + s.inp.sub % 16) (bits d 0 10)
      s.inp.idx (bits s.inp.addr.toNat 0 48) s.inp.val.toNat (pack 8 s.inp.data))) := by
  have hctx : s.remoteCtx (s.inp.unit % 128) (s.inp.sub % 16) = .ok (bits d 0 10) := by
    rw [remoteCtx_eq, hd, hv, hk]
    rfl
  show Host.Outcome.next _ = _
  rw [hctx, acc_bind_ok]
  rfl

theorem remoteAccessArrival_refused (h : bit d 63 = false ∨ s.known (bits d 0 10) = false) :
    exec .remoteAccessArrival s = .next (completes s true 0x05) := by
  have hctx : s.remoteCtx (s.inp.unit % 128) (s.inp.sub % 16) = flt cXlate := by
    rw [remoteCtx_eq, hd]
    rcases h with h | h <;> simp [h]
  show Host.Outcome.next _ = _
  rw [hctx]
  rfl

end Arrival

/-- What the answer to the request at a position comes to. -/
def State.acknowledged (s : State) (r : Remote) : State :=
  if s.inp.sub = 0 then s.remoteAnswer s.inp.idx r none
  else if s.inp.sub = 256 then s.modMod fun m => { m with remotes := m.remotes.set s.inp.idx { r with passed := true } }
  else if remoteCauses.contains s.inp.sub && !r.passed then s.remoteAnswer s.inp.idx r (some s.inp.sub)
  else s

/-- An answer, over a link, to the first open request of its headgate to its module. -/
theorem exec_remoteAcknowledgement {r : Remote} (hr : s.mod.remotes[s.inp.idx]? = some r) (hopen : r.reply = none)
    (hlink : s.mod.linked r.module_ = true)
    (hfirst : ∀ y ∈ s.mod.remotes.take s.inp.idx, seqOf y.seqr = seqOf r.seqr → y.module_ = r.module_ → y.reply ≠ none) :
    exec .remoteAcknowledgement s = .next (s.acknowledged r) := by
  have hnone : ((s.mod.remotes.take s.inp.idx).any fun x =>
      seqOf x.seqr == seqOf r.seqr && x.module_ == r.module_ && x.reply.isNone) = false := by
    refine List.any_eq_false.2 fun y hy => ?_
    have := hfirst y hy
    simp only [Bool.and_eq_true, beq_iff_eq, Option.isNone_iff_eq_none]
    exact fun h => this h.1.1 h.1.2 h.2
  show Host.Outcome.next _ = _
  rw [hr]
  dsimp only
  rw [show r.reply.isSome = false by rw [hopen]; rfl, hlink, hnone]
  rfl

theorem acknowledged_cause {r : Remote} (h0 : s.inp.sub ≠ 0) (h1 : s.inp.sub ≠ 256) : s.acknowledged r =
    if remoteCauses.contains s.inp.sub && !r.passed then s.remoteAnswer s.inp.idx r (some s.inp.sub) else s := by
  rw [State.acknowledged, if_neg h0, if_neg h1]

/-- An instruction's request that failed traps at its address. -/
theorem remoteAnswer_fault {r : Remote} (i cause : Nat) (h : engOf r.seqr = 0) : s.remoteAnswer i r (some cause) =
    (s.modMod fun m => { m with remotes := m.remotes.eraseIdx i }).trapAt (seqOf r.seqr) cause r.iaddr (s.hg (seqOf r.seqr)).pc 0 [] := by
  unfold State.remoteAnswer State.remoteFailed
  simp only [h]
  rw [if_neg (by simp)]
  rfl

end Remote

end Sys2Proof.Machine

namespace Sys2Proof.Proofs

open Sys2Proof.Machine Sys2Proof.Claims

/-- The causes with which an access fails at another module are neither of the numbers with another meaning. -/
theorem remoteCauses_proper {n : Nat} (h : n ∈ remoteCauses) : n ≠ 0 ∧ n ≠ 256 := by
  revert n
  decide

/-- Settles O50: each event by the packet, the clock, the port or the request it meets. -/
theorem packetsTimeAndOtherModules : Obligations.PacketsTimeAndOtherModules := by
  intro s t
  refine ⟨fun x hx => ⟨fun c input hat => ?_, fun hp => ?_, fun hsub hp hroom harr hstream hready => ?_, fun hsub hfull => ?_⟩,
    fun hx => ?_, openOut_iff, fun c cls input dst => routeOut_default, fun h => congrArg _ (if_pos h), fun h => congrArg _ (if_neg h),
    fun hl h4 hv => ?_, fun h => ?_, fun hidx => ?_, rfl, ?_, rfl, ?_, fun r hr hopen hlink hfirst => ?_, rfl, fun hr => ?_⟩
  · have hexec := routerForward_stands hx hat
    refine ⟨fun o ho hready => ⟨fun hfree hfirst => ?_, fun h => ?_⟩, fun h => ?_, fun hout o => takesOut_iff hout o⟩
    · rw [hexec, forward_moves ho hready hfree hfirst]
    · rw [hexec, forward_taken ho h]
    · rw [hexec, forward_waits h]
  · have hexec := exec_packetDeliver hx hp
    refine ⟨routerForward_leaving hx hp, fun hc hrail hready => ?_, fun hready => ?_, fun hoff hready => ?_⟩
    · rw [hexec, if_pos hready, if_pos (by simp [State.running, hc, hrail])]
    · rw [hexec, if_neg (Nat.not_le.2 hready)]
    · rw [hexec, if_pos hready, if_neg (by rcases hoff with h | h <;> simp [State.running, h])]
  · rw [exec_queueMessageArrival hx hsub, if_pos ⟨hp, hroom, harr, by simpa using hstream, hready⟩]
    rfl
  · rw [exec_queueMessageArrival hx hsub, if_neg fun h => absurd h.2.1 (Nat.not_lt.2 hfull)]
  · constructor
    all_goals
      show Host.Outcome.next _ = _
      rw [hx]
  · show Host.Outcome.next _ = _
    rw [if_pos (by simp [hl, h4, hv])]
    rfl
  · show Host.Outcome.next _ = _
    rw [if_neg fun hc => by
      simp only [Bool.and_eq_true, decide_eq_true_eq] at hc
      rcases h with h | h | h
      exacts [absurd hc.1.1 (by simp [h]), h hc.1.2, h hc.2]]
  · obtain ⟨hlocked, hoffb⟩ := servoStatus (bit s.inp.val.toNat 0) hidx
    exact ⟨_, rfl, hlocked, hoffb⟩
  · show Host.Outcome.next _ = _
    rw [show bits s.inp.val.toNat 0 1 = s.inp.val.toNat % 2 by simp [bits]]
    rfl
  · refine ⟨fun hv hk => ?_, remoteAccessArrival_refused rfl⟩
    have hexec := exec_remoteAccessArrival rfl hv hk
    exact ⟨fun v hgo => by rw [hexec, hgo]; rfl, fun c l hgo => by rw [hexec, hgo]; rfl, fun w hgo => by rw [hexec, hgo]; rfl,
      fun u w hgo => by rw [hexec, hgo]; rfl⟩
  · rw [exec_remoteAcknowledgement hr hopen hlink hfirst]
    refine ⟨fun h hb hdata => ?_, fun h hb => ?_, fun h hp he => ?_, fun h => ?_, fun h0 h1 h => ?_⟩
    · rw [State.acknowledged, if_pos h]
      simp only [State.remoteAnswer, hb, if_true, State.dataIn, hdata, List.isEmpty_nil]
    · rw [State.acknowledged, if_pos h]
      simp only [State.remoteAnswer, hb, Bool.false_eq_true, if_false]
    · obtain ⟨h0, h1⟩ := remoteCauses_proper h
      rw [acknowledged_cause h0 h1, if_pos (by simp [h, hp]), remoteAnswer_fault _ _ he]
    · rw [State.acknowledged, if_neg (by omega), if_pos h]
    · rw [acknowledged_cause h0 h1, if_neg (by rcases h with h | h <;> simp [h])]
  · show Host.Outcome.next _ = _
    rw [hr]

end Sys2Proof.Proofs
end

section
/-! SUPPORT. The canonical form of memory, function by function (log 4): what an answer of the model's functions keeps. The lemmas are named
after the functions, so that a function's proof reads as its body does. -/

namespace Sys2Proof.Machine

variable {s t : State}

/-! ## Parts of the state other than memory -/

namespace State.memOk

theorem setHg {k : Nat} {x : Hg} (h : s.memOk) : (s.setHg k x).memOk := h
theorem modHg {k : Nat} {f : Hg → Hg} (h : s.memOk) : (s.modHg k f).memOk := h
theorem setMe {x : Hg} (h : s.memOk) : (s.setMe x).memOk := h
theorem modMe {f : Hg → Hg} (h : s.memOk) : (s.modMe f).memOk := h
theorem setCore {c : Nat} {x : Core} (h : s.memOk) : (s.setCore c x).memOk := h
theorem modCore {c : Nat} {f : Core → Core} (h : s.memOk) : (s.modCore c f).memOk := h
theorem setCell {i : Nat} {x : Cell} (h : s.memOk) : (s.setCell i x).memOk := h
theorem modCell {i : Nat} {f : Cell → Cell} (h : s.memOk) : (s.modCell i f).memOk := h
theorem setCluster {c : Nat} {x : Cluster} (h : s.memOk) : (s.setCluster c x).memOk := h
theorem modCluster {c : Nat} {f : Cluster → Cluster} (h : s.memOk) : (s.modCluster c f).memOk := h
theorem setReticle {r : Nat} {x : Reticle} (h : s.memOk) : (s.setReticle r x).memOk := h
theorem modReticle {r : Nat} {f : Reticle → Reticle} (h : s.memOk) : (s.modReticle r f).memOk := h
theorem setPart {p : Nat} {x : Part} (h : s.memOk) : (s.setPart p x).memOk := h
theorem modPart {p : Nat} {f : Part → Part} (h : s.memOk) : (s.modPart p f).memOk := h
theorem setCtx {c : Nat} {x : Ctx} (h : s.memOk) : (s.setCtx c x).memOk := h
theorem modCtx {c : Nat} {f : Ctx → Ctx} (h : s.memOk) : (s.modCtx c f).memOk := h
theorem setLaunch {r : Nat} {x : Launch} (h : s.memOk) : (s.setLaunch r x).memOk := h
theorem modLaunch {r : Nat} {f : Launch → Launch} (h : s.memOk) : (s.modLaunch r f).memOk := h
theorem modMod {f : Module → Module} (h : s.memOk) : (s.modMod f).memOk := h
theorem setPlot {p id : Nat} {x : Plot} (h : s.memOk) : (s.setPlot p id x).memOk := h
theorem setS {d : SReg} {x : Word} (h : s.memOk) : (s.setS d x).memOk := h
theorem setV {d : VReg} {x : VWord} (h : s.memOk) : (s.setV d x).memOk := h
theorem setP {d : PReg} {x : Bool} (h : s.memOk) : (s.setP d x).memOk := h

/-! ## Branches and folds -/

theorem ite {c : Prop} [Decidable c] (hs : s.memOk) (ht : t.memOk) : (if c then s else t).memOk := by
  split
  · exact hs
  · exact ht

theorem iteFst {β : Type} {c : Prop} [Decidable c] {x y : State × β} (hx : x.1.memOk) (hy : y.1.memOk) : (if c then x else y).1.memOk := by
  split
  · exact hx
  · exact hy

/-- A state with another's memory. -/
theorem of_mem (h : s.memOk) (he : t.mem = s.mem) : t.memOk := by
  rw [State.memOk, he]
  exact h

/-- The state of a pair. -/
theorem of_fst {β : Type} {x : State × β} (hx : x.1.memOk) {b : β} (h : x = (t, b)) : t.memOk := by
  rw [h] at hx
  exact hx

theorem foldl {α : Type} {f : State → α → State} {l : List α} (h : s.memOk) (hf : ∀ s x, s.memOk → (f s x).memOk) : (l.foldl f s).memOk := by
  induction l generalizing s with
  | nil => exact h
  | cons x l ih => exact ih (hf s x h)

/-! ## Writes at a home -/

theorem setByte {a : Nat} {b : Byte} (h : s.memOk) : (s.setByte a b).memOk := memOk_setByte s h a b
theorem writeN {a n v : Nat} (h : s.memOk) : (s.writeN a n v).memOk := writeN_memOk n s a v h
theorem writeBytes {a : Nat} {l : List Byte} (h : s.memOk) : (s.writeBytes a l).memOk := writeBytes_memOk l s a h
theorem writeMasked {a m v n : Nat} (h : s.memOk) : (s.writeMasked a m v n).memOk := writeMasked_memOk n s a m v h
theorem clearRange {a n : Nat} (h : s.memOk) : (s.clearRange a n).memOk := clearRange_memOk s h a n
theorem reset : State.reset.memOk := reset_memOk
theorem homeWrite {a n v : Nat} (h : s.memOk) : (s.homeWrite a n v).memOk := homeWrite_memOk s h a n v

end State.memOk

/-! ## Accesses -/

/-- What does not complete has left memory canonical, where it has changed the state. -/
def Stop.MemOk : Stop → Prop
  | .held t _ => t.memOk
  | .fault _ _ | .wait _ => True

theorem Stop.MemOk.keeping {e : Stop} (h : t.memOk) (he : e.MemOk) : (e.keeping t).MemOk := by
  cases e with
  | fault c d => trivial
  | wait w => exact h
  | held u w => exact he

theorem Stop.MemOk.undone {e : Stop} : e.undone.MemOk := by
  cases e <;> trivial

/-- An access keeps memory canonical: what it answers meets a predicate, and so does the memory of the state it has left when it waits. -/
def Acc.Keeps {α : Type} (P : α → Prop) : Acc α → Prop
  | .ok a => P a
  | .error e => e.MemOk

namespace Acc.Keeps

variable {α β : Type} {P : α → Prop} {Q : β → Prop} {x y : Acc α}

theorem ok {a : α} (h : P a) : Keeps P (.ok a) := h
theorem pass {a : α} : Keeps (fun _ => True) (.ok a) := trivial
theorem fault {c : Nat} {d : List Nat} : Keeps P (.error (.fault c d)) := trivial
theorem flt {c : Nat} : Keeps P (flt c) := trivial
theorem wait {w : Wait} : Keeps P (.error (.wait w)) := trivial
theorem held {w : Wait} (h : t.memOk) : Keeps P (.error (.held t w)) := h
theorem error {e : Stop} (h : e.MemOk) : Keeps P (.error e) := h
theorem done (h : t.memOk) : Keeps (fun x => x.1.memOk) (done t) := h

theorem bind {f : α → Acc β} (hx : Keeps P x) (hf : ∀ a, P a → Keeps Q (f a)) : Keeps Q (x >>= f) := by
  match x, hx with
  | .ok a, hx => exact hf a hx
  | .error _, hx => exact hx

theorem okBind {a : α} {f : α → Acc β} (h : Keeps Q (f a)) : Keeps Q (.ok a >>= f) := h
theorem faultBind {c : Nat} {d : List Nat} {f : α → Acc β} : Keeps Q (.error (.fault c d) >>= f) := trivial

theorem mono {R : α → Prop} (hx : Keeps P x) (h : ∀ a, P a → R a) : Keeps R x := by
  match x, hx with
  | .ok a, hx => exact h a hx
  | .error _, hx => exact hx

theorem ite {c : Prop} [Decidable c] (hx : Keeps P x) (hy : Keeps P y) : Keeps P (if c then x else y) := by
  split
  · exact hx
  · exact hy

theorem chk {b : Bool} {c : Nat} : Keeps (fun _ => True) (chk b c) := .ite trivial trivial
theorem waitFor {b : Bool} : Keeps (fun _ => True) (waitFor b) := .ite trivial trivial

theorem keeping (h : t.memOk) (hx : Keeps P x) : Keeps P (keeping t x) := by
  match x, hx with
  | .ok a, hx => exact hx
  | .error _, hx => exact Stop.MemOk.keeping h hx

theorem undone (hx : Keeps P x) : Keeps P (x.mapError Stop.undone) := by
  match x, hx with
  | .ok a, hx => exact hx
  | .error _, _ => exact Stop.MemOk.undone

theorem foldlM {f : β → α → Acc β} {b : β} {l : List α} (h : Q b) (hf : ∀ b a, Q b → Keeps Q (f b a)) : Keeps Q (l.foldlM f b) := by
  induction l generalizing b with
  | nil => exact h
  | cons a l ih => exact .bind (hf b a h) fun b h => ih h

/-- A fold whose accumulator carries a state. -/
theorem foldlMPair {γ : Type} {f : State × γ → α → Acc (State × γ)} {b : State × γ} {l : List α} (h : b.1.memOk)
    (hf : ∀ b a, b.1.memOk → Keeps (fun x => x.1.memOk) (f b a)) : Keeps (fun x => x.1.memOk) (l.foldlM f b) :=
  foldlM (Q := fun x : State × γ => x.1.memOk) h hf

theorem forM {f : α → Acc PUnit} {l : List α} (hf : ∀ a, Keeps (fun _ => True) (f a)) : Keeps (fun _ => True) (l.forM f) := by
  induction l with
  | nil => trivial
  | cons a l ih => exact .bind (hf a) fun _ _ => ih

theorem mapM {f : α → Acc β} {l : List α} (hf : ∀ a, Keeps (fun _ => True) (f a)) : Keeps (fun _ => True) (l.mapM f) := by
  induction l with
  | nil => trivial
  | cons a l ih =>
    rw [List.mapM_cons]
    exact .bind (hf a) fun _ _ => .bind ih fun _ _ => .ok trivial

/-- What an access that answers leaves. -/
theorem of_ok (hx : Keeps P x) {a : α} (h : x = .ok a) : P a := by
  rw [h] at hx
  exact hx

theorem of_error (hx : Keeps P x) {e : Stop} (h : x = .error e) : e.MemOk := by
  rw [h] at hx
  exact hx

end Acc.Keeps

/-! ## What does not go on for reasons of its own -/

/-- An answer of a sequence that may stop for reasons of its own. -/
def Ends {ε α : Type} (E : ε → Prop) (P : α → Prop) : Except ε α → Prop
  | .ok a => P a
  | .error e => E e

namespace Ends

variable {ε α β : Type} {E : ε → Prop} {P : α → Prop} {Q : β → Prop} {x y : Except ε α}

theorem ok {a : α} (h : P a) : Ends E P (.ok a) := h
theorem error {e : ε} (h : E e) : Ends E P (.error e) := h
theorem errorBind {e : ε} {f : α → Except ε β} (h : E e) : Ends E Q (.error e >>= f) := h

theorem bind {f : α → Except ε β} (hx : Ends E P x) (hf : ∀ a, P a → Ends E Q (f a)) : Ends E Q (x >>= f) := by
  match x, hx with
  | .ok a, hx => exact hf a hx
  | .error _, hx => exact hx

theorem ite {c : Prop} [Decidable c] (hx : Ends E P x) (hy : Ends E P y) : Ends E P (if c then x else y) := by
  split
  · exact hx
  · exact hy

/-- An access whose stop is put into another. -/
theorem mapError {r : Acc α} {g : Stop → ε} (hr : Acc.Keeps P r) (hg : ∀ e, e.MemOk → E (g e)) : Ends E P (r.mapError g) := by
  match r, hr with
  | .ok a, hr => exact hr
  | .error e, hr => exact hg e hr

theorem of_ok (hx : Ends E P x) {a : α} (h : x = .ok a) : P a := by
  rw [h] at hx
  exact hx

theorem of_error (hx : Ends E P x) {e : ε} (h : x = .error e) : E e := by
  rw [h] at hx
  exact hx

end Ends

/-! ## Outcomes of a step -/

/-- An outcome keeps memory canonical: the next state's, if it has one. -/
def Outcome.MemOk (o : Host.Outcome State Fault Refusal) : Prop := ∀ t, o = .next t → t.memOk

namespace Outcome.MemOk

variable {o p : Host.Outcome State Fault Refusal}

theorem next (h : s.memOk) : Outcome.MemOk (.next s) := by
  rintro _ ⟨⟩
  exact h

theorem ite {c : Prop} [Decidable c] (ho : Outcome.MemOk o) (hp : Outcome.MemOk p) : Outcome.MemOk (if c then o else p) := by
  split
  · exact ho
  · exact hp

end Outcome.MemOk

end Sys2Proof.Machine
end

section
/-! SUPPORT. Each function of the model that answers a state keeps the canonical form of memory, in the order of the model's parts: a lemma a
function, up to the step itself. -/

namespace Sys2Proof.Machine

variable {s t : State}

/-! ## The functions of Machine/Geom -/

theorem State.memOk.modPlot {p id : Nat} {f : Plot → Plot} (h : s.memOk) : (s.modPlot p id f).memOk := by
  unfold State.modPlot
  split
  · exact .setPlot h
  · exact h

theorem State.memOk.noteTurn {t : Turn} {rank : Nat} (h : s.memOk) : (s.noteTurn t rank).memOk := .ite h h

/-! ## The functions of Machine/Bank -/

theorem State.memOk.undefine {lo n : Nat} (h : s.memOk) : (s.undefine lo n).memOk := .modMod (.clearRange h)

theorem State.memOk.unpoison {a n : Nat} (h : s.memOk) : (s.unpoison a n).memOk := .ite h (.modMod h)

theorem Acc.Keeps.homeRead {a n : Nat} : Acc.Keeps (fun _ => True) (s.homeRead a n) := .ite .flt .pass

theorem State.memOk.modBank {cl n : Nat} {f : Bank → Bank} (h : s.memOk) : (s.modBank cl n f).memOk := .modCluster h

theorem Acc.Keeps.classOk {cl n : Nat} : Acc.Keeps (fun _ => True) (s.classOk cl n) := .chk

theorem Acc.Keeps.awake {l : List (Nat × Nat)} : Acc.Keeps (fun _ => True) (s.awake l) := by
  unfold State.awake
  split
  · exact .pass
  · exact .wait

theorem Acc.Keeps.bankReady {cl n : Nat} : Acc.Keeps (fun _ => True) (s.bankReady cl n) := .bind .classOk <| fun _ _ => .awake

theorem State.memOk.beginWake {cl n : Nat} (h : s.memOk) : (s.beginWake cl n).memOk := .ite h (.modBank h)

theorem State.memOk.touchBank {cl n : Nat} (h : s.memOk) : (s.touchBank cl n).memOk :=
  .ite (.foldl (.modCluster (.modBank (.beginWake h))) (fun _ _ h => .modPart h)) (.modBank (.beginWake h))

theorem Acc.Keeps.budgetReady {cl w u : Nat} : Acc.Keeps (fun _ => True) (s.budgetReady cl w u) := .ite .pass .wait

theorem Acc.Keeps.lineReady {sp pa w : Nat} : Acc.Keeps (fun _ => True) (s.lineReady sp pa w) := .bind .awake <| fun _ _ => .budgetReady

theorem State.memOk.devTouch {l : List (Nat × Nat)} (h : s.memOk) : (s.devTouch l).memOk := .foldl h (fun _ _ h => .touchBank h)

theorem State.memOk.l2Evict {cl line w : Nat} (h : s.memOk) : (s.l2Evict cl line w).memOk := by
  unfold State.l2Evict
  split
  · exact h
  · exact .modCluster (.ite (.modCluster (.devTouch h)) (.ite (.clearRange h) h))

theorem State.memOk.touchAs {sp a w : Nat} {st : Bool} (h : s.memOk) : (s.touchAs sp a w st).memOk := by
  unfold State.touchAs
  split
  · exact h
  · refine .ite (.touchBank h) ?_
    dsimp only
    split
    · exact .modCluster (.touchBank h)
    · refine .modCluster (.touchBank (.touchBank ?_))
      split
      · exact .l2Evict h
      · exact h
    · exact .modCluster (.touchBank h)

theorem State.memOk.touch {a : Nat} (h : s.memOk) : (s.touch a).memOk := .touchAs h

theorem State.memOk.touched {a : Nat} (h : s.memOk) : (s.touched a).memOk := .touchAs h

theorem State.memOk.devStore {a n v : Nat} (h : s.memOk) : (s.devStore a n v).memOk := .foldl (.homeWrite h) (fun _ _ h => .touched h)

theorem State.memOk.l2Leave {cl : Nat} {out : Nat → Bool} (h : s.memOk) : (s.l2Leave cl out).memOk := .foldl h (fun _ _ h => .l2Evict h)

theorem Acc.Keeps.l2LeaveReady {cl : Nat} {out : Nat → Bool} : Acc.Keeps (fun _ => True) (s.l2LeaveReady cl out) := .awake

theorem Acc.Keeps.leaving {src : Nat} : Acc.Keeps (fun _ => True) (s.leaving src) := .ite .wait .pass

theorem Acc.Keeps.crossing {src dst : Nat} : Acc.Keeps (fun _ => True) (s.crossing src dst) :=
  .ite .pass (.bind .leaving <| fun _ _ => .ite .pass .wait)

theorem Acc.Keeps.bankTurn {cl n port : Nat} (h : s.memOk) : Acc.Keeps State.memOk (s.bankTurn cl n port) :=
  .ite (.ok (.modBank h)) (.held (.modBank h))

/-! ## The functions of Machine/Ops -/

theorem Acc.Keeps.translate {cl ctx va : Nat} {k : Machine.Kind} : Acc.Keeps (fun _ => True) (s.translate cl ctx va k) := by
  unfold State.translate
  split
  · exact .ite .pass .flt
  · exact .wait

theorem Acc.Keeps.restored {c b : Nat} : Acc.Keeps (fun _ => True) (s.restored c b) := .ite .wait .pass

theorem Acc.Keeps.inBanks {c role off : Nat} : Acc.Keeps (fun _ => True) (s.inBanks c role off) := by
  unfold State.inBanks
  split
  · exact .bind .bankReady <| fun _ _ => .bind .restored <| fun _ _ => .pass
  · exact .flt

theorem Acc.Keeps.byLcore {p issuer i : Nat} : Acc.Keeps (fun _ => True) (s.byLcore p issuer i) := by
  refine .ite .pass ?_
  split
  · exact .pass
  · exact .flt

theorem Acc.Keeps.byLclus {p issuer i : Nat} : Acc.Keeps (fun _ => True) (s.byLclus p issuer i) := by
  refine .ite (.ite .pass .flt) ?_
  split
  · exact .pass
  · exact .flt

theorem Acc.Keeps.resolve {w : Nat} {ptr : Word} {n : Nat} {kind : Machine.Kind} : Acc.Keeps (fun _ => True) (s.resolve w ptr n kind) := by
  refine .bind .chk <| fun _ _ => .ite .pass (.bind .chk <| fun _ _ => .bind .chk <| fun _ _ => .bind .chk <| fun _ _ => ?_)
  dsimp only
  split
  · exact .flt
  · split
    · exact .bind .byLcore <| fun _ _ => .bind .crossing <| fun _ _ => .bind .inBanks <| fun _ _ => .pass
    · exact .bind .byLclus <| fun _ _ => .bind .chk <| fun _ _ => .bind .crossing <| fun _ _ => .bind .inBanks <| fun _ _ => .pass
    · exact .bind .chk <| fun _ _ => .bind .crossing <| fun _ _ => .bind .bankReady <| fun _ _ => .bind .restored <| fun _ _ => .pass
    · split
      · exact .flt
      · exact .bind .chk <| fun _ _ => .pass
    · exact .bind .leaving <| fun _ _ => .pass
    · exact .bind .leaving <| fun _ _ => .pass
    · exact .bind .translate <| fun _ _ => .bind .chk <| fun _ _ => .pass

theorem Acc.Keeps.dramReady {src sp pa w : Nat} : Acc.Keeps (fun _ => True) (s.dramReady src sp pa w) := by
  refine .bind .chk <| fun _ _ => .bind .crossing <| fun _ _ => .bind .waitFor <| fun _ _ => .bind (.forM (fun _ => .classOk)) <| fun _ _ => ?_
  dsimp only
  split
  · exact .bind .classOk <| fun _ _ => .lineReady
  · exact .lineReady
  · exact .lineReady

theorem State.memOk.l1Touch {c sec : Nat} (h : s.memOk) : (s.l1Touch c sec).memOk := .touchBank h

theorem State.memOk.l1Fill {c sec : Nat} (h : s.memOk) : (s.l1Fill c sec).memOk := .modCore h

theorem State.memOk.l1FillAll {c w : Nat} {secs : List Nat} (h : s.memOk) : (s.l1FillAll c w secs).memOk :=
  .l1Touch (.ite h (.foldl (.touchAs h) (fun _ _ h => .l1Fill h)))

theorem State.memOk.l1Put {c a n v : Nat} (h : s.memOk) : (s.l1Put c a n v).memOk := .modCore h

theorem State.memOk.l1Clean {c sec : Nat} (h : s.memOk) : (s.l1Clean c sec).memOk := by
  unfold State.l1Clean
  split
  · exact .modCore (.writeMasked h)
  · exact h

theorem State.memOk.l1WriteBack {c w : Nat} {secs : List Nat} (h : s.memOk) : (s.l1WriteBack c w secs).memOk := by
  unfold State.l1WriteBack
  split
  · exact h
  · exact .touchAs (.foldl (.l1Touch h) (fun _ _ h => .l1Clean h))

theorem State.memOk.l1Drop {c sec : Nat} (h : s.memOk) : (s.l1Drop c sec).memOk := .modCore h

theorem State.memOk.writeBackAll {w c : Nat} (h : s.memOk) : (s.writeBackAll w c).memOk := .foldl h (fun _ _ h => .l1WriteBack h)

theorem Acc.Keeps.sectorsReady {w c : Nat} {secs : List Nat} : Acc.Keeps (fun _ => True) (s.sectorsReady w c secs) :=
  .bind .awake <| fun _ _ => .forM (fun _ => .budgetReady)

theorem Acc.Keeps.flushReady {w : Nat} {cs : List Nat} : Acc.Keeps (fun _ => True) (s.flushReady w cs) := .forM (fun _ => .sectorsReady)

theorem State.memOk.selfInval {c : Nat} (h : s.memOk) : (s.selfInval c).memOk := .modCore h

theorem Acc.Keeps.l1Read {c w a n : Nat} (h : s.memOk) : Acc.Keeps (fun x => x.1.memOk) (s.l1Read c w a n) := .ite .flt (.ok (.l1FillAll h))

theorem State.memOk.l1Write {c w a n v : Nat} (h : s.memOk) : (s.l1Write c w a n v).memOk :=
  .ite (.l1Put (.l1FillAll h)) (.l1Put (.l1Put (.l1FillAll h)))

theorem State.memOk.l1Bypass {c w a n : Nat} (h : s.memOk) : (s.l1Bypass c w a n).memOk := .foldl (.l1WriteBack h) (fun _ _ h => .l1Drop h)

theorem Acc.Keeps.homeReady {w sp a n : Nat} {wide : Bool} : Acc.Keeps (fun _ => True) (s.homeReady w sp a n wide) :=
  .ite .pass (.ite (.bind (.forM (fun _ => .classOk)) <| fun _ _ => .bind .classOk <| fun _ _ => .ite .awake (.bind .dramReady <| fun _ _ =>
    .awake)) (.ite .dramReady (.bind .sectorsReady <| fun _ _ => .dramReady)))

theorem Acc.Keeps.turnAt {w sp a : Nat} {wide own : Bool} (h : s.memOk) : Acc.Keeps State.memOk (s.turnAt w sp a wide own) := by
  unfold State.turnAt
  split
  · exact .bankTurn h
  · exact .ok h

theorem Acc.Keeps.loadAt {w sp a n : Nat} {wide : Bool} (h : s.memOk) : Acc.Keeps (fun x => x.1.memOk) (s.loadAt w sp a n wide) :=
  .ite (.l1Read h) (.bind .homeRead <| fun _ _ => .ok (.touchAs (.ite (.l1Bypass h) h)))

theorem State.memOk.storeAt {w sp a n v : Nat} {wide : Bool} (h : s.memOk) : (s.storeAt w sp a n v wide).memOk :=
  .ite (.l1Write h) (.touchAs (.homeWrite (.ite (.l1Bypass h) h)))

theorem State.memOk.putRecord {p : Nat} {r : TrapRec} (h : s.memOk) : (s.putRecord p r).memOk :=
  .ite (.ite (.modCore h) (.modPart (.modCore h))) (.ite (.modPart h) (.modPart (.devStore h)))

theorem State.memOk.record {p core unit hg cause plot : Nat} {iaddr : Word} {d : List Nat} (h : s.memOk) :
    (s.record p core unit hg cause plot iaddr d).memOk := .putRecord (.modCore h)

theorem State.memOk.haltLine {p : Nat} (h : s.memOk) : (s.haltLine p).memOk := .ite h (.modPart h)

theorem State.memOk.rmcFault {k cause : Nat} {iaddr pc : Word} {d : List Nat} (h : s.memOk) : (s.rmcFault k cause iaddr pc d).memOk :=
  .modHg (.modReticle (.modCore h))

theorem State.memOk.trapAt {k cause : Nat} {iaddr pc : Word} {info : Nat} {d : List Nat} (h : s.memOk) : (s.trapAt k cause iaddr pc info d).memOk :=
  by
  refine .ite (.rmcFault h) ?_
  dsimp only
  split
  · exact .haltLine (.record (.modHg h))
  · exact .modHg h

theorem State.memOk.precise {cause : Nat} {d : List Nat} (h : s.memOk) : (s.precise cause d).memOk := .trapAt h

theorem State.memOk.beginWalk {cl ctx va waiter : Nat} {d : List Nat} (h : s.memOk) : (s.beginWalk cl ctx va waiter d).memOk := .modCluster h

theorem State.memOk.rmcEvent {r : Nat} (h : s.memOk) : (s.rmcEvent r).memOk := .modReticle h

theorem State.memOk.setKnock {cl : Nat} (h : s.memOk) : (s.setKnock cl).memOk := .rmcEvent (.modCluster h)

theorem State.memOk.knock {cl waiter : Nat} (h : s.memOk) : (s.knock cl waiter).memOk := .ite h (.setKnock (.modCluster h))

theorem State.memOk.startWait {waiter : Nat} {x1 : Wait} (h : s.memOk) : (s.startWait waiter x1).memOk := by
  unfold State.startWait
  split
  · exact .beginWalk h
  · exact .foldl h (fun _ _ h => .beginWake h)
  · exact .knock h
  · exact .modCluster h
  · exact .ite h (.modMod h)
  · exact h
  · exact h

theorem State.memOk.stall {w : Nat} {x : Stop} (h : s.memOk) (hx : x.MemOk) : (s.stall w x).memOk := by
  cases x with
  | fault c d => exact h
  | wait w => exact .startWait h
  | held t w => exact .startWait hx

theorem State.memOk.setPc {x : Word} (h : s.memOk) : (s.setPc x).memOk := .setMe h

theorem State.memOk.retire (h : s.memOk) : (s.retire).memOk := .setMe h

theorem State.memOk.finish {e : Eff} (h : s.memOk) (he : Acc.Keeps (fun x => x.1.memOk) e) : (s.finish e).memOk := by
  match e, he with
  | .ok (t, .seq), he => exact .retire he
  | .ok (t, .jump pc), he => exact .setPc he
  | .ok (t, .skip pc), he => exact .setMe he
  | .ok (t, .stay), he => exact he
  | .error (.fault c d), _ => exact .precise h
  | .error (.wait w), he => exact .stall h he
  | .error (.held t w), he => exact .stall h he

theorem Outcome.MemOk.issue {fk : Forked} {sysOnly : Bool} {g : PReg} {body : Eff} (h : s.memOk) (hbody : Acc.Keeps (fun x => x.1.memOk) body) :
    Outcome.MemOk (s.issue fk sysOnly g body) := .ite (.next (.precise h)) (.ite (.next (.precise h)) (.ite (.next (.retire h)) (.next (.finish h
      hbody))))

theorem Outcome.MemOk.plain {g : PReg} {body : Eff} (h : s.memOk) (hbody : Acc.Keeps (fun x => x.1.memOk) body) : Outcome.MemOk (s.plain g body) :=
  .issue h hbody

theorem Outcome.MemOk.unforked {g : PReg} {body : Eff} (h : s.memOk) (hbody : Acc.Keeps (fun x => x.1.memOk) body) :
    Outcome.MemOk (s.unforked g body) := .issue h hbody

/-! ## The functions of Machine/Flags -/

theorem State.memOk.latchCore {c b : Nat} (h : s.memOk) : (s.latchCore c b).memOk := .foldl h (fun _ _ h => .modHg h)

/-! ## The functions of Machine/Alu -/

theorem Outcome.MemOk.alu2 {d a b : SReg} {g : PReg} {f : Word → Word → Word} (h : s.memOk) : Outcome.MemOk (s.alu2 d a b g f) :=
  .plain h (.done (.setS h))

theorem Outcome.MemOk.alu1 {d a : SReg} {g : PReg} {f : Word → Word} (h : s.memOk) : Outcome.MemOk (s.alu1 d a g f) := .plain h (.done (.setS h))

/-! ## The functions of Machine/Walk -/

theorem State.memOk.walkStep {cl ctx va level table : Nat} (h : s.memOk) : (s.walkStep cl ctx va level table).1.memOk := by
  refine .iteFst h (.iteFst h ?_)
  split
  · exact h
  · next heq => exact Acc.Keeps.of_error (.bind .crossing <| fun _ _ => .lineReady) heq
  · exact h
  · exact .touchAs h

theorem State.memOk.walkFrom {cl ctx va n level table : Nat} (h : s.memOk) : (s.walkFrom cl ctx va n level table).1.memOk := by
  induction n generalizing s level table with
  | zero => exact h
  | succ n ih =>
    unfold State.walkFrom
    split
    · next heq => exact ih (.of_fst (.walkStep h) heq)
    · exact .walkStep h

theorem State.memOk.walk {cl ctx va : Nat} (h : s.memOk) : (s.walk cl ctx va).1.memOk := .walkFrom h

theorem State.memOk.walkerFailed {p cause va : Nat} (h : s.memOk) : (s.walkerFailed p cause va).memOk := .ite (.modPart h) (.record h)

theorem State.memOk.walkFailed {cause : Nat} {j : Machine.Joined} (h : s.memOk) : (s.walkFailed cause j).memOk := by
  unfold State.walkFailed
  dsimp only
  split
  · exact .ite h (.trapAt h)
  · split
    · exact .walkerFailed h
    · exact h
  · exact .modHg h
  · exact .modHg h

theorem State.memOk.walkDone {cl i : Nat} (h : s.memOk) : (s.walkDone cl i).memOk := by
  unfold State.walkDone
  split
  · exact h
  · dsimp only
    split
    · next heq => exact .startWait (State.memOk.of_fst (.walk h) heq)
    · next heq => exact State.memOk.of_fst (.walk h) heq
    · next heq => exact .modCluster (.modCluster (State.memOk.of_fst (.walk h) heq))
    · next heq =>
        refine .foldl ?_ (fun _ _ h => .walkFailed h)
        split
        · exact .haltLine (.record (.modCluster (State.memOk.of_fst (.walk h) heq)))
        · exact .modCluster (State.memOk.of_fst (.walk h) heq)

theorem State.memOk.dropEntries {v : Word} (h : s.memOk) : (s.dropEntries v).memOk := h

theorem State.memOk.xinvWrite {v : Word} (h : s.memOk) : (s.xinvWrite v).memOk := .ite (.modMod h) (.ite h (.modMod (.dropEntries h)))

theorem State.memOk.xinvEnd (h : s.memOk) : (s.xinvEnd).memOk := by
  refine .ite ?_ h
  dsimp only
  split
  · next heq => exact .stall h (Acc.Keeps.of_error .flushReady heq)
  · exact .modMod (.foldl (.dropEntries h) (fun _ _ h => .writeBackAll h))

/-! ## The functions of Machine/RegPart -/

theorem State.memOk.advancePlace (h : s.memOk) : (s.advancePlace).memOk := .modMod h

theorem State.memOk.enable {p : Nat} (h : s.memOk) : (s.enable p).memOk :=
  .ite (.advancePlace (.foldl (.modPart h) (fun _ _ h => .l2Leave h))) (.modPart h)

theorem State.memOk.pctlWrite {p : Nat} {v : Word} (h : s.memOk) : (s.pctlWrite p v).memOk :=
  .ite (.ite h (.advancePlace (.modPart h))) (.ite (.enable (.modPart h)) (.modPart h))

theorem State.memOk.flushPending {p : Nat} (h : s.memOk) : (s.flushPending p).memOk := .modPart (.foldl (.modPart h) (fun _ _ h => .putRecord h))

theorem State.memOk.pringbaseWrite {p : Nat} {v : Word} (h : s.memOk) : (s.pringbaseWrite p v).memOk := .ite (.flushPending (.modPart h)) h

theorem State.memOk.pstopbaseWrite {p : Nat} {v : Word} (h : s.memOk) : (s.pstopbaseWrite p v).memOk := .ite (.modPart h) h

theorem State.memOk.pringctlWrite {p : Nat} {v : Word} (h : s.memOk) : (s.pringctlWrite p v).memOk :=
  .ite (.flushPending (.modPart (.modPart h))) (.flushPending (.modPart h))

theorem State.memOk.pringrdWrite {p : Nat} {v : Word} (h : s.memOk) : (s.pringrdWrite p v).memOk := .ite (.flushPending (.modPart h)) h

theorem State.memOk.kmRead {c : Nat} (h : s.memOk) : (s.kmRead c).1.memOk := by
  unfold State.kmRead
  dsimp only
  split
  · exact h
  · refine .iteFst (.modCore h) ?_
    split
    · exact .flushPending (.modCore h)
    · exact .modCore h

theorem State.memOk.resumePart {p : Nat} (h : s.memOk) : (s.resumePart p).memOk :=
  .ite (.foldl (.foldl (.modPart h) (fun _ _ h => .modCore h)) (fun _ _ h => .modHg h)) h

theorem State.memOk.askSwitch {p ctx : Nat} (h : s.memOk) : (s.askSwitch p ctx).memOk := .modPart h

theorem State.memOk.switchCmd {p : Nat} (h : s.memOk) : (s.switchCmd p).memOk := .ite h (.askSwitch h)

theorem State.memOk.pcmdWrite {p : Nat} {v : Word} (h : s.memOk) : (s.pcmdWrite p v).memOk := by
  unfold State.pcmdWrite
  split
  · exact .resumePart h
  · exact .haltLine h
  · exact .switchCmd h
  · exact h

theorem State.memOk.partWrite {p off : Nat} {v : Word} (h : s.memOk) : (s.partWrite p off v).memOk :=
  .ite (.pctlWrite h) (.ite (.ite (.modPart h) h) (.ite (.pcmdWrite h) (.ite (.modPart h) (.ite (.modPart h) (.ite (.modPart h) (.ite
    (.pstopbaseWrite h) (.ite (.pringbaseWrite h) (.ite (.pringctlWrite h) (.ite (.pringrdWrite h) (.ite (.ite (.modPart h) h) (.ite (.ite h
      (.modPart h)) h)))))))))))

/-! ## The functions of Machine/Power -/

theorem State.memOk.notePend {cl : Nat} (h : s.memOk) : (s.notePend cl).memOk := .modCluster h

theorem State.memOk.setCur {cl new : Nat} (h : s.memOk) : (s.setCur cl new).memOk := .modCluster h

theorem State.memOk.unforce (h : s.memOk) : (s.unforce).memOk := .ite h h

theorem State.memOk.clRefuse {cl code : Nat} (h : s.memOk) : (s.clRefuse cl code).memOk := .modCluster h

theorem State.memOk.clSwallowWrite {cl : Nat} {v : Word} (h : s.memOk) : (s.clSwallowWrite cl v).memOk :=
  .ite (.clRefuse h) (.notePend (.modCluster h))

theorem State.memOk.quiescePoint {cl : Nat} (h : s.memOk) : (s.quiescePoint cl).memOk := .ite (.foldl (.setCur h) (fun _ _ h => .modCluster h)) h

theorem State.memOk.clearDram {cl n : Nat} (h : s.memOk) : (s.clearDram cl n).memOk := memWf_filter _ _ h

theorem State.memOk.l1Leave {w c b : Nat} (h : s.memOk) : (s.l1Leave w c b).memOk := .modCore (.foldl h (fun _ _ h => .l1WriteBack h))

theorem Acc.Keeps.leaveReady {cl n : Nat} : Acc.Keeps (fun _ => True) (s.leaveReady cl n) := .ite .sectorsReady (.ite .l2LeaveReady .pass)

theorem State.memOk.enterDeep {cl n : Nat} (h : s.memOk) : (s.enterDeep cl n).memOk :=
  .ite (.clearRange (.ite (.l1Leave h) (.l2Leave h))) (.clearDram h)

theorem State.memOk.lowerBank {cl n : Nat} (h : s.memOk) : (s.lowerBank cl n).memOk := by
  refine .ite ?_ h
  split
  · next heq => exact .stall h (Acc.Keeps.of_error (.ite .leaveReady .pass) heq)
  · exact .modBank (.ite (.enterDeep h) h)

theorem State.memOk.bankUp {cl n : Nat} (h : s.memOk) : (s.bankUp cl n).memOk := .modBank h

theorem State.memOk.wakeDone {cl n : Nat} (h : s.memOk) : (s.wakeDone cl n).memOk := .ite (.bankUp h) h

theorem State.memOk.classWrite {cl n cls : Nat} (h : s.memOk) : (s.classWrite cl n cls).memOk :=
  .ite h (.ite (.beginWake (.modCluster h)) (.modCluster h))

theorem State.memOk.bpcWrite {cl m : Nat} {v : Word} (h : s.memOk) : (s.bpcWrite cl m v).memOk := .foldl h (fun _ _ h => .classWrite h)

theorem State.memOk.applyPhase {p : Nat} (h : s.memOk) : (s.applyPhase p).memOk :=
  .ite (.foldl (.modPart (.modPart h)) (fun _ _ h => .beginWake h)) (.modPart (.modPart h))

theorem State.memOk.declare {p : Nat} {phase time : Word} (h : s.memOk) : (s.declare p phase time).memOk := .applyPhase (.modPart h)

theorem State.memOk.restoreRetention {cl x : Nat} (h : s.memOk) : (s.restoreRetention cl x).memOk :=
  .foldl (.modCluster h) (fun _ _ h => .modCore h)

theorem State.memOk.clRailWrite {cl : Nat} {v : Word} (h : s.memOk) : (s.clRailWrite cl v).memOk := by
  refine .ite h ?_
  split
  · exact .clRefuse h
  · exact .modCluster h

theorem State.memOk.wakeFinish {cl pat : Nat} (h : s.memOk) : (s.wakeFinish cl pat).memOk := .setCur (.modCluster h)

theorem State.memOk.wakeGo {cl pat : Nat} (h : s.memOk) : (s.wakeGo cl pat).memOk :=
  .ite (.modCluster (.clRefuse h)) (.ite (.wakeFinish h) (.modCluster h))

theorem State.memOk.clWakeWrite {cl : Nat} {v : Word} {by_ : Option Nat} (h : s.memOk) : (s.clWakeWrite cl v by_).memOk := by
  refine .ite h ?_
  dsimp only
  split
  · exact .modCluster h
  · exact .modCluster h
  · exact .wakeGo h

theorem Acc.Keeps.offReady {cl : Nat} : Acc.Keeps (fun _ => True) (s.offReady cl) := .bind .flushReady <| fun _ _ => .l2LeaveReady

theorem State.memOk.enterOff {cl : Nat} (h : s.memOk) : (s.enterOff cl).memOk := by
  unfold State.enterOff
  exact .modCluster (.clearRange (.foldl (.devStore (.l2Leave (.foldl h fun _ _ h => .modCore (.writeBackAll h)))) fun _ _ h => .clearRange h))

theorem State.memOk.railDown {cl : Nat} (h : s.memOk) : (s.railDown cl).memOk := by
  unfold State.railDown
  dsimp only
  split
  · refine .ite h ?_
    split
    · exact .wakeGo (.modCluster h)
    · exact .modCluster h
  · split
    · next heq => exact .stall h (Acc.Keeps.of_error .offReady heq)
    · split
      · exact .wakeGo (.modCluster (.enterOff h))
      · exact .modCluster (.enterOff h)
  · exact h

theorem Acc.Keeps.readRetention {cl : Nat} (h : s.memOk) : Acc.Keeps State.memOk (s.readRetention cl) :=
  .bind .awake <| fun _ _ => .ok (.restoreRetention (.foldl h (fun _ _ h => .touch h)))

theorem State.memOk.railUp {cl : Nat} (h : s.memOk) : (s.railUp cl).memOk := by
  unfold State.railUp
  dsimp only
  split
  · refine .ite h ?_
    split
    · next heq => exact .wakeFinish (Acc.Keeps.of_ok (.ite (.readRetention h) (.ok h)) heq)
    · next heq => exact .stall h (Acc.Keeps.of_error (.ite (.readRetention h) (.ok h)) heq)
  · exact h

theorem State.memOk.clusterWrite {cl off : Nat} {v : Word} {by_ : Option Nat} (h : s.memOk) : (s.clusterWrite cl off v by_).memOk :=
  .ite (.modCluster h) (.ite (.modCluster h) (.ite (.clSwallowWrite h) (.ite (.clRailWrite h) (.ite (.clWakeWrite h) (.ite (.modCluster h) (.ite
    (.modCluster h) (.ite (.bpcWrite h) (.ite (.modCluster h) (.ite (.modCluster h) h)))))))))

theorem State.memOk.thermalStop {r : Nat} (h : s.memOk) : (s.thermalStop r).memOk :=
  .foldl (.foldl h (fun _ _ h => .foldl h (fun _ _ h => .haltLine h))) (fun _ _ h => .notePend (.modCluster (.setCur h)))

theorem State.memOk.thermalSample {r : Nat} {xs : List Nat} (h : s.memOk) : (s.thermalSample r xs).memOk := by
  have hevent : ∀ (c : Bool) x, (if c then (s.setReticle r x).rmcEvent r else s.setReticle r x).memOk :=
    fun _ _ => .ite (.rmcEvent (.setReticle h)) (.setReticle h)
  unfold State.thermalSample
  dsimp only
  split
  · exact .ite (.thermalStop (hevent _ _)) (hevent _ _)
  · exact .foldl (.ite (.thermalStop (hevent _ _)) (hevent _ _)) fun _ _ h => .notePend h

theorem State.memOk.thcfgWrite {v : Word} (h : s.memOk) : (s.thcfgWrite v).memOk := .ite (.modMod h) h

theorem State.memOk.armBallast {q : Plot} {t : Nat} (h : s.memOk) : (s.armBallast q t).memOk := .foldl h (fun _ _ h => .modCluster h)

theorem State.memOk.endBallast {q : Plot} {started : Bool} (h : s.memOk) : (s.endBallast q started).memOk := .foldl h (fun _ _ h => .modCluster h)

theorem State.memOk.fallBallast {q : Plot} (h : s.memOk) : (s.fallBallast q).memOk := .foldl h (fun _ _ h => .modCluster h)

theorem State.memOk.chargeEnergy {ctx : Option Nat} {nj : Nat} (h : s.memOk) : (s.chargeEnergy ctx nj).memOk := by
  unfold State.chargeEnergy
  split
  · exact .modMod h
  · exact .modMod h

/-! ## The functions of Machine/Plots -/

theorem State.memOk.modFurrowEnd {p : Nat} {q : Plot} {f : Furrow} {g : Plot → Plot} (h : s.memOk) : (s.modFurrowEnd p q f g).memOk :=
  .ite (.modPart h) (.modPlot h)

theorem Acc.Keeps.unitHome {c : Nat} {x : Sluice} {k o : Nat} : Acc.Keeps (fun _ => True) (s.unitHome c x k o) := .inBanks

theorem State.memOk.bankTaken {k a : Nat} (h : s.memOk) : (s.bankTaken k a).memOk := by
  unfold State.bankTaken
  split
  · exact .modBank h
  · exact h

theorem State.memOk.putUnitWord {k sl u i data : Nat} (h : s.memOk) : (s.putUnitWord k sl u i data).memOk := by
  unfold State.putUnitWord
  split
  · exact .touched (.homeWrite (.bankTaken h))
  · exact h

theorem State.memOk.displace {c sl lo n : Nat} (h : s.memOk) : (s.displace c sl lo n).memOk := .ite (.foldl h (fun _ _ h => .modHg h)) h

theorem State.memOk.advanceP {c sl n : Nat} (h : s.memOk) : (s.advanceP c sl n).memOk := .ite h (.latchCore (.displace (.modCore h)))

theorem State.memOk.advanceC {c sl n : Nat} (h : s.memOk) : (s.advanceC c sl n).memOk := .ite h (.latchCore (.modCore h))

theorem State.memOk.commitDrain {k rcMark rc : Nat} {counts : List Nat} (h : s.memOk) : (s.commitDrain k rcMark rc counts).memOk := .modHg h

theorem State.memOk.mendUnits {k : Nat} (h : s.memOk) : (s.mendUnits k).memOk := by
  refine .foldl h (fun _ _ h => .ite h (.foldl h (fun _ _ h => ?_)))
  split
  · exact .putUnitWord h
  · exact h

theorem State.memOk.modCells {q : Plot} {f : Nat → Nat → Cell → Cell} (h : s.memOk) : (s.modCells q f).memOk := .foldl h (fun _ _ h => .modCell h)

theorem State.memOk.modBound {q : Plot} {f : Hg → Hg} (h : s.memOk) : (s.modBound q f).memOk := .foldl h (fun _ _ h => .modHg h)

theorem State.memOk.commitMark {p id : Nat} {q : Plot} (h : s.memOk) : (s.commitMark p id q).memOk := by
  unfold State.commitMark
  split
  · exact h
  · exact .ite (.fallBallast (.modPlot (.foldl (.modBound (.modHg (.foldl (.foldl (.modCells h) (fun _ _ h => .commitDrain h)) (fun _ _ h => .ite
      (.modHg h) h)))) (fun _ _ h => .modCell h)))) (.modPlot (.foldl (.modBound (.modHg (.foldl (.foldl (.modCells h) (fun _ _ h => .commitDrain
        h)) (fun _ _ h => .ite (.modHg h) h)))) (fun _ _ h => .modCell h)))

theorem State.memOk.commitDue {p id n : Nat} (h : s.memOk) : (s.commitDue p id n).memOk := by
  induction n generalizing s with
  | zero => exact h
  | succ n ih =>
    unfold State.commitDue
    split
    · split
      · exact .ite (ih (.commitMark h)) h
      · exact h
    · exact h

theorem State.memOk.restart {p id : Nat} {hold : Bool} (h : s.memOk) : (s.restart p id hold).memOk := by
  unfold State.restart
  dsimp only
  split
  · exact .commitDue h
  · exact .foldl (.foldl (.modPlot (.modCells (.commitDue h))) (fun _ _ h => .modFurrowEnd h)) (fun _ _ h => .modHg (.ite (.mendUnits h) h))

theorem State.memOk.noteTiming {p id : Nat} (h : s.memOk) : (s.noteTiming p id).memOk := by
  unfold State.noteTiming
  dsimp only
  split
  · exact .ite (.ite (.record (.commitDue h)) (.haltLine (.record (.commitDue h)))) h
  · exact h

theorem State.memOk.stopNow {p id : Nat} (h : s.memOk) : (s.stopNow p id).memOk := by
  unfold State.stopNow
  split
  · exact .ite (.fallBallast (.modBound (.modPlot (.restart (.noteTiming h))))) h
  · exact h

theorem State.memOk.idleCell {key : Nat} (h : s.memOk) : (s.idleCell key).memOk := .modCell h

theorem State.memOk.unconfigure {p id : Nat} (h : s.memOk) : (s.unconfigure p id).memOk := by
  unfold State.unconfigure
  split
  · exact h
  · exact .foldl (.modPart (.modBound h)) (fun _ _ h => .idleCell h)

theorem Acc.Keeps.windowOk {p id off n : Nat} {store : Bool} : Acc.Keeps (fun _ => True) (s.windowOk p id off n store) := by
  unfold State.windowOk
  split
  · exact .flt
  · exact .bind .chk <| fun _ _ => .chk

/-! ## The functions of Machine/Health -/

theorem State.memOk.writeEntry {c : Nat} (h : s.memOk) : (s.writeEntry c).memOk := .devStore h

theorem State.memOk.writeHeader {gen : Nat} (h : s.memOk) : (s.writeHeader gen).memOk := .devStore h

theorem State.memOk.writeImage (h : s.memOk) : (s.writeImage).memOk := .foldl (.writeHeader h) (fun _ _ h => .writeEntry h)

theorem State.memOk.advanceMap {c : Nat} (h : s.memOk) : (s.advanceMap c).memOk := .modMod (.advancePlace (.writeHeader (.writeEntry h)))

theorem State.memOk.evictPlots {c : Nat} {bad : Nat → Bool} (h : s.memOk) : (s.evictPlots c bad).memOk :=
  .foldl h (fun _ _ h => .haltLine (.record (.unconfigure h)))

theorem State.memOk.blankCore {c : Nat} (h : s.memOk) : (s.blankCore c).memOk := .clearRange (.clearRange h)

theorem State.memOk.dropUnits {c : Nat} (h : s.memOk) : (s.dropUnits c).memOk := .blankCore h

theorem State.memOk.closeRoutes {c : Nat} (h : s.memOk) : (s.closeRoutes c).memOk := by
  refine .foldl h (fun _ _ h => ?_)
  split
  · exact .modCore h
  · exact h

theorem State.memOk.beginRetire {c : Nat} (h : s.memOk) : (s.beginRetire c).memOk := .modMod (.closeRoutes (.dropUnits (.evictPlots h)))

theorem State.memOk.dropBeyond {cl bound : Nat} (h : s.memOk) : (s.dropBeyond cl bound).memOk := .modCluster (.clearRange h)

theorem State.memOk.undefineCluster {cl : Nat} (h : s.memOk) : (s.undefineCluster cl).memOk := .foldl h (fun _ _ h => .undefine h)

theorem State.memOk.recount {c : Nat} (h : s.memOk) : (s.recount c).memOk := h

theorem State.memOk.dropTokens {c : Nat} (h : s.memOk) : (s.dropTokens c).memOk := h

theorem State.memOk.endRetire {c : Nat} (h : s.memOk) : (s.endRetire c).memOk :=
  .modMod (.advanceMap (.dropTokens (.modMod (.recount (.undefineCluster (.modMod (.dropBeyond h)))))))

theorem State.memOk.cellBad {c cell : Nat} (h : s.memOk) : (s.cellBad c cell).memOk := .advanceMap (.idleCell (.modMod (.evictPlots h)))

theorem State.memOk.beginTest {c : Nat} (h : s.memOk) : (s.beginTest c).memOk := .writeEntry (.modMod (.modCore (.writeBackAll h)))

theorem State.memOk.endTest {result : Nat} (h : s.memOk) : (s.endTest result).memOk := .writeEntry (.modMod (.blankCore h))

theorem State.memOk.retcmdWrite {v : Word} (h : s.memOk) : (s.retcmdWrite v).memOk := by
  refine .ite h (.ite (.modMod h) ?_)
  dsimp only
  split
  · exact .modMod h
  · refine .modMod ?_
    split
    · exact .beginTest h
    · exact .beginRetire h
    · exact .cellBad h

theorem State.memOk.eccLog {unc : Bool} {a : Nat} (h : s.memOk) : (s.eccLog unc a).memOk := by
  unfold State.eccLog
  split
  · exact .ite h (.modMod h)
  · exact h

theorem State.memOk.poisonWord {a : Nat} (h : s.memOk) : (s.poisonWord a).memOk := .modMod (.eccLog h)

theorem State.memOk.eccError {unc : Bool} {a : Nat} (h : s.memOk) : (s.eccError unc a).memOk := .ite h (.ite (.poisonWord h) (.eccLog h))

theorem Outcome.MemOk.execPatrolScrub (h : s.memOk) : Outcome.MemOk (execPatrolScrub s) := by
  refine .next ?_
  split
  · refine .ite h ?_
    dsimp only
    split
    · exact .touchBank h
    · exact .eccLog (.touchBank h)
    · exact .poisonWord (.touchBank h)
  · exact h

/-! ## The functions of Machine/RegModule -/

theorem State.memOk.semRead {k : Nat} {a : Agent} (h : s.memOk) : (s.semRead k a).1.memOk := by
  unfold State.semRead
  dsimp only
  split
  · exact .iteFst (.noteTurn h) (.modMod (.noteTurn h))
  · exact .noteTurn h

theorem State.memOk.semWrite {k : Nat} {a : Agent} {v : Word} (h : s.memOk) : (s.semWrite k a v).memOk := .ite (.modMod h) h

theorem State.memOk.ctxWrite {k w : Nat} {v : Word} (h : s.memOk) : (s.ctxWrite k w v).memOk :=
  .ite h (.ite (.setCtx h) (.ite (.setCtx h) (.setCtx h)))

theorem State.memOk.moduleRead {off : Nat} {a : Agent} (h : s.memOk) : (s.moduleRead off a).1.memOk :=
  .iteFst h (.iteFst h (.iteFst h (.iteFst h (.iteFst h (.iteFst h (.iteFst h (.iteFst h (.iteFst h (.iteFst (.semRead h) (.iteFst h (.iteFst h
    (.iteFst h (.iteFst h (.iteFst h (.iteFst h h)))))))))))))))

theorem State.memOk.moduleWrite {off : Nat} {a : Agent} {v : Word} (h : s.memOk) : (s.moduleWrite off a v).memOk :=
  .ite h (.ite (.xinvWrite h) (.ite (.modMod h) (.ite (.retcmdWrite h) (.ite (.modMod h) (.ite (.modMod h) (.ite (.modMod h) (.ite (.semWrite h)
    (.ite (.thcfgWrite h) (.ite (.ctxWrite h) (.ite (.modMod h) (.ite (.modMod h) h)))))))))))

theorem Acc.Keeps.taskHome {c : Nat} {p : Word} : Acc.Keeps (fun _ => True) (s.taskHome c p) := by
  refine .bind .chk <| fun _ _ => .bind .chk <| fun _ _ => ?_
  split
  · exact .flt
  · exact .bind .classOk <| fun _ _ => .pass

theorem Acc.Keeps.tasksReady {c : Nat} : Acc.Keeps (fun _ => True) (s.tasksReady c) := .bind (.forM (fun _ => .restored)) <| fun _ _ => .awake

theorem State.memOk.copyTasks {c : Nat} (h : s.memOk) : (s.copyTasks c).memOk := .modCore (.foldl h (fun _ _ h => .touchBank h))

theorem Acc.Keeps.copyTasksNow {c : Nat} (h : s.memOk) : Acc.Keeps State.memOk (s.copyTasksNow c) :=
  .bind .tasksReady <| fun _ _ => .ok (.copyTasks h)

theorem Acc.Keeps.tskctlWrite {c : Nat} {v : Word} (h : s.memOk) : Acc.Keeps State.memOk (s.tskctlWrite c v) := .copyTasksNow (.modCore h)

theorem Acc.Keeps.ttbaseWrite {c : Nat} {v : Word} (h : s.memOk) : Acc.Keeps State.memOk (s.ttbaseWrite c v) :=
  .bind .chk <| fun _ _ => .copyTasksNow (.modCore h)

theorem Acc.Keeps.roleWrite {c which : Nat} {v : Word} (h : s.memOk) : Acc.Keeps State.memOk (s.roleWrite c which v) :=
  .bind .chk <| fun _ _ => .ok (.modCore h)

theorem State.memOk.setRoles {c : Nat} {r0 r1 : Word} (h : s.memOk) : (s.setRoles c r0 r1).memOk :=
  .ite h (.modCore (.foldl (.foldl h (fun _ _ h => .l1Leave h)) (fun _ _ h => .clearRange h)))

theorem State.memOk.roleBoundary {c : Nat} {cfg : Option (Word × Word)} (h : s.memOk) : (s.roleBoundary c cfg).memOk := by
  refine .setRoles (.modCore ?_)
  split
  · exact .setRoles h
  · exact h

theorem State.memOk.coreRead {c off : Nat} (h : s.memOk) : (s.coreRead c off).1.memOk :=
  .iteFst h (.iteFst h (.iteFst h (.iteFst h (.iteFst h (.iteFst h (.iteFst (.kmRead h) (.iteFst h h)))))))

theorem Acc.Keeps.coreWrite {c off : Nat} {v : Word} (h : s.memOk) : Acc.Keeps State.memOk (s.coreWrite c off v) :=
  .ite (.roleWrite h) (.ite (.roleWrite h) (.ite (.tskctlWrite h) (.ite (.ttbaseWrite h) (.ite (.ok (.ite (.modCore h) h)) (.ok h)))))

theorem State.memOk.routeRefused {c cls e reason : Nat} (h : s.memOk) : (s.routeRefused c cls e reason).memOk := .modCore h

theorem State.memOk.pinOuts {c : Nat} (h : s.memOk) : (s.pinOuts c).memOk := .modMod h

theorem State.memOk.routeWrite {c cls e : Nat} {v : Word} (h : s.memOk) : (s.routeWrite c cls e v).memOk := by
  refine .ite (.modCore (.pinOuts h)) ?_
  split
  · exact .routeRefused h
  · exact .modCore (.pinOuts h)

theorem State.memOk.routerWrite {c off : Nat} {v : Word} (h : s.memOk) : (s.routerWrite c off v).memOk := by
  refine .ite (.ite (.modCore h) h) ?_
  split
  · exact .routeWrite h
  · exact h

/-! ## The functions of Machine/Reg6 -/

theorem State.memOk.doorbell {r : Nat} (h : s.memOk) : (s.doorbell r).memOk := .ite (.modHg (.modReticle h)) (.ite (.modHg h) (.rmcEvent h))

theorem State.memOk.rmcWrite {r off : Nat} {v : Word} (h : s.memOk) : (s.rmcWrite r off v).memOk := .ite (.doorbell h) (.ite (.modReticle h) h)

theorem State.memOk.waferHalt {origin : Nat} (h : s.memOk) : (s.waferHalt origin).memOk :=
  .ite (.ite (.modMod h) h) (.ite (.foldl (.foldl (.modMod h) (fun _ _ h => .ite (.haltLine h) h)) (fun _ _ h => .modHg h)) (.foldl (.modMod h)
    (fun _ _ h => .ite (.haltLine h) h)))

theorem State.memOk.resumeAll (h : s.memOk) : (s.resumeAll).memOk :=
  .ite (.modMod (.foldl (.foldl h (fun _ _ h => .ite (.resumePart h) h)) (fun _ _ h => .ite h (.modHg h)))) h

theorem State.memOk.dbgctlWrite {v : Word} (h : s.memOk) : (s.dbgctlWrite v).memOk :=
  .ite (.waferHalt (.ite (.resumeAll (.modMod h)) (.modMod h))) (.ite (.resumeAll (.modMod h)) (.modMod h))

theorem State.memOk.reg6Write {x : Nat} {v : Word} (h : s.memOk) : (s.reg6Write x v).memOk := by
  unfold State.reg6Write
  dsimp only
  split
  · exact .ite (.modMod h) h
  · exact .ite (.modMod h) h
  · exact .ite (.rmcWrite h) h
  · exact .ite (.modMod h) h
  · exact .ite (.modMod h) h
  · exact .ite (.modMod h) h
  · exact .ite (.dbgctlWrite h) h
  · exact .routerWrite h
  · exact .ite (.modMod h) h
  · exact h

/-! ## The functions of Machine/Mgmt -/

theorem Acc.Keeps.mgmtShape {x n : Nat} {kind : Machine.Kind} : Acc.Keeps (fun _ => True) (s.mgmtShape x n kind) :=
  .bind .chk <| fun _ _ => .bind .chk <| fun _ _ => .bind .chk <| fun _ _ => .bind .chk <| fun _ _ => .bind .chk <| fun _ _ => .bind .chk <|
    fun _ _ => .chk

theorem Acc.Keeps.mgmtCrossing {w x : Nat} : Acc.Keeps (fun _ => True) (s.mgmtCrossing w x) := by
  have hdoor : ∀ (door : Option Nat), Acc.Keeps (fun _ => True)
      (match door with | some d => if s.running d then .ok () else .error (.wait (.knock d)) | none => .ok () : Acc Unit) := by
    intro door
    split
    · exact .ite .pass .wait
    · exact .pass
  unfold State.mgmtCrossing
  dsimp only
  split
  · split
    · exact .pass
    · exact .bind .leaving fun _ _ => hdoor _
  · exact hdoor _

theorem Acc.Keeps.semTurn {a : Agent} {x : Nat} {kind : Machine.Kind} : Acc.Keeps (fun _ => True) (s.semTurn a x kind) := by
  unfold State.semTurn
  split
  · exact .waitFor
  · exact .pass
  · exact .pass
  · exact .pass
  · exact .pass

theorem Acc.Keeps.mgmtTarget {a : Agent} {w : Nat} {p : Word} {n : Nat} {kind : Machine.Kind} :
    Acc.Keeps (fun _ => True) (s.mgmtTarget a w p n kind) := by
  refine .bind .mgmtShape <| fun _ _ => .bind .chk <| fun _ _ => .bind .mgmtCrossing <| fun _ _ => .bind .semTurn <| fun _ _ => ?_
  dsimp only
  split
  · exact .bind .chk <| fun _ _ => .bind .restored <| fun _ _ => .bind .bankReady <| fun _ _ => .pass
  · exact .bind .dramReady <| fun _ _ => .pass
  · exact .pass

theorem State.memOk.regRead {a : Agent} {x : Nat} (h : s.memOk) : (s.regRead a x).1.memOk := by
  unfold State.regRead
  split
  · exact .moduleRead h
  · exact h
  · exact h
  · exact .coreRead h
  · exact h
  · exact h

theorem Acc.Keeps.regWrite {a : Agent} {by_ : Option Nat} {x : Nat} {v : Word} (h : s.memOk) : Acc.Keeps State.memOk (s.regWrite a by_ x v) := by
  unfold State.regWrite
  split
  · exact .ok (.moduleWrite h)
  · exact .ite .faultBind (.ok (.partWrite h))
  · exact .ok (.clusterWrite h)
  · exact .coreWrite h
  · exact .ok (.reg6Write h)
  · exact .ok h

theorem State.memOk.mgmtBypass {w a n : Nat} (h : s.memOk) : (s.mgmtBypass w a n).memOk := .ite h (.l1Bypass h)

theorem Acc.Keeps.mgmtRead {a : Agent} {w : Nat} {p : Word} {n : Nat} {kind : Machine.Kind} (h : s.memOk) :
    Acc.Keeps (fun x => x.1.memOk) (s.mgmtRead a w p n kind) := by
  refine .bind .mgmtTarget <| fun _ _ => ?_
  dsimp only
  split
  · exact .ok (.regRead h)
  · exact .bind .homeRead <| fun _ _ => .ok (.touchAs (.mgmtBypass h))

theorem Acc.Keeps.mgmtWrite {a : Agent} {w : Nat} {p : Word} {n v : Nat} (h : s.memOk) : Acc.Keeps State.memOk (s.mgmtWrite a w p n v) := by
  refine .bind .mgmtShape <| fun _ _ => ?_
  split
  · exact .ok (.routeRefused h)
  · refine .bind .mgmtTarget <| fun _ _ => ?_
    split
    · exact .regWrite h
    · exact .ok (.touchAs (.homeWrite (.mgmtBypass h)))

/-! ## The functions of Machine/Access -/

theorem Acc.Keeps.remoteCall {w m kind va n data : Nat} (h : s.memOk) : Acc.Keeps (fun x => x.1.memOk) (s.remoteCall w m kind va n data) := by
  unfold State.remoteCall
  dsimp only
  split
  · split
    · exact .ok (.modMod h)
    · exact .wait
  · exact .wait

theorem State.memOk.noteWindow {w sent : Nat} (h : s.memOk) : (s.noteWindow w sent).memOk := .modHg h

theorem Acc.Keeps.remoteStore {w m va n v : Nat} (h : s.memOk) : Acc.Keeps State.memOk (s.remoteStore w m va n v) := by
  refine .ite (.ok (.noteWindow (.modMod h))) ?_
  split
  · exact .ite (.ok (.noteWindow (.modMod h))) .wait
  · exact .bind (.remoteCall h) <| fun _ h => .ok (.noteWindow h)

theorem Acc.Keeps.release {k : Nat} {sc : Scope} (h : s.memOk) : Acc.Keeps State.memOk (s.release k sc) :=
  .bind .waitFor <| fun _ _ => .ite (.bind .flushReady <| fun _ _ => .ok (.writeBackAll h)) (.ok h)

theorem State.memOk.acquire {k : Nat} {sc : Scope} (h : s.memOk) : (s.acquire k sc).memOk := .ite (.selfInval h) h

theorem Acc.Keeps.windowCell {w p id row col off n : Nat} {store : Bool} : Acc.Keeps (fun _ => True) (s.windowCell w p id row col off n store) := by
  refine .bind .windowOk <| fun _ _ => ?_
  dsimp only
  split
  · exact .bind .crossing <| fun _ _ => .pass
  · exact .flt

theorem Acc.Keeps.loadVia {w : Nat} {p : Word} {n : Nat} {wide own : Bool} (h : s.memOk) :
    Acc.Keeps (fun x => x.1.memOk) (s.loadVia w p n wide own) := by
  refine .bind .resolve <| fun _ _ => ?_
  dsimp only
  split
  · exact .bind .homeReady <| fun _ _ => .bind (.turnAt h) <| fun _ h => .loadAt h
  · exact .bind .windowCell <| fun _ _ => .bind .chk <| fun _ _ => .ok h
  · exact .bind (.remoteCall h) <| fun _ h => .ok h
  · exact .mgmtRead h

theorem Acc.Keeps.storeVia {w : Nat} {p : Word} {n v : Nat} {wide own : Bool} (h : s.memOk) : Acc.Keeps State.memOk (s.storeVia w p n v wide own) :=
  by
  refine .bind .resolve <| fun _ _ => ?_
  split
  · exact .bind .homeReady <| fun _ _ => .bind (.turnAt h) <| fun _ h => .ok (.storeAt h)
  · exact .bind .windowCell <| fun _ _ => .ok (.unpoison (.modCell h))
  · exact .remoteStore h
  · exact .mgmtWrite h

theorem Acc.Keeps.swapAt {w sp a n : Nat} {f : Nat → Nat} (h : s.memOk) : Acc.Keeps (fun x => x.1.memOk) (s.swapAt w sp a n f) :=
  .bind .homeRead <| fun _ _ => .ok (.touchAs (.ite (.ite h (.l1Bypass h)) (.homeWrite (.ite h (.l1Bypass h)))))

theorem Acc.Keeps.amoVia {w : Nat} {p : Word} {n : Nat} {f : Nat → Nat} {code data : Nat} (h : s.memOk) :
    Acc.Keeps (fun x => x.1.memOk) (s.amoVia w p n f code data) := by
  refine .bind .resolve <| fun _ _ => ?_
  dsimp only
  split
  · exact .bind .homeReady <| fun _ _ => .bind (.turnAt h) <| fun _ h => .swapAt h
  · exact .bind (.remoteCall h) <| fun _ h => .ok (.noteWindow h)
  · refine .bind .mgmtTarget <| fun _ _ => ?_
    split
    · exact .swapAt h
    · exact .flt
  · exact .flt

/-! ## The functions of Machine/LdSt -/

theorem Acc.Keeps.hgHold {j : Hg} {x : Held} : Acc.Keeps (fun _ => True) (j.hold x) := .ite .flt .pass

theorem Outcome.MemOk.holdable {g : PReg} {i : Instr} {o : Operands} {checks : Acc Unit} {perform : State → Acc State} {after : State → State}
    (h : s.memOk) (hc : Acc.Keeps (fun _ => True) checks) (hp : ∀ t, t.memOk → Acc.Keeps State.memOk (perform t))
    (ha : ∀ t, t.memOk → (after t).memOk) : Outcome.MemOk (s.holdable g i o checks perform after) :=
  .plain h <| .bind hc fun _ _ => .ite (.bind .hgHold fun _ _ => .done (ha _ (.setMe h))) (.bind (hp _ h) fun _ h => .done (ha _ h))

theorem Acc.Keeps.loadEa {ea : Word} {n : Nat} {sc : Scope} {acq : Bool} (h : s.memOk) : Acc.Keeps (fun x => x.1.memOk) (s.loadEa ea n sc acq) :=
  .bind (.loadVia h) <| fun _ h => .ok (.ite (.acquire h) h)

theorem Acc.Keeps.storeEa {ea : Word} {n v : Nat} {sc : Scope} {rel : Bool} (h : s.memOk) : Acc.Keeps State.memOk (s.storeEa ea n v sc rel) :=
  .ite (.bind (.release h) <| fun _ h => .keeping h (.storeVia h)) (.okBind (.keeping h (.storeVia h)))

theorem Acc.Keeps.performSt {x : Operands} {o : BitVec 8} {z : Size} {sc : Scope} {m : Bool} (h : s.memOk) :
    Acc.Keeps State.memOk (s.performSt x o z sc m) := .storeEa h

theorem Acc.Keeps.performStv {x : Operands} {o : BitVec 8} {z : VSize} {sc : Scope} {m : Bool} (h : s.memOk) :
    Acc.Keeps State.memOk (s.performStv x o z sc m) := .storeEa h

theorem Outcome.MemOk.execSt {d a : SReg} {o : BitVec 8} {z : Size} {sc : Scope} {m : Bool} (h : s.memOk) : Outcome.MemOk (execSt d a o z sc m s) :=
  .holdable h .pass (fun _ h => .performSt h) (fun _ h => h)

theorem Outcome.MemOk.execStv {d : VReg} {a : SReg} {o : BitVec 8} {z : VSize} {sc : Scope} {m : Bool} (h : s.memOk) :
    Outcome.MemOk (execStv d a o z sc m s) := .holdable h .pass (fun _ h => .performStv h) (fun _ h => h)

/-! ## The functions of Machine/Amo -/

theorem Outcome.MemOk.amo {d a : SReg} {sc : Scope} {r z : Bool} {code data : Nat} {f : Nat → Nat} (h : s.memOk) :
    Outcome.MemOk (s.amo d a sc r z code data f) := .unforked h (.ite (.bind (.release h) <| fun _ h => .bind (.keeping h (.amoVia h)) <| fun _ h
      => .done (.setS (.ite (.acquire h) h))) (.okBind (.bind (.keeping h (.amoVia h)) <| fun _ h => .done (.setS (.ite (.acquire h) h)))))

/-! ## The functions of Machine/Branch -/

theorem Acc.Keeps.jumpTo {t : Word} (h : s.memOk) : Acc.Keeps (fun x => x.1.memOk) (jumpTo s t) := .ite (.ok h) .flt

/-! ## The functions of Machine/Image -/

theorem Acc.Keeps.readChunks {w : Nat} {l : List (Word × Nat)} (h : s.memOk) : Acc.Keeps (fun x => x.1.memOk) (s.readChunks w l) := by
  induction l generalizing s with
  | nil => exact h
  | cons e l ih => exact .bind (.loadVia h) fun _ h => .bind (ih h) fun _ h => .ok h

theorem State.memOk.credited {w : Nat} (h : s.memOk) : (s.credited w).memOk := h

theorem Acc.Keeps.blockReady {w : Nat} {l : List (Word × Nat)} : Acc.Keeps (fun _ => True) (s.blockReady w l) := by
  refine .ite .pass ?_
  dsimp only
  split
  · exact .forM fun _ => .budgetReady
  · exact .pass
  · exact .pass
  · exact .wait

theorem Acc.Keeps.readRec {w : Nat} {p : Word} {n : Nat} (h : s.memOk) : Acc.Keeps (fun x => x.1.memOk) (s.readRec w p n) := by
  refine .bind .blockReady fun _ _ => ?_
  split
  · exact .wait
  · exact .readChunks h

theorem Acc.Keeps.readTable {w : Nat} {p : Word} {n size : Nat} (h : s.memOk) : Acc.Keeps (fun x => x.1.memOk) (s.readTable w p n size) :=
  .ite (.ok h) (.bind (.readRec h) <| fun _ h => .ok h)

theorem Acc.Keeps.refuse {α : Type} {P : α → Prop} {r : Refused} : Acc.Keeps P (refuse r) := trivial

theorem Acc.Keeps.imageEcc {α : Type} {P : α → Prop} {plot cell : Nat} {r : Acc α} (hr : Acc.Keeps P r) :
    Acc.Keeps P (imageEcc plot cell r) := by
  unfold Machine.imageEcc
  split
  · split
    · exact .fault
    · exact .fault
  · exact hr

theorem Acc.Keeps.readSlots {w : Nat} {im : Image} {id : Nat} {q : Plot} (h : s.memOk) : Acc.Keeps (fun x => x.1.memOk) (s.readSlots w im id q) :=
  by
  refine .foldlMPair h (fun _ _ h => .bind (.imageEcc (.readTable h)) <| fun _ h => ?_)
  dsimp only
  split
  · exact .refuse
  · exact .ok h

theorem Acc.Keeps.readImage {w : Nat} {img : Word} (h : s.memOk) : Acc.Keeps (fun x => x.1.memOk) (s.readImage w img) := by
  refine .bind (.imageEcc (.readRec h)) <| fun _ h => .ite .faultBind (.bind (.imageEcc (.readTable h)) <| fun _ h => .bind (.imageEcc (.readTable
    h)) <| fun _ h => .bind (.imageEcc (.readTable h)) <| fun _ h => ?_)
  dsimp only
  split
  · exact .refuse
  · exact .ite (.ok h) .refuse

theorem Acc.Keeps.placeAll {p w : Nat} {l : List (Nat × Plot)} (h : s.memOk) : Acc.Keeps (fun x => x.1.memOk) (s.placeAll p w l) :=
  .foldlMPair h (fun _ _ h => .ite (.ok h) (.bind (.imageEcc (.readRec h)) <| fun _ h => .ok h))

theorem State.memOk.stageSlots {q : Plot} {l : List ((Nat × Nat) × List Nat)} (h : s.memOk) : (s.stageSlots q l).memOk :=
  .foldl h (fun _ _ h => .foldl h (fun _ _ h => .modCell h))

theorem Acc.Keeps.readStores {w id : Nat} {q : Plot} (h : s.memOk) : Acc.Keeps (fun x => x.1.memOk) (s.readStores w id q) :=
  .ite (.ok h) (.foldlMPair h (fun _ _ h => .bind (.imageEcc (.readTable h)) <| fun _ h => .ok h))

theorem Acc.Keeps.stage {p w : Nat} {img : Word} {splice : Bool} (h : s.memOk) : Acc.Keeps (fun x => x.1.memOk) (s.stage p w img splice) := by
  refine .bind .waitFor <| fun _ _ => .bind (.readImage h) <| fun _ h => .bind (.placeAll h) <| fun _ h => ?_
  dsimp only
  split
  · exact .refuse
  · refine .bind (.foldlMPair h (fun _ _ h => .bind (.readSlots h) <| fun _ h => .ite .faultBind (.ok h))) <| fun _ h => ?_
    split
    · exact .ite .faultBind (.ok (.foldl h (fun _ _ h => .stageSlots h)))
    · exact .ok (.foldl h (fun _ _ h => .stageSlots h))

/-! ## The functions of Machine/Sync -/

theorem Acc.Keeps.fenceL1 {k : Nat} {sc : Scope} {wb inv : Bool} (h : s.memOk) : Acc.Keeps State.memOk (s.fenceL1 k sc wb inv) :=
  .ite (.ite (.bind .flushReady <| fun _ _ => .ok (.ite (.selfInval (.ite (.writeBackAll h) h)) (.ite (.writeBackAll h) h))) (.ok (.ite (.selfInval
    (.ite (.writeBackAll h) h)) (.ite (.writeBackAll h) h)))) (.ok h)

theorem Acc.Keeps.fullFence {sc : Scope} (h : s.memOk) : Acc.Keeps State.memOk (s.fullFence sc) := .bind .waitFor <| fun _ _ => .fenceL1 h

theorem Outcome.MemOk.execMfence {g : PReg} (h : s.memOk) : Outcome.MemOk (execMfence g s) := by
  refine .unforked h ?_
  split
  · exact .bind .waitFor <| fun _ _ => .done h
  · exact .bind (.fullFence h) <| fun _ h => .done (.setMe h)
  · exact .ite (.ok (.setMe h)) (.bind (.fullFence h) <| fun _ h => .done h)
  · exact .ite (.ok (.setMe h)) (.bind (.fullFence h) <| fun _ h => .done h)
  · exact .ite (.ok (.setMe h)) (.bind (.fullFence h) <| fun _ h => .done h)
  · exact .ite (.ok (.setMe h)) (.bind (.fullFence h) <| fun _ h => .done h)

theorem Acc.Keeps.barRecArrive {r : BarRec} {k : Word} : Acc.Keeps (fun _ => True) (r.arrive k) := .ite .flt .pass

theorem Acc.Keeps.barHome {p : Word} : Acc.Keeps (fun _ => True) (s.barHome p) := by
  refine .bind .chk <| fun _ _ => .bind .chk <| fun _ _ => .bind .resolve <| fun _ _ => ?_
  split
  · exact .pass
  · exact .flt
  · exact .flt
  · exact .flt

theorem Acc.Keeps.barRead {p : Word} : Acc.Keeps (fun _ => True) (s.barRead p) := .bind .barHome <| fun _ _ => .bind .homeRead <| fun _ _ => .pass

theorem State.memOk.barWrite {a x : Nat} (h : s.memOk) : (s.barWrite a x).memOk := .touched (.homeWrite h)

theorem Acc.Keeps.barSlotOk {k : Word} : Acc.Keeps (fun _ => True) (barSlotOk k) := .chk

/-! ## The functions of Machine/Fab -/

theorem State.memOk.isolateLines {q : Plot} (h : s.memOk) : (s.isolateLines q).memOk :=
  .foldl h (fun _ _ h => .foldl h (fun _ _ h => .ite (.modCell h) h))

theorem State.memOk.bindAll {l : Load} (h : s.memOk) : (s.bindAll l).memOk := by
  refine .foldl h (fun _ _ h => ?_)
  split
  · exact .modHg h
  · exact h

theorem State.memOk.discardStaging {p k : Nat} {l : Machine.SMap Plot} (h : s.memOk) : (s.discardStaging p k l).memOk :=
  .foldl h (fun _ _ h => .ite h (.modHg h))

theorem Outcome.MemOk.execCfg {a : SReg} (h : s.memOk) : Outcome.MemOk (execCfg a s) := by
  refine .unforked h ?_
  split
  · exact .bind .waitFor <| fun _ _ => .done h
  · exact .bind (.stage h) <| fun _ h => .ok (.setMe (.discardStaging h))
  · exact .bind (.stage h) <| fun _ h => .ok (.setMe (.discardStaging h))
  · exact .bind (.stage h) <| fun _ h => .ok (.setMe (.discardStaging h))
  · exact .bind (.stage h) <| fun _ h => .ok (.setMe (.discardStaging h))

theorem State.memOk.deconfigure {p : Nat} {ids : List Nat} (h : s.memOk) : (s.deconfigure p ids).memOk :=
  .foldl h (fun _ _ h => .unconfigure (.stopNow h))

theorem State.memOk.loadBoundary {k : Nat} {l : Load} (h : s.memOk) : (s.loadBoundary k l).memOk :=
  .foldl (.foldl h (fun _ _ h => .roleBoundary h)) (fun _ _ h => .copyTasks h)

theorem State.memOk.switchLoad {k p : Nat} {l : Load} (h : s.memOk) : (s.switchLoad k p l).memOk :=
  .bindAll (.loadBoundary (.foldl (.deconfigure h) (fun _ _ h => .setPlot (.isolateLines (.modCells h)))))

theorem Acc.Keeps.cfgSwitch {k p : Nat} {l : Load} (h : s.memOk) : Acc.Keeps State.memOk (s.cfgSwitch k p l) :=
  .bind .waitFor <| fun _ _ => .bind .waitFor <| fun _ _ => .bind (.forM (fun _ => .tasksReady)) <| fun _ _ => .bind (.fenceL1 h) <| fun _ h =>
    .ok (.modHg (.switchLoad h))

theorem Outcome.MemOk.execCfgSwitching (h : s.memOk) : Outcome.MemOk (execCfgSwitching s) := by
  refine .next ?_
  split
  · refine .ite h ?_
    split
    · next heq => exact Acc.Keeps.of_ok (.cfgSwitch h) heq
    · next heq => exact .stall h (Acc.Keeps.of_error (.cfgSwitch h) heq)
  · exact h

theorem State.memOk.putStores {l : Machine.SMap (Machine.SMap Nat)} (h : s.memOk) : (s.putStores l).memOk :=
  .foldl h (fun _ _ h => .unpoison (.modCell h))

theorem State.memOk.cfgBackground {k p n : Nat} (h : s.memOk) : (s.cfgBackground k p n).memOk := by
  induction n generalizing s with
  | zero => exact h
  | succ n ih =>
    unfold State.cfgBackground
    dsimp only
    split
    · exact .modHg h
    · refine .ite (ih (.modHg (.modPlot h))) ?_
      split
      · exact ih (.modHg (.modPlot h))
      · split
        · next heq => exact ih (.modHg (.modPlot (.putStores (Acc.Keeps.of_ok (.readStores h) heq))))
        · exact ih (.modHg (.modPlot h))
        · next heq => exact .stall h (Acc.Keeps.of_error (.readStores h) heq)

theorem Acc.Keeps.plotId {x : Word} : Acc.Keeps (fun _ => True) (plotId x) := .bind .chk <| fun _ _ => .pass

theorem State.memOk.startPlot {p id k : Nat} {fm g : Word} (h : s.memOk) : (s.startPlot p id k fm g).memOk := by
  unfold State.startPlot
  split
  · exact h
  · exact .endBallast (.modBound (.modPlot (.modCells h)))

theorem Acc.Keeps.startable {p id : Nat} : Acc.Keeps (fun _ => True) (s.startable p id) := by
  unfold State.startable
  split
  · exact .bind .chk <| fun _ _ => .waitFor
  · exact .flt

theorem Outcome.MemOk.execStopp {a : SReg} (h : s.memOk) : Outcome.MemOk (execStopp a s) := by
  refine .unforked h (.bind .plotId <| fun _ _ => ?_)
  dsimp only
  split
  · exact .flt
  · exact .bind .chk <| fun _ _ => .done (.ite (.setPlot h) h)

/-- The staging of an armed splice, with its weight-store images. -/
theorem Acc.Keeps.stagedLoad {p k : Nat} {img : Word} (h : s.memOk) : Acc.Keeps (fun x => x.1.memOk) (do
    let (t, l) ← s.stage p (waiterOf k 13) img true
    let (t, m) ← l.plots.foldlM (fun (st : State × SMap (SMap Nat)) (e : Nat × Plot) => do
      let (t, y) ← st.1.readStores (waiterOf k 13) e.1 e.2
      .ok (t, y.foldl (fun m z => SMap.set m z.1 z.2) st.2)) (t, [])
    .ok (t, { l with stores := m }) : Acc (State × Load)) :=
  .bind (.stage h) fun _ h => .bind (.foldlMPair h fun _ _ h => .bind (.readStores h) fun _ h => .ok h) fun _ h => .ok h

theorem State.memOk.stageSplice {k : Nat} (h : s.memOk) : (s.stageSplice k).memOk := by
  unfold State.stageSplice
  split
  · exact h
  · refine .ite h ?_
    dsimp only
    split
    · next heq => exact .modHg (.discardStaging (Acc.Keeps.of_ok (.stagedLoad h) heq))
    · exact .modHg h
    · next heq => exact .stall h (Acc.Keeps.of_error (.stagedLoad h) heq)

theorem State.memOk.enterWave {p : Nat} {w : Wave} (h : s.memOk) : (s.enterWave p w).memOk :=
  .foldl (.bindAll (.foldl (.loadBoundary (.putStores h)) (fun _ _ h => .setPlot (.isolateLines h)))) (fun _ _ h => .startPlot h)

theorem State.memOk.enterWaves {p : Nat} (h : s.memOk) : (s.enterWaves p).memOk := by
  refine .foldl h (fun _ _ h => .ite ?_ h)
  split
  · next heq => exact .enterWave (.modPart (Acc.Keeps.of_ok (.fenceL1 h) heq))
  · next heq => exact .stall h (Acc.Keeps.of_error (.fenceL1 h) heq)

theorem State.memOk.placeTokens {p id : Nat} {q : Plot} (h : s.memOk) : (s.placeTokens p id q).memOk := .modPlot (.modBound h)

theorem State.memOk.splice {k p : Nat} {x : Splice} (h : s.memOk) : (s.splice k p x).memOk := by
  refine .enterWaves (.modHg (.modPart (.foldl (.foldl (.foldl (.deconfigure h) (fun _ _ h => .foldl h (fun _ _ h => .ite h (.modCell h))))
    (fun _ _ h => ?_)) (fun _ _ h => .modHg h))))
  split
  · exact .placeTokens h
  · exact h

theorem Outcome.MemOk.execSplice (h : s.memOk) : Outcome.MemOk (execSplice s) := by
  unfold Machine.execSplice
  split
  · exact .ite (.next (.precise (.setMe h))) (.unforked h (.bind .waitFor <| fun _ _ => .done (.splice h)))
  · exact .unforked h .flt

theorem Acc.Keeps.bypmap {a : SReg} {cols : Bool} (h : s.memOk) : Acc.Keeps (fun x => x.1.memOk) (s.bypmap a cols) :=
  .bind (.loadVia h) <| fun _ h => .bind (.storeVia h) <| fun _ h => .done h

theorem Acc.Keeps.idlePlot {p id : Nat} : Acc.Keeps (fun _ => True) (s.idlePlot p id) := by
  unfold State.idlePlot
  split
  · exact .bind .chk <| fun _ _ => .pass
  · exact .flt

/-! ## The functions of Machine/Msg -/

theorem Outcome.MemOk.execQsend {d : VReg} {a b : SReg} {g : PReg} (h : s.memOk) : Outcome.MemOk (execQsend d a b g s) := by
  refine .unforked h (.bind .chk <| fun _ _ => ?_)
  dsimp only
  split
  · exact .flt
  · exact .bind .byLcore <| fun _ _ => .ite (.bind .waitFor <| fun _ _ => .bind (.release h) <| fun _ h => .done (.modMod h)) (.bind .leaving <|
      fun _ _ => .bind .waitFor <| fun _ _ => .bind (.release h) <| fun _ h => .done (.modMod h))

theorem Acc.Keeps.queueOk {x : Word} : Acc.Keeps (fun _ => True) (s.queueOk x) := .bind .chk <| fun _ _ => .chk

theorem Outcome.MemOk.execQrecv {d : VReg} {a b : SReg} {g : PReg} (h : s.memOk) : Outcome.MemOk (execQrecv d a b g s) := by
  refine .unforked h (.bind .queueOk <| fun _ _ => ?_)
  dsimp only
  split
  · exact .wait
  · exact .done (.setS (.setS (.setV (.acquire (.modCore h)))))

theorem Acc.Keeps.storePieces {w : Nat} {p : Word} {k v : Nat} (h : s.memOk) : Acc.Keeps State.memOk (s.storePieces w p k v) := by
  refine .ite (.bind .resolve <| fun _ _ => ?_) (.foldlM h (fun _ _ h => .storeVia h))
  split
  · exact .remoteStore h
  · exact .flt
  · exact .flt
  · exact .flt

theorem Acc.Keeps.armRecord {r : Nat} {ctx : Option Nat} (h : s.memOk) : Acc.Keeps State.memOk (s.armRecord r ctx) :=
  .bind .chk <| fun _ _ => .bind .chk <| fun _ _ => .ok (.modMod (.modLaunch h))

theorem Outcome.MemOk.execBwph {a b : SReg} {g : PReg} (h : s.memOk) : Outcome.MemOk (execBwph a b g s) := by
  refine .unforked h (.bind .chk <| fun _ _ => ?_)
  split
  · exact .done (.declare h)
  · exact .done h

theorem Outcome.MemOk.execBwqry {d a : SReg} {g : PReg} (h : s.memOk) : Outcome.MemOk (execBwqry d a g s) := by
  refine .unforked h (.bind .chk <| fun _ _ => ?_)
  dsimp only
  split
  · exact .done (.setS h)
  · exact .done h

/-! ## The functions of Machine/Coll -/

theorem Acc.Keeps.loadAll {w : Nat} {x : BitVec 256} {f : Fmt} (h : s.memOk) : Acc.Keeps (fun x => x.1.memOk) (s.loadAll w x f) :=
  .bind (.foldlMPair h (fun _ _ h => .bind (.loadVia h) <| fun _ h => .ok h)) <| fun _ h => .ok h

theorem Acc.Keeps.storeAt1 {w : Nat} {f : Fmt} {p : Word} {l : List (Nat × Nat)} (h : s.memOk) : Acc.Keeps State.memOk (s.storeAt1 w f p l) :=
  .ite (.ite (.storeVia h) (.bind (.loadVia h) <| fun _ h => .storeVia h)) (.storeVia h)

theorem Acc.Keeps.storeAll {w : Nat} {x : BitVec 256} {f : Fmt} {vals : List Nat} (h : s.memOk) : Acc.Keeps State.memOk (s.storeAll w x f vals) :=
  .foldlM h (fun _ _ h => .storeAt1 h)

theorem Acc.Keeps.storable {w : Nat} {x : BitVec 256} {f : Fmt} (h : s.memOk) : Acc.Keeps (fun _ => True) (s.storable w x f) :=
  .ite .pass (.bind (.storeAll h) <| fun _ _ => .pass)

theorem Acc.Keeps.collArrive {kind red : Nat} {f : Fmt} {x y : BitVec 256} {a : Word} (h : s.memOk) :
    Acc.Keeps State.memOk (s.collArrive kind red f x y a) := by
  refine .bind .chk <| fun _ _ => ?_
  dsimp only
  split
  · refine .bind .chk <| fun _ _ => .bind .chk <| fun _ _ => .bind .chk <| fun _ _ => .bind .chk <| fun _ _ => .bind .chk <| fun _ _ => .bind .chk <|
      fun _ _ => .bind (.storable h) <| fun _ _ => .bind (.release h) <| fun _ h => .bind (.keeping h (.loadAll h)) <| fun _ h => ?_
    split
    · exact .bind .chk <| fun _ _ => .ok (.modMe (.modPart h))
    · exact .ok (.modMe (.modPart h))
  · exact .flt

theorem State.memOk.collRetire {p key : Nat} {c : Collective} (h : s.memOk) : (s.collRetire p key c).memOk := .acquire (.modMe (.modPart h))

theorem Outcome.MemOk.coll {x y : ShReg} {a : SReg} {kind red : Nat} {f : Fmt} (h : s.memOk) : Outcome.MemOk (s.coll x y a kind red f) := by
  refine .unforked h ?_
  split
  · split
    · exact .ite (.done (.collRetire h)) .wait
    · exact .done (.modMe h)
  · exact .bind (.collArrive h) <| fun _ h => .ok h

theorem Ends.collWrite {p : Nat} {c : Collective} {srcs : List (List Nat)} {l : List CollArrival} (h : s.memOk) :
    Ends (fun x => x.2.MemOk) State.memOk (s.collWrite p c srcs l) := by
  induction l generalizing s with
  | nil => exact h
  | cons a l ih =>
    unfold State.collWrite
    split
    · exact ih h
    · dsimp only
      split
      · next heq => exact ih (Acc.Keeps.of_ok (.storeAll h) heq)
      · next heq => exact Acc.Keeps.of_error (.storeAll h) heq

theorem State.memOk.collComplete {p key : Nat} {outside : List Nat} (h : s.memOk) : (s.collComplete p key outside).memOk := by
  unfold State.collComplete
  split
  · exact h
  · refine .ite h ?_
    dsimp only
    split
    · next heq => exact .modPart (Ends.of_ok (.collWrite h) heq)
    · exact .startWait h
    · exact .startWait h
    · exact .ite h (.trapAt h)

/-! ## The functions of Machine/Slu -/

theorem State.memOk.setSluice {i : SlReg} {x : Sluice} (h : s.memOk) : (s.setSluice i x).memOk := .modCore h

theorem Acc.Keeps.sluiceSet {i : SlReg} : Acc.Keeps (fun _ => True) (s.sluiceSet i) := .bind .chk <| fun _ _ => .pass

theorem State.memOk.lowerClaim {sl n : Nat} (h : s.memOk) : (s.lowerClaim sl n).memOk := by
  unfold State.lowerClaim
  split
  · exact .modCore (.setMe h)
  · exact h
  · exact h

theorem Acc.Keeps.unitAt {c : Nat} {x : Sluice} {n o : Nat} : Acc.Keeps (fun _ => True) (s.unitAt c x n o) := .inBanks

/-! ## The functions of Machine/Engine -/

theorem State.memOk.engineFault {k eng cause : Nat} {a : Word} (h : s.memOk) : (s.engineFault k eng cause a).memOk := by
  unfold State.engineFault
  dsimp only
  split
  · exact .haltLine (.record (.modHg h))
  · exact .modHg h

theorem State.memOk.engineStop {k eng : Nat} {a : Word} {x : Stop} (h : s.memOk) (hx : x.MemOk) : (s.engineStop k eng a x).memOk := by
  cases x with
  | fault c d => exact .engineFault h
  | wait w => exact .stall h hx
  | held t w => exact .stall h hx

theorem Acc.Keeps.loadElem {w : Nat} {x : BitVec 256} {f : Fmt} {n : Nat} (h : s.memOk) : Acc.Keeps (fun x => x.1.memOk) (s.loadElem w x f n) :=
  .bind (.loadVia h) <| fun _ h => .ok h

theorem Acc.Keeps.storeElem {w : Nat} {x : BitVec 256} {f : Fmt} {n v : Nat} (h : s.memOk) : Acc.Keeps State.memOk (s.storeElem w x f n v) :=
  .storeAt1 h

theorem State.memOk.scaleWait {k eng : Nat} {x1 : ScaleLook} (h : s.memOk) : (s.scaleWait k eng x1).memOk := by
  unfold State.scaleWait
  split
  · exact h
  · exact .modHg h
  · exact .engineFault h

theorem Outcome.MemOk.execScaleCacheFill (h : s.memOk) : Outcome.MemOk (execScaleCacheFill s) := by
  refine .next ?_
  split
  · exact h
  · refine .ite h ?_
    dsimp only
    split
    · next heq => exact .modHg (.modHg (Acc.Keeps.of_ok (.loadVia h) heq))
    · exact .engineFault (.modHg h)
    · next heq => exact .stall h (Acc.Keeps.of_error (.loadVia h) heq)

theorem Acc.Keeps.unitRead {w c : Nat} {x : Sluice} {n o m : Nat} (h : s.memOk) : Acc.Keeps (fun x => x.1.memOk) (s.unitRead w c x n o m) :=
  .bind .unitAt <| fun _ _ => .bind (.turnAt h) <| fun _ h => .bind .homeRead <| fun _ _ => .ok (.touch h)

theorem Acc.Keeps.unitWrite {w c : Nat} {x : Sluice} {n o m v : Nat} (h : s.memOk) : Acc.Keeps State.memOk (s.unitWrite w c x n o m v) :=
  .bind .unitAt <| fun _ _ => .bind (.turnAt h) <| fun _ h => .ok (.touch (.homeWrite h))

theorem Acc.Keeps.unitElem {w c : Nat} {x : Sluice} {n : Nat} {f : Fmt} {i : Nat} (h : s.memOk) :
    Acc.Keeps (fun x => x.1.memOk) (s.unitElem w c x n f i) := .bind (.unitRead h) <| fun _ h => .ok h

theorem Acc.Keeps.unitPut {w c : Nat} {x : Sluice} {n : Nat} {f : Fmt} {i v : Nat} (h : s.memOk) :
    Acc.Keeps State.memOk (s.unitPut w c x n f i v) := .ite (.bind (.unitRead h) <| fun _ h => .unitWrite h) (.unitWrite h)

theorem Acc.Keeps.pointersFreeAt {c k eng now : Nat} {l : List PointerUse} (h : s.memOk) :
    Acc.Keeps (fun _ => True) (s.pointersFreeAt c k eng now l) := .ite .pass (.held (.modCore h))

theorem Acc.Keeps.pointersFree {c k eng : Nat} {l : List PointerUse} (h : s.memOk) : Acc.Keeps (fun _ => True) (s.pointersFree c k eng l) :=
  .pointersFreeAt h

theorem State.memOk.takePointersAt {c k eng now : Nat} {l : List PointerUse} (h : s.memOk) : (s.takePointersAt c k eng now l).memOk :=
  .foldl (.modCore h) (fun _ _ h => .ite (.displace h) h)

theorem State.memOk.takePointers {c k eng : Nat} {l : List PointerUse} (h : s.memOk) : (s.takePointers c k eng l).memOk := .takePointersAt h

theorem Acc.Keeps.openUnit {c k eng sl : Nat} {isP : Bool} (h : s.memOk) : Acc.Keeps State.memOk (s.openUnit c k eng sl isP) :=
  .bind (.pointersFree h) <| fun _ _ => .ok (.takePointers h)

theorem State.memOk.engineDone {k : Nat} (h : s.memOk) : (s.engineDone k).memOk := .modHg h

/-! ## The functions of Machine/Strm -/

theorem Acc.Keeps.performShld {o : Operands} {x : ShReg} (h : s.memOk) : Acc.Keeps State.memOk (s.performShld o x) :=
  .bind (.loadVia h) <| fun _ h => .bind .chk <| fun _ _ => .ok (.setMe h)

theorem Outcome.MemOk.execShld {x : ShReg} {a : SReg} (h : s.memOk) : Outcome.MemOk (execShld x a s) :=
  .holdable h .pass (fun _ h => .performShld h) (fun _ h => h)

theorem Acc.Keeps.performShst {o : Operands} (h : s.memOk) : Acc.Keeps State.memOk (s.performShst o) := .storeVia h

theorem Outcome.MemOk.execShst {x : ShReg} {a : SReg} (h : s.memOk) : Outcome.MemOk (execShst x a s) :=
  .holdable h .pass (fun _ h => .performShst h) (fun _ h => h)

theorem Acc.Keeps.performXform {o : Operands} {n : NodeIx} (h : s.memOk) : Acc.Keeps State.memOk (s.performXform o n) := .ok (.modMe h)

theorem Outcome.MemOk.execXform {n : NodeIx} {a : SReg} (h : s.memOk) : Outcome.MemOk (execXform n a s) :=
  .holdable h .chk (fun _ h => .performXform h) (fun _ h => h)

theorem Acc.Keeps.performStrm {o : Operands} {n : NodeIx} (h : s.memOk) : Acc.Keeps State.memOk (s.performStrm o n) :=
  .bind .waitFor <| fun _ _ => .ok (.modMe h)

theorem Outcome.MemOk.execStrm {x y : ShReg} {n : NodeIx} {a : SReg} (h : s.memOk) : Outcome.MemOk (execStrm x y n a s) :=
  .holdable h .chk (fun _ h => .performStrm h) (fun _ h => .modMe h)

theorem Acc.Keeps.performStrmq {n : NodeIx} {a : SReg} (h : s.memOk) : Acc.Keeps State.memOk (s.performStrmq n a) := .ok (.setS h)

theorem Outcome.MemOk.execStrmq {n : NodeIx} {a : SReg} (h : s.memOk) : Outcome.MemOk (execStrmq n a s) :=
  .holdable h .pass (fun _ h => .performStrmq h) (fun _ h => h)

theorem Acc.Keeps.performCbload {o : Operands} (h : s.memOk) : Acc.Keeps State.memOk (s.performCbload o) :=
  .bind .waitFor <| fun _ _ => .bind (.loadVia h) <| fun _ h => .bind .chk <| fun _ _ => .ok (.setMe h)

theorem Outcome.MemOk.execCbload {a : SReg} (h : s.memOk) : Outcome.MemOk (execCbload a s) :=
  .holdable h .pass (fun _ h => .performCbload h) (fun _ h => h)

theorem State.memOk.nodeTake {k n : Nat} {l : List Nat} (h : s.memOk) : (s.nodeTake k n l).memOk := .modHg h

theorem State.memOk.nodeStop {k n : Nat} {a : Word} {wr : Bool} {x : Stop} (h : s.memOk) (hx : x.MemOk) : (s.nodeStop k n a wr x).memOk := by
  cases x with
  | fault c d => exact .modHg (.engineFault h)
  | wait w => exact .stall h hx
  | held t w => exact .stall h hx

theorem State.memOk.nodeRead {k n : Nat} (h : s.memOk) : (s.nodeRead k n).memOk := by
  unfold State.nodeRead
  dsimp only
  split
  · exact h
  · refine .ite h (.ite h ?_)
    split
    · next heq =>
        have ht := Acc.Keeps.of_ok (.ite (.bind (.openUnit h) <| fun _ h => .keeping h (.unitElem h)) (.loadElem h)) heq
        exact .modHg (.nodeTake ht)
    · next heq =>
        have he := Acc.Keeps.of_error (.ite (.bind (.openUnit h) <| fun _ h => .keeping h (.unitElem h)) (.loadElem h)) heq
        exact .nodeStop h he

theorem State.memOk.nodeEnd {k n : Nat} (h : s.memOk) : (s.nodeEnd k n).memOk := by
  unfold State.nodeEnd
  split
  · exact h
  · exact .ite (.engineDone (.modHg h)) h

theorem Acc.Keeps.storeScale {k n : Nat} {c : StreamCmd} {a : Word} (h : s.memOk) : Acc.Keeps State.memOk (s.storeScale k n c a) :=
  .foldlM h (fun _ _ h => .storeVia h)

theorem State.memOk.nodeWrite {k n : Nat} (h : s.memOk) : (s.nodeWrite k n).memOk := by
  unfold State.nodeWrite
  dsimp only
  split
  · exact h
  · split
    · exact h
    · refine .ite h (.ite h ?_)
      split
      · next heq =>
          have he := Acc.Keeps.of_error (.ite (.bind (.openUnit h) <| fun _ h => .keeping h (.unitPut h)) (.storeElem h)) heq
          exact .nodeStop h he
      · next heq =>
          have ht := Acc.Keeps.of_ok (.ite (.bind (.openUnit h) <| fun _ h => .keeping h (.unitPut h)) (.storeElem h)) heq
          split
          · next heq => exact .nodeEnd (.modHg (Acc.Keeps.of_ok (.storeScale ht) heq))
          · next heq => exact .nodeStop h (Acc.Keeps.of_error (.storeScale ht) heq)

theorem State.memOk.nodeAdvance {k n sl : Nat} {out : Bool} (h : s.memOk) : (s.nodeAdvance k n sl out).memOk := by
  unfold State.nodeAdvance
  dsimp only
  split
  · next heq => exact .stall h (Acc.Keeps.of_error (.pointersFree h) heq)
  · exact .nodeEnd (.modHg (.ite (.advanceP (.takePointers h)) (.advanceC (.takePointers h))))

theorem State.memOk.nodeFireIn {k n : Nat} {c : StreamCmd} (h : s.memOk) : (s.nodeFireIn k n c).memOk := .ite h (.nodeAdvance h)

theorem State.memOk.nodeFireOut {k n : Nat} {c : StreamCmd} (h : s.memOk) : (s.nodeFireOut k n c).memOk := .ite h (.nodeAdvance h)

theorem Outcome.MemOk.execStreamNodeFire (h : s.memOk) : Outcome.MemOk (execStreamNodeFire s) := by
  refine .next ?_
  split
  · exact h
  · exact .ite h (.ite (.ite (.nodeFireIn h) h) (.ite (.nodeFireOut h) h))

/-! ## The functions of Machine/Feed -/

theorem State.memOk.presentRow {k p id : Nat} {q : Plot} {b : Binding} {o : FeedPos} {l : List (Nat × Nat × Nat)} (h : s.memOk) :
    (s.presentRow k p id q b o l).memOk := .modHg (.modPlot h)

theorem Acc.Keeps.readOperand {k fuel off n : Nat} (h : s.memOk) : Acc.Keeps (fun x => x.1.memOk) (s.readOperand k fuel off n) := by
  induction fuel generalizing s off n with
  | zero => exact h
  | succ fuel ih =>
    unfold State.readOperand
    generalize waiterOf k 10 = w
    refine .ite (.ok h) (.bind .chk fun _ _ => .bind .inBanks fun _ _ => .bind (.turnAt h) fun _ h => .bind .homeRead fun _ _ => ?_)
    exact .bind (ih (.touch h)) fun _ h => .ok h

theorem Acc.Keeps.readTile {k : Nat} {p : Word} {n : Nat} (h : s.memOk) : Acc.Keeps (fun x => x.1.memOk) (s.readTile k p n) :=
  .ite (.ite (.readOperand h) .flt) (.readRec h)

/-- What keeps a lane row from being read. -/
def FeedStop.MemOk : FeedStop → Prop
  | .acc _ x => x.MemOk
  | .scale _ => True

theorem State.memOk.feedStop {k eng : Nat} {x : FeedStop} (h : s.memOk) (hx : x.MemOk) : (s.feedStop k eng x).memOk := by
  cases x with
  | acc a x => exact .engineStop h hx
  | scale l => exact .scaleWait h

theorem Ends.tileRow {k : Nat} {c : TileCmd} {rep r : Nat} (h : s.memOk) :
    Ends FeedStop.MemOk (fun x => x.1.memOk) (s.tileRow k c rep r) := by
  have hread : ∀ a n, Acc.Keeps (fun x => x.1.memOk) (match c.vec with | some v => .ok (s, v.toNat) | none => s.readTile k a n) := by
    intro a n
    split
    · exact .ok h
    · exact .readTile h
  unfold State.tileRow
  dsimp only
  split
  · next heq => exact Acc.Keeps.of_error (hread _ _) heq
  · next heq =>
    split
    · trivial
    · exact Acc.Keeps.of_ok (hread _ _) heq

theorem State.memOk.feedPresent {k : Nat} (h : s.memOk) : (s.feedPresent k).memOk := by
  unfold State.feedPresent
  dsimp only
  split
  · refine .ite ?_ h
    split
    · next heq => exact .modHg (.presentRow (Ends.of_ok (.tileRow h) heq))
    · next heq => exact .feedStop h (Ends.of_error (.tileRow h) heq)
  · exact h

theorem Acc.Keeps.tstepBinding : Acc.Keeps (fun _ => True) (s.tstepBinding) := by
  unfold State.tstepBinding
  split
  · exact .pass
  · exact .flt

theorem Acc.Keeps.tstepOk {o : Operands} {y : SlReg} {a z : Nat} : Acc.Keeps (fun _ => True) (s.tstepOk o y a z) :=
  .bind .tstepBinding <| fun _ _ => .ite (.bind .chk <| fun _ _ => .bind .chk <| fun _ _ => .ite .chk .pass) (.bind .chk <| fun _ _ => .bind .chk <|
    fun _ _ => .ite (.okBind (.ite .chk .pass)) (.bind .chk <| fun _ _ => .bind .chk <| fun _ _ => .ite .chk .pass))

theorem Acc.Keeps.performTstep {o : Operands} {y : SlReg} {n : BitVec 9} {vec : Option VWord} (h : s.memOk) :
    Acc.Keeps State.memOk (s.performTstep o y n vec) := .bind .tstepBinding <| fun _ _ => .bind .waitFor <| fun _ _ => .ok (.setMe h)

theorem Outcome.MemOk.execTstep {x : ShReg} {y : SlReg} {a : SReg} {n : BitVec 9} (h : s.memOk) : Outcome.MemOk (execTstep x y a n s) :=
  .holdable h .tstepOk (fun _ h => .performTstep h) (fun _ h => h)

theorem Outcome.MemOk.execTstepV {x : ShReg} {y : SlReg} {z : VReg} {n : BitVec 9} (h : s.memOk) : Outcome.MemOk (execTstepV x y z n s) :=
  .holdable h .tstepOk (fun _ h => .performTstep h) (fun _ h => h)

/-! ## The functions of Machine/Wd -/

theorem Acc.Keeps.readTableImage {o : Operands} (h : s.memOk) : Acc.Keeps (fun x => x.1.memOk) (s.readTableImage o) :=
  .bind .waitFor <| fun _ _ => .bind .chk <| fun _ _ => .bind .chk <| fun _ _ => .bind (.readRec h) <| fun _ h => .ok h

theorem Acc.Keeps.performWtbl {o : Operands} (h : s.memOk) : Acc.Keeps State.memOk (s.performWtbl o) :=
  .bind (.readTableImage h) <| fun _ h => .ite (.ok (.setMe h)) .fault

theorem State.memOk.wtblRefused {o : Operands} {x : TableSlot} (h : s.memOk) : (s.wtblRefused o x).memOk := .precise (.setMe h)

theorem Outcome.MemOk.execWtbl {a b : SReg} {g : PReg} (h : s.memOk) : Outcome.MemOk (execWtbl a b g s) := by
  have hplain : ∀ o, Outcome.MemOk (s.holdable g (.wtbl a b g) o (Machine.chk (decide (o.vb.toNat ≤ 1)) cIllegal) fun s => s.performWtbl o) :=
    fun _ => .holdable h .chk (fun _ h => .performWtbl h) fun _ h => h
  unfold Machine.execWtbl
  dsimp only
  refine .ite (hplain _) ?_
  split
  · next heq => exact .ite (hplain _) (.next (.wtblRefused (Acc.Keeps.of_ok (.readTableImage h) heq)))
  · exact hplain _

theorem Acc.Keeps.performWdec {o : Operands} (h : s.memOk) : Acc.Keeps State.memOk (s.performWdec o) := by
  refine .bind (.loadVia h) <| fun _ h => .bind .chk <| fun _ _ => ?_
  dsimp only
  split
  · exact .flt
  · exact .bind .tstepBinding <| fun _ _ => .bind .chk <| fun _ _ => .bind .chk <| fun _ _ => .bind .chk <| fun _ _ => .bind .chk <| fun _ _ =>
      .bind .chk <| fun _ _ => .bind .waitFor <| fun _ _ => .ok (.setMe h)

theorem Outcome.MemOk.execWdec {a : SReg} {g : PReg} (h : s.memOk) : Outcome.MemOk (execWdec a g s) :=
  .holdable h .pass (fun _ h => .performWdec h) (fun _ h => h)

theorem Acc.Keeps.performWseek {o : Operands} (h : s.memOk) : Acc.Keeps State.memOk (s.performWseek o) := .ok (.setMe h)

theorem Outcome.MemOk.execWseek {a : SReg} {g : PReg} (h : s.memOk) : Outcome.MemOk (execWseek a g s) :=
  .holdable h .chk (fun _ h => .performWseek h) (fun _ h => h)

theorem Acc.Keeps.performWdqry {o : Operands} {d : SReg} (h : s.memOk) : Acc.Keeps State.memOk (s.performWdqry o d) := .ok (.setS h)

theorem Outcome.MemOk.execWdqry {d a : SReg} {g : PReg} (h : s.memOk) : Outcome.MemOk (execWdqry d a g s) :=
  .holdable h .chk (fun _ h => .performWdqry h) (fun _ h => h)

theorem State.memOk.decFault {k cause : Nat} {entry : Option Nat} {a : Word} (h : s.memOk) : (s.decFault k cause entry a).memOk :=
  .ite h (.engineFault (.modHg h))

theorem State.memOk.decWalkStop {k cause va : Nat} (h : s.memOk) : (s.decWalkStop k cause va).memOk := .ite h (.modHg h)

/-- What keeps the decoder from its next segment. -/
def SegStop.MemOk : SegStop → Prop
  | .acc _ x _ => x.MemOk
  | .bad _ _ _ => True

theorem Ends.decRead {k n : Nat} {p : Word} {entry : Option Nat} (h : s.memOk) :
    Ends SegStop.MemOk (fun x => x.1.memOk) (s.decRead k p n entry) := by
  unfold State.decRead
  split
  · next heq => exact Acc.Keeps.of_ok (.readRec h) heq
  · next heq => exact Acc.Keeps.of_error (.readRec h) heq

theorem Ends.readEntry {k n : Nat} {c : WdecCmd} (h : s.memOk) : Ends SegStop.MemOk (fun x => x.1.memOk) (s.readEntry k c n) := by
  exact .bind (.decRead h) fun _ h => .ite (.errorBind trivial) (.ite (.errorBind trivial) (.ok h))

theorem Ends.walkMarkers {k entry n seg off syms : Nat} {c : WdecCmd} (h : s.memOk) :
    Ends SegStop.MemOk (fun x => x.1.memOk) (s.walkMarkers k c entry n seg off syms) := by
  induction n generalizing s seg off syms with
  | zero => exact h
  | succ n ih =>
    refine .ite (.errorBind trivial) (.bind (.decRead h) fun _ h => ?_)
    dsimp only
    split
    · exact .error trivial
    · exact ih h

theorem Ends.nextSegment {k : Nat} {c : WdecCmd} {d : Decoder} (h : s.memOk) :
    Ends SegStop.MemOk (fun x => x.1.memOk) (s.nextSegment k c d) := by
  unfold State.nextSegment
  extract_lets w start rest
  have hrest : ∀ x, x.1.memOk → Ends SegStop.MemOk (fun x => x.1.memOk) (rest x) := by
    intro x h
    refine .ite (.errorBind trivial) (.bind (.decRead h) fun _ h => ?_)
    dsimp only
    split
    · exact .error trivial
    · refine .ite (.bind (P := fun x => x.1.memOk) (.ok h) fun _ h => ?_) (.bind (.decRead h) fun _ h => ?_)
      all_goals
        split
        · exact .error trivial
        · exact .ite (.errorBind trivial) (.ok h)
  exact .ite (.bind (.ok h) hrest) (.bind (.readEntry h) fun _ h => .bind (.walkMarkers h) fun _ h => .bind (.ok h) hrest)

theorem State.memOk.decodeNext {k : Nat} (h : s.memOk) : (s.decodeNext k).memOk := by
  have hbegin : ∀ b x, (if b = true then s else s.modHg k x).memOk := fun _ _ => .ite h (.modHg h)
  unfold State.decodeNext
  split
  · exact h
  · refine .ite h ?_
    dsimp only
    split
    · exact .decWalkStop (hbegin _ _)
    · refine .ite (hbegin _ _) ?_
      split
      · next heq => exact .modHg (Ends.of_ok (.nextSegment (hbegin _ _)) heq)
      · exact .decFault (hbegin _ _)
      · next heq => exact .stall (hbegin _ _) (Ends.of_error (.nextSegment (hbegin _ _)) heq)
      · exact .decFault (hbegin _ _)

theorem State.memOk.decFinish {k : Nat} (h : s.memOk) : (s.decFinish k).memOk := by
  unfold State.decFinish
  dsimp only
  split
  · exact h
  · exact .ite (.engineDone (.modHg h)) h

theorem State.memOk.deliverLanes {k : Nat} {c : WdecCmd} (h : s.memOk) : (s.deliverLanes k c).memOk := by
  unfold State.deliverLanes
  split
  · exact h
  · refine .ite (.modHg h) ?_
    split
    · exact .scaleWait (.modHg h)
    · exact .modHg (.presentRow (.modHg h))

theorem State.memOk.writeWs {c : WdecCmd} {q : Plot} {n : Nat} {l : List Nat} (h : s.memOk) : (s.writeWs c q n l).1.memOk := by
  induction l generalizing s n with
  | nil => exact h
  | cons x l ih =>
    unfold State.writeWs
    split
    · exact h
    · exact ih (.foldl h fun _ _ h => .modCell h)

theorem State.memOk.deliverStore {k : Nat} {c : WdecCmd} (h : s.memOk) : (s.deliverStore k c).memOk := by
  refine .ite h ?_
  split
  · dsimp only
    split
    · exact .scaleWait h
    · refine .ite (.modHg (.writeWs h)) ?_
      split
      · exact .engineFault (.modHg (.writeWs h))
      · exact .writeWs h
  · exact h

theorem Outcome.MemOk.execDecoderWordDeliver (h : s.memOk) : Outcome.MemOk (execDecoderWordDeliver s) := by
  refine .next ?_
  split
  · exact h
  · exact .ite h (.decFinish (.ite (.deliverLanes h) (.deliverStore h)))

/-! ## The functions of Machine/Scl -/

theorem Acc.Keeps.performScset {o : Operands} (h : s.memOk) : Acc.Keeps State.memOk (s.performScset o) :=
  .bind .waitFor <| fun _ _ => .ok (.modMe h)

theorem Outcome.MemOk.execScset {a b : SReg} {g : PReg} (h : s.memOk) : Outcome.MemOk (execScset a b g s) :=
  .holdable h .chk (fun _ h => .performScset h) (fun _ h => h)

theorem Acc.Keeps.performScfl (h : s.memOk) : Acc.Keeps State.memOk (s.performScfl) := .bind .waitFor <| fun _ _ => .ok (.modMe h)

theorem Outcome.MemOk.execScfl {g : PReg} (h : s.memOk) : Outcome.MemOk (execScfl g s) :=
  .holdable h .pass (fun _ h => .performScfl h) (fun _ h => h)

/-! ## The functions of Machine/Chn -/

theorem State.memOk.chainTrim {k n : Nat} (h : s.memOk) : (s.chainTrim k n).memOk := by
  induction n generalizing s with
  | zero => exact h
  | succ n ih =>
    unfold State.chainTrim
    split
    · exact .ite (ih (.engineDone (.modHg h))) h
    · exact h

theorem Acc.Keeps.performChain {o : Operands} (h : s.memOk) : Acc.Keeps State.memOk (s.performChain o) :=
  .bind .waitFor <| fun _ _ => .bind (.loadVia h) <| fun _ h => .bind .chk <| fun _ _ => .ok (.chainTrim (.modMe h))

theorem Outcome.MemOk.execChain {a b : SReg} {g : PReg} (h : s.memOk) : Outcome.MemOk (execChain a b g s) :=
  .holdable h .chk (fun _ h => .performChain h) (fun _ h => .modMe h)

theorem Acc.Keeps.performChconst {o : Operands} (h : s.memOk) : Acc.Keeps State.memOk (s.performChconst o) := .ok (.modMe h)

theorem Outcome.MemOk.execChconst {a b : SReg} {g : PReg} (h : s.memOk) : Outcome.MemOk (execChconst a b g s) :=
  .holdable h .chk (fun _ h => .performChconst h) (fun _ h => h)

theorem Acc.Keeps.slElems {wt c : Nat} {x : Sluice} {off n w : Nat} (h : s.memOk) : Acc.Keeps (fun x => x.1.memOk) (s.slElems wt c x off n w) :=
  .bind (.foldlMPair h (fun _ _ h => .bind (.unitRead h) <| fun _ h => .ok h)) <| fun _ h => .ok h

theorem Acc.Keeps.slPut {wt c : Nat} {x : Sluice} {off w bytes v : Nat} (h : s.memOk) : Acc.Keeps State.memOk (s.slPut wt c x off w bytes v) :=
  .foldlM h (fun _ _ h => .unitWrite h)

theorem Ends.chainStep {k : Nat} {c : ChainCmd} (h : s.memOk) : Ends (fun x => x.2.MemOk) State.memOk (s.chainStep k c) := by
  have hslots : ∀ {α : Type} {P : α → Prop} {r : Acc α} (p : Word), Acc.Keeps P r →
      Ends (fun x : Word × Stop => x.2.MemOk) P (r.mapError fun e => (p, e)) := fun _ hr => .mapError hr fun _ he => he
  unfold State.chainStep
  refine .ite (.ok h) (.bind (hslots _ (.pointersFree h)) fun _ _ => .bind (hslots _ (.slElems h)) fun _ h => ?_)
  dsimp only
  refine .ite (.bind (hslots _ (.slElems h)) fun _ h => ?_) (.bind (P := fun x => x.1.memOk) (.ok h) fun _ h => ?_)
  all_goals
    refine .bind (hslots _ (.slPut h)) fun _ h => ?_
    exact .ok (.chainTrim (.modHg (.takePointers (.foldl h fun _ _ h => .ite (.advanceP h) (.advanceC h)))))

theorem Outcome.MemOk.execChainFire (h : s.memOk) : Outcome.MemOk (execChainFire s) := by
  refine .next ?_
  split
  · exact h
  · refine .ite h ?_
    split
    · next heq => exact Ends.of_ok (.chainStep h) heq
    · next heq => exact .engineStop h (Ends.of_error (.chainStep h) heq)

/-! ## The functions of Machine/PlotRun -/

theorem State.memOk.beginHold {waiter : Nat} {x1 : HoldWait} (h : s.memOk) : (s.beginHold waiter x1).memOk := by
  unfold State.beginHold
  split
  · exact h
  · exact h
  · exact .beginWake h
  · exact .beginWalk h
  · exact .ite h (.startWait h)
  · exact .modHg h

theorem State.memOk.furrowPut {p : Nat} {q : Plot} {x : Leaving} {f : Furrow} {t : Nat} (h : s.memOk) : (s.furrowPut p q x f t).memOk := by
  unfold State.furrowPut
  split
  · exact h
  · exact .modFurrowEnd h

theorem State.memOk.fly {p : Nat} {q : Plot} {x : Leaving} {t : Nat} (h : s.memOk) : (s.fly p q x t).memOk := .modPart h

theorem State.memOk.release_ {p : Nat} {q : Plot} {t : Nat} {l : List Leaving} (h : s.memOk) : (s.release_ p q t l).memOk := by
  refine .foldl h (fun _ _ h => .ite h ?_)
  split
  · exact .furrowPut h
  · exact .fly h

theorem State.memOk.endPredecessor {p id : Nat} (h : s.memOk) : (s.endPredecessor p id).memOk := by
  unfold State.endPredecessor
  split
  · exact h
  · exact .ite (.enterWaves (.foldl (.unconfigure h) (fun _ _ h => .ite (.setCell h) h))) h

theorem State.memOk.holdRow {p id t : Nat} {hs : List Holder} {faults : List (Nat × Nat × Word)} (h : s.memOk) :
    (s.holdRow p id t hs faults).memOk := .foldl (.modPlot (.foldl h (fun _ _ h => .foldl h (fun _ _ h => .beginHold h)))) (fun _ _ h =>
      .engineFault h)

theorem State.memOk.doRow {p id : Nat} {q : Plot} {t : Nat} {rs : List CellRun} {out : List Leaving} {d : DrainRun} (h : s.memOk) :
    (s.doRow p id q t rs out d).memOk := .release_ (.setPlot (.foldl (.foldl h (fun _ _ h => .modCell h)) (fun _ _ h => .modHg h)))

theorem State.memOk.redunFault {p id : Nat} {q : Plot} {k lane : Nat} (h : s.memOk) : (s.redunFault p id q k lane).memOk :=
  .haltLine (.modPlot (.restart (.record h)))

theorem State.memOk.attemptRow {p id : Nat} (h : s.memOk) : (s.attemptRow p id).memOk := by
  unfold State.attemptRow
  split
  · exact h
  · refine .ite h ?_
    dsimp only
    split
    · exact .ite (.redunFault h) (.holdRow h)
    · exact .ite (.doRow h) (.holdRow h)

theorem Outcome.MemOk.execMarkCommit (h : s.memOk) : Outcome.MemOk (execMarkCommit s) := by
  refine .next ?_
  split
  · exact h
  · split
    · exact .ite (.endPredecessor (.commitMark h)) h
    · exact h

theorem State.memOk.timing {p id : Nat} {held : Plot} (h : s.memOk) : (s.timing p id held).memOk := by
  unfold State.timing
  dsimp only
  split
  · exact .commitDue h
  · exact .ite (.modPlot (.restart (.record (.commitDue h)))) (.haltLine (.modPlot (.restart (.record (.commitDue h)))))

theorem Outcome.MemOk.execTimingLimit (h : s.memOk) : Outcome.MemOk (execTimingLimit s) := by
  refine .next ?_
  split
  · exact h
  · exact .ite (.timing h) h

theorem Outcome.MemOk.execPlotRelease (h : s.memOk) : Outcome.MemOk (execPlotRelease s) := by
  refine .next ?_
  split
  · exact h
  · exact .ite (.setPlot h) h

/-! ## The functions of Machine/Drains -/

theorem Acc.Keeps.drainData {k : Nat} {c : TileCmd} {seg lane x : Nat} (h : s.memOk) :
    Acc.Keeps (fun x => x.1.memOk) (s.drainData k c seg lane x) := .ite (.bind (.loadVia h) <| fun _ h => .ok h) (.ok h)

theorem State.memOk.appendWord {k : Nat} {w : DrainWord} (h : s.memOk) : (s.appendWord k w).1.memOk := .modHg h

theorem State.memOk.putWord {k : Nat} {w : DrainWord} (h : s.memOk) : (s.putWord k w).memOk := by
  unfold State.putWord
  split
  · next heq => exact .putUnitWord (State.memOk.of_fst (.appendWord h) heq)
  · next heq => exact State.memOk.of_fst (.appendWord h) heq

theorem State.memOk.endRow {k row : Nat} {c : TileCmd} (h : s.memOk) : (s.endRow k row c).memOk := .modHg (.foldl h (fun _ _ h => .putWord h))

theorem State.memOk.emerge {k seg now : Nat} (h : s.memOk) :
    (∀ t ∈ (s.emerge k seg now).1, t.memOk) ∧ (s.emerge k seg now).2.memOk := by
  unfold State.emerge
  extract_lets d
  split
  · exact ⟨by simp, h⟩
  · split
    · exact ⟨by simp, h⟩
    · extract_lets gone row ended
      clear_value row
      have hended : ∀ t, t.memOk → (ended t).memOk := by
        intro t ht
        unfold ended
        split
        · exact .ite (.endRow ht) ht
        · exact ht
      split
      · split
        · next heq =>
          refine ⟨?_, h⟩
          rintro _ ⟨⟩
          exact hended _ (.putWord (.modHg (Acc.Keeps.of_ok (.drainData h) heq)))
        · next heq => exact ⟨by simp, .engineStop h (Acc.Keeps.of_error (.drainData h) heq)⟩
      · refine ⟨?_, h⟩
        rintro _ ⟨⟩
        exact hended _ (.modHg h)

theorem State.memOk.emergeAll {k seg now n : Nat} (h : s.memOk) : (s.emergeAll k seg now n).memOk := by
  induction n generalizing s with
  | zero => exact h
  | succ n ih =>
    unfold State.emergeAll
    have hone := emerge (k := k) (seg := seg) (now := now) h
    split
    · next heq =>
      rw [heq] at hone
      exact ih (hone.1 _ rfl)
    · next heq =>
      rw [heq] at hone
      exact hone.2

theorem State.memOk.drainOn {k : Nat} (h : s.memOk) : (s.drainOn k).memOk := by
  unfold State.drainOn
  split
  · split
    · exact .ite (.emergeAll h) h
    · exact h
  · exact h

theorem State.memOk.passUnit {k : Nat} (h : s.memOk) : (s.passUnit k).memOk := by
  unfold State.passUnit
  dsimp only
  split
  · exact h
  · refine .ite h (.ite (.modHg h) ?_)
    split
    · next heq => exact .modHg (.stall h (Acc.Keeps.of_error (.pointersFreeAt h) heq))
    · exact .takePointersAt (.advanceP (.ite (.modHg h) (.foldl (.modHg h) (fun _ _ h => .putUnitWord h))))

theorem State.memOk.passUnits {k : Nat} (h : s.memOk) : (s.passUnits k).memOk := .foldl h (fun _ _ h => .passUnit h)

theorem State.memOk.settle (h : s.memOk) : (s.settle).memOk := .foldl (.foldl h (fun _ _ h => .passUnits (.drainOn h))) (fun _ _ h => .ite
  (.endPredecessor h) h)

/-! ## The functions of Machine/Time -/

theorem Acc.Keeps.timedStart {k : Nat} {x : TimedSlot} (h : s.memOk) : Acc.Keeps State.memOk (s.timedStart k x) := by
  unfold State.timedStart
  dsimp only
  split
  · exact .ok (.startPlot h)
  · exact .fault
  · exact .flt

theorem Acc.Keeps.timedArm {k : Nat} {x : TimedSlot} (h : s.memOk) : Acc.Keeps State.memOk (s.timedArm k x) := .armRecord (.ite h (.writeBackAll h))

theorem Acc.Keeps.timedOpen {k : Nat} {x : TimedSlot} (h : s.memOk) : Acc.Keeps State.memOk (s.timedOpen k x) :=
  .bind .chk <| fun _ _ => .ok (.modCore h)

theorem Acc.Keeps.timedAct {k : Nat} {x : TimedSlot} (h : s.memOk) : Acc.Keeps State.memOk (s.timedAct k x) := by
  unfold State.timedAct
  split
  · exact .timedStart h
  · exact .timedArm h
  · exact .timedOpen h
  · split
    · exact .ok (.modPart h)
    · exact .ok h
  · exact .ok h

theorem State.memOk.fireSlot {k i : Nat} {x : TimedSlot} {late : Bool} (h : s.memOk) : (s.fireSlot k i x late).memOk := by
  refine .ite (.rmcEvent (.modHg ?_)) (.modHg ?_)
  · split
    · next heq => exact Acc.Keeps.of_ok (.timedAct h) heq
    · split
      · exact .endBallast h
      · exact h
  · split
    · next heq => exact Acc.Keeps.of_ok (.timedAct h) heq
    · split
      · exact .endBallast h
      · exact h

theorem Outcome.MemOk.execAtset {d a b : SReg} {g : PReg} (h : s.memOk) : Outcome.MemOk (execAtset d a b g s) := by
  refine .unforked h (.bind .chk <| fun _ _ => ?_)
  dsimp only
  split
  · exact .flt
  · refine .done (.setS (.ite (.fireSlot ?_) ?_))
    · split
      · exact .ite (.armBallast (.setMe h)) (.setMe h)
      · exact .setMe h
    · split
      · exact .ite (.armBallast (.setMe h)) (.setMe h)
      · exact .setMe h

theorem Acc.Keeps.slotIndex {x : Word} : Acc.Keeps (fun _ => True) (slotIndex x) := .bind .chk <| fun _ _ => .pass

theorem Outcome.MemOk.execAtcan {d a : SReg} {g : PReg} (h : s.memOk) : Outcome.MemOk (execAtcan d a g s) := by
  refine .unforked h (.bind .slotIndex <| fun _ _ => .done (.setS (.modMe (.ite ?_ h))))
  split
  · exact .endBallast h
  · exact h

/-! ## The functions of Machine/Qbank -/

theorem Outcome.MemOk.onlyForked {g : PReg} {body : Eff} (h : s.memOk) (hbody : Acc.Keeps (fun x => x.1.memOk) body) :
    Outcome.MemOk (s.onlyForked g body) := .ite (.plain h hbody) (.next (.precise h))

theorem Acc.Keeps.performHeld {x : Held} (h : s.memOk) : Acc.Keeps State.memOk (s.performHeld x) := by
  unfold State.performHeld
  dsimp only
  split
  · exact .performSt h
  · exact .performStv h
  · exact .performShld h
  · exact .performShst h
  · exact .performXform h
  · exact .performStrm h
  · exact .performStrmq h
  · exact .performCbload h
  · exact .performTstep h
  · exact .performTstep h
  · exact .performWtbl h
  · exact .performWdec h
  · exact .performWseek h
  · exact .performWdqry h
  · exact .performScset h
  · exact .performScfl h
  · exact .performChain h
  · exact .performChconst h
  · exact .ok h

/-- What a PICK leaves when a kept instruction does not complete. -/
def pickStop : Option (Held × Stop) → Prop
  | some (_, e) => e.MemOk
  | none => True

theorem State.memOk.pickRun {b : Bool} {l : List Held} (h : s.memOk) : (s.pickRun b l).1.memOk ∧ pickStop (s.pickRun b l).2 := by
  induction l generalizing s with
  | nil => exact ⟨h, trivial⟩
  | cons x l ih =>
    unfold State.pickRun
    split
    · next heq => exact ih (.modMe (Acc.Keeps.of_ok (.performHeld h) heq))
    · next heq => exact ⟨h, Acc.Keeps.of_error (.performHeld h) heq⟩

theorem State.memOk.heldRefused {x : Held} (h : s.memOk) : (s.heldRefused x).memOk := by
  unfold State.heldRefused
  split
  · next heq => exact .ite h (.setMe (Acc.Keeps.of_ok (.readTableImage h) heq))
  · exact h

theorem State.memOk.pickBank {b : Bool} (h : s.memOk) : (s.pickBank b).memOk := by
  obtain ⟨ht, he⟩ := pickRun (b := b) (l := if b then s.me.bank1 else s.me.bank0) h
  unfold State.pickBank
  split
  · next heq => exact .retire (.setMe (.of_fst ht heq))
  · next heq => exact .precise (.heldRefused (.of_fst ht heq))
  · next heq => exact .startWait (.of_fst ht heq)
  · next heq =>
    rw [heq] at he
    exact .startWait he

/-! ## The functions of Machine/Sys -/

theorem Acc.Keeps.sysWrite {r : Nat} {v : Word} (h : s.memOk) : Acc.Keeps State.memOk (s.sysWrite r v) := by
  unfold State.sysWrite
  dsimp only
  split
  · exact .bind .chk <| fun _ _ => .ok (.setMe h)
  · exact .ok (.setMe h)
  · exact .ok (.setMe h)
  · exact .ok (.setMe h)
  · exact .ok (.setMe h)
  · exact .ok (.setMe h)
  · exact .ok (.setMe h)
  · exact .roleWrite h
  · exact .roleWrite h
  · exact .flt

theorem Outcome.MemOk.execYield (h : s.memOk) : Outcome.MemOk (execYield s) := by
  refine .unforked h (.done ?_)
  split
  · exact .modPart h
  · exact h

theorem State.memOk.startHg {p k : Nat} {pc : Word} (h : s.memOk) : (s.startHg p k pc).memOk := .modHg h

theorem State.memOk.dropClaims {c : Nat} {l : List (Nat × Nat)} (h : s.memOk) : (s.dropClaims c l).memOk := .foldl h (fun _ _ h => .modCore h)

theorem State.memOk.becomeFree {k : Nat} (h : s.memOk) : (s.becomeFree k).memOk := by
  unfold State.becomeFree
  dsimp only
  split
  · refine .startHg (.modHg ?_)
    split
    · exact .dropClaims h
    · exact h
    · exact h
  · refine .modHg ?_
    split
    · exact .dropClaims h
    · exact h
    · exact h

theorem State.memOk.rmcHalt (h : s.memOk) : (s.rmcHalt).memOk := .ite (.modReticle (.retire h)) (.modMe (.retire h))

theorem State.memOk.debugHalt {code : Nat} (h : s.memOk) : (s.debugHalt code).memOk := .trapAt (.retire h)

/-! ## The functions of Machine/Host -/

theorem State.memOk.complete {denied : Bool} {data : Nat} (h : s.memOk) : (s.complete denied data).memOk := h

theorem State.memOk.agentWrite {a : Agent} {p : Word} {n v : Nat} (h : s.memOk) : (s.agentWrite a p n v).memOk := by
  unfold State.agentWrite
  split
  · next heq => exact .complete (Acc.Keeps.of_ok (.mgmtWrite h) heq)
  · exact .complete h
  · next heq => exact .stall h (Acc.Keeps.of_error (.mgmtWrite h) heq)

theorem State.memOk.agentRead {a : Agent} {p : Word} {n : Nat} (h : s.memOk) : (s.agentRead a p n).memOk := by
  unfold State.agentRead
  split
  · next heq => exact .complete (Acc.Keeps.of_ok (.mgmtRead h) heq)
  · exact .complete h
  · next heq => exact .stall h (Acc.Keeps.of_error (.mgmtRead h) heq)

theorem State.memOk.regEvent {names : Nat → Nat → Bool} (h : s.memOk) : (s.regEvent names).memOk := .ite (.agentWrite h) h

theorem State.memOk.rmcWake {r : Nat} (h : s.memOk) : (s.rmcWake r).memOk := .ite (.modHg (.modReticle h)) h

theorem State.memOk.classesAtBoot (h : s.memOk) : (s.classesAtBoot).memOk := .foldl h (fun _ _ h => .modCluster h)

theorem State.memOk.bootFirst {fwbase fwsize : Word} (h : s.memOk) : (s.bootFirst fwbase fwsize).memOk := by
  unfold State.bootFirst
  exact .modMod (.foldl (.writeImage (.modMod (.classesAtBoot (.modMod h)))) fun _ _ h => .idleCell h)

theorem State.memOk.mailbox {op : Nat} {f : Machine.State → Machine.State × Nat} (h : s.memOk) (hf : ∀ t, t.memOk → (f t).1.memOk) :
    (s.mailbox op f).memOk := .ite h (.ite (.modMod h) (.ite h (.modMod (hf _ h))))

theorem State.memOk.startRmcs {pc : Word} (h : s.memOk) : (s.startRmcs pc).memOk := .foldl h (fun _ _ h => .modHg h)

theorem State.memOk.boot (h : s.memOk) : (s.boot).1.memOk := .iteFst h (.iteFst (.modMod h) (.iteFst (.modMod (.modMod h)) (.startRmcs (.modMod
  (.modMod (.modMod h))))))

theorem State.memOk.attest (h : s.memOk) : s.attest.1.memOk := by
  unfold State.attest
  exact of_mem h rfl

theorem State.memOk.pubkey (h : s.memOk) : (s.pubkey).1.memOk := .iteFst h (.modMod h)

theorem State.memOk.manifest (h : s.memOk) : (s.manifest).1.memOk := by
  unfold State.manifest
  dsimp only
  split
  · exact h
  · refine .iteFst h ?_
    split
    · exact h
    · refine .iteFst h ?_
      split
      · exact h
      · exact .iteFst (.modMod h) h

theorem State.memOk.install (h : s.memOk) : (s.install).1.memOk := by
  refine .iteFst h ?_
  split
  · exact h
  · dsimp only
    split
    · exact .iteFst h (.iteFst (.devStore h) h)
    · exact h

theorem State.memOk.cmapCmd (h : s.memOk) : (s.cmapCmd).1.memOk := .iteFst h (.modMod h)

/-! ## The functions of Machine/Disp -/

theorem Acc.Keeps.notifyStore {l : Launch} (h : s.memOk) : Acc.Keeps State.memOk (s.notifyStore l) := by
  refine .ite (.ok h) (.bind .chk <| fun _ _ => ?_)
  dsimp only
  split
  · exact .bind .chk <| fun _ _ => .bind .chk <| fun _ _ => .ok (.homeWrite h)
  · exact .storeVia h
  · refine .bind .chk <| fun _ _ => .bind .chk <| fun _ _ => ?_
    split
    · next heq => exact .held (State.memOk.of_fst (.walk h) heq)
    · exact .flt
    · exact .flt
    · next heq => exact .keeping (State.memOk.of_fst (.walk h) heq) (.bind .chk <| fun _ _ => .bind .lineReady <| fun _ _ => .ok (.touchAs
        (.homeWrite (State.memOk.of_fst (.walk h) heq))))

theorem Acc.Keeps.partWriteBack {p : Nat} (h : s.memOk) : Acc.Keeps State.memOk (s.partWriteBack p) :=
  .bind .flushReady <| fun _ _ => .ok (.foldl h (fun _ _ h => .writeBackAll h))

theorem State.memOk.partInval {p : Nat} (h : s.memOk) : (s.partInval p).memOk := .foldl h (fun _ _ h => .selfInval h)

theorem Acc.Keeps.launchRelease {p : Nat} (h : s.memOk) : Acc.Keeps State.memOk (s.launchRelease p) := .bind .waitFor <| fun _ _ => .partWriteBack h

theorem State.memOk.endWalk {r : Nat} (h : s.memOk) : (s.endWalk r).memOk := by
  unfold State.endWalk
  dsimp only
  split
  · exact .ite (.foldl (.modPart h) (fun _ _ h => .modHg h)) h
  · exact .ite (.modCtx h) h

theorem State.memOk.heard {p : Nat} (h : s.memOk) : (s.heard p).memOk := .modPart h

theorem State.memOk.heardAt {o : Option Nat} (h : s.memOk) : ((o.map s.heard).getD s).memOk := by
  cases o with
  | none => exact h
  | some p => exact .heard h

theorem Acc.Keeps.endLaunch {r state code : Nat} (h : s.memOk) : Acc.Keeps State.memOk (s.endLaunch r state code) := by
  unfold State.endLaunch
  extract_lets l l' dropped rest
  have hrest : ∀ t, t.memOk → Acc.Keeps State.memOk (rest t) := by
    intro t h
    refine .ite (.ok (.setLaunch (.endWalk (.heardAt h)))) ?_
    split
    · next heq => exact .ok (.setLaunch (.endWalk (Acc.Keeps.of_ok (.keeping h (.notifyStore h)) heq)))
    · exact .ok (.setLaunch (.endWalk h))
    · next heq => exact .error (Acc.Keeps.of_error (.keeping h (.notifyStore h)) heq)
  split
  · exact .ite (.bind (.launchRelease h) hrest) (.okBind (hrest _ h))
  · exact .okBind (hrest _ h)

theorem State.memOk.orWait {w : Nat} {r : Acc State} (h : s.memOk) (hr : Acc.Keeps State.memOk r) : (s.orWait w r).memOk := by
  match r, hr with
  | .ok t, hr => exact hr
  | .error e, hr => exact .stall h hr

theorem State.memOk.armHost {r port : Nat} (h : s.memOk) : (s.armHost r port).memOk := .modMod (.modLaunch h)

theorem State.memOk.dropActive {p : Nat} (h : s.memOk) : (s.dropActive p).memOk :=
  .modPart (.modMod (.foldl (.foldl (.deconfigure h) (fun _ _ h => .setHg h)) (fun _ _ h => .modCore h)))

theorem Acc.Keeps.tearDown {c : Nat} (h : s.memOk) : Acc.Keeps State.memOk (s.tearDown c) := by
  refine .bind (.foldlM h (fun _ _ h => .keeping h (.endLaunch h))) <| fun _ h => .ok (.modCtx ?_)
  split
  · exact .dropActive h
  · exact h

theorem State.memOk.accept {port result : Nat} (h : s.memOk) : (s.accept port result).memOk := .modMod h

theorem State.memOk.hostCmd {op : Nat} {f : Nat → Nat → Machine.Acc (Machine.State × Nat)} (h : s.memOk) (hf :
    ∀ a1 a2, Acc.Keeps (fun x => x.1.memOk) (f a1 a2)) : (s.hostCmd op f).memOk := by
  unfold State.hostCmd
  dsimp only
  split
  · exact h
  · refine .ite h (.ite (.accept h) (.ite h ?_))
    split
    · next heq => exact .accept (Acc.Keeps.of_ok (hf _ _) heq)
    · next heq => exact .stall h (Acc.Keeps.of_error (hf _ _) heq)

theorem Acc.Keeps.hostBuild {port v : Nat} (h : s.memOk) : Acc.Keeps (fun x => x.1.memOk) (s.hostBuild port v) :=
  .ite (.ok h) (.ite (.ok h) (.ite (.ok h) (.ite (.ok h) (.ok (.modLaunch h)))))

theorem Acc.Keeps.hostLaunch {port v : Nat} (h : s.memOk) : Acc.Keeps (fun x => x.1.memOk) (s.hostLaunch port v) := .ite (.ok (.armHost h)) (.ok h)

theorem Acc.Keeps.hostCancel {_port v : Nat} (h : s.memOk) : Acc.Keeps (fun x => x.1.memOk) (s.hostCancel _port v) :=
  .ite (.bind (.endLaunch h) <| fun _ h => .ok h) (.ok h)

theorem Acc.Keeps.hostClear {_port v : Nat} (h : s.memOk) : Acc.Keeps (fun x => x.1.memOk) (s.hostClear _port v) :=
  .ite (.ok (.modLaunch h)) (.ok h)

theorem Acc.Keeps.hostTeardown {_port v : Nat} (h : s.memOk) : Acc.Keeps (fun x => x.1.memOk) (s.hostTeardown _port v) :=
  .ite (.bind (.tearDown h) <| fun _ h => .ok h) (.ok h)

theorem State.memOk.deviceLaunch (h : s.memOk) : (s.deviceLaunch).memOk := by
  unfold State.deviceLaunch
  split
  · exact h
  · exact .ite h (.ite (.modLaunch (.modMod h)) (.modMod h))

theorem State.memOk.serve {p level c : Nat} (h : s.memOk) : (s.serve p level c).memOk := .modPart h

theorem State.memOk.runLaunch {p : Nat} {c : Cand} {r : Nat} (h : s.memOk) : (s.runLaunch p c r).memOk :=
  .modPart (.modLaunch (.serve (.partInval h)))

theorem State.memOk.take {p : Nat} {c : Cand} (h : s.memOk) : (s.take p c).memOk := by
  unfold State.take
  split
  · exact .ite (.orWait h (.endLaunch h)) (.ite (.runLaunch h) (.askSwitch h))
  · exact .askSwitch h

theorem State.memOk.dispatch {p : Nat} (h : s.memOk) : (s.dispatch p).memOk := by
  refine .ite h ?_
  split
  · exact .take h
  · exact h

/-! ## The functions of Machine/Graph -/

theorem State.memOk.walkerFault {p n cause : Nat} {d : List Nat} (h : s.memOk) : (s.walkerFault p n cause d).memOk := .haltLine (.record h)

theorem State.memOk.walkerAct {p n : Nat} {r : Acc State} (h : s.memOk) (hr : Acc.Keeps State.memOk r) : (s.walkerAct p n r).memOk := by
  match r, hr with
  | .ok t, hr => exact hr
  | .error (.fault c d), _ => exact .walkerFault h
  | .error (.wait w), hr => exact .stall h hr
  | .error (.held t w), hr => exact .stall h hr

theorem Acc.Keeps.readNode {p r n : Nat} (h : s.memOk) : Acc.Keeps (fun x => x.1.memOk) (s.readNode p r n) := .loadVia h

theorem State.memOk.walkTo {p r n : Nat} (h : s.memOk) : (s.walkTo p r n).memOk := .modPart h

theorem State.memOk.nodeEvent {kind : Nat} {f : Nat → Nat → Nat → Machine.State → Nat → Machine.Acc Machine.State} (h : s.memOk) (hf :
    ∀ a1 a2 a3 t a5, t.memOk → Acc.Keeps State.memOk (f a1 a2 a3 t a5)) : (s.nodeEvent kind f).memOk := by
  unfold State.nodeEvent
  dsimp only
  split
  · exact .ite h (.walkerAct h (.ite (.endLaunch h) (.bind (.readNode h) <| fun _ ht => .ite (.endLaunch ht) (.ite (.ok h) (hf _ _ _ _ _ ht)))))
  · exact h
  · exact h
  · exact h

theorem Acc.Keeps.readCond {p x : Nat} (h : s.memOk) : Acc.Keeps (fun x => x.1.memOk) (s.readCond p x) := .loadVia h

theorem Acc.Keeps.whileNode {p r n x : Nat} {test : Bool} (h : s.memOk) : Acc.Keeps State.memOk (s.whileNode p r n x test) :=
  .ite (.ok (.walkTo h)) (.ite (.endLaunch h) (.ok (.walkTo (.modPart h))))

theorem State.memOk.holdNode {p r n x : Nat} {test : Bool} (h : s.memOk) : (s.holdNode p r n x test).memOk := .ite (.walkTo h) (.modPart h)

theorem Outcome.MemOk.execHoldNodeReread (h : s.memOk) : Outcome.MemOk (execHoldNodeReread s) := by
  refine .next ?_
  split
  · exact .ite (.walkerAct h (.bind (.readCond h) <| fun _ h => .ok (.holdNode h))) h
  · exact h
  · exact h
  · exact h

theorem Acc.Keeps.armNode {p r x : Nat} (h : s.memOk) : Acc.Keeps State.memOk (s.armNode p r x) := by
  unfold State.armNode
  split
  · next heq => exact .ok (.walkTo (Acc.Keeps.of_ok (.armRecord h) heq))
  · exact .endLaunch h

theorem Acc.Keeps.walkerStores {p : Nat} {ids : List Nat} (h : s.memOk) : Acc.Keeps State.memOk (s.walkerStores p ids) := by
  refine .foldlM h (fun _ _ h => ?_)
  split
  · exact .ok h
  · split
    · next heq => exact .ok (.modPlot (.putStores (Acc.Keeps.of_ok (.readStores h) heq)))
    · exact .ok (.modPlot h)
    · next heq => exact .error (.keeping h (Acc.Keeps.of_error (.readStores h) heq))

theorem Acc.Keeps.walkerCfg {p : Nat} {img : Word} (h : s.memOk) : Acc.Keeps State.memOk (s.walkerCfg p img) :=
  .bind (.stage h) <| fun _ h => .bind .waitFor <| fun _ _ => .bind (.forM (fun _ => .tasksReady)) <| fun _ _ => .walkerStores (.switchLoad
    (.discardStaging h))

theorem State.memOk.startOrWait {p k : Nat} {pc : Word} (h : s.memOk) : (s.startOrWait p k pc).memOk := .ite (.modHg (.startHg h)) (.modHg h)

theorem Acc.Keeps.loadTasks {p r x : Nat} (h : s.memOk) : Acc.Keeps State.memOk (s.loadTasks p r x) :=
  .bind (.forM (fun _ => .tasksReady)) <| fun _ _ => .ok (.foldl (.foldl h (fun _ _ h => .modCore h)) (fun _ _ h => .copyTasks h))

theorem State.memOk.startLoad {p r n x : Nat} (h : s.memOk) : (s.startLoad p r n x).memOk :=
  .foldl (.modPart h) (fun _ _ h => .foldl h (fun _ _ h => .ite (.startOrWait h) h))

theorem State.memOk.pendingRoles {p : Nat} (h : s.memOk) : (s.pendingRoles p).memOk := .foldl h (fun _ _ h => .roleBoundary h)

theorem Acc.Keeps.loadBoundaryAt {p : Nat} (h : s.memOk) : Acc.Keeps State.memOk (s.loadBoundaryAt p) :=
  .bind (.partWriteBack h) <| fun _ h => .ok (.foldl (.partInval h) (fun _ _ h => .ite h (.modPlot (.modBound (.stopNow h)))))

theorem Outcome.MemOk.execLoadEnd (h : s.memOk) : Outcome.MemOk (execLoadEnd s) := by
  refine .next ?_
  split
  · exact .ite (.orWait h (.bind (.loadBoundaryAt h) <| fun _ h => .ok (.walkTo (.modPart h)))) h
  · exact h
  · exact h
  · exact h

/-! ## The functions of Machine/Halt -/

theorem State.memOk.haltPlot {p id : Nat} (h : s.memOk) : (s.haltPlot p id).memOk := by
  unfold State.haltPlot
  split
  · exact .ite (.restart (.modPlot (.noteTiming h))) h
  · exact h

theorem State.memOk.haltCore {p c : Nat} (h : s.memOk) : (s.haltCore p c).memOk :=
  .modCore (.foldl (.foldl h (fun _ _ h => .modHg h)) (fun _ _ h => .haltPlot h))

theorem Outcome.MemOk.execHaltLineArrival (h : s.memOk) : Outcome.MemOk (execHaltLineArrival s) := by
  refine .next ?_
  split
  · exact .ite (.haltCore h) h
  · exact h

theorem State.memOk.writeStops {p : Nat} (h : s.memOk) : (s.writeStops p).memOk :=
  .ite h (.foldl (.foldl (.devStore h) (fun _ _ h => .ite (.devStore h) h)) (fun _ _ h => .foldl h (fun _ _ h => .devStore h)))

theorem State.memOk.wakeNamed {c e : Nat} (h : s.memOk) : (s.wakeNamed c e).memOk := .foldl h (fun _ _ h => .ite (.beginWake h) h)

theorem State.memOk.startTask {c q j : Nat} {m : Msg} {e : Nat} (h : s.memOk) : (s.startTask c q j m e).memOk := .modHg (.modCore h)

theorem State.memOk.taskFaulty {p c q type_ cause : Nat} (h : s.memOk) : (s.taskFaulty p c q type_ cause).memOk := .haltLine (.record (.modCore h))

theorem State.memOk.schedule {p c : Nat} (h : s.memOk) : (s.schedule p c).memOk := by
  refine .ite h (.ite (.foldl (.modCore (.foldl h (fun _ _ h => .wakeNamed h))) (fun _ _ h => .taskFaulty h)) (.ite (.modCore (.foldl h (fun _ _ h
    => .wakeNamed h))) ?_))
  split
  · dsimp only
    split
    · exact .startTask (.modCore (.foldl h (fun _ _ h => .wakeNamed h)))
    · exact .modCore (.foldl h (fun _ _ h => .wakeNamed h))
  · exact .modCore (.foldl h (fun _ _ h => .wakeNamed h))

theorem Outcome.MemOk.execTaskSchedulerCycle (h : s.memOk) : Outcome.MemOk (execTaskSchedulerCycle s) := by
  refine .next ?_
  split
  · exact .ite (.schedule h) h
  · exact h

theorem Outcome.MemOk.execL1SectorAgeWriteback (h : s.memOk) : Outcome.MemOk (execL1SectorAgeWriteback s) := by
  refine .next ?_
  split
  · refine .ite ?_ h
    split
    · exact .l1WriteBack h
    · next heq => exact .stall h (Acc.Keeps.of_error .sectorsReady heq)
  · exact h

/-! ## The functions of Machine/Loops -/

theorem Acc.Keeps.beginLoop {c len : Nat} (h : s.memOk) : Acc.Keeps (fun x => x.1.memOk) (s.beginLoop c len) :=
  .ite (.ok h) (.bind .chk <| fun _ _ => .bind .chk <| fun _ _ => .done (.setMe h))

theorem Outcome.MemOk.execLbrk {g : PReg} (h : s.memOk) : Outcome.MemOk (execLbrk g s) := by
  refine .plain h ?_
  split
  · exact .flt
  · exact .ok (.setMe h)

/-! ## The functions of Machine/Net -/

theorem State.memOk.forward {i c input : Nat} {x : Packet} (h : s.memOk) : (s.forward i c input x).memOk := by
  unfold State.forward
  split
  · exact h
  · exact .ite h (.modMod (.modCore h))

theorem Outcome.MemOk.execRouterForward (h : s.memOk) : Outcome.MemOk (execRouterForward s) := by
  refine .next ?_
  split
  · split
    · exact .forward h
    · exact .forward h
    · exact h
    · exact h
  · exact h

theorem State.memOk.writeMatrix (h : s.memOk) : (s.writeMatrix).memOk := .ite h (.foldl (.devStore h) (fun _ _ h => .devStore h))

theorem State.memOk.endSweep (h : s.memOk) : (s.endSweep).memOk := by
  unfold State.endSweep
  split
  · exact .ite (.writeMatrix (.modMod h)) h
  · exact h

theorem Outcome.MemOk.execPacketDeliver (h : s.memOk) : Outcome.MemOk (execPacketDeliver s) := by
  refine .next ?_
  split
  · exact .ite (.ite (.modMod h) (.ite h (.setKnock (.modMod h)))) h
  · exact h

theorem State.memOk.arrive {i : Nat} {x : Packet} (h : s.memOk) : (s.arrive i x).memOk := .latchCore (.modMod (.modCore h))

theorem Outcome.MemOk.execQueueMessageArrival (h : s.memOk) : Outcome.MemOk (execQueueMessageArrival s) := by
  refine .ite (.next (.ite h (.latchCore (.modCore h)))) (.next ?_)
  split
  · exact .ite (.arrive h) h
  · exact h

theorem State.memOk.takeSync (h : s.memOk) : (s.takeSync).memOk := .modMod h

theorem State.memOk.tick (h : s.memOk) : (s.tick).memOk := .ite (.takeSync h) h

theorem Acc.Keeps.remoteHome {w ctx va n : Nat} {k : Machine.Kind} (h : s.memOk) : Acc.Keeps (fun x => x.1.memOk) (s.remoteHome w ctx va n k) := by
  unfold State.remoteHome
  split
  · next heq => exact .held (State.memOk.of_fst (.walk h) heq)
  · exact .flt
  · exact .flt
  · next heq =>
      refine .keeping (State.memOk.of_fst (.walk h) heq) (.bind .chk <| fun _ _ => .bind .chk <| fun _ _ => ?_)
      dsimp only
      split
      · exact .bind .classOk <| fun _ _ => .bind .lineReady <| fun _ _ => .ok (State.memOk.of_fst (.walk h) heq)
      · exact .bind .lineReady <| fun _ _ => .ok (State.memOk.of_fst (.walk h) heq)

theorem Acc.Keeps.remoteCtx {p module_ : Nat} : Acc.Keeps (fun _ => True) (s.remoteCtx p module_) := .bind .chk <| fun _ _ => .pass

theorem Acc.Keeps.remoteAccess {w ctx kind va n data : Nat} (h : s.memOk) : Acc.Keeps (fun x => x.1.memOk) (s.remoteAccess w ctx kind va n data) :=
  by
  refine .bind .chk <| fun _ _ => .bind (.foldlMPair h (fun _ _ h => .bind (.keeping h (.remoteHome h)) <| fun _ h => .ok h)) <| fun _ h => ?_
  dsimp only
  split
  · exact .bind (.mapM (fun _ => .homeRead)) <| fun _ _ => .ok (.foldl h (fun _ _ h => .touchAs h))
  · exact .ok (.foldl h (fun _ _ h => .touchAs (.homeWrite h)))
  · exact .swapAt h
  · exact .flt

theorem Outcome.MemOk.execRemoteAccessArrival (h : s.memOk) : Outcome.MemOk (execRemoteAccessArrival s) := by
  refine .next ?_
  split
  · next heq =>
      have ht := Acc.Keeps.of_ok (.bind .remoteCtx <| fun _ _ => .remoteAccess h) heq
      exact .complete ht
  · exact .complete h
  · next heq =>
      have he := Acc.Keeps.of_error (.bind .remoteCtx <| fun _ _ => .remoteAccess h) heq
      exact .stall h he

theorem State.memOk.notifyFailed {r : Remote} (h : s.memOk) : (s.notifyFailed r).memOk := h

theorem State.memOk.remoteFailed {r : Remote} {cause : Nat} (h : s.memOk) : (s.remoteFailed r cause).memOk := by
  unfold State.remoteFailed
  dsimp only
  split
  · exact .trapAt h
  · exact .notifyFailed h
  · exact .engineFault h

theorem State.memOk.remoteAnswer {i : Nat} {r : Remote} {cause : Option Nat} (h : s.memOk) : (s.remoteAnswer i r cause).memOk := by
  unfold State.remoteAnswer
  dsimp only
  split
  · exact .ite (.modMod h) (.modMod h)
  · exact .ite (.modMod (.remoteFailed h)) (.remoteFailed (.modMod h))

theorem Outcome.MemOk.execRemoteAcknowledgement (h : s.memOk) : Outcome.MemOk (execRemoteAcknowledgement s) := by
  refine .next ?_
  split
  · exact .ite h (.ite (.remoteAnswer h) (.ite (.modMod h) (.ite (.remoteAnswer h) h)))
  · exact h

/-! ## The functions of Machine/Pred -/

theorem Outcome.MemOk.setp {d : PReg} {a b : SReg} {g : PReg} {c : Cond} (h : s.memOk) : Outcome.MemOk (s.setp d a b g c) :=
  .plain h (.done (.setP h))

theorem Outcome.MemOk.setpi {p : PReg} {a : SReg} {i : BitVec 16} {c : Cond} (h : s.memOk) : Outcome.MemOk (s.setpi p a i c) :=
  .plain h (.done (.setP h))

theorem Outcome.MemOk.plog2 {d a b g : PReg} {f : Bool → Bool → Bool} (h : s.memOk) : Outcome.MemOk (s.plog2 d a b g f) :=
  .plain h (.done (.setP h))

/-! ## The functions of Machine/Switch -/

theorem State.memOk.fillShadows {p inc : Nat} (h : s.memOk) : (s.fillShadows p inc).memOk :=
  .foldl (.foldl h (fun _ _ h => .ite h (.modCell h))) (fun _ _ h => .ite h (.modCell h))

theorem State.memOk.acceptSwitch {p x : Nat} (h : s.memOk) : (s.acceptSwitch p x).memOk :=
  .fillShadows (.foldl (.ite (.modCtx (.modCtx (.modPart h))) (.modCtx (.modPart h))) (fun _ _ h => .modHg h))

theorem Outcome.MemOk.execPreemptRequest (h : s.memOk) : Outcome.MemOk (execPreemptRequest s) := by
  refine .next ?_
  split
  · exact h
  · exact .ite h (.ite (.acceptSwitch (.modPart h)) (.modPart h))

theorem State.memOk.rinsePlot {p id : Nat} (h : s.memOk) : (s.rinsePlot p id).memOk := by
  unfold State.rinsePlot
  dsimp only
  split
  · refine .ite (.restart (.commitDue ?_)) (.commitDue ?_)
    · split
      · exact .ite (.timing h) h
      · exact h
    · split
      · exact .ite (.timing h) h
      · exact h
  · refine .commitDue ?_
    split
    · exact .ite (.timing h) h
    · exact h

theorem State.memOk.beginFlip {p inc : Nat} (h : s.memOk) : (s.beginFlip p inc).memOk :=
  .ite (.modCtx (.modPart (.foldl h (fun _ _ h => .rinsePlot h)))) (.modPart (.foldl h (fun _ _ h => .rinsePlot h)))

theorem Outcome.MemOk.execYieldDeadline (h : s.memOk) : Outcome.MemOk (execYieldDeadline s) := by
  refine .next ?_
  split
  · exact .ite (.beginFlip h) h
  · exact h
  · exact h
  · exact h

theorem Outcome.MemOk.execCooperativeStop (h : s.memOk) : Outcome.MemOk (execCooperativeStop s) := by
  refine .next ?_
  split
  · exact .ite (.beginFlip h) h
  · exact h
  · exact h
  · exact h

theorem Outcome.MemOk.execCooperativeTimeout (h : s.memOk) : Outcome.MemOk (execCooperativeTimeout s) := by
  refine .next ?_
  split
  · exact .ite (.beginFlip h) h
  · exact h
  · exact h
  · exact h

theorem State.memOk.landMessage {x : Packet} (h : s.memOk) : (s.landMessage x).memOk := .ite (.latchCore (.modCore h)) (.modCore h)

theorem State.memOk.drainMessages {p : Nat} (h : s.memOk) : (s.drainMessages p).memOk := .modMod (.foldl h (fun _ _ h => .landMessage h))

theorem State.memOk.timedBallast {k : Nat} {on : Bool} (h : s.memOk) : (s.timedBallast k on).memOk := by
  refine .foldl h (fun _ _ h => ?_)
  split
  · exact .ite (.ite (.armBallast h) h) (.endBallast h)
  · exact h

theorem State.memOk.dropWaits {p : Nat} (h : s.memOk) : (s.dropWaits p).memOk := h

theorem State.memOk.spillRest {p ctx : Nat} (h : s.memOk) : (s.spillRest p ctx).memOk := .foldl h (fun _ _ h => .ite (.undefine h) h)

theorem State.memOk.saveActive {p : Nat} (h : s.memOk) : (s.saveActive p).memOk :=
  .modMod (.ite (.spillRest (.modCtx (.dropWaits (.drainMessages (.foldl (.foldl h (fun _ _ h => .modCore (.writeBackAll h))) (fun _ _ h =>
    .timedBallast h)))))) (.dropWaits (.drainMessages (.foldl (.foldl h (fun _ _ h => .modCore (.writeBackAll h))) (fun _ _ h => .timedBallast
      h)))))

theorem State.memOk.restoreCores {p : Nat} {x : SavedCtx} (h : s.memOk) : (s.restoreCores p x).memOk := .foldl h (fun _ _ h => .modCore h)

theorem State.memOk.restoreHgs {p : Nat} {x : SavedCtx} {g : Nat → Nat → Nat} (h : s.memOk) : (s.restoreHgs p x g).memOk := by
  refine .foldl h (fun _ _ h => ?_)
  dsimp only
  split
  · exact .setHg h
  · exact .setHg h

theorem State.memOk.restoreCells {p : Nat} {x : SavedCtx} {same : Bool} (h : s.memOk) : (s.restoreCells p x same).memOk := by
  refine .ite (.foldl (.foldl h (fun _ _ h => .setCell h)) (fun _ _ h => .modCell h)) (.foldl (.foldl (.foldl (.foldl h (fun _ _ h => .setCell h))
    (fun _ _ h => .modCell h)) (fun _ _ h => ?_)) (fun _ _ h => ?_))
  · dsimp only
    split
    · exact .foldl h (fun _ _ h => .modCell h)
    · exact h
  · dsimp only
    split
    · exact .foldl h (fun _ _ h => .modCell h)
    · exact h

theorem State.memOk.isolateBad {p : Nat} (h : s.memOk) : (s.isolateBad p).memOk := .foldl h (fun _ _ h => .ite (.idleCell h) h)

theorem State.memOk.restorePart {p inc : Nat} {x : SavedCtx} {same : Bool} {f : Nat → Nat} {g : Nat → Nat → Nat} (h : s.memOk) :
    (s.restorePart p inc x same f g).memOk := .modPart h

theorem Acc.Keeps.viewWord {w ctx va : Nat} (h : s.memOk) : Acc.Keeps (fun x => x.1.memOk) (s.viewWord w ctx va) := by
  unfold State.viewWord
  split
  · next heq => exact .held (State.memOk.of_fst (.walk h) heq)
  · exact .flt
  · exact .flt
  · next heq => exact .bind .chk <| fun _ _ => .bind .lineReady <| fun _ _ => .bind .homeRead <| fun _ _ => .ok (.touchAs (State.memOk.of_fst
      (.walk h) heq))

theorem Acc.Keeps.viewSlots {w ctx : Nat} {ptr : Word} {n : Nat} (h : s.memOk) : Acc.Keeps (fun x => x.1.memOk) (s.viewSlots w ctx ptr n) :=
  .foldlMPair h (fun _ _ h => .bind (.viewWord h) <| fun _ h => .bind (.viewWord h) <| fun _ h => .ok h)

theorem Acc.Keeps.rereadSlots {p ctx id : Nat} {q : Plot} (h : s.memOk) : Acc.Keeps (fun x => x.1.memOk) (s.rereadSlots p ctx id q) := by
  refine .foldlMPair h (fun _ _ h => .bind (.imageEcc (.viewSlots h)) <| fun _ h => ?_)
  dsimp only
  split
  · exact .refuse
  · exact .ok h

theorem State.memOk.putSlots {q : Plot} {l : List ((Nat × Nat) × List Nat)} (h : s.memOk) : (s.putSlots q l).memOk :=
  .foldl h (fun _ _ h => .foldl h (fun _ _ h => .modCell h))

theorem State.memOk.refusePlot {p id : Nat} {q : Plot} {cause : Nat} {d : List Nat} (h : s.memOk) : (s.refusePlot p id q cause d).memOk :=
  .unconfigure (.haltLine (.record h))

theorem Acc.Keeps.judgePlot {p ctx : Nat} {old : Nat × Plot} (h : s.memOk) : Acc.Keeps State.memOk (s.judgePlot p ctx old) := by
  unfold State.judgePlot
  split
  · exact .ok h
  · refine .ite (.ok (.refusePlot h)) (.ite (.ok (.isolateLines h)) ?_)
    split
    · next heq => exact .ok (.putSlots (.isolateLines (Acc.Keeps.of_ok (.rereadSlots h) heq)))
    · exact .ok (.refusePlot h)
    · next heq => exact .error (Acc.Keeps.of_error (.rereadSlots h) heq)

theorem State.memOk.restoreArrivals {p : Nat} (h : s.memOk) : (s.restoreArrivals p).memOk :=
  .foldl h (fun _ _ h => .foldl h (fun _ _ h => .foldl h (fun _ _ h => .ite (.latchCore (.modCore h)) h)))

theorem State.memOk.lateTimers {p : Nat} (h : s.memOk) : (s.lateTimers p).memOk :=
  .foldl h (fun _ _ h => .foldl (.timedBallast h) (fun _ _ h => .ite (.fireSlot h) h))

theorem State.memOk.emptyPart {p : Nat} (h : s.memOk) : (s.emptyPart p).memOk :=
  .isolateBad (.modPart (.restoreCells (.restoreHgs (.restoreCores h))))

theorem Acc.Keeps.restoreCtx {p inc : Nat} (h : s.memOk) : Acc.Keeps State.memOk (s.restoreCtx p inc) := by
  refine .bind (.foldlM (.isolateBad ?_) (fun _ _ h => .judgePlot h)) <| fun _ h => .ok (.lateTimers (.restoreArrivals h))
  split
  · exact .modLaunch (.modMod (.modCtx (.restorePart (.restoreCells (.restoreHgs (.restoreCores (.ite h (.advancePlace h))))))))
  · exact .modMod (.modCtx (.restorePart (.restoreCells (.restoreHgs (.restoreCores (.ite h (.advancePlace h)))))))

theorem Acc.Keeps.flip {p inc : Nat} (h : s.memOk) : Acc.Keeps State.memOk (s.flip p inc) := by
  refine .bind .waitFor fun _ _ => .bind .flushReady fun _ _ => ?_
  have hsaved : (s.saveActive p).memOk := .saveActive h
  generalize s.saveActive p = u at hsaved
  refine .ite (.bind (.restoreCtx hsaved) fun _ h => .ok (.modPart h)) ?_
  exact .ok (.modPart (.emptyPart hsaved))

theorem Outcome.MemOk.execContextFlip (h : s.memOk) : Outcome.MemOk (execContextFlip s) := by
  refine .next ?_
  split
  · exact .orWait h (.undone (.flip h))
  · exact h
  · exact h

theorem State.memOk.copyArea {src dst n : Nat} (h : s.memOk) : (s.copyArea src dst n).memOk :=
  .modMod (.foldl (.clearRange h) (fun _ _ h => .setByte h))

theorem State.memOk.areaTouch {a n : Nat} {st : Bool} (h : s.memOk) : (s.areaTouch a n st).memOk := .modCluster (.foldl h (fun _ _ h => .touchAs h))

theorem State.memOk.endSwitch {p inc : Nat} {out : Option Nat} (h : s.memOk) : (s.endSwitch p inc out).memOk := by
  refine .ite (.modPart (.ite (.modCtx ?_) ?_)) h
  · split
    · exact .modCtx h
    · exact h
  · split
    · exact .modCtx h
    · exact h

theorem State.memOk.spillTo {o a key lo n : Nat} (h : s.memOk) : (s.spillTo o a key lo n).memOk := .ite (.modCtx (.areaTouch (.copyArea h))) h

theorem State.memOk.restoreFrom {a : Option Nat} {lo n : Nat} (h : s.memOk) : (s.restoreFrom a lo n).memOk := by
  unfold State.restoreFrom
  split
  · exact .areaTouch (.copyArea h)
  · exact .clearRange h

theorem Acc.Keeps.spillRestore {p inc : Nat} {out : Option Nat} {c : Nat} (h : s.memOk) : Acc.Keeps State.memOk (s.spillRestore p inc out c) := by
  unfold State.spillRestore
  split
  · exact .ok h
  · refine .bind .awake <| fun _ _ => .ok (.modCore (.restoreFrom ?_))
    split
    · exact .spillTo (.devTouch h)
    · exact .devTouch h

theorem Outcome.MemOk.execBankSpillRestore (h : s.memOk) : Outcome.MemOk (execBankSpillRestore s) := by
  refine .next ?_
  split
  · exact h
  · split
    · exact .orWait h (.bind (.spillRestore h) <| fun _ h => .ok (.endSwitch h))
    · exact h

/-! ## The functions of Machine/Vec -/

theorem Outcome.MemOk.vop2 {d a b : VReg} {g : PReg} {t : LaneType} {op : EOp} (h : s.memOk) : Outcome.MemOk (s.vop2 d a b g t op) :=
  .plain h (.done (.setV h))

theorem Outcome.MemOk.vop1 {d a : VReg} {g : PReg} {t : LaneType} {op : EOp} (h : s.memOk) : Outcome.MemOk (s.vop1 d a g t op) :=
  .plain h (.done (.setV h))

theorem Outcome.MemOk.fsc2 {d a b : SReg} {g : PReg} {op : EOp} (h : s.memOk) : Outcome.MemOk (s.fsc2 d a b g op) := .plain h (.done (.setS h))

theorem Outcome.MemOk.fsc1 {d a : SReg} {g : PReg} {op : EOp} (h : s.memOk) : Outcome.MemOk (s.fsc1 d a g op) := .plain h (.done (.setS h))

theorem Outcome.MemOk.vred {d a : VReg} {g : PReg} {f : List Nat → Nat} (h : s.memOk) : Outcome.MemOk (s.vred d a g f) := .plain h (.done (.setV h))

theorem Outcome.MemOk.execVsum {d a : VReg} {g : PReg} (h : s.memOk) : Outcome.MemOk (execVsum d a g s) := by
  unfold Machine.execVsum
  exact .vred h

/-! ## The functions of Machine/Dispatch -/

theorem Outcome.MemOk.exec {i : Instr} (h : s.memOk) : Outcome.MemOk (exec i s) := by
  unfold Machine.exec
  cases i with
  | add | sub | and | or | xor | andn | shl | shr | sra | ror | min | max | minn | maxn | mul | mulh | mulhn | div | divn | rem | remn
  | sext | zext => exact .alu2 h
  | clz | ctz | popc | brev | addi | andi | ori | xori | shfiShl | shfiShr | shfiSra | shfiRor | muli | lis => exact .alu1 h
  | sel | li | ptos | mkptr | pspc | padd | pcore => exact .plain h (.done (.setS h))
  | setpEq | setpNe | setpLt | setpGe | setpLtn | setpGen => exact .setp h
  | setpiEq | setpiNe | setpiLt | setpiGe => exact .setpi h
  | pand | por | pxor => exact .plog2 h
  | pnot | pmov => exact .plain h (.done (.setP h))
  | keylk | nop => exact .plain h (.done h)
  | br => exact .plain h (.ite (.ok h) (.done h))
  | call => exact .plain h (.ite (.ok (.setS h)) (.done h))
  | jr | ret => exact .plain h (.jumpTo h)
  | jalr => exact .plain h (.jumpTo (.setS h))
  | jtab => exact .plain h (.bind (.loadVia h) <| fun _ h => .ok h)
  | loop => exact .plain h (.ite (.beginLoop h) .flt)
  | loopi => exact .plain h (.beginLoop h)
  | lbrk => exact .execLbrk h
  | fork | seed => exact .unforked h (.done (.setMe h))
  | swq => exact .onlyForked h (.done (.setMe h))
  | pick => exact .ite (.next (.pickBank h)) (.onlyForked h (.done h))
  | ld => exact .plain h (.bind (.loadEa h) <| fun _ h => .done (.setS h))
  | st => exact .execSt h
  | ldv => exact .plain h (.bind (.loadEa h) <| fun _ h => .done (.setV h))
  | stv => exact .execStv h
  | amoAadd | amoAmin | amoAmax | amoAminn | amoAmaxn | amoAand | amoAor | amoAxor | amoAswap | amoAcas | amoAfadd => exact .amo h
  | fence => exact .unforked h (.bind (.fullFence h) <| fun _ h => .done h)
  | fenceLd => exact .unforked h (.bind (.fenceL1 h) <| fun _ h => .done h)
  | fenceSt => exact .unforked h (.bind .waitFor <| fun _ _ => .bind (.fenceL1 h) <| fun _ h => .done h)
  | wfence => exact .unforked h (.bind .waitFor <| fun _ _ => .done (.setMe h))
  | mfence => exact .execMfence h
  | ifence => exact .unforked h (.bind .waitFor <| fun _ _ => .bind (.fenceL1 h) <| fun _ h => .done (.setMe h))
  | binit => exact .unforked h (.bind .barRead <| fun _ _ => .done (.barWrite h))
  | barr =>
    exact .unforked h (.bind .barSlotOk <| fun _ _ => .bind (.release h) <| fun _ h => .bind (.keeping h .barRead) <| fun _ _ =>
      .bind .barRecArrive <| fun _ _ => .done (.setS (.barWrite h)))
  | bwait => exact .unforked h (.bind .barRead <| fun _ _ => .bind .waitFor <| fun _ _ => .done (.acquire (.touch h)))
  | bleave => exact .unforked h (.bind .barSlotOk <| fun _ _ => .bind .barRead <| fun _ _ => .done (.barWrite h))
  | bqry => exact .unforked h (.bind .chk <| fun _ _ => .bind .barRead <| fun _ _ => .done (.setS (.touch h)))
  | qsend => exact .execQsend h
  | qrecv => exact .execQrecv h
  | qpoll => exact .unforked h (.bind .queueOk <| fun _ _ => .done (.setS h))
  | collAllred | collRedscat | collAllgath | collBcast | collA2a => exact .coll h
  | lrpatch =>
    exact .unforked h (.bind .chk <| fun _ _ => .bind .chk <| fun _ _ => .bind .chk <| fun _ _ => .bind .chk <| fun _ _ => .done (.modLaunch h))
  | lrarm => exact .unforked h (.bind .chk <| fun _ _ => .bind (.release h) <| fun _ h => .bind (.armRecord h) <| fun _ h => .done h)
  | lrqry => exact .unforked h (.bind .chk <| fun _ _ => .bind .chk <| fun _ _ => .done (.setS h))
  | cntadd => exact .unforked h (.bind .chk <| fun _ _ => .done (.modCore h))
  | vcnt => exact .unforked h (.done (.modCore h))
  | cntrd => exact .unforked h (.bind .chk <| fun _ _ => .done (.setS h))
  | cntsnap => exact .unforked h (.bind (.storePieces h) <| fun _ h => .done (.setS (.modCore h)))
  | wtrd => exact .unforked h (.done (.setS h))
  | atset => exact .execAtset h
  | atcan => exact .execAtcan h
  | atwait => exact .unforked h (.bind .slotIndex <| fun _ _ => .bind .waitFor <| fun _ _ => .done (.setS (.modMe h)))
  | bwph => exact .execBwph h
  | bwqry => exact .execBwqry h
  | cfg => exact .execCfg h
  | cfgwait => exact .unforked h (.bind .waitFor <| fun _ _ => .done (.setS h))
  | cfgwaitQ => exact .unforked h (.bind .plotId <| fun _ _ => .done (.setS h))
  | start => exact .unforked h (.bind .plotId <| fun _ _ => .bind .startable <| fun _ _ => .done (.startPlot h))
  | stopp => exact .execStopp h
  | stoppNow => exact .unforked h (.bind .plotId <| fun _ _ => .bind .chk <| fun _ _ => .done (.stopNow h))
  | splarm => exact .unforked h (.bind .chk <| fun _ _ => .bind (.readRec h) <| fun _ h => .done (.setMe h))
  | splice => exact .execSplice h
  | bypmap | bypmapCol => exact .unforked h (.bypmap h)
  | dlyset | holdtab =>
    exact .unforked h (.bind (.loadVia h) <| fun _ h => .bind .idlePlot <| fun _ _ => .bind .chk <| fun _ _ => .bind .chk <| fun _ _ =>
      .done (.setPlot h))
  | shld => exact .execShld h
  | shst => exact .execShst h
  | strm => exact .execStrm h
  | strmq => exact .execStrmq h
  | xform => exact .execXform h
  | cbload => exact .execCbload h
  | slset => exact .unforked h (.bind .chk <| fun _ _ => .bind .chk <| fun _ _ => .bind .chk <| fun _ _ => .done (.setSluice h))
  | slput => exact .unforked h (.bind .sluiceSet <| fun _ _ => .bind .chk <| fun _ _ => .done (.advanceP h))
  | sltake => exact .unforked h (.bind .sluiceSet <| fun _ _ => .bind .chk <| fun _ _ => .done (.advanceC (.lowerClaim h)))
  | slqry | slqryD => exact .unforked h (.bind .sluiceSet <| fun _ _ => .done (.setS h))
  | slwaitData | slwaitRoom => exact .unforked h (.bind .sluiceSet <| fun _ _ => .bind .chk <| fun _ _ => .bind .waitFor <| fun _ _ => .done h)
  | tstep => exact .execTstep h
  | tstepV => exact .execTstepV h
  | wtbl => exact .execWtbl h
  | wdec => exact .execWdec h
  | wseek => exact .execWseek h
  | wdqry => exact .execWdqry h
  | scset => exact .execScset h
  | scfl => exact .execScfl h
  | chain => exact .execChain h
  | chconst => exact .execChconst h
  | vopAdd | vopSub | vopMul | vopFma | vopFnma | vopMin | vopMax | vopClamp | vopSel | vopCmpeq | vopCmplt | vopCmple => exact .vop2 h
  | vopAbs | vopNeg | vopRsqs | vopRcps | vopExp2s | vopLog2s | vopRelu | vopMov => exact .vop1 h
  | vopAmaxu | vcvt | vamax | vqnt => exact .plain h (.done (.setMe h))
  | vsum => exact .execVsum h
  | vmax | vmin => exact .vred h
  | vbcast | vext | vshuf | vins | vsaccE2m1 | vsaccE4m3 => exact .plain h (.done (.setV h))
  | fscAdd | fscSub | fscMul | fscFma | fscFnma | fscMin | fscMax | fscClamp | fscSel | fscCmpeq | fscCmplt | fscCmple => exact .fsc2 h
  | fscAbs | fscNeg | fscRsqs | fscRcps | fscExp2s | fscLog2s | fscRelu | fscMov => exact .fsc1 h
  | trap => exact .unforked h (.bind .chk <| fun _ _ => .ok (.setMe h))
  | eret => exact .issue h (.bind .chk <| fun _ _ => .ok (.setMe h))
  | mrd => exact .ite (.next (.precise h)) (.issue h (.done (.setS h)))
  | mwr => exact .ite (.next (.precise h)) (.issue h (.bind (.sysWrite h) <| fun _ h => .done h))
  | yield => exact .execYield h
  | wait => exact .plain h (.bind .chk <| fun _ _ => .bind .waitFor <| fun _ _ => .done (.setS (.setMe h)))
  | halt => exact .unforked h (.bind .waitFor <| fun _ _ => .ok (.ite (.rmcHalt h) (.becomeFree h)))
  | brk => exact .unforked h (.ok (.debugHalt h))
  | dbgh => exact .issue h (.bind .chk <| fun _ _ => .ok (.ite (.waferHalt (.ite (.retire h) (.debugHalt h))) (.ite (.retire h) (.debugHalt h))))
  | powerOnReset => exact .next (.bootFirst (.modMod .reset))
  | hostPortTraining | ptpEvent | ethLinkEvent | ethFrameRetransmit | servoLockChange => exact .next (.modMod h)
  | mread => exact .next (.ite h (.ite (.agentRead h) (.complete h)))
  | mwrite => exact .next (.ite h (.ite (.agentWrite h) (.complete h)))
  | registerWrite | semFree | partitionEnable | pcmdResume | pcmdHalt | pcmdSwitch | pringrdWrite | pringbaseWrite | pstopbaseWrite
  | pringctlWrite | ctxCreate | ctxDestroy | xinvCtx | xinvPage | xinvAll | tskctlWrite | ttbaseWrite | routeTableWrite | bpcClassWrite
  | clQreqWrite | clSwallowReqWrite | clRailReqWrite | clWakeWrite | rmcDoorbell | retcmdTest | retcmdRetire | retcmdCellbad
  | dbgctlHaltall | dbgctlResumeall => exact .next (.regEvent h)
  | mbBoot => exact .next (.mailbox h (fun _ h => .boot h))
  | mbAttest => exact .next (.mailbox h (fun _ h => .attest h))
  | mbPubkey => exact .next (.mailbox h (fun _ h => .pubkey h))
  | mbManifest => exact .next (.mailbox h (fun _ h => .manifest h))
  | mbInstall => exact .next (.mailbox h (fun _ h => .install h))
  | mbCmap => exact .next (.mailbox h (fun _ h => .cmapCmd h))
  | hostBuild => exact .next (.hostCmd h (fun _ _ => .hostBuild h))
  | hostLaunch => exact .next (.hostCmd h (fun _ _ => .hostLaunch h))
  | hostCancel => exact .next (.hostCmd h (fun _ _ => .hostCancel h))
  | hostClear => exact .next (.hostCmd h (fun _ _ => .hostClear h))
  | hostTeardown => exact .next (.hostCmd h (fun _ _ => .hostTeardown h))
  | semRead | kmfifoRead => exact .next (.ite (.agentRead h) h)
  | deviceLaunch => exact .next (.deviceLaunch h)
  | launchDispatch => exact .next (.dispatch h)
  | preemptRequest => exact .execPreemptRequest h
  | graphNodeEnd => exact .next (.nodeEvent h (fun _ _ _ _ _ h => .endLaunch h))
  | graphNodeLoad =>
    exact .next (.nodeEvent h (fun _ _ _ _ _ h => .bind .waitFor <| fun _ _ => .ite (.okBind (.bind (.loadTasks (.pendingRoles h)) <| fun _ h =>
      .ok (.startLoad h))) (.bind (.walkerCfg h) <| fun _ h => .bind (.loadTasks (.pendingRoles h)) <| fun _ h => .ok (.startLoad h))))
  | loadEnd => exact .execLoadEnd h
  | graphNodeCond => exact .next (.nodeEvent h (fun _ _ _ _ _ h => .bind (.readCond h) <| fun _ h => .ok (.walkTo h)))
  | graphNodeWhile => exact .next (.nodeEvent h (fun _ _ _ _ _ h => .bind (.readCond h) <| fun _ h => .whileNode h))
  | graphNodeHold => exact .next (.nodeEvent h (fun _ _ _ _ _ h => .bind (.readCond h) <| fun _ h => .ok (.holdNode h)))
  | holdNodeReread => exact .execHoldNodeReread h
  | graphNodeArm => exact .next (.nodeEvent h (fun _ _ _ _ _ h => .armNode h))
  | xinvComplete => exact .next (.xinvEnd h)
  | translationWalkDone => exact .next (.walkDone h)
  | yieldDeadline => exact .execYieldDeadline h
  | cooperativeStop => exact .execCooperativeStop h
  | cooperativeTimeout => exact .execCooperativeTimeout h
  | contextFlip => exact .execContextFlip h
  | bankSpillRestore => exact .execBankSpillRestore h
  | haltLineArrival => exact .execHaltLineArrival h
  | stopRecordsDone => exact .next (.ite (.modPart (.writeStops h)) h)
  | plotRowAttempt => exact .next (.attemptRow h)
  | markCommit => exact .execMarkCommit h
  | timingLimit => exact .execTimingLimit h
  | plotRelease => exact .execPlotRelease h
  | tstepFeedPresent => exact .next (.feedPresent h)
  | cfgSwitching => exact .execCfgSwitching h
  | cfgBackgroundDone => exact .next (.enterWaves (.ite (.cfgBackground h) h))
  | spliceStagingDone => exact .next (.enterWaves (.stageSplice h))
  | streamNodeRead => exact .next (.nodeRead h)
  | streamNodeFire => exact .execStreamNodeFire h
  | chainFire => exact .execChainFire h
  | decoderSegmentDecode => exact .next (.decodeNext h)
  | decoderWordDeliver => exact .execDecoderWordDeliver h
  | scaleCacheFill => exact .execScaleCacheFill h
  | taskSchedulerCycle => exact .execTaskSchedulerCycle h
  | queueMessageArrival => exact .execQueueMessageArrival h
  | routerForward => exact .execRouterForward h
  | packetDeliver => exact .execPacketDeliver h
  | timedActionFire => exact .next (.ite (.fireSlot h) h)
  | domainWindowBoundary => exact .next (.ite (.takeSync h) h)
  | servoAdjust => exact .next (.ite (.tick h) h)
  | remoteAccessArrival => exact .execRemoteAccessArrival h
  | l1SectorAgeWriteback => exact .execL1SectorAgeWriteback h
  | bankIdleLower => exact .next (.lowerBank h)
  | bankWakeComplete => exact .next (.wakeDone h)
  | bwphApply => exact .next (.ite (.applyPhase h) h)
  | bankPhaseWakeStart => exact .next (.ite (.beginWake h) h)
  | bwphPhaseTime => exact .next (.ite (.foldl h (fun _ _ h => .ite h (.ite (.beginWake h) (.bankUp h)))) h)
  | budgetIntervalBoundary => exact .next (.ite (.setCluster h) h)
  | quiescePointChange => exact .next (.quiescePoint h)
  | swallowForceTimeout => exact .next (.ite (.foldl h (fun _ _ h => .modCluster h)) h)
  | railTransitionDone => exact .next (.railDown h)
  | clusterWakeDone => exact .next (.railUp h)
  | thermalSample => exact .next (.ite (.thermalSample h) h)
  | energyInterval => exact .next (.ite (.chargeEnergy (.chargeEnergy (.chargeEnergy h))) h)
  | ballastStep => exact .next (.modCluster h)
  | rmcWake => exact .next (.rmcWake h)
  | testComplete => exact .next (.ite (.endTest h) h)
  | retireComplete => exact .next (.ite (.endRetire h) h)
  | patrolScrub => exact .execPatrolScrub h
  | sliceRowRemap => exact .next (.ite h (.ite (.writeEntry (.modMod h)) (.writeEntry (.modMod (.modMod h)))))
  | testPortHalt => exact .next (.waferHalt h)
  | collComplete => exact .next (.collComplete h)
  | illegalEncoding | instructionFetchFault => exact .next (.precise h)
  | streamNodeWriteWalk => exact .next (.nodeWrite h)
  | remoteAcknowledgement => exact .execRemoteAcknowledgement h

/-! ## The functions of Machine/Fetch -/

theorem Acc.Keeps.rmcFetchAddr {pc : Word} : Acc.Keeps (fun _ => True) (s.rmcFetchAddr pc) :=
  .bind .chk <| fun _ _ => .bind .chk <| fun _ _ => .bind .chk <| fun _ _ => .pass

theorem Acc.Keeps.fetch (h : s.memOk) : Acc.Keeps (fun x => x.1.memOk) (s.fetch) := by
  unfold State.fetch
  dsimp only
  split
  · exact .ok h
  · refine .ite (.bind .rmcFetchAddr <| fun _ _ => .bind .mgmtCrossing <| fun _ _ => .bind .dramReady <| fun _ _ => .bind .homeRead <| fun _ _ =>
      .ok (.setMe (.touchAs h))) (.bind .chk <| fun _ _ => .bind .resolve <| fun _ _ => ?_)
    split
    · exact .bind .homeReady <| fun _ _ => .bind (.loadAt h) <| fun _ h => .ok (.setMe h)
    · exact .flt
    · exact .flt
    · exact .flt

theorem State.memOk.dropWord {k a : Nat} (h : s.memOk) : (s.dropWord k a).memOk := .modHg h

/-! ## The functions of Machine/Turn -/

theorem State.memOk.noted {l : List Place} (h : s.memOk) : (s.noted l).memOk := .foldl h (fun _ _ h => .noteTurn h)

theorem Outcome.MemOk.issueNext {k : Nat} (h : s.memOk) : Outcome.MemOk (issueNext k s) := by
  have hk : ({ s with cur := k } : State).memOk := h
  unfold Machine.issueNext
  dsimp only
  split
  · next heq =>
    split
    · exact .ite (.exec (.noted (Acc.Keeps.of_ok (.fetch hk) heq))) (.next (.noteTurn hk))
    · exact .ite (.exec (.noted (Acc.Keeps.of_ok (.fetch hk) heq))) (.next (.noteTurn hk))
  · exact .ite (.exec (.noted hk)) (.next (.noteTurn hk))
  · next heq => exact .next (.noteTurn (.stall hk (Acc.Keeps.of_error (.fetch hk) heq)))

theorem Outcome.MemOk.eventStep {e : Event} (h : s.memOk) : Outcome.MemOk (eventStep e s) := .ite (.exec (.noted h)) (.next h)

theorem State.memOk.evictSector {c sec : Nat} (h : s.memOk) : (s.evictSector c sec).memOk :=
  .orWait h (.bind .sectorsReady <| fun _ _ => .ok (.l1Drop (.l1WriteBack h)))

theorem State.memOk.evictLine {cl line : Nat} (h : s.memOk) : (s.evictLine cl line).memOk := by
  refine .orWait h ?_
  dsimp only
  split
  · exact .ite (.bind .awake <| fun _ _ => .bind .budgetReady <| fun _ _ => .ok (.l2Evict h)) (.ok (.l2Evict h))
  · exact .ok (.l2Evict h)

theorem Outcome.MemOk.act {a : Machine.Action} (h : s.memOk) : Outcome.MemOk (act a s) := by
  unfold Machine.act
  split
  · exact .ite (.issueNext h) (.next h)
  · exact .ite (.eventStep h) (.next h)
  · exact .next (.evictSector h)
  · exact .next (.dropWord h)
  · exact .next (.evictLine h)
  · exact .next h
  · exact .next (.eccError h)

theorem Outcome.MemOk.forcedStep {e : Event} (h : s.memOk) : Outcome.MemOk (forcedStep e s) := .exec (.noted h)

theorem Outcome.MemOk.agendaStep (h : s.memOk) : Outcome.MemOk (agendaStep s) := by
  unfold Machine.agendaStep
  split
  · exact .act h
  · exact .next (.tick h)
  · exact .ite (.issueNext h) (.next (.tick h))

theorem Outcome.MemOk.settled {o : Host.Outcome State Fault Refusal} (ho : Outcome.MemOk o) : Outcome.MemOk (settled o) := by
  intro t ht
  obtain ⟨u, hu, rfl⟩ := settled_next ht
  exact .unforce (.endSweep (.settle (ho u hu)))

/-! ## The functions of Machine/Step -/

theorem Outcome.MemOk.step (h : s.memOk) : Outcome.MemOk (step s) := by
  rcases step_cases s with ⟨e, -, hs⟩ | ⟨-, hs⟩
  · rw [hs]
    exact .settled (.forcedStep h)
  · rw [hs]
    exact .settled (.agendaStep h)

end Sys2Proof.Machine
end

section
namespace Sys2Proof.Proofs
open Sys2Proof.Machine

/-- Settles O59: every function that a step calls keeps the canonical form, up to `Outcome.MemOk.step`. -/
theorem stepKeepsMemoryCanonical : Obligations.StepKeepsMemoryCanonical := by
  unfold Obligations.StepKeepsMemoryCanonical
  intro s t h hstep
  exact Outcome.MemOk.step (s := s) h t hstep

end Sys2Proof.Proofs
end

section
/-! SUPPORT. The vector instructions (08 R231 to R235; 02 R38, R48). -/

namespace Sys2Proof.Proofs

open Sys2Proof.Machine Sys2Proof.Claims

/-- Settles O4: each is issued as one write of v[d] under its guard, with the value of its table (`exec_of_vectorResult`); AMAXU, VAMAX, VCVT and
VQNT write AMAX, NSEEN and G in the same write. -/
theorem vectorInstructionsGiveTheirResults : Obligations.VectorInstructionsGiveTheirResults := by
  refine ⟨fun i g d f s hi hg => (exec_of_vectorResult s hi).trans (plain_run s hg), fun d a g s hg => ?_⟩
  have hrun : ∀ t : State, s.plain g (done t) = .next t.retire := fun t => plain_run s hg
  exact ⟨fun t => hrun _, hrun _, fun t f => hrun _, fun f => hrun _⟩

end Sys2Proof.Proofs
end

section
/-! SUPPORT. The sluice instructions (08 R219, R220; 10 R260): the sluice that each names, and what each does after its checks. -/

namespace Sys2Proof.Machine

open Sys2Proof.Claims

variable {s : State} {x : SlReg}

/-- The sluice that a sequencer names is that of its core. -/
theorem sluice_eq (s : State) (x : SlReg) : s.sluice x = (s.core (unitCore s.cur)).sluices.get x := by
  rw [State.sluice, Core.sluice, Fin.ofNat_eq_cast, Fin.cast_val_eq_self]

theorem modSluice_eq (k : Core) (x : SlReg) (f : Sluice → Sluice) :
    k.modSluice x.val f = { k with sluices := k.sluices.set x (f (k.sluices.get x)) } := by
  simp only [Core.modSluice, Fin.ofNat_eq_cast, Fin.cast_val_eq_self]

theorem slDescOk_iff (y : Sluice) : slDescOk y = true ↔ slLegal y.desc := by
  simp only [slDescOk, Bool.and_eq_true, decide_eq_true_eq, beq_iff_eq, and_assoc]
  rfl

/-- P of a sluice goes on by n units (08 R220). -/
theorem advanceP_eq (s : State) (c : Nat) (x : SlReg) (n : Nat) :
    let y := (s.core c).sluices.get x
    s.advanceP c x.val n = if n = 0 then s else
      ((s.modCore c fun k => { k with sluices := k.sluices.set x { y with p := (y.p + n) % 2 ^ 32 } }).displace c x.val y.p n).latchCore c 2 := by
  simp only [State.advanceP, modCore_eq, modSluice_eq, Fin.ofNat_eq_cast, Fin.cast_val_eq_self]

/-- C of a sluice goes on by n units (08 R220). -/
theorem advanceC_eq (s : State) (c : Nat) (x : SlReg) (n : Nat) :
    let y := (s.core c).sluices.get x
    s.advanceC c x.val n = if n = 0 then s else
      (s.modCore c fun k => { k with sluices := k.sluices.set x { y with c := (y.c + n) % 2 ^ 32 } }).latchCore c 2 := by
  simp only [State.advanceC, modCore_eq, modSluice_eq]

/-- Only a task has claims to give up (10 R260). -/
theorem lowerClaim_noTask (h : ∀ l, s.me.run ≠ .task l) (sl n : Nat) : s.lowerClaim sl n = s := by
  unfold State.lowerClaim
  split
  · next l hl => exact absurd hl (h l)
  · rfl
  · rfl

section Run

variable {a : SReg} (hf : s.me.forked = false)
include hf

/-- Does no engine command or drain of a core name a sluice (08 R219)? -/
def State.sluiceFree (s : State) (c sl : Nat) : Bool := (List.range 4).all fun h => !(s.hg (4 * c + h)).namesSluice sl

omit hf in
theorem sluiceFree_iff {c sl : Nat} : s.sluiceFree c sl = true ↔ ∀ h, h < 4 → (s.hg (4 * c + h)).namesSluice sl = false := by
  simp only [State.sluiceFree, List.all_eq_true, List.mem_range, Bool.not_eq_true']

/-- SLSET: its descriptor, its region, then the engine commands that name it (08 R219). -/
theorem exec_slset :
    let c := unitCore s.cur
    let d := s.getS a
    exec (.slset x a) s = .next (
      if slLegal d then
        if slEnd d ≤ s.regionBytes s.cur (if bits d.toNat 54 2 = 1 then 3 else 2) then
          if s.sluiceFree c x.val then
            (s.modCore c fun k => { k with
              sluices := k.sluices.set x { set := true, desc := d, open_ := !bit d.toNat 53, claim := (k.sluices.get x).claim } }).retire
          else s.precise cSluice []
        else s.precise cAddr []
      else s.precise cIllegal []) := by
  refine (unforked_run s hf rfl).trans (congrArg _ ?_)
  dsimp only
  rw [finish_chk, finish_chk, finish_chk]
  simp only [slDescOk_iff, decide_eq_true_eq, sluice_eq]
  rfl

section Set

variable (hset : ((s.core (unitCore s.cur)).sluices.get x).set = true)
include hset

omit hf in
theorem sluiceSet_set : s.sluiceSet x = .ok ((s.core (unitCore s.cur)).sluices.get x) := by
  rw [State.sluiceSet, sluice_eq, hset]
  rfl

theorem exec_slput : exec (.slput x a) s = .next (
    let y := (s.core (unitCore s.cur)).sluices.get x
    if bits y.desc.toNat 54 2 ≠ 1 ∧ (s.getS a).toNat ≤ unitsAll y - unitsIn y then
      (s.advanceP (unitCore s.cur) x.val (s.getS a).toNat).retire
    else s.precise cSluice []) := by
  refine (unforked_run s hf rfl).trans (congrArg _ ?_)
  rw [sluiceSet_set hset, acc_bind_ok, finish_chk]
  simp only [Bool.and_eq_true, bne_iff_ne, decide_eq_true_eq]
  rfl

theorem exec_sltake : exec (.sltake x a) s = .next (
    let y := (s.core (unitCore s.cur)).sluices.get x
    if bits y.desc.toNat 54 2 ≠ 1 ∧ (s.getS a).toNat ≤ unitsSeen y then
      ((s.lowerClaim x.val (s.getS a).toNat).advanceC (unitCore s.cur) x.val (s.getS a).toNat).retire
    else s.precise cSluice []) := by
  refine (unforked_run s hf rfl).trans (congrArg _ ?_)
  rw [sluiceSet_set hset, acc_bind_ok, finish_chk]
  simp only [Bool.and_eq_true, bne_iff_ne, decide_eq_true_eq]
  rfl

theorem slqry_goesOn : goesOn (.slqry x a) s (s.setS a (BitVec.ofNat 64
    (((s.core (unitCore s.cur)).sluices.get x).p % 2 ^ 32 * 2 ^ 32 + ((s.core (unitCore s.cur)).sluices.get x).c % 2 ^ 32))) :=
  (unforked_run s hf rfl).trans (by rw [sluiceSet_set hset]; rfl)

theorem slqryD_goesOn : goesOn (.slqryD x a) s (s.setS a ((s.core (unitCore s.cur)).sluices.get x).read) :=
  (unforked_run s hf rfl).trans (by rw [sluiceSet_set hset]; rfl)

theorem exec_slwaitData : exec (.slwaitData x a) s = .next (
    let y := (s.core (unitCore s.cur)).sluices.get x
    if (s.getS a).toNat ≤ unitsAll y then if (s.getS a).toNat ≤ unitsSeen y then s.retire else s else s.precise cSluice []) := by
  refine (unforked_run s hf rfl).trans (congrArg _ ?_)
  rw [sluiceSet_set hset, acc_bind_ok, finish_chk, finish_waitFor]
  simp only [decide_eq_true_eq]
  rfl

theorem exec_slwaitRoom : exec (.slwaitRoom x a) s = .next (
    let y := (s.core (unitCore s.cur)).sluices.get x
    if (s.getS a).toNat ≤ unitsAll y then if (s.getS a).toNat ≤ unitsAll y - unitsIn y then s.retire else s else s.precise cSluice []) := by
  refine (unforked_run s hf rfl).trans (congrArg _ ?_)
  rw [sluiceSet_set hset, acc_bind_ok, finish_chk, finish_waitFor]
  simp only [decide_eq_true_eq]
  rfl

end Set

/-- An instruction that looks up its sluice first raises SLUICE_MISUSE when that has not been set (08 R220). -/
theorem unforked_sluice_unset {k : Sluice → Eff} (h : ((s.core (unitCore s.cur)).sluices.get x).set = false) :
    s.unforked 0 (s.sluiceSet x >>= k) = .next (s.precise cSluice []) := by
  rw [unforked_run s hf rfl, State.sluiceSet, sluice_eq, h]
  rfl

end Run

end Sys2Proof.Machine

namespace Sys2Proof.Proofs

open Sys2Proof.Machine Sys2Proof.Claims

/-- Settles O39: SLSET by its checks in their order (`exec_slset`); the others first find their sluice (`sluiceSet_set`,
`unforked_sluice_unset`), then check their units and move a pointer (`advanceP_eq`, `advanceC_eq`), read, or wait. -/
theorem sluicesCountTheirUnits : Obligations.SluicesCountTheirUnits := by
  intro s x a hf c y d n
  have hslset := exec_slset (x := x) (a := a) hf
  refine ⟨fun hlegal hregion => ⟨fun hfree => ?_, fun hnamed => ?_⟩, fun hbad => ?_, fun hlegal hregion => ?_, fun hset hkind => ?_,
    fun hset hkind => ?_, fun hset => ?_, fun hunset => ?_⟩
  · refine hslset.trans ?_
    rw [if_pos hlegal, if_pos hregion, if_pos (sluiceFree_iff.2 hfree)]
    rfl
  · obtain ⟨h, hlt, hnames⟩ := hnamed
    refine hslset.trans ?_
    rw [if_pos hlegal, if_pos hregion, if_neg fun hfree => Bool.eq_false_iff.1 (sluiceFree_iff.1 hfree h hlt) hnames]
    rfl
  · exact hslset.trans (congrArg _ (if_neg hbad))
  · refine hslset.trans ?_
    rw [if_pos hlegal, if_neg (Nat.not_le.mpr hregion)]
    rfl
  · have hput := exec_slput (a := a) hf hset
    have htake := exec_sltake (a := a) hf hset
    refine ⟨fun hroom => ?_, fun hseen htask => ?_, fun hseen => htake.trans (congrArg _ (if_pos ⟨hkind, hseen⟩)),
      fun hfull => hput.trans (congrArg _ (if_neg fun h => Nat.not_le.mpr hfull h.2)),
      fun hfew => htake.trans (congrArg _ (if_neg fun h => Nat.not_le.mpr hfew h.2))⟩
    · refine (hput.trans (congrArg _ (if_pos ⟨hkind, hroom⟩))).trans ?_
      rw [advanceP_eq]
    · refine (htake.trans (congrArg _ (if_pos ⟨hkind, hseen⟩))).trans ?_
      rw [lowerClaim_noTask htask, advanceC_eq]
  · exact ⟨(exec_slput hf hset).trans (congrArg _ (if_neg fun h => h.1 hkind)),
      (exec_sltake hf hset).trans (congrArg _ (if_neg fun h => h.1 hkind))⟩
  · have hdata := exec_slwaitData (a := a) hf hset
    have hroom := exec_slwaitRoom (a := a) hf hset
    refine ⟨slqry_goesOn hf hset, slqryD_goesOn hf hset, fun hall h => ?_, fun hall h => ?_, fun hall h => ?_, fun hall h => ?_,
      fun hall => ⟨hdata.trans (congrArg _ (if_neg (Nat.not_le.mpr hall))), hroom.trans (congrArg _ (if_neg (Nat.not_le.mpr hall)))⟩⟩
    · exact hdata.trans (congrArg _ ((if_pos hall).trans (if_pos h)))
    · exact hdata.trans (congrArg _ ((if_pos hall).trans (if_neg (Nat.not_le.mpr h))))
    · exact hroom.trans (congrArg _ ((if_pos hall).trans (if_pos h)))
    · exact hroom.trans (congrArg _ ((if_pos hall).trans (if_neg (Nat.not_le.mpr h))))
  · exact ⟨unforked_sluice_unset hf hunset, unforked_sluice_unset hf hunset, unforked_sluice_unset hf hunset,
      unforked_sluice_unset hf hunset, unforked_sluice_unset hf hunset, unforked_sluice_unset hf hunset⟩

end Sys2Proof.Proofs
end

section
/-! SUPPORT. The instructions that are held while FORKED = 1 perform at once while FORKED = 0, as PICK would make them (06 R150, R153). -/

namespace Sys2Proof.Machine

open Sys2Proof.Claims

variable {s t : State} {c : Nat} {dt : List Nat}

theorem chk_of {b : Bool} (h : b = true) : chk b c = .ok () := by rw [h, chk_true]
theorem chk_not {b : Bool} (h : b = false) : chk b c = .error (.fault c []) := by rw [h, chk_false]
theorem waitFor_of {b : Bool} (h : b = true) : waitFor b = .ok () := by rw [h, waitFor_true]
theorem waitFor_not {b : Bool} (h : b = false) : waitFor b = .error (.wait .busy) := by rw [h, waitFor_false]

/-- An instruction that stops at the first of what it does. -/
theorem plain_stops {g : PReg} {x : Acc Unit} {k : Unit → Eff} (hg : s.getP g = true) (h : x = .error (.fault c dt)) :
    s.plain g (x >>= k) = .next (s.precise c dt) := by
  rw [plain_run s hg, h]
  rfl

theorem plain_refused {g : PReg} {b : Bool} {k : Unit → Eff} (hg : s.getP g = true) (h : b = false) :
    s.plain g (chk b c >>= k) = .next (s.precise c []) := plain_stops hg (chk_not h)

section Performs

variable {i : Instr} {g : PReg} {f : State → Operands} {ok : State → Prop} {steps : Bool}

/-- Each instruction of the table but WTBL, which leaves a refused table's slot behind, performs as a held one does (06 R153). -/
theorem exec_of_heldForm_unforked (h : heldForm i = some (g, f, ok, steps)) (hi : ∀ a b g, i ≠ .wtbl a b g) (hf : s.me.forked = false)
    (hg : s.getP g = true) (hok : ok s) :
    exec i s = .next (s.finish (s.performHeld ⟨i, f s, s.me.pc⟩ >>= fun t => done (afterIssue steps t))) := by
  have hexec : exec i s = s.holdable g i (f s) (.ok ()) (fun t => t.performHeld ⟨i, f s, s.me.pc⟩) (afterIssue steps) := by
    cases i <;> cases h
    case wtbl => exact absurd rfl (hi _ _ _)
    case scset => rw [holdable_accepted (chk_of (scsetOk hok))]; rfl
    case tstep | tstepV => rw [holdable_accepted hok]; rfl
    case xform | strm | chain => rw [holdable_accepted (chk_of hok)]; rfl
    case wseek => rw [← bits_zero] at hok; rw [holdable_accepted (chk_of (decide_eq_true hok))]; rfl
    case wdqry | chconst => rw [holdable_accepted (chk_of (decide_eq_true hok))]; rfl
    all_goals rfl
  exact hexec.trans ((plain_run s hg).trans (by rw [acc_bind_ok, if_neg (by simp [hf])]))

section Ends

variable (h : heldForm i = some (g, f, ok, steps)) (hi : ∀ a b g, i ≠ .wtbl a b g) (hf : s.me.forked = false) (hg : s.getP g = true)
  (hok : ok s)
include h hi hf hg hok

theorem heldForm_traps (hp : s.performHeld ⟨i, f s, s.me.pc⟩ = .error (.fault c dt)) : traps i s c dt := by
  rw [traps, exec_of_heldForm_unforked h hi hf hg hok, hp]
  rfl

theorem heldForm_waits (hp : s.performHeld ⟨i, f s, s.me.pc⟩ = .error (.wait .busy)) : waits i s := by
  rw [waits, exec_of_heldForm_unforked h hi hf hg hok, hp]
  rfl

end Ends

theorem heldForm_goesOn (h : heldForm i = some (g, f, ok, false)) (hi : ∀ a b g, i ≠ .wtbl a b g) (hf : s.me.forked = false)
    (hg : s.getP g = true) (hok : ok s) (hp : s.performHeld ⟨i, f s, s.me.pc⟩ = .ok t) : goesOn i s t := by
  rw [goesOn, exec_of_heldForm_unforked h hi hf hg hok, hp]
  rfl

/-- An instruction whose issue draws from G (02 R39). -/
theorem heldForm_goesOn_steps (h : heldForm i = some (g, f, ok, true)) (hi : ∀ a b g, i ≠ .wtbl a b g) (hf : s.me.forked = false)
    (hg : s.getP g = true) (hok : ok s) (hp : s.performHeld ⟨i, f s, s.me.pc⟩ = .ok t) : goesOn i s (t.modMe Hg.stepG) := by
  rw [goesOn, exec_of_heldForm_unforked h hi hf hg hok, hp]
  rfl

end Performs

end Sys2Proof.Machine
end

section
/-! SUPPORT. What the shape, stream, codebook, scale-cache and chain instructions do when they perform (08 R213 to R218, R226, R228, R229). -/

namespace Sys2Proof.Machine

open Sys2Proof.Claims

variable {s t : State} (o : Operands) {v c : Nat} {dt : List Nat}

/-! ## Shape slots (08 R213) -/

section Loaded

variable (hload : s.loadVia s.cur o.va 32 false = .ok (t, v))
include hload

theorem performShld_ok (x : ShReg) (h : shEmpty (BitVec.ofNat 256 v) = true ∨ shValid (BitVec.ofNat 256 v) = true) :
    s.performShld o x = .ok (t.setMe (t.me.setSh x (BitVec.ofNat 256 v))) := by
  rw [State.performShld, hload, acc_bind_ok]
  dsimp only
  rw [chk_of (by simpa using h), acc_bind_ok]

theorem performShld_illegal (x : ShReg) (hempty : shEmpty (BitVec.ofNat 256 v) = false) (hvalid : shValid (BitVec.ofNat 256 v) = false) :
    s.performShld o x = .error (.fault cIllegal []) := by
  rw [State.performShld, hload, acc_bind_ok]
  dsimp only
  rw [chk_not (by simp [hempty, hvalid]), acc_bind_error]

end Loaded

theorem performShld_fault (x : ShReg) (h : s.loadVia s.cur o.va 32 false = .error (.fault c dt)) :
    s.performShld o x = .error (.fault c dt) := by
  rw [State.performShld, h]
  rfl

/-! ## The codebook (08 R218) -/

/-- Packed fields, one by one. -/
theorem unpack_eq_map (w n : Nat) : ∀ x, unpack x w n = (List.range n).map fun k => x / 2 ^ (w * k) % 2 ^ w := by
  induction n with
  | zero => exact fun _ => rfl
  | succ n ih =>
    intro x
    rw [unpack, ih, List.range_succ_eq_map, List.map_cons, List.map_map, Nat.mul_zero, pow_zero, Nat.div_one]
    refine congrArg _ (List.map_congr_left fun k _ => ?_)
    rw [Function.comp_apply, Nat.div_div_eq_div_mul, ← pow_add, Nat.mul_succ, Nat.add_comm]

/-- The exponent of an f16 code that a record holds. -/
theorem f16Special_field (x k : Nat) : f16Special (x / 2 ^ (16 * k) % 2 ^ 16) = true ↔ x / 2 ^ (16 * k + 10) % 32 = 31 := by
  rw [f16Special, bits, beq_iff_eq, pow_add, ← Nat.div_div_eq_div_mul]
  omega

/-- The codebook that a record of 16 f16 codes gives. -/
theorem codebook_unpack (x : Nat) : (Vector.ofFn fun k : Fin 16 => (unpack x 16 16).getD k.val 0) =
    Vector.ofFn fun k => x / 2 ^ (16 * k.val) % 2 ^ 16 := by
  refine congrArg Vector.ofFn (funext fun k => ?_)
  rw [unpack_eq_map, List.getD_eq_getElem?_getD, List.getElem?_map, List.getElem?_range k.isLt]
  rfl

theorem performCbload_busy (h : s.me.codebookFree = false) : s.performCbload o = .error (.wait .busy) := by
  rw [State.performCbload, waitFor_not h]
  rfl

section Codebook

variable (hfree : s.me.codebookFree = true)
include hfree

theorem performCbload_fault (h : s.loadVia s.cur o.va 32 false = .error (.fault c dt)) : s.performCbload o = .error (.fault c dt) := by
  rw [State.performCbload, waitFor_of hfree, acc_bind_ok, h]
  rfl

variable (hload : s.loadVia s.cur o.va 32 false = .ok (t, v))
include hload

theorem performCbload_loaded : s.performCbload o = if ∃ k < 16, v / 2 ^ (16 * k + 10) % 32 = 31 then .error (.fault cIllegal []) else
    .ok (t.setMe { t.me with codebook := Vector.ofFn fun k => v / 2 ^ (16 * k.val) % 2 ^ 16 }) := by
  have hspecial : (unpack v 16 16).any f16Special = decide (∃ k < 16, v / 2 ^ (16 * k + 10) % 32 = 31) := by
    rw [Bool.eq_iff_iff, unpack_eq_map, List.any_map]
    simp only [List.any_eq_true, List.mem_range, Function.comp_apply, f16Special_field, decide_eq_true_eq]
  rw [State.performCbload, waitFor_of hfree, acc_bind_ok, hload, acc_bind_ok]
  dsimp only
  rw [hspecial, codebook_unpack]
  split
  · next h => rw [decide_eq_true h]; rfl
  · next h => rw [decide_eq_false h]; rfl

end Codebook

/-! ## Stream nodes (08 R214, R215, R217) -/

/-- While nothing is held, a node's next command takes the node's own transform. -/
theorem xformNow_unforked {h : Hg} (hf : h.forked = false) (n : NodeIx) : h.xformNow n.val = (nodeOf h n).xform :=
  if_neg (by simp [hf])

theorem performXform_eq (n : NodeIx) : s.performXform o n =
    .ok (s.setMe (withNode s.me n { nodeOf s.me n with xform := o.va })) := rfl

theorem performStrm_full {n : NodeIx} (h : 4 ≤ (nodeOf s.me n).queue.length) : s.performStrm o n = .error (.wait .busy) := by
  have hroom : decide ((s.me.node (nodeNum n)).queue.length < 4) = false := decide_eq_false (Nat.not_lt.mpr h)
  rw [State.performStrm, waitFor_not hroom, acc_bind_error]

theorem performStrm_room {n : NodeIx} (h : (nodeOf s.me n).queue.length < 4) : s.performStrm o n =
    .ok (s.setMe (withNode s.me n { nodeOf s.me n with queue := (nodeOf s.me n).queue ++
      [{ src := o.sx, dst := o.sy, desc := o.va, xform := (nodeOf s.me n).xform, fmode := o.fmode, g := o.g }] })) := by
  have hroom : decide ((s.me.node (nodeNum n)).queue.length < 4) = true := decide_eq_true h
  rw [State.performStrm, waitFor_of hroom, acc_bind_ok]
  rfl

theorem node_status_eq (n : Node) : n.status = n.left % 2 ^ 32 * 2 ^ 16 + n.cause % 256 * 256 + n.queue.length % 8 * 2 +
    if n.queue = [] then 0 else 1 := by
  simp only [Node.status, List.isEmpty_iff]

/-! ## The scale cache (08 R226) -/

theorem performScset_busy (h : s.me.scaleBusy = true) : s.performScset o = .error (.wait .busy) := by
  rw [State.performScset, waitFor_not (by simp [h])]
  rfl

theorem performScset_free (h : s.me.scaleBusy = false) :
    s.performScset o = .ok (s.setMe { s.me with scale := (s.me.scale.setParam o.va o.vb).flush }) := by
  rw [State.performScset, waitFor_of (by simp [h])]
  rfl

theorem performScfl_busy (h : s.me.scaleBusy = true) : s.performScfl = .error (.wait .busy) := by
  rw [State.performScfl, waitFor_not (by simp [h])]
  rfl

theorem performScfl_free (h : s.me.scaleBusy = false) : s.performScfl = .ok (s.setMe { s.me with scale := s.me.scale.flush }) := by
  rw [State.performScfl, waitFor_of (by simp [h])]
  rfl

/-! ## The chain unit (08 R228, R229) -/

theorem performChain_full (h : 2 ≤ s.me.chain.queue.length) : s.performChain o = .error (.wait .busy) := by
  rw [State.performChain, waitFor_not (decide_eq_false (Nat.not_lt.mpr h))]
  rfl

section Chain

variable (hroom : s.me.chain.queue.length < 2) (hload : s.loadVia s.cur o.va 32 false = .ok (t, v))
include hroom hload

theorem performChain_illegal (h : chainRecordOk (BitVec.ofNat 256 v) = false) : s.performChain o = .error (.fault cIllegal []) := by
  rw [State.performChain, waitFor_of (decide_eq_true hroom), acc_bind_ok, hload, acc_bind_ok]
  dsimp only
  rw [chk_not h, acc_bind_error]

theorem performChain_ok (h : chainRecordOk (BitVec.ofNat 256 v) = true) : s.performChain o = .ok ((chainQueued t
    { slots := BitVec.ofNat 256 v, desc := o.vb, left := bits o.vb.toNat 32 32, fmode := o.fmode, g := o.g,
      k := t.me.chain.k.toList }).chainTrim t.cur 2) := by
  rw [State.performChain, waitFor_of (decide_eq_true hroom), acc_bind_ok, hload, acc_bind_ok]
  dsimp only
  rw [chk_of h, acc_bind_ok]
  rfl

end Chain

theorem performChconst_eq {i : Fin 4} (h : o.va.toNat = i.val) : s.performChconst o =
    .ok (s.setMe { s.me with chain := { s.me.chain with k := s.me.chain.k.set i (o.vb.toNat % 2 ^ 32) } }) := by
  have hset : ∀ k : Vector Nat 4, k.set! (o.va.toNat % 4) (low32 o.vb) = k.set i (o.vb.toNat % 2 ^ 32) := fun k => by
    rw [h, Nat.mod_eq_of_lt i.isLt]
    ext j hj
    rw [Vector.set!_eq_setIfInBounds, Vector.getElem_setIfInBounds, Vector.getElem_set]
    rfl
  simp only [State.performChconst, hset]
  rfl

end Sys2Proof.Machine

namespace Sys2Proof.Proofs

open Sys2Proof.Machine Sys2Proof.Claims

/-- Settles O40: each is issued as one that may be held and performs at once (`holdable_goesOn` and its fellows), as its `perform…` lemma says. -/
theorem streamAndChainCommandsPerform : Obligations.StreamAndChainCommandsPerform := by
  intro s t x y n a b g v c dt hf hg h
  have hg0 := state_getP_zero s
  have hxform : h.xformNow n.val = (nodeOf h n).xform := xformNow_unforked hf n
  refine ⟨fun hload => ⟨fun hr => ?_, fun he hv => ?_, fun hfree => ?_, fun hok hroom => ?_⟩, fun hload => ⟨?_, fun hfree => ?_⟩,
    fun hbusy => ?_, fun hbad => ?_, fun hok hfull => ?_, fun hstore => ?_, fun hok => ?_, fun hbad => ?_, fun hok => ?_, fun hbad => ?_, ?_,
    fun hfree => ?_, fun hbusy => ?_, fun hbad => ?_, fun i hi => ?_, fun hbad => ?_⟩
  · exact heldForm_goesOn rfl nofun hf hg0 trivial (performShld_ok { va := s.getS a } hload x hr)
  · exact heldForm_traps rfl nofun hf hg0 trivial (performShld_illegal { va := s.getS a } hload x he hv)
  · have hperform := performCbload_loaded { va := s.getS a } hfree hload
    refine ⟨fun hfinite => ?_, fun hspecial => ?_⟩
    · refine heldForm_goesOn rfl nofun hf hg0 trivial (hperform.trans (if_neg ?_))
      rintro ⟨k, hk, hspecial⟩
      exact hfinite k hk hspecial
    · exact heldForm_traps rfl nofun hf hg0 trivial (hperform.trans (if_pos hspecial))
  · exact ⟨fun hr => heldForm_goesOn_steps rfl nofun hf hg hok (performChain_ok (chainOps s a b) hroom hload hr),
      fun hr => heldForm_traps rfl nofun hf hg hok (performChain_illegal (chainOps s a b) hroom hload hr)⟩
  · exact heldForm_traps rfl nofun hf hg0 trivial (performShld_fault { va := s.getS a } x hload)
  · exact heldForm_traps rfl nofun hf hg0 trivial (performCbload_fault { va := s.getS a } hfree hload)
  · exact heldForm_waits rfl nofun hf hg0 trivial (performCbload_busy { va := s.getS a } hbusy)
  · exact plain_refused hg hbad
  · exact heldForm_waits rfl nofun hf hg hok (performChain_full (chainOps s a b) hfull)
  · exact heldForm_goesOn rfl nofun hf hg0 trivial hstore
  · exact heldForm_goesOn rfl nofun hf hg0 hok (performXform_eq { va := s.getS a } n)
  · exact plain_refused hg0 hbad
  · rw [← hxform] at hok
    exact ⟨fun hroom => heldForm_goesOn_steps rfl nofun hf hg0 hok (performStrm_room (strmOps s x y a) hroom),
      fun hfull => heldForm_waits rfl nofun hf hg0 hok (performStrm_full (strmOps s x y a) hfull)⟩
  · rw [← hxform] at hbad
    exact plain_refused hg0 hbad
  · rw [← node_status_eq]
    exact heldForm_goesOn rfl nofun hf hg0 trivial rfl
  · have hset : ∀ p, p.toNat ≤ 3 → p.toNat ≠ 2 ∨ (s.getS b).toNat ≤ 63 → s.getS a = p →
        goesOn (.scset a b g) s (s.setMe { h with scale := (h.scale.setParam p (s.getS b)).flush }) := by
      rintro p hp hb rfl
      exact heldForm_goesOn rfl nofun hf hg ⟨hp, imp_iff_not_or.2 hb⟩ (performScset_free { va := s.getS a, vb := s.getS b } hfree)
    exact ⟨hset 0 (by decide) (.inl (by decide)), hset 1 (by decide) (.inl (by decide)), fun ha hb => hset 2 (by decide) (.inr hb) ha,
      hset 3 (by decide) (.inl (by decide)),
      heldForm_goesOn rfl nofun hf hg trivial (performScfl_free hfree)⟩
  · exact ⟨heldForm_waits rfl nofun hf hg trivial (performScfl_busy hbusy), fun ha =>
      heldForm_waits rfl nofun hf hg ⟨by omega, by omega⟩ (performScset_busy { va := s.getS a, vb := s.getS b } hbusy)⟩
  · refine plain_refused hg ?_
    rcases hbad with ha | ⟨ha, hb⟩
    · simp [Nat.not_le.mpr ha]
    · simp [ha, hb]
  · exact heldForm_goesOn rfl nofun hf hg (by omega) (performChconst_eq { va := s.getS a, vb := s.getS b } hi)
  · exact plain_refused hg (decide_eq_false (Nat.not_le.mpr hbad))

end Sys2Proof.Proofs
end

section
/-! SUPPORT. What the tile-step and decode instructions do when they perform (08 R221 to R225; 11 R270, R273, R285). -/

namespace Sys2Proof.Machine

open Sys2Proof.Claims

variable {s t : State} {o : Operands} {c v : Nat} {dt : List Nat}

/-! ## Tile-step rows (08 R221 to R223) -/

theorem feeds_iff (k : Nat) : feeds k = true ↔ k = 0 ∨ k = 2 := by simp [feeds]
theorem drains_iff (k : Nat) : drains k = true ↔ k = 1 ∨ k = 2 := by simp [drains]

/-- A headgate that is not bound issues no tile-step row (08 R221). -/
theorem tstepOk_unbound (o : Operands) (y : SlReg) (a z : Nat) (h : s.me.bound = none) : s.tstepOk o y a z = .error (.fault cIllegal []) := by
  rw [State.tstepOk, State.tstepBinding, h]
  rfl

section Tile

variable (o) (y : SlReg) (n : BitVec 9) (vec : Option VWord) {e : Binding} (he : s.tstepBinding = .ok e)
include he

theorem performTstep_room (hkind : e.kind < 3) (hfeed : s.me.feed.queue.length < 8) (hreplay : s.me.feed.replay.length < 16)
    (hdrain : e.kind = 1 → s.me.drain.queue.length < 8) :
    s.performTstep o y n vec = .ok (s.setMe (tileQueued s.me e.kind (tileCmd s.me o y n vec))) := by
  have hroom : (decide (s.me.feed.queue.length < 8) && decide (s.me.feed.replay.length < 16) &&
      (feeds e.kind || decide (s.me.drain.queue.length < 8))) = true := by
    simp only [Bool.and_eq_true, Bool.or_eq_true, decide_eq_true_eq, feeds_iff]
    refine ⟨⟨hfeed, hreplay⟩, ?_⟩
    by_cases h : e.kind = 1
    · exact .inr (hdrain h)
    · exact .inl (by omega)
  rw [State.performTstep, he, acc_bind_ok]
  dsimp only
  rw [waitFor_of hroom, acc_bind_ok]
  simp only [feeds_iff, drains_iff]
  rfl

theorem performTstep_full (h : 8 ≤ s.me.feed.queue.length ∨ 16 ≤ s.me.feed.replay.length) :
    s.performTstep o y n vec = .error (.wait .busy) := by
  have hroom : (decide (s.me.feed.queue.length < 8) && decide (s.me.feed.replay.length < 16) &&
      (feeds e.kind || decide (s.me.drain.queue.length < 8))) = false := by
    rcases h with h | h <;> simp [Nat.not_lt.mpr h]
  rw [State.performTstep, he, acc_bind_ok]
  dsimp only
  rw [waitFor_not hroom, acc_bind_error]

end Tile

/-! ## Table images (08 R224; 11 R270, R273) -/

theorem readTableImage_busy (o : Operands) (h : s.me.dec.queue ≠ []) : s.readTableImage o = .error (.wait .busy) := by
  rw [State.readTableImage, waitFor_not (by simpa using h), acc_bind_error]

section Idle

variable (o) (hidle : s.me.dec.queue = [])
include hidle

theorem readTableImage_priv (hspace : space o.va = 0xF) (hsys : s.me.sys = false) : s.readTableImage o = .error (.fault cPriv []) := by
  rw [State.readTableImage, hidle, hspace, hsys]
  rfl

theorem readTableImage_space (hsys : space o.va = 0xF → s.me.sys = true) (hcoded : codedSpace o.va = false) :
    s.readTableImage o = .error (.fault cAddr []) := by
  have hpriv : (!(space o.va == 15 && !s.me.sys)) = true := by
    by_cases h : space o.va = 15
    · simp [hsys h]
    · simp [h]
  rw [State.readTableImage, hidle, hpriv, hcoded]
  rfl

theorem readTableImage_ok (hcoded : codedSpace o.va = true) (h : s.readRec s.cur o.va 16448 = .ok (t, v)) :
    s.readTableImage o = .ok (t, tableSlot v) := by
  have hpriv : (!(space o.va == 15 && !s.me.sys)) = true := by
    have hne : space o.va ≠ 15 := fun h => by simp [codedSpace, h] at hcoded
    simp [hne]
  rw [State.readTableImage, hidle, hpriv, hcoded, h]
  rfl

end Idle

/-- The operands of WTBL (08 R224). -/
abbrev wtblOps (s : State) (a b : SReg) : Operands := { va := s.getS a, vb := s.getS b }

section Wtbl

variable {a b : SReg} {g : PReg} (hf : s.me.forked = false) (hg : s.getP g = true)
include hf hg

theorem wtbl_illegal (h : 1 < (s.getS b).toNat) : traps (.wtbl a b g) s cIllegal [] := by
  show execWtbl a b g s = _
  rw [execWtbl, if_neg (by simp [hf, hg])]
  dsimp only
  rw [decide_eq_false (Nat.not_le.mpr h)]
  exact plain_refused hg rfl

variable (hb : (s.getS b).toNat ≤ 1)
include hb

/-- WTBL of a slot performs as a held one does, unless its image is refused. -/
theorem exec_wtbl_performs (h : ∀ t x, s.readTableImage (wtblOps s a b) = .ok (t, x) → x.valid = true) :
    exec (.wtbl a b g) s = .next (s.finish (s.performWtbl (wtblOps s a b) >>= done)) := by
  have hplain : s.holdable g (.wtbl a b g) (wtblOps s a b) (.ok ()) (fun s' => s'.performWtbl (wtblOps s a b)) =
      .next (s.finish (s.performWtbl (wtblOps s a b) >>= done)) :=
    (plain_run s hg).trans (by rw [acc_bind_ok, if_neg (by simp [hf])]; rfl)
  show execWtbl a b g s = _
  rw [execWtbl, if_neg (by simp [hf, hg])]
  dsimp only
  rw [decide_eq_true hb, chk_true]
  cases hread : s.readTableImage (wtblOps s a b) with
  | error e => exact hplain
  | ok r => exact (if_pos (h r.1 r.2 hread)).trans hplain

theorem wtbl_stops {e : Stop} (h : s.readTableImage (wtblOps s a b) = .error e) :
    exec (.wtbl a b g) s = .next (s.finish (.error e)) := by
  rw [exec_wtbl_performs hf hg hb fun t x hx => by simp [h] at hx, State.performWtbl, h]
  rfl

variable {x : TableSlot} (h : s.readTableImage (wtblOps s a b) = .ok (t, x))
include h

theorem wtbl_takes (hx : x.valid = true) :
    goesOn (.wtbl a b g) s (t.setMe { t.me with dec := t.me.dec.setSlot (bits (s.getS b).toNat 0 1) x }) := by
  have hvalid : ∀ u y, s.readTableImage (wtblOps s a b) = .ok (u, y) → y.valid = true := fun u y hy => by
    cases h.symm.trans hy
    exact hx
  rw [goesOn, exec_wtbl_performs hf hg hb hvalid, State.performWtbl, h, acc_bind_ok]
  dsimp only
  rw [if_pos hx]
  rfl

/-- A refused image stays in its slot when WTBL traps (11 R273). -/
theorem wtbl_refuses (hx : x.valid = false) : exec (.wtbl a b g) s = .next (t.wtblRefused (wtblOps s a b) x) := by
  show execWtbl a b g s = _
  rw [execWtbl, if_neg (by simp [hf, hg])]
  dsimp only
  rw [decide_eq_true hb, chk_true, show s.readTableImage { va := s.getS a, vb := s.getS b } = _ from h]
  exact if_neg (by simp [hx])

end Wtbl

/-- Of the two table slots, the one that a number below 2 names. -/
theorem setSlot_word (d : Decoder) {x : Word} (h : x.toNat ≤ 1) (y : TableSlot) :
    d.setSlot (bits x.toNat 0 1) y = if x = 0 then { d with t0 := y } else { d with t1 := y } := by
  have hzero : bits x.toNat 0 1 = 0 ↔ x = 0 := by
    rw [bits_zero, ← BitVec.toNat_inj]
    change _ ↔ x.toNat = 0
    omega
  simp only [Decoder.setSlot, hzero]

/-! ## Decode commands (08 R224) -/

/-- A WDEC that performs queues a command with what it issued with, and takes the seek (08 R224, R225). -/
theorem performWdec_queues (h : s.performWdec o = .ok t) : t.me.dec.seek = none ∧
    ∃ w, t.me.dec.queue.getLast? = some w ∧ w.fmode = o.fmode ∧ w.g = o.g ∧ w.ntiles ≠ 0 := by
  rw [State.performWdec] at h
  obtain ⟨⟨u, x⟩, -, h⟩ := acc_bind_cases h
  obtain ⟨_, hok, h⟩ := acc_bind_cases h
  have hntiles : bits x 160 32 ≠ 0 := by
    have := chk_passes hok
    simp only [wdecOk, Bool.and_eq_true, decide_eq_true_eq] at this
    omega
  split at h
  · cases h
  · -- The binding, then the five checks of the command and the wait for the decoder's queue.
    iterate 7 obtain ⟨_, -, h⟩ := acc_bind_cases h
    cases h
    rw [me_setMe]
    exact ⟨rfl, _, List.getLast?_concat, rfl, rfl, hntiles⟩

/-! ## The decoder's state (08 R225) -/

theorem decoder_status_eq (d : Decoder) : d.status = (if d.seek.isSome then 2048 else 0) + (if d.t1.valid then 1024 else 0) +
    (if d.t0.valid then 512 else 0) + (if d.queue = [] then 0 else 256) + d.cause % 256 := by
  simp only [Decoder.status, List.isEmpty_iff]

theorem posBefore_pos (d : Decoder) (now : Nat) : (d.posBefore now).pos = if d.posCycle = now then d.posPrev else d.pos := by
  rw [Decoder.posBefore]
  split <;> rfl

end Sys2Proof.Machine

namespace Sys2Proof.Proofs

open Sys2Proof.Machine Sys2Proof.Claims

/-- Settles O41: TSTEP by the room of its queues (`performTstep_room`, `performTstep_full`), WTBL by what its image's read gives
(`wtbl_stops`, `wtbl_takes`, `wtbl_refuses`), WDEC by what it queues (`performWdec_queues`); WSEEK and WDQRY perform at once. -/
theorem tileAndDecodeCommandsPerform : Obligations.TileAndDecodeCommandsPerform := by
  intro s t x y z a b d g n v c dt hf hg h
  have hg0 := state_getP_zero s
  refine ⟨fun e he hkind => ⟨fun hfeed hreplay hdrain => ⟨fun hok => ?_, fun hok => ?_⟩, fun hfull => ⟨fun hok => ?_, fun hok => ?_⟩⟩,
    fun hnone => ⟨?_, ?_⟩, fun hb hidle => ⟨fun hspace hsys => ?_, fun hsys hcoded => ?_⟩,
    fun hb hidle hcoded hread => ⟨fun hvalid => ?_, fun hvalid => ?_⟩, fun hb hbusy => ?_, wtbl_illegal hf hg, fun hperform => ?_,
    fun hperform => ?_, fun hseek => ?_, fun hseek => ?_, fun ha => ?_, fun ha => ?_, fun ha => ?_⟩
  · exact heldForm_goesOn rfl nofun hf hg0 hok (performTstep_room (tileOps s x a) y n none he hkind hfeed hreplay hdrain)
  · exact heldForm_goesOn rfl nofun hf hg0 hok (performTstep_room (tileOpsV s x z) y n (some (s.getV z)) he hkind hfeed hreplay hdrain)
  · exact heldForm_waits rfl nofun hf hg0 hok (performTstep_full (tileOps s x a) y n none he hfull)
  · exact heldForm_waits rfl nofun hf hg0 hok (performTstep_full (tileOpsV s x z) y n (some (s.getV z)) he hfull)
  · exact plain_stops hg0 (tstepOk_unbound (tileOps s x a) y a.val 0 hnone)
  · exact plain_stops hg0 (tstepOk_unbound (tileOpsV s x z) y 0 z.val hnone)
  · exact wtbl_stops hf hg hb (readTableImage_priv _ hidle hspace hsys)
  · exact wtbl_stops hf hg hb (readTableImage_space _ hidle hsys hcoded)
  · rw [← setSlot_word _ hb]
    exact wtbl_takes hf hg hb (readTableImage_ok _ hidle hcoded hread) hvalid
  · rw [← setSlot_word _ hb]
    exact wtbl_refuses hf hg hb (readTableImage_ok _ hidle hcoded hread) hvalid
  · exact wtbl_stops hf hg hb (readTableImage_busy _ hbusy)
  · exact ⟨heldForm_goesOn rfl nofun hf hg trivial hperform, performWdec_queues hperform⟩
  · exact heldForm_traps rfl nofun hf hg trivial hperform
  · refine heldForm_goesOn rfl nofun hf hg ?_ rfl
    rwa [← bits_zero]
  · exact plain_refused hg (decide_eq_false (Nat.not_le.mpr hseek))
  · rw [← posBefore_pos]
    refine heldForm_goesOn rfl nofun hf hg (by rw [ha]; decide) ?_
    show s.performWdqry { va := s.getS a } d = _
    rw [State.performWdqry, if_pos ha]
    rfl
  · rw [← decoder_status_eq]
    refine heldForm_goesOn rfl nofun hf hg (by rw [ha]; decide) ?_
    show s.performWdqry { va := s.getS a } d = _
    rw [State.performWdqry, if_neg (by rw [ha]; decide)]
  · exact plain_refused hg (decide_eq_false (Nat.not_le.mpr ha))

end Sys2Proof.Proofs
end

section
/-! SUPPORT. CFG and its phases, and the splice (08 R202, R207, R208; 12 R304). -/

namespace Sys2Proof.Machine

open Sys2Proof.Claims

variable {s t u : State} {a : SReg} {l : Load} {c k : Nat} {dt : List Nat}

/-! ## CFG (08 R202) -/

section Cfg

variable (hf : s.me.forked = false)
include hf

theorem cfg_switching (h : s.me.wait = .cfg false) : waits (.cfg a) s :=
  (unforked_run s hf rfl).trans (by rw [h]; rfl)

variable (hwait : s.me.wait = .none)
include hwait

theorem cfg_stages (h : s.stage (s.hgPart s.cur) s.cur (s.getS a) false = .ok (t, l)) :
    exec (.cfg a) s = .next (
      let u := t.discardStaging (s.hgPart s.cur) 0x10000 l.plots
      u.setMe { u.me with staged := some l, wait := .cfg false }) :=
  (unforked_run s hf rfl).trans (by rw [hwait]; dsimp only; rw [h]; rfl)

theorem cfg_refused (h : s.stage (s.hgPart s.cur) s.cur (s.getS a) false = .error (.fault c dt)) : traps (.cfg a) s c dt :=
  (unforked_run s hf rfl).trans (by rw [hwait]; dsimp only; rw [h]; rfl)

end Cfg

/-! ## The switching phase (08 R202; 12 R304) -/

/-- A check of each element passes when each passes. -/
theorem forM_ok {α : Type} {f : α → Acc PUnit} {l : List α} (h : ∀ x ∈ l, f x = .ok ()) : l.forM f = .ok () := by
  induction l with
  | nil => rfl
  | cons x l ih =>
    rw [List.forM_eq_forM, List.forM_cons, h x List.mem_cons_self, acc_bind_ok]
    exact ih fun y hy => h y (List.mem_cons_of_mem x hy)

theorem mem_of_mem_dedup {x : Nat} {l : List Nat} (h : x ∈ dedup l) : x ∈ l := by
  induction l with
  | nil => exact h
  | cons y l ih =>
    rcases List.mem_cons.1 h with rfl | h
    · exact List.mem_cons_self
    · exact List.mem_cons_of_mem y (ih (List.mem_of_mem_filter h))

/-- What the switching phase waits for has come (08 R202). -/
theorem cfgSwitch_ok {p : Nat} (hstores : s.storesDone k .partition = true)
    (hengines : ∀ j ∈ k :: boundHgs (s.overlapped p l.plots), (s.hg j).enginesDone = true)
    (htasks : ∀ e ∈ l.plots, ∀ n ∈ e.2.cores, s.tasksReady n = .ok ()) (hfence : s.fenceL1 k .partition true false = .ok t) :
    s.cfgSwitch k p l = .ok ((t.switchLoad k p l).modHg k fun h =>
      Hg.retire { h with staged := none, wait := .none, icache := [], cfg := { plots := l.plots.map fun e => e.1, busy := true } }) := by
  have htables : (dedup (l.plots.flatMap fun e => e.2.cores)).forM s.tasksReady = .ok () := forM_ok fun n hn => by
    obtain ⟨e, he, hn⟩ := List.mem_flatMap.1 (mem_of_mem_dedup hn)
    exact htasks e he n hn
  rw [State.cfgSwitch, waitFor_of hstores, acc_bind_ok]
  dsimp only
  rw [waitFor_of (List.all_eq_true.2 hengines), acc_bind_ok, htables, acc_bind_ok, hfence, acc_bind_ok]

theorem cfgSwitching_ok (hwait : (s.hg s.inp.unit).wait = .cfg false) (hstaged : (s.hg s.inp.unit).staged = some l)
    (hstopped : (s.hg s.inp.unit).stopped = false) (h : s.cfgSwitch s.inp.unit (s.hgPart s.inp.unit) l = .ok t) :
    exec .cfgSwitching s = .next t := by
  show execCfgSwitching s = _
  rw [execCfgSwitching, hwait, hstaged]
  dsimp only
  rw [hstopped, h]
  rfl

/-- There is no switching phase without a CFG that stalls for it. -/
theorem cfgSwitching_none (h : (s.hg s.inp.unit).wait ≠ .cfg false) : exec .cfgSwitching s = .next s := by
  show execCfgSwitching s = _
  rw [execCfgSwitching]
  split
  · next hwait _ => exact absurd hwait h
  · rfl

/-! ## Background work (08 R202, R207) -/

theorem enterWaves_none {p : Nat} (h : (s.part p).waves = []) : s.enterWaves p = s := by
  rw [State.enterWaves, h]
  rfl

theorem exec_cfgBackgroundDone : exec .cfgBackgroundDone s = .next ((if (s.hg s.inp.unit).cfg.busy then
    s.cfgBackground s.inp.unit (s.hgPart s.inp.unit) 257 else s).enterWaves (s.hgPart s.inp.unit)) := rfl

theorem cfgBackground_done {p n : Nat} (h : (s.hg k).cfg.plots = []) :
    s.cfgBackground k p (n + 1) = s.modHg k fun h => { h with cfg := { h.cfg with busy := false } } := by
  rw [State.cfgBackground]
  dsimp only
  rw [h]

/-- The weight stores of the next plot come in, and it may start (08 R202). -/
theorem cfgBackground_next {p n id : Nat} {rest : List Nat} {q : Plot} {m : SMap (SMap Nat)} (hplots : (s.hg k).cfg.plots = id :: rest)
    (hfailed : (s.hg k).cfg.failed = false) (hplot : s.plot? p id = some q) (hread : s.readStores (waiterOf k 12) id q = .ok (t, m)) :
    s.cfgBackground k p (n + 1) = ((((t.putStores m).modPlot p id fun q => { q with startable := true }).modHg k fun h =>
      { h with cfg := { h.cfg with plots := rest } }).cfgBackground k p n) := by
  rw [State.cfgBackground]
  dsimp only
  rw [hplots]
  dsimp only
  rw [hfailed, if_neg (by decide), hplot]
  dsimp only
  rw [hread]

/-! ## The splice (08 R207, R208) -/

section Splice

variable {x : Splice} (hf : s.me.forked = false)
include hf

theorem splarm_arms {v : Nat} (hnone : s.me.splice = none) (h : s.readRec s.cur (s.getS a) 64 = .ok (t, v)) :
    goesOn (.splarm a) s (t.setMe { t.me with splice := some { image := s.getS a } }) :=
  (unforked_run s hf rfl).trans (by rw [hnone, h]; rfl)

theorem splarm_armed (h : s.me.splice = some x) : traps (.splarm a) s cIllegal [] :=
  (unforked_run s hf rfl).trans (by rw [h]; rfl)

theorem splice_unarmed (h : s.me.splice = none) : traps .splice s cIllegal [] := by
  show execSplice s = _
  rw [execSplice, h]
  exact unforked_run s hf rfl

/-- A staging that has not failed is waited for, and then takes effect (08 R208). -/
theorem exec_splice (h : s.me.splice = some x) (hcause : x.staged = true → x.cause = 0) :
    exec .splice s = .next (if x.staged then (s.splice s.cur (s.hgPart s.cur) x).retire else s) := by
  have hgood : (!s.me.forked && x.staged && x.cause != 0) = false := by
    cases hs : x.staged
    · simp
    · simp [hcause hs]
  show execSplice s = _
  rw [execSplice, h]
  dsimp only
  rw [hgood]
  exact (unforked_run s hf rfl).trans (congrArg _ (finish_waitFor ..))

theorem splice_failed (h : s.me.splice = some x) (hstaged : x.staged = true) (hcause : x.cause ≠ 0) :
    exec .splice s = .next ((s.setMe { s.me with splice := none }).precise x.cause x.detail) := by
  show execSplice s = _
  rw [execSplice, h]
  exact if_pos (by simp [hf, hstaged, hcause])

end Splice

section Staging

variable {x : Splice} (harmed : (s.hg k).splice = some x) (hstaged : x.staged = false)
include harmed hstaged

/-- A staging that its image's checks refuse records the cause (08 R207). -/
theorem stageSplice_fault (h : s.stage (s.hgPart k) (waiterOf k 13) x.image true = .error (.fault c dt)) :
    s.stageSplice k = s.modHg k fun h => { h with splice := some { x with staged := true, cause := c, detail := dt } } := by
  rw [State.stageSplice, harmed]
  dsimp only
  rw [hstaged, h]
  rfl

theorem stageSplice_ok {m : SMap (SMap Nat)} (h : s.stage (s.hgPart k) (waiterOf k 13) x.image true = .ok (t, l))
    (hstores : spliceStores t k l = .ok (u, m)) :
    s.stageSplice k = (u.discardStaging (s.hgPart k) k l.plots).modHg k fun h => { h with
      splice := some { x with
        staged := true, load := { l with stores := m }, preds := (u.overlapped (s.hgPart k) l.plots).map (·.1) } } := by
  rw [State.stageSplice, harmed]
  dsimp only
  rw [hstaged, h, acc_bind_ok, show List.foldlM _ (t, []) l.plots = .ok (u, m) from hstores]
  rfl

end Staging

end Sys2Proof.Machine

namespace Sys2Proof.Proofs

open Sys2Proof.Machine Sys2Proof.Claims

/-- Settles O38: CFG stages (`cfg_stages`), its phases follow when what they wait for has come (`cfgSwitch_ok`, `cfgBackground_next`), and so do the
staging of a splice (`stageSplice_ok`) and SPLICE (`exec_splice`, `splice_failed`). -/
theorem fabricLoadsStageAndSwitch : Obligations.FabricLoadsStageAndSwitch := by
  intro s t a l c dt p k
  refine ⟨fun hf hwait => ⟨cfg_stages hf hwait, cfg_refused hf hwait⟩, fun hf hwait => cfg_switching hf hwait,
    fun hwait hstaged hstopped hstores hengines htasks hfence =>
      cfgSwitching_ok hwait hstaged hstopped (cfgSwitch_ok hstores hengines htasks hfence),
    cfgSwitching_none, fun hwaves => ⟨fun hidle => ?_, fun hbusy hplots => ?_⟩,
    fun id rest q m n hplots hfailed hplot hread => cfgBackground_next hplots hfailed hplot hread,
    fun hf => ⟨fun x hnone hread => splarm_arms hf hnone hread, fun x hx => splarm_armed hf hx, fun x hx hstaged hcause => ?_,
      fun x hx hstaged hcause => splice_failed hf hx hstaged hcause, fun x hx hstaged => ?_, splice_unarmed hf⟩,
    fun x hx hstaged hwaves hstage => ?_, fun x u m hx hstaged hstage hstores => ?_⟩
  · rw [exec_cfgBackgroundDone, if_neg (by simpa using hidle), enterWaves_none hwaves]
  · rw [exec_cfgBackgroundDone, if_pos hbusy, cfgBackground_done hplots]
    exact congrArg _ (enterWaves_none hwaves)
  · exact (exec_splice hf hx fun _ => hcause).trans (congrArg _ (if_pos hstaged))
  · exact (exec_splice hf hx fun h => by simp [h] at hstaged).trans (congrArg _ (if_neg (by simp [hstaged])))
  · show Host.Outcome.next ((s.stageSplice k).enterWaves (s.hgPart k)) = _
    rw [stageSplice_fault hx hstaged hstage]
    exact congrArg _ (enterWaves_none hwaves)
  · show Host.Outcome.next ((s.stageSplice k).enterWaves (s.hgPart k)) = _
    rw [stageSplice_ok hx hstaged hstage hstores]

end Sys2Proof.Proofs
end

section
/-! SUPPORT. Rows and marks of plots, feeds, stream nodes, the chain unit, the decoder, the scale cache and old dirty sectors, each at one event
(09 R237, R242 to R247; 10 R263, R266 to R269; 11 R279, R281; 12 R294, R301; 14 R331 to R333). -/

namespace Sys2Proof.Machine

open Sys2Proof.Claims

variable {s t : State}

/-! ## Rows, marks and limits of a plot (09 R237, R242 to R246; 12 R301; 14 R331) -/

theorem mayAttempt_iff {q : Plot} : s.mayAttempt q = true ↔ rowDue s q := by
  simp only [State.mayAttempt, State.plotOn, rowDue, Bool.and_eq_true, Bool.not_eq_true', Bool.and_eq_false_iff, beq_iff_eq, bne_iff_ne, ne_eq,
    decide_eq_true_eq, beq_eq_false_iff_ne, not_and_or, Bool.not_eq_true, and_assoc]

section Plot

variable {q : Plot} {m : PendMark} {l : List PendMark} (hq : s.plot? s.inp.unit s.inp.idx = some q)
include hq

theorem exec_plotRowAttempt_notDue (h : ¬rowDue s q) : exec .plotRowAttempt s = .next s := by
  show Host.Outcome.next (s.attemptRow s.inp.unit s.inp.idx) = _
  rw [State.attemptRow, hq]
  exact congrArg _ (if_pos (by simpa using mt mayAttempt_iff.1 h))

section Due

variable {x : List Holder × List CellRun × List Leaving × DrainRun} (hdue : rowDue s q)
  (hx : s.rowHolders s.inp.unit q
    (q.cells.map fun e => s.runCell s.inp.unit s.inp.idx q (s.plotCycle q) e.1 e.2) (s.plotCycle q) = x)
include hdue hx

/-- A row that is due is held when anything holds it; when nothing does, it executes, or stops its plot at a mismatch. -/
theorem exec_plotRowAttempt_due : exec .plotRowAttempt s = .next (
    if x.1 = [] then
      x.2.2.2.mismatch.elim (s.doRow s.inp.unit s.inp.idx q (s.plotCycle q) x.2.1 x.2.2.1 x.2.2.2)
        fun e => s.redunFault s.inp.unit s.inp.idx q e.1 e.2
    else s.holdRow s.inp.unit s.inp.idx (s.plotCycle q) x.1 x.2.2.2.faults) := by
  show Host.Outcome.next (s.attemptRow s.inp.unit s.inp.idx) = _
  rw [State.attemptRow, hq]
  dsimp only
  rw [mayAttempt_iff.2 hdue, hx]
  obtain ⟨hs, rs, out, d⟩ := x
  cases hs <;> cases d.mismatch <;> simp

theorem exec_plotRowAttempt_runs (hfree : x.1 = []) (hmatch : x.2.2.2.mismatch = none) :
    exec .plotRowAttempt s = .next (s.doRow s.inp.unit s.inp.idx q (s.plotCycle q) x.2.1 x.2.2.1 x.2.2.2) := by
  rw [exec_plotRowAttempt_due hq hdue hx, if_pos hfree, hmatch, Option.elim_none]

theorem exec_plotRowAttempt_held (hheld : x.1 ≠ []) :
    exec .plotRowAttempt s = .next (s.holdRow s.inp.unit s.inp.idx (s.plotCycle q) x.1 x.2.2.2.faults) := by
  rw [exec_plotRowAttempt_due hq hdue hx, if_neg hheld]

theorem exec_plotRowAttempt_mismatch {j lane : Nat} (hfree : x.1 = []) (hmis : x.2.2.2.mismatch = some (j, lane)) :
    exec .plotRowAttempt s = .next (s.redunFault s.inp.unit s.inp.idx q j lane) := by
  rw [exec_plotRowAttempt_due hq hdue hx, if_pos hfree, hmis, Option.elim_some]

end Due

/-- The oldest pending mark of a plot that runs commits when it is ready. -/
theorem exec_markCommit (hpend : q.pend = m :: l) : exec .markCommit s = .next (
    if s.coreOn q.swCore && q.stopCause == 0 && s.markReady q m then
      (s.commitMark s.inp.unit s.inp.idx q).endPredecessor s.inp.unit s.inp.idx
    else s) := by
  show execMarkCommit s = _
  simp only [execMarkCommit, hq, hpend]

theorem exec_markCommit_noMark (hpend : q.pend = []) : exec .markCommit s = .next s := by
  show execMarkCommit s = _
  simp only [execMarkCommit, hq, hpend]

theorem exec_timingLimit :
    exec .timingLimit s = .next (if s.plotOn q && s.pastLimit q then s.timing s.inp.unit s.inp.idx q else s) := by
  show execTimingLimit s = _
  simp only [execTimingLimit, hq]

theorem exec_plotRelease : exec .plotRelease s = .next (
    if q.active && q.waiting && s.coreOn q.swCore && q.waits.all s.holdEnded then
      s.setPlot s.inp.unit s.inp.idx { q with waiting := false, waits := [], held := 0, next := s.plotCycle q + 4 }
    else s) := by
  show execPlotRelease s = _
  simp only [execPlotRelease, hq]

end Plot

/-- The cycle of a mark that is ready has come (12 R301). -/
theorem ready_le_of_markReady {q : Plot} {m : PendMark} (h : s.markReady q m = true) : m.ready ≤ s.plotCycle q :=
  of_decide_eq_true (Bool.and_eq_true_iff.1 h).1

section NoPlot

variable (hq : s.plot? s.inp.unit s.inp.idx = none)
include hq

theorem exec_plotRowAttempt_noPlot : exec .plotRowAttempt s = .next s := by
  show Host.Outcome.next (s.attemptRow s.inp.unit s.inp.idx) = _
  rw [State.attemptRow, hq]

theorem exec_markCommit_noPlot : exec .markCommit s = .next s := by
  show execMarkCommit s = _
  simp only [execMarkCommit, hq]

theorem exec_timingLimit_noPlot : exec .timingLimit s = .next s := by
  show execTimingLimit s = _
  simp only [execTimingLimit, hq]

theorem exec_plotRelease_noPlot : exec .plotRelease s = .next s := by
  show execPlotRelease s = _
  simp only [execPlotRelease, hq]

end NoPlot

/-! ## Feeds (09 R247) -/

theorem feedPresent_presents {k p id : Nat} {q : Plot} {b : Binding} {c : TileCmd} {l : List TileCmd} {r : List (Nat × Nat × Nat)}
    (hseg : s.fedSegment k = some (p, id, q, b)) (hqueue : (s.hg k).feed.queue = c :: l) (hmay : s.mayPresent k q b = true)
    (hfirst : (s.hg k).tileFirst c = true) (hhere : (s.hg k).tileHere c = true) (hreplay : (s.hg k).replayFree c = true)
    (hrow : s.tileRow k c (s.hg k).feed.k (s.hg k).feed.r = .ok (t, r)) :
    s.feedPresent k = (t.presentRow k p id q b (.tile c.serial (s.hg k).feed.k (s.hg k).feed.r) r).modHg k Hg.feedStep := by
  rw [State.feedPresent, hseg, hqueue]
  dsimp only
  rw [hmay, hfirst, hhere, hreplay, hrow]
  rfl

theorem feedPresent_idle {k : Nat} (hqueue : (s.hg k).feed.queue = []) : s.feedPresent k = s := by
  rw [State.feedPresent, hqueue]
  cases s.fedSegment k <;> rfl

/-! ## The running command of a stream node (10 R266) -/

/-- Taking elements leaves a command's descriptor. -/
theorem desc_take (cb l : List Nat) : ∀ c : StreamCmd, (c.take cb l).1.desc = c.desc := by
  induction l with
  | nil => exact fun c => rfl
  | cons e l ih =>
    intro c
    rw [StreamCmd.take]
    split
    · refine (ih _).trans ?_
      split
      · dsimp only
        split <;> rfl
      · rfl
    · exact ih _

@[simp] theorem node_setNode (h : Hg) (n : Nat) (x : Node) : (h.setNode n x).node n = x := by
  by_cases hn : n = 0 <;> simp [Hg.setNode, Hg.node, hn]

@[simp] theorem node_noteAmax (h : Hg) (vs : List FVal) (n : Nat) : (h.noteAmax vs).node n = h.node n := rfl

theorem queue_nodeTake {k n : Nat} {c : StreamCmd} {l : List StreamCmd} (hqueue : ((s.hg k).node n).queue = c :: l) (es : List Nat) :
    (((s.nodeTake k n es).hg k).node n).queue = (c.take (s.hg k).codebook.toList es).1 :: l := by
  simp [State.nodeTake, hqueue, Hg.modNode]

theorem modCmd_eq_self {x : Node} {c : StreamCmd} {l : List StreamCmd} {f : StreamCmd → StreamCmd} (hqueue : x.queue = c :: l)
    (h : f c = c) : x.modCmd f = x := by
  rw [Node.modCmd, hqueue]
  dsimp only
  rw [h, ← hqueue]

theorem loadElem_hg {w n v : Nat} {x : BitVec 256} {f : Fmt} (h : s.loadElem w x f n = .ok (t, v)) (k : Nat) : t.hg k = s.hg k := by
  rw [State.loadElem] at h
  obtain ⟨⟨u, y⟩, hu, h⟩ := acc_bind_cases h
  cases h
  exact (beside_hg k).loadVia hu

/-! ## The walks of a stream node (10 R266, R268) -/

theorem nodeRead_idle {k n : Nat} (h : ((s.hg k).node n).queue = []) : s.nodeRead k n = s := by
  rw [State.nodeRead, h]

theorem nodeWrite_idle {k n : Nat} (h : ((s.hg k).node n).queue = []) : s.nodeWrite k n = s := by
  rw [State.nodeWrite, h]

theorem exec_streamNodeFire_idle (h : ((s.hg s.inp.unit).node (s.inp.sub % 2)).queue = []) : exec .streamNodeFire s = .next s := by
  show execStreamNodeFire s = _
  rw [execStreamNodeFire, h]

section Node

variable {k n : Nat} {c : StreamCmd} {l : List StreamCmd} (hqueue : ((s.hg k).node n).queue = c :: l)
include hqueue

/-- A read walk moves no more than its 64 bytes in a cycle. -/
theorem nodeRead_full
    (hfull : ((s.hg k).node n).rdRate.room (s.hgCycle k) (fmtWidth ((shFormat c.src).getD .f32)) = false) : s.nodeRead k n = s := by
  rw [State.nodeRead, hqueue]
  exact if_pos (by simp [hfull])

variable (hon : s.engineOn k = true) (hcause : ((s.hg k).node n).cause = 0)
include hon hcause

/-- A read walk takes one element from memory. -/
theorem nodeRead_loads {v : Nat} (hin : strmIn c.desc = false) (hleft : c.rd < shCount c.src) (hstages : c.stages = true)
    (hroom : ((s.hg k).node n).rdRate.room (s.hgCycle k) (fmtWidth ((shFormat c.src).getD .f32)) = true)
    (hload : s.loadElem (waiterOf k (n + 1)) c.src ((shFormat c.src).getD .f32) c.rd = .ok (t, v)) :
    s.nodeRead k n = (t.nodeTake k n [v]).modHg k fun h => h.modNode n fun y =>
      { y.modCmd (fun d => if strmIn c.desc then { d with xoff := d.xoff + 1 } else d) with
        rdRate := y.rdRate.move (s.hgCycle k) (fmtWidth ((shFormat c.src).getD .f32)) } := by
  have htaken := queue_nodeTake (s := t) (by rw [loadElem_hg hload k]; exact hqueue) [v]
  rw [State.nodeRead, hqueue]
  dsimp only
  rw [if_neg (by simp [hon, hcause, hleft, hstages, hroom]), hin]
  rw [Bool.false_and, if_neg Bool.false_ne_true, if_neg Bool.false_ne_true, hload]
  dsimp only
  rw [modHg_eq, modHg_eq, Hg.modNode, Hg.modNode, modCmd_eq_self htaken, modCmd_eq_self htaken]
  · exact if_neg Bool.false_ne_true
  · exact if_neg (by rw [desc_take, hin]; exact Bool.false_ne_true)

/-- A write walk stores a staged code in memory. -/
theorem nodeWrite_stores {v : Nat} {vs : List Nat} (hout : strmOut c.desc = false) (hstaged : c.staged = v :: vs) (hscales : c.scales = [])
    (hroom : ((s.hg k).node n).wrRate.room (s.hgCycle k) (fmtWidth ((shFormat c.dst).getD .f32)) = true)
    (hstore : s.storeElem (waiterOf k (n + 1)) c.dst ((shFormat c.dst).getD .f32) c.wr v = .ok t) :
    s.nodeWrite k n = (t.modHg k fun h => h.modNode n fun y =>
      { y.modCmd StreamCmd.wrote with
        wrRate := y.wrRate.move (s.hgCycle k) (fmtWidth ((shFormat c.dst).getD .f32)) }).nodeEnd k n := by
  have hnext : c.next = some v := by rw [StreamCmd.next, hstaged]
  have hscale (a : Word) : t.storeScale k n c a = .ok t := by
    rw [State.storeScale, hscales]
    rfl
  rw [State.nodeWrite, hqueue]
  dsimp only
  rw [hnext]
  dsimp only
  rw [if_neg (by simp [hon, hcause, hroom]), hout]
  rw [Bool.false_and, if_neg Bool.false_ne_true, if_neg Bool.false_ne_true, hstore]
  dsimp only
  rw [hscale]

end Node

/-! ## Firings on sluices (10 R263) -/

section Fire

variable {c : StreamCmd} {l : List StreamCmd} (hqueue : ((s.hg s.inp.unit).node (s.inp.sub % 2)).queue = c :: l)
  (hon : s.engineOn s.inp.unit = true)
include hqueue hon

theorem exec_streamNodeFire_in (hidx : s.inp.idx = 0) (hin : strmIn c.desc = true) :
    exec .streamNodeFire s = .next (s.nodeFireIn s.inp.unit (s.inp.sub % 2) c) := by
  show execStreamNodeFire s = _
  simp [execStreamNodeFire, hqueue, hon, hidx, hin]

theorem exec_streamNodeFire_out (hidx : s.inp.idx = 1) (hout : strmOut c.desc = true) :
    exec .streamNodeFire s = .next (s.nodeFireOut s.inp.unit (s.inp.sub % 2) c) := by
  show execStreamNodeFire s = _
  simp [execStreamNodeFire, hqueue, hon, hidx, hout]

end Fire

theorem exec_chainFire {c : ChainCmd} {l : List ChainCmd} (hqueue : (s.hg s.inp.unit).chain.queue = c :: l)
    (hon : s.engineOn s.inp.unit = true) (hcause : (s.hg s.inp.unit).chain.cause = 0) (hstep : s.chainStep s.inp.unit c = .ok t) :
    exec .chainFire s = .next t := by
  show execChainFire s = _
  simp [execChainFire, hqueue, hon, hcause, hstep]

theorem exec_chainFire_idle (hqueue : (s.hg s.inp.unit).chain.queue = []) : exec .chainFire s = .next s := by
  show execChainFire s = _
  simp only [execChainFire, hqueue]

/-! ## The decoder (11 R279, R281) -/

theorem decodeNext_idle {k : Nat} (hqueue : (s.hg k).dec.queue = []) : s.decodeNext k = s := by
  rw [State.decodeNext, hqueue]

theorem exec_decoderWordDeliver_idle (hqueue : (s.hg s.inp.unit).dec.queue = []) : exec .decoderWordDeliver s = .next s := by
  show execDecoderWordDeliver s = _
  simp only [execDecoderWordDeliver, hqueue]

section Decoder

variable {k : Nat} {c : WdecCmd} {l : List WdecCmd} {d : Decoder} (hqueue : (s.hg k).dec.queue = c :: l) (hon : s.engineOn k = true)
  (hparked : (s.hg k).dec.parked = false) (hblocked : s.decBlocked k c = false) (hstarted : (s.hg k).dec.started = true)
include hqueue hon hparked hblocked hstarted

section Walk

variable (hwalk : (s.hg k).dec.walkFail = none)
include hwalk

/-- A decoder that has started works on its next segment while one of its two buffers is free and a segment is left. -/
theorem decodeNext_decodes (hbufs : (s.hg k).dec.bufs.length < 2) (hleft : (s.hg k).dec.allDecoded c = false)
    (hnext : s.nextSegment k c (s.hg k).dec = .ok (t, d)) : s.decodeNext k = t.modHg k fun h => { h with dec := d } := by
  rw [State.decodeNext, hqueue]
  dsimp only
  rw [hon, hparked, hblocked, if_neg (by decide), hstarted, if_pos rfl, hwalk]
  dsimp only
  rw [hleft, if_neg (by simpa using hbufs), hnext]

theorem decodeNext_full (hbufs : 2 ≤ (s.hg k).dec.bufs.length) : s.decodeNext k = s := by
  rw [State.decodeNext, hqueue]
  dsimp only
  rw [hon, hparked, hblocked, if_neg (by decide), hstarted, if_pos rfl, hwalk]
  exact if_pos (by simp [hbufs])

end Walk

/-- A decoder that has started delivers to the place that its command names. -/
theorem exec_decoderWordDeliver (hk : s.inp.unit = k) :
    exec .decoderWordDeliver s = .next ((if c.dest = 0 then s.deliverLanes k c else s.deliverStore k c).decFinish k) := by
  subst hk
  show execDecoderWordDeliver s = _
  simp [execDecoderWordDeliver, hqueue, hon, hparked, hblocked, hstarted]

end Decoder

/-! ## The scale cache and the age of dirty sectors (10 R269; 12 R294) -/

theorem exec_scaleCacheFill {run : Word} {eng v : Nat} (hmiss : (s.hg s.inp.unit).scale.misses[s.inp.idx]? = some (run, eng))
    (hon : s.engineOn s.inp.unit = true) (hload : s.loadVia (waiterOf s.inp.unit eng) run 16 false = .ok (t, v)) :
    exec .scaleCacheFill s = .next ((t.modHg s.inp.unit fun h =>
        { h with scale := { h.scale with misses := h.scale.misses.filter fun m => m.1 != run } }).modHg s.inp.unit
      fun h => { h with scale := { h.scale with runs := SMap.set h.scale.runs (bits run.toNat 4 8) (run, v) } }) := by
  show execScaleCacheFill s = _
  simp only [execScaleCacheFill, hmiss, hon, hload, Bool.not_true, Bool.false_eq_true, if_false]

theorem exec_scaleCacheFill_noMiss (hmiss : (s.hg s.inp.unit).scale.misses[s.inp.idx]? = none) : exec .scaleCacheFill s = .next s := by
  show execScaleCacheFill s = _
  simp only [execScaleCacheFill, hmiss]

section Sector

variable {x : Sector} (hx : SMap.get? (s.core s.inp.unit).l1 s.inp.idx = some x)
include hx

theorem exec_l1SectorAgeWriteback (hdirty : x.dirty ≠ 0) (hold : x.since + 16384 ≤ s.cycleOf (clusterOf s.inp.unit))
    (hready : s.sectorsReady (4 * s.inp.unit) s.inp.unit [s.inp.idx] = .ok ()) :
    exec .l1SectorAgeWriteback s = .next (s.l1WriteBack s.inp.unit (4 * s.inp.unit) [s.inp.idx]) := by
  show execL1SectorAgeWriteback s = _
  rw [execL1SectorAgeWriteback, hx]
  dsimp only [coreWaiter]
  rw [if_pos ⟨hdirty, hold⟩, hready]

theorem exec_l1SectorAgeWriteback_young (h : x.dirty = 0 ∨ s.cycleOf (clusterOf s.inp.unit) < x.since + 16384) :
    exec .l1SectorAgeWriteback s = .next s := by
  show execL1SectorAgeWriteback s = _
  rw [execL1SectorAgeWriteback, hx]
  exact congrArg _ (if_neg (by omega))

end Sector

end Sys2Proof.Machine

namespace Sys2Proof.Proofs

open Sys2Proof.Machine Sys2Proof.Claims

/-- Settles O49: a row that is due runs, is held or stops its plot (`exec_plotRowAttempt_due`), marks commit (`exec_markCommit`), a feed presents
(`feedPresent_presents`), the walks of a node move one element (`nodeRead_loads`, `nodeWrite_stores`), the decoder goes on (`decodeNext_decodes`,
`exec_decoderWordDeliver`), and the chain, the scale cache and the old sectors each take their step. -/
theorem plotsAndEnginesAdvance : Obligations.PlotsAndEnginesAdvance := by
  intro s t p id k h nd n
  refine ⟨fun hq i hi => ?noPlot, fun q hq => ⟨fun hdue => ?row, exec_plotRowAttempt_notDue hq, fun m l hpend => ?mark,
      exec_markCommit_noMark hq, fun hon => ?limit, fun hactive hwaiting hon hwaits => ?release, fun hwaiting => ?released⟩,
    fun a id' q b c l r hseg hqueue hmay hfirst hhere hreplay hrow =>
      congrArg _ (feedPresent_presents hseg hqueue hmay hfirst hhere hreplay hrow),
    fun hqueue => congrArg _ (feedPresent_idle hqueue),
    fun hqueue => ⟨congrArg _ (nodeRead_idle hqueue), congrArg _ (nodeWrite_idle hqueue), exec_streamNodeFire_idle hqueue⟩,
    fun c l hqueue hon hcause => ?node,
    fun c l => exec_chainFire, exec_chainFire_idle,
    fun c l d hqueue hon hparked hblocked =>
      ⟨fun hstarted hwalk hbufs hleft hnext =>
          congrArg _ (decodeNext_decodes hqueue hon hparked hblocked hstarted hwalk hbufs hleft hnext),
        fun hstarted hwalk hbufs => congrArg _ (decodeNext_full hqueue hon hparked hblocked hstarted hwalk hbufs),
        fun hstarted hdest => ?lanes, fun hstarted hdest => ?store⟩,
    fun hqueue => ⟨congrArg _ (decodeNext_idle hqueue), exec_decoderWordDeliver_idle hqueue⟩,
    fun run eng v => exec_scaleCacheFill, exec_scaleCacheFill_noMiss,
    fun x hx => ⟨exec_l1SectorAgeWriteback hx, exec_l1SectorAgeWriteback_young hx⟩⟩
  case noPlot =>
    simp only [List.mem_cons, List.not_mem_nil, or_false] at hi
    rcases hi with rfl | rfl | rfl | rfl
    · exact exec_plotRowAttempt_noPlot hq
    · exact exec_markCommit_noPlot hq
    · exact exec_timingLimit_noPlot hq
    · exact exec_plotRelease_noPlot hq
  case row =>
    exact ⟨exec_plotRowAttempt_runs hq hdue rfl, exec_plotRowAttempt_held hq hdue rfl, fun j lane =>
      exec_plotRowAttempt_mismatch hq hdue rfl⟩
  case mark =>
    refine ⟨fun hon hcause hready => ?_, ready_le_of_markReady, fun hearly => ?_⟩
    · rw [exec_markCommit hq hpend, if_pos (by simp [hon, hcause, hready])]
    · have hready : ¬s.markReady q m = true := fun h => absurd (ready_le_of_markReady h) (Nat.not_le.2 hearly)
      rw [exec_markCommit hq hpend, if_neg (by simp [hready])]
  case node =>
    exact ⟨fun v hin hleft hstages hroom hload => congrArg _ (nodeRead_loads hqueue hon hcause hin hleft hstages hroom hload),
      fun v vs hout hstaged hscales hroom hstore => congrArg _ (nodeWrite_stores hqueue hon hcause hout hstaged hscales hroom hstore),
      fun hfull => congrArg _ (nodeRead_full hqueue hfull), exec_streamNodeFire_in hqueue hon, exec_streamNodeFire_out hqueue hon⟩
  case limit =>
    rw [exec_timingLimit hq, hon, Bool.true_and]
    exact ⟨fun hpast => congrArg _ (if_pos hpast), fun hpast => congrArg _ (if_neg (by simp [hpast]))⟩
  case release => rw [exec_plotRelease hq, if_pos (by simp only [hactive, hwaiting, hon, hwaits, Bool.and_self])]
  case released => rw [exec_plotRelease hq, if_neg (by simp [hwaiting])]
  case lanes => rw [exec_decoderWordDeliver hqueue hon hparked hblocked hstarted rfl, if_pos hdest]
  case store => rw [exec_decoderWordDeliver hqueue hon hparked hblocked hstarted rfl, if_neg (by omega)]

end Sys2Proof.Proofs
end

section
/-! SUPPORT. A way of the wafer scratchpad that enters DEEP, and a home address that is counted to it but is not one of its bytes
(01 R16, R20; 13 R310, R312, R313, R315). -/

namespace Sys2Proof.Machine

/-- The home address where a bank 35 of core 7 of cluster 0 would begin. The core's window of 4 MiB reaches past its 32 banks, which end
before it. -/
def pastBanks : Nat := bankAddr (coreOfCic 0 7) 35 0

/-- The model counts the bank that would lie there as bank 32 · 7 + 35 of the cluster, which is the number of way 3. -/
theorem bankOfAddr_pastBanks (s : State) : s.bankOfAddr pastBanks = some (0, 259) := rfl

/-- Way 3 of cluster 0, of class SPARE, has been idle for all the 65,536 cycles that its DEEP threshold asks for; no line is cached, and the
one byte that memory lists is at `pastBanks`. -/
def idleWay : State :=
  { clusters := [(0, { banks := [(259, { cls := 3 })] })], mem := [⟨pastBanks, 1⟩], wt := 65536, inp := { unit := 0, idx := 259 } }

/-- The idle way's target is DEEP. -/
theorem idleTarget_idleWay :
    idleTarget (idleWay.cluster 0).idle (idleWay.demand 0) (floorOf ((idleWay.cluster 0).bank 259).cls)
      ((idleWay.cluster 0).cycles idleWay.wt - ((idleWay.cluster 0).bank 259).last) = 3 := by decide +kernel

/-- No cached data has to go home before the way loses its contents. -/
theorem leaveReady_idleWay : idleWay.leaveReady 0 259 = .ok () := rfl

/-- The way goes to DEEP, and clears the bytes of its own range only: the byte at `pastBanks` stands. -/
theorem byte_lowerBank_idleWay : (idleWay.lowerBank 0 259).byte pastBanks = 1 := by decide +kernel

end Sys2Proof.Machine

namespace Sys2Proof.Proofs

open Sys2Proof.Machine Sys2Proof.Claims

/-- Refutes O51: the clause that an idle bank's bytes read zero once it is in DEEP speaks of every address that `State.bankOfAddr` counts to
the bank. In the part of a core's 4 MiB window past its 32 banks these are addresses of no bank, counted to a bank of the next core or to a
way (`bankOfAddr_pastBanks`), and no lowering clears them (`byte_lowerBank_idleWay`). -/
theorem not_banksSleepWakeAndAreBudgeted : ¬ Obligations.BanksSleepWakeAndAreBudgeted := by
  intro h
  obtain ⟨⟨-, hdeep, -⟩, -⟩ := h idleWay
  have hmay : ((idleWay.cluster 0).bank 259).state < 3 ∧ ((idleWay.cluster 0).bank 259).wake = none ∧ (idleWay.cluster 0).cur ≠ 0 ∧
      (idleWay.cluster 0).rail = 0 ∧ idleWay.phaseHolds 0 259 = false ∧ idleWay.unalloc 0 259 = false := by decide
  obtain ⟨t, hexec, -, hzero⟩ := hdeep (idleTarget_idleWay ▸ hmay) idleTarget_idleWay leaveReady_idleWay
  have ht : idleWay.lowerBank 0 259 = t := Host.Outcome.next.inj hexec
  have hclear : t.byte pastBanks = 0 := hzero pastBanks (bankOfAddr_pastBanks idleWay) (Or.inl (by decide))
  rw [← ht, byte_lowerBank_idleWay] at hclear
  exact absurd hclear (by decide)

end Sys2Proof.Proofs
end

section
/-! SUPPORT. The dispatcher: which command it accepts and with what answer, what each host command does, how a launch ends, device launches,
and the launch that runs next (17 R350 to R352, R355, R357 to R359). -/

namespace Sys2Proof.Machine

open Sys2Proof.Claims

variable {s t u : State} {p r n v port : Nat}

/-! ## Acceptance (17 R355, R357) -/

theorem port_modPort (m : Module) (i : Nat) (f : HostPort → HostPort) : (m.modPort i f).port i = f (m.port i) := by
  unfold Module.modPort Module.port
  split <;> rfl

theorem port_modPort_other (m : Module) {i : Nat} (hi : i < 2) (f : HostPort → HostPort) : (m.modPort i f).port (1 - i) = m.port (1 - i) := by
  obtain rfl | rfl : i = 0 ∨ i = 1 := by omega
  · rfl
  · rfl

theorem port_accept (port result : Nat) : (t.accept port result).mod.port port = (t.mod.port port).accepted result :=
  port_modPort _ port _

theorem port_accept_other (h : port < 2) (result : Nat) : (t.accept port result).mod.port (1 - port) = t.mod.port (1 - port) :=
  port_modPort_other _ h _

/-- With the dispatcher running, no command at the other port and no pre-emption, nothing takes precedence over a port's command. -/
theorem mayAccept_alone (hstage : s.mod.stage = 5) (hother : s.mod.cmdAt (1 - port) = none) (hpre : s.preemptWaits = false) :
    s.mayAccept port = true := by
  have htear : s.mod.tearAt (1 - port) = false := by rw [Module.tearAt, hother]
  simp [State.mayAccept, Module.loses, hstage, hother, hpre, htear]

/-! ## An event of a host command (17 R355) -/

section HostCmd

variable {op : Nat} {f : Nat → Nat → Acc (State × Nat)}

theorem hostCmd_none (h : s.mod.cmdAt (s.inp.unit % 2) = none) : s.hostCmd op f = s := by
  simp only [State.hostCmd, h]

theorem hostCmd_waits (h : s.mod.cmdAt (s.inp.unit % 2) = some v) (hmay : s.mayAccept (s.inp.unit % 2) = false) : s.hostCmd op f = s := by
  simp only [State.hostCmd, h, hmay, Bool.not_false, if_true]

theorem hostCmd_bad (h : s.mod.cmdAt (s.inp.unit % 2) = some v) (hmay : s.mayAccept (s.inp.unit % 2) = true) (hbad : cmdBad v = true) :
    s.hostCmd op f = s.accept (s.inp.unit % 2) 1 := by
  simp only [State.hostCmd, h, hmay, hbad, Bool.not_true, Bool.false_eq_true, if_false, if_true]

theorem hostCmd_done (h : hostReady s op v) (hf : f (s.inp.unit % 2) v = .ok (t, r)) : s.hostCmd op f = t.accept (s.inp.unit % 2) r := by
  obtain ⟨hcmd, hmay, hgood, hop⟩ := h
  simp only [State.hostCmd, hcmd, hmay, hgood, hop, hf, Bool.not_true, Bool.false_eq_true, if_false, ne_eq, not_true]

end HostCmd

/-- Each of the five commands is an event of a host command. -/
theorem exec_hostCommand {i : Instr} (h : i ∈ [Instr.hostBuild, .hostLaunch, .hostCancel, .hostClear, .hostTeardown]) :
    ∃ op f, exec i s = .next (s.hostCmd op f) := by
  simp only [List.mem_cons, List.not_mem_nil, or_false] at h
  rcases h with rfl | rfl | rfl | rfl | rfl
  exacts [⟨1, s.hostBuild, rfl⟩, ⟨2, s.hostLaunch, rfl⟩, ⟨3, s.hostCancel, rfl⟩, ⟨4, s.hostClear, rfl⟩, ⟨5, s.hostTeardown, rfl⟩]

/-! ## The commands on their record (17 R350, R351) -/

theorem cmdRec_eq (v : Nat) : cmdRec v = v % 4096 := bits_zero v 12

/-- A record that may be armed or cleared is in none of the other states. -/
theorem not_mayArm {l : Launch} (h : l.state = 0 ∨ l.state = 2 ∨ l.state = 3) : ¬mayArm l := by
  unfold mayArm; omega

theorem hostBuild_running (h : (s.launch (v % 4096)).state = 2 ∨ (s.launch (v % 4096)).state = 3) : s.hostBuild port v = .ok (s, 2) := by
  rw [State.hostBuild, cmdRec_eq, if_pos h]

section Build

variable (h : ¬((s.launch (v % 4096)).state = 2 ∨ (s.launch (v % 4096)).state = 3))
include h

theorem hostBuild_builds (hok : s.imageOk (s.mod.port port).lstage = true) : s.hostBuild port v =
    .ok (s.setLaunch (v % 4096)
      { s.launch (v % 4096) with words := (s.mod.port port).lstage, state := 1, count := 0, code := 0, port }, 0) := by
  simp only [State.imageOk, Bool.and_eq_true] at hok
  obtain ⟨⟨hshape, hknown⟩, hprio⟩ := hok
  rw [State.hostBuild, cmdRec_eq, if_neg h, hshape, hknown, hprio]
  rfl

theorem hostBuild_invalid (hshape : shapeOk (s.mod.port port).lstage = false) : s.hostBuild port v = .ok (s, 3) := by
  rw [State.hostBuild, cmdRec_eq, if_neg h, hshape]
  rfl

theorem hostBuild_unknown (hshape : shapeOk (s.mod.port port).lstage = true) (hknown : s.known (imageOwner (s.mod.port port).lstage) = false) :
    s.hostBuild port v = .ok (s, 4) := by
  rw [State.hostBuild, cmdRec_eq, if_neg h, hshape, hknown]
  rfl

end Build

theorem hostLaunch_arms (h : mayArm (s.launch (v % 4096))) : s.hostLaunch port v = .ok (s.armHost (v % 4096) port, 0) := by
  rw [State.hostLaunch, cmdRec_eq, if_pos ((idle_iff _).2 h)]

theorem hostLaunch_refused (h : ¬mayArm (s.launch (v % 4096))) : s.hostLaunch port v = .ok (s, 2) := by
  rw [State.hostLaunch, cmdRec_eq, if_neg (mt (idle_iff _).1 h)]

theorem hostCancel_ends (h : (s.launch (v % 4096)).state = 2 ∨ (s.launch (v % 4096)).state = 3)
    (hend : s.endLaunch (v % 4096) 5 2 = .ok t) : s.hostCancel port v = .ok (t, 0) := by
  rw [State.hostCancel, cmdRec_eq, if_pos h, hend]
  rfl

theorem hostCancel_refused (h : ¬((s.launch (v % 4096)).state = 2 ∨ (s.launch (v % 4096)).state = 3)) :
    s.hostCancel port v = .ok (s, 2) := by
  rw [State.hostCancel, cmdRec_eq, if_neg h]

theorem hostClear_clears (h : mayArm (s.launch (v % 4096))) :
    s.hostClear port v = .ok (s.setLaunch (v % 4096) { s.launch (v % 4096) with state := 0 }, 0) := by
  rw [State.hostClear, cmdRec_eq, if_pos ((idle_iff _).2 h), modLaunch_eq]

theorem hostClear_refused (h : ¬mayArm (s.launch (v % 4096))) : s.hostClear port v = .ok (s, 2) := by
  rw [State.hostClear, cmdRec_eq, if_neg (mt (idle_iff _).1 h)]

theorem known_iff {c : Nat} : s.known c = true ↔ (s.ctx c).state ≠ 0 := bne_iff_ne

theorem hostTeardown_tears (h : (s.ctx (bits v 32 10)).state ≠ 0) (htear : s.tearDown (bits v 32 10) = .ok t) :
    s.hostTeardown port v = .ok (t, 0) := by
  rw [State.hostTeardown, cmdCtx, if_pos (known_iff.2 h), htear]
  rfl

theorem hostTeardown_unknown (h : (s.ctx (bits v 32 10)).state = 0) : s.hostTeardown port v = .ok (s, 4) := by
  rw [State.hostTeardown, cmdCtx, if_neg (mt known_iff.1 (not_not.2 h))]

/-- A context that is torn down is unknown and holds no tokens (17 R359). -/
theorem ctx_of_tearDown {c : Nat} (h : s.tearDown c = .ok t) : (t.ctx c).state = 0 ∧ (t.ctx c).tokens = [] := by
  obtain ⟨w, -, h⟩ := acc_bind_cases h
  cases h
  rw [modCtx_eq, ctx_setCtx, if_pos rfl]
  exact ⟨rfl, rfl⟩

/-! ## The end of a launch (17 R351, R352) -/

/-- However its NOTIFY store goes, a launch that ends leaves its record ended, with a code of its own. -/
theorem launch_of_endLaunch {st code : Nat} (h : s.endLaunch n st code = .ok u) :
    ∃ c, u.launch n = { (s.launch n).ended st code with code := c } := by
  unfold State.endLaunch at h
  extract_lets l l' dropped rest at h
  have hset : ∀ (t : State) (x : Launch), (t.setLaunch n x).launch n = x := fun t x => by rw [launch_setLaunch, if_pos rfl]
  have hrest : ∀ w, rest w = .ok u → ∃ c, u.launch n = { l' with code := c } := by
    intro w hw
    simp only [rest] at hw
    split at hw
    · cases hw; exact ⟨_, hset _ _⟩
    · split at hw
      · cases hw; exact ⟨_, hset _ _⟩
      · cases hw; exact ⟨_, hset _ _⟩
      · cases hw
  split at h
  · split at h
    · obtain ⟨w, -, h⟩ := acc_bind_cases h
      exact hrest w h
    · exact hrest _ h
  · exact hrest _ h

/-! ## Device launches (17 R357) -/

theorem exec_deviceLaunch {b : Word} {rest : List (Nat × Word)} (hcmds : s.mod.dcmds = (n, b) :: rest) (hstage : s.mod.stage = 5)
    (hA : s.mod.cmdAt 0 = none) (hB : s.mod.cmdAt 1 = none) (hpre : s.preemptWaits = false) : exec .deviceLaunch s = .next (
      let u := s.modMod fun m => { m with dcmds := rest }
      if (s.launch n).state = 2 then u.setLaunch n { s.launch n with accepted := true } else u) := by
  show Host.Outcome.next s.deviceLaunch = _
  rw [State.deviceLaunch, hcmds]
  dsimp only
  rw [if_neg (by simp [hstage, hA, hB, hpre])]
  rfl

/-! ## Which launch runs next (17 R358) -/

/-- The dispatcher takes the best candidate for a partition whose active context runs nothing. -/
theorem exec_launchDispatch (hen : (s.part s.inp.unit).en = true) (hsw : (s.part s.inp.unit).sw = .none) (hpreq : (s.part s.inp.unit).preq = [])
    (hstage : s.mod.stage = 5) (hav : (s.part s.inp.unit).av = true) (hrun : s.runningOf (s.part s.inp.unit).active = none) :
    exec .launchDispatch s = .next ((s.bestCand s.inp.unit (s.cands s.inp.unit)).elim s (s.take s.inp.unit)) := by
  show Host.Outcome.next (s.dispatch s.inp.unit) = _
  simp only [State.dispatch, hav, hrun, if_true]
  rw [if_neg (by simp [hen, hsw, hpreq, hstage])]
  cases s.bestCand s.inp.unit (s.cands s.inp.unit) <;> rfl

section Take

variable {c : Cand} (hrec : c.rec_ = some n) (hok : s.imageOk (s.launch n).words = true)
include hrec hok

theorem take_runs (hav : (s.part p).av = true) (hctx : c.ctx = (s.part p).active) : s.take p c = s.runLaunch p c n := by
  simp only [State.take, hrec, hok, Bool.not_true, Bool.false_eq_true, if_false]
  rw [if_pos ⟨hav, hctx.symm⟩]

theorem take_asks (hctx : c.ctx ≠ (s.part p).active) : s.take p c = s.askSwitch p c.ctx := by
  simp only [State.take, hrec, hok, Bool.not_true, Bool.false_eq_true, if_false]
  rw [if_neg fun h => hctx h.2.symm]

end Take

end Sys2Proof.Machine

namespace Sys2Proof.Proofs

open Sys2Proof.Machine Sys2Proof.Claims

/-- Settles O46: a command that waits is answered by its event (`hostCmd_bad`, `hostCmd_done`) with what the command does to its record in each
of the record's states; the end of a launch leaves it ended (`launch_of_endLaunch`); the dispatcher takes the best candidate
(`exec_launchDispatch`). -/
theorem dispatcherCommandsAndLaunches : Obligations.DispatcherCommandsAndLaunches := by
  intro s t v port r l w
  refine ⟨mayAccept_alone, fun n => ?answer, fun i hi => ?waits, fun h => ?build, fun h => ?launch, fun h => ?cancel, fun h => ?clear,
    fun h => ?teardown, fun n st code u h => ?ended, fun n b rest hcmds hstage hA hB hpre => ?device,
    fun hen hsw hpreq hstage hav hrun => ?dispatch⟩
  case answer =>
    have hport := port_accept (t := t) port n
    exact ⟨congrArg HostPort.dcmd hport, congrArg HostPort.dstat hport, rfl, rfl, rfl, port_accept_other (Nat.mod_lt _ (by decide)) n⟩
  case waits =>
    obtain ⟨op, f, he⟩ := exec_hostCommand (s := s) hi
    rw [accepts, he]
    exact ⟨fun h => congrArg _ (hostCmd_none h), fun h hmay hbad => congrArg _ (hostCmd_bad h hmay hbad),
      fun h hmay => congrArg _ (hostCmd_waits h hmay)⟩
  case build =>
    refine ⟨fun hst => congrArg _ (hostCmd_done h (hostBuild_running hst)), fun h2 h3 => ?_⟩
    have hst : ¬(l.state = 2 ∨ l.state = 3) := not_or.2 ⟨h2, h3⟩
    exact ⟨fun hok => congrArg _ (hostCmd_done h (hostBuild_builds hst hok)),
      fun hshape => congrArg _ (hostCmd_done h (hostBuild_invalid hst hshape)),
      fun hshape hknown => congrArg _ (hostCmd_done h (hostBuild_unknown hst hshape hknown))⟩
  case launch =>
    exact ⟨fun hst => congrArg _ (hostCmd_done h (hostLaunch_arms hst)),
      fun hst => congrArg _ (hostCmd_done h (hostLaunch_refused (not_mayArm hst)))⟩
  case cancel =>
    exact ⟨fun hst hend => congrArg _ (hostCmd_done h (hostCancel_ends hst hend)),
      fun h2 h3 => congrArg _ (hostCmd_done h (hostCancel_refused (not_or.2 ⟨h2, h3⟩)))⟩
  case clear =>
    exact ⟨fun hst => congrArg _ (hostCmd_done h (hostClear_clears hst)),
      fun hst => congrArg _ (hostCmd_done h (hostClear_refused (not_mayArm hst)))⟩
  case teardown =>
    exact ⟨fun hst htear => ⟨congrArg _ (hostCmd_done h (hostTeardown_tears hst htear)), ctx_of_tearDown htear⟩,
      fun hst => congrArg _ (hostCmd_done h (hostTeardown_unknown hst))⟩
  case ended =>
    obtain ⟨c, hu⟩ := launch_of_endLaunch h
    exact ⟨congrArg Launch.state hu, congrArg Launch.count hu⟩
  case device =>
    rw [exec_deviceLaunch hcmds hstage hA hB hpre]
    exact ⟨fun hst => congrArg _ (if_pos hst), fun hst => congrArg _ (if_neg hst)⟩
  case dispatch =>
    rw [exec_launchDispatch hen hsw hpreq hstage hav hrun]
    refine ⟨fun c n hbest hrec hok => ?_, fun hnone => by rw [hnone]; rfl⟩
    rw [hbest, Option.elim_some]
    exact ⟨fun hctx => congrArg _ (take_runs hrec hok hav hctx), fun hctx => congrArg _ (take_asks hrec hok hctx)⟩

end Sys2Proof.Proofs
end

section
/-! SUPPORT. The walker of a partition: its event at the node it stands at, what it does at each kind of node, the headgates that a LOAD
starts, and the end of a load (12 R302, R303; 17 R353, R354, R360, R361). -/

namespace Sys2Proof.Machine

open Sys2Proof.Claims

variable {s t u : State} {p r n x w : Nat}

/-! ## An event of the walker (17 R353, R354) -/

theorem exec_graphNode {i : Instr}
    (h : i ∈ [Instr.graphNodeEnd, .graphNodeLoad, .graphNodeCond, .graphNodeWhile, .graphNodeHold, .graphNodeArm]) :
    ∃ kind f, (kind = 0 → i = .graphNodeEnd) ∧ exec i s = .next (s.nodeEvent kind f) := by
  simp only [List.mem_cons, List.not_mem_nil, or_false] at h
  rcases h with rfl | rfl | rfl | rfl | rfl | rfl
  exacts [⟨0, _, fun _ => rfl, rfl⟩, ⟨1, _, nofun, rfl⟩, ⟨2, _, nofun, rfl⟩, ⟨3, _, nofun, rfl⟩, ⟨4, _, nofun, rfl⟩, ⟨5, _, nofun, rfl⟩]

section NodeEvent

variable {kind : Nat} {f : Nat → Nat → Nat → State → Nat → Acc State}

/-- A walker that does not run does nothing, but for an END whose NOTIFY store is lost (17 R351). -/
theorem nodeEvent_off (hoff : s.walkerOn s.inp.unit = false)
    (hlost : ∀ r n, (s.part s.inp.unit).walker = .at_ r n → kind = 0 → s.notifyLost r = false) : s.nodeEvent kind f = s := by
  unfold State.nodeEvent
  dsimp only
  split
  · next r n hw =>
    have hnone : (kind == 0 && s.notifyLost r) = false := by simpa using hlost r n hw
    rw [hoff, hnone]
    rfl
  · rfl
  · rfl
  · rfl

section On

variable (hw : (s.part s.inp.unit).walker = .at_ r n) (hon : s.walkerOn s.inp.unit = true)
include hw hon

/-- Past the last node, the launch is cancelled. -/
theorem nodeEvent_past (hpast : (s.launch r).nnodes ≤ n) : s.nodeEvent kind f = s.walkerAct s.inp.unit n (s.endLaunch r 5 4) := by
  simp only [State.nodeEvent, hw, hon, Bool.not_true, Bool.false_and, Bool.false_eq_true, if_false, if_pos hpast]

section Read

variable (hn : n < (s.launch r).nnodes)
  (hread : s.loadVia (s.walkerW s.inp.unit) (padd (s.launch r).graph (64 * n : Nat)) 64 true = .ok (t, x))
include hn hread

theorem nodeEvent_malformed (hbad : nodeOk x (s.launch r).nnodes (s.part s.inp.unit).cores.length = false) :
    s.nodeEvent kind f = s.walkerAct s.inp.unit n (t.endLaunch r 5 4) := by
  simp only [State.nodeEvent, hw, hon, Bool.not_true, Bool.false_and, Bool.false_eq_true, if_false, if_neg (Nat.not_le.2 hn), State.readNode,
    hread, acc_bind_ok, hbad, Bool.not_false, if_true]

theorem nodeEvent_acts (hok : nodeOk x (s.launch r).nnodes (s.part s.inp.unit).cores.length = true) (hk : nodeKind x = kind) :
    s.nodeEvent kind f = s.walkerAct s.inp.unit n (f s.inp.unit r n t x) := by
  simp only [State.nodeEvent, hw, hon, Bool.not_true, Bool.false_and, Bool.false_eq_true, if_false, if_neg (Nat.not_le.2 hn), State.readNode,
    hread, acc_bind_ok, hok, nKind, hk, ne_eq, not_true]

end Read
end On

/-- The walker acts at a node of the event's kind. -/
theorem nodeEvent_ok (h : walkerReads s t s.inp.unit r n x) (hk : nodeKind x = kind) (hf : f s.inp.unit r n t x = .ok u) :
    s.nodeEvent kind f = u := by
  obtain ⟨hw, hon, hn, hread, hok⟩ := h
  rw [nodeEvent_acts hw hon hn hread hok hk, hf, State.walkerAct]

end NodeEvent

/-! ## Nodes without a condition: END and ARM (17 R351, R354) -/

theorem toNat_word_bits (x lo : Nat) : (BitVec.ofNat 64 (bits x lo 64)).toNat = bits x lo 64 := by
  rw [BitVec.toNat_ofNat]
  exact Nat.mod_mod _ _

theorem toNat_nAddr (x : Nat) : (nAddr x).toNat = bits x 64 64 := toNat_word_bits x 64

theorem armNode_arms (h : t.armRecord (bits x 64 64) (some (t.launch r).owner) = .ok u) : t.armNode p r x = .ok (goesTo u p r (bits x 16 16)) := by
  rw [State.armNode, toNat_nAddr, h]
  rfl

theorem armNode_fails {e : Stop} (h : t.armRecord (bits x 64 64) (some (t.launch r).owner) = .error e) :
    t.armNode p r x = t.endLaunch r 5 6 := by
  rw [State.armNode, toNat_nAddr, h]

/-! ## Nodes with a condition: COND, WHILE and HOLD (17 R354) -/

theorem nTest_pos (h : condTrue x w) : nTest x w = true := decide_eq_true h

theorem nTest_neg (h : ¬condTrue x w) : nTest x w = false := decide_eq_false h

theorem whileNode_exits : u.whileNode p r n x false = .ok (goesTo u p r (bits x 32 16)) := rfl

theorem whileNode_body (h : bits x 48 16 = 0 ∨ SMap.getD (u.part p).iters n 0 + 1 ≤ bits x 48 16) : u.whileNode p r n x true =
    .ok (goesTo (u.modPart p fun q => { q with iters := SMap.set q.iters n (SMap.getD (u.part p).iters n 0 + 1) }) p r (bits x 16 16)) := by
  have hlimit : ¬(nIter x ≠ 0 ∧ nIter x < SMap.getD (u.part p).iters n 0 + 1) := by unfold nIter; omega
  rw [State.whileNode, if_neg (by decide)]
  exact if_neg hlimit

theorem whileNode_limit (h0 : bits x 48 16 ≠ 0) (h : bits x 48 16 < SMap.getD (u.part p).iters n 0 + 1) :
    u.whileNode p r n x true = u.endLaunch r 5 5 := by
  rw [State.whileNode, if_neg (by decide)]
  exact if_pos ⟨h0, h⟩

/-- A HOLD node that is read again after its 1,600 ticks. -/
theorem exec_holdNodeReread {since : Nat} (hw : (s.part s.inp.unit).walker = .holding r n since x) (hon : s.walkerOn s.inp.unit = true)
    (hdue : since + 1600 ≤ s.wt)
    (hread : s.loadVia (s.walkerW s.inp.unit) (BitVec.ofNat 64 (bits x 64 64)) 8 true = .ok (u, w)) :
    exec .holdNodeReread s = .next (u.holdNode s.inp.unit r n x (nTest x w)) := by
  show execHoldNodeReread s = _
  simp only [execHoldNodeReread, hw, hon, hdue, decide_true, Bool.and_self, if_true, State.readCond, nAddr, hread, acc_bind_ok, State.walkerAct]

theorem exec_holdNodeReread_early {since : Nat} (hw : (s.part s.inp.unit).walker = .holding r n since x) (hdue : s.wt < since + 1600) :
    exec .holdNodeReread s = .next s := by
  show execHoldNodeReread s = _
  simp only [execHoldNodeReread, hw, decide_eq_false (Nat.not_le.2 hdue), Bool.and_false, Bool.false_eq_true, if_false]

/-! ## LOAD (17 R360; 23 R420) -/

theorem nAddr_eq_zero : nAddr x = 0 ↔ bits x 64 64 = 0 := by
  rw [← toNat_nAddr, ← BitVec.toNat_inj]
  rfl

theorem loadCores_mayStart (hc : ∀ c ∈ t.loadCores p x, t.quiescing (clusterOf c) = false) :
    waitFor ((t.loadCores p x).all fun c => !t.quiescing (clusterOf c)) = .ok () :=
  waitFor_of (by simpa using hc)

section Load

variable (h : walkerReads s t s.inp.unit r n x) (hk : nodeKind x = 1)
include h hk

/-- No load starts on the cores of a cluster that quiesces. -/
theorem exec_graphNodeLoad_quiescing (hc : ∃ c ∈ t.loadCores s.inp.unit x, t.quiescing (clusterOf c) = true) :
    exec .graphNodeLoad s = .next s := by
  have hwait : ((t.loadCores s.inp.unit x).all fun c => !t.quiescing (clusterOf c)) = false := by simpa using hc
  obtain ⟨hw, hon, hn, hread, hok⟩ := h
  refine congrArg Host.Outcome.next ((nodeEvent_acts hw hon hn hread hok hk).trans ?_)
  rw [hwait]
  rfl

variable (hc : ∀ c ∈ t.loadCores s.inp.unit x, t.quiescing (clusterOf c) = false)
include hc

/-- A LOAD without an image. -/
theorem exec_graphNodeLoad_plain (haddr : bits x 64 64 = 0) (htasks : (t.pendingRoles s.inp.unit).loadTasks s.inp.unit r x = .ok u) :
    exec .graphNodeLoad s = .next (u.startLoad s.inp.unit r n x) := by
  refine congrArg Host.Outcome.next (nodeEvent_ok h hk ?_)
  rw [loadCores_mayStart hc, acc_bind_ok, if_pos (nAddr_eq_zero.2 haddr), acc_bind_ok]
  dsimp only
  rw [htasks, acc_bind_ok]

/-- A LOAD with an image, which is configured first. -/
theorem exec_graphNodeLoad_image {v : State} (haddr : bits x 64 64 ≠ 0)
    (hcfg : t.walkerCfg s.inp.unit (BitVec.ofNat 64 (bits x 64 64)) = .ok u)
    (htasks : (u.pendingRoles s.inp.unit).loadTasks s.inp.unit r x = .ok v) :
    exec .graphNodeLoad s = .next (v.startLoad s.inp.unit r n x) := by
  refine congrArg Host.Outcome.next (nodeEvent_ok h hk ?_)
  rw [loadCores_mayStart hc, acc_bind_ok, if_neg (mt nAddr_eq_zero.1 haddr), nAddr, hcfg, acc_bind_ok]
  dsimp only
  rw [htasks, acc_bind_ok]

end Load

/-! ## The headgates that a LOAD starts (17 R360) -/

/-- A headgate that no item of a fold changes stands as it was. -/
theorem hg_foldl_other {β : Type} {g : State → β → State} {j : Nat} {l : List β} (h : ∀ c ∈ l, ∀ s, (g s c).hg j = s.hg j) (s : State) :
    (l.foldl g s).hg j = s.hg j := by
  induction l generalizing s with
  | nil => rfl
  | cons c l ih =>
    obtain ⟨hc, hl⟩ := List.forall_mem_cons.1 h
    rw [List.foldl_cons, ih hl, hc]

/-- Of a fold whose items each change their own headgates, those of item b come from its own turn: there they stand as at the beginning,
and so does whatever no item changes. -/
theorem hg_foldl_at {α β : Type} {g : State → β → State} {keep : State → α} {b : β} {j : Nat} {l : List β}
    (hother : ∀ c, c ≠ b → ∀ s, (g s c).hg j = s.hg j) (hkeep : ∀ s c, keep (g s c) = keep s) (hb : b ∈ l) (hnodup : l.Nodup) (s : State) :
    ∃ w : State, w.hg j = s.hg j ∧ keep w = keep s ∧ (l.foldl g s).hg j = (g w b).hg j := by
  obtain ⟨l₁, l₂, rfl⟩ := List.append_of_mem hb
  obtain ⟨hnot, -⟩ := List.nodup_cons.1 (List.nodup_middle.1 hnodup)
  rw [List.mem_append, not_or] at hnot
  have hrest : ∀ l : List β, b ∉ l → ∀ s : State, (l.foldl g s).hg j = s.hg j := fun l hl =>
    hg_foldl_other fun c hc => hother c fun h => hl (h ▸ hc)
  refine ⟨l₁.foldl g s, hrest l₁ hnot.1 s, foldl_keeps s keep g hkeep l₁, ?_⟩
  rw [List.foldl_append, List.foldl_cons, hrest l₂ hnot.2]

/-- What starts of headgates leave alone and look at: the walker's place, the launch, its context. -/
def State.startView (s : State) : SMap Part × SMap Launch × SMap Ctx := (s.parts, s.launches, s.ctxs)

theorem startView_eq (h : u.startView = s.startView) : u.part p = s.part p ∧ (∀ r, u.launch r = s.launch r) ∧ ∀ c, u.ctx c = s.ctx c := by
  obtain ⟨hparts, hlaunches, hctxs⟩ := (by simpa [State.startView] using h : u.parts = s.parts ∧ u.launches = s.launches ∧ u.ctxs = s.ctxs)
  exact ⟨by rw [State.part, hparts]; rfl, fun r => by rw [State.launch, hlaunches]; rfl, fun c => by rw [State.ctx, hctxs]; rfl⟩

section Start

variable {k j c h : Nat} {pc : Word}

theorem startView_startOrWait : (s.startOrWait p k pc).startView = s.startView := by
  unfold State.startOrWait
  split <;> rfl

theorem hg_startOrWait_other (hj : j ≠ k) : (s.startOrWait p k pc).hg j = s.hg j := by
  unfold State.startOrWait State.startHg
  split <;> simp only [modHg_eq, hg_setHg, if_neg hj]

/-- Headgate h of core c starts when the mask of a LOAD node names it. -/
def State.startNamed (s : State) (p x c h : Nat) : State := if bit (nHgs x) h then s.startOrWait p (4 * c + h) (nEntry x h) else s

theorem startView_startNamed : (s.startNamed p x c h).startView = s.startView := by
  unfold State.startNamed
  split
  · exact startView_startOrWait
  · rfl

theorem hg_startNamed_other (hj : j ≠ 4 * c + h) (s : State) : (s.startNamed p x c h).hg j = s.hg j := by
  unfold State.startNamed
  split
  · exact hg_startOrWait_other hj
  · rfl

/-- The headgates of one core of a LOAD node start. -/
def State.startCore (s : State) (p x c : Nat) : State := (List.range 4).foldl (fun s h => s.startNamed p x c h) s

theorem startLoad_eq : s.startLoad p r n x = (s.loadCores p x).foldl (fun s c => s.startCore p x c)
    (s.modPart p fun q => { q with walker := .loading r n (nNext x), load := some (nLo x, nCount x, nHgs x) }) := rfl

theorem startView_startCore : (s.startCore p x c).startView = s.startView :=
  foldl_keeps s _ _ (fun _ _ => startView_startNamed) _

/-- A core's starts are of its own four headgates. -/
theorem hg_startCore_other (hj : j / 4 ≠ c) (s : State) : (s.startCore p x c).hg j = s.hg j := by
  refine hg_foldl_other (fun h hh s => ?_) s
  have hlt := List.mem_range.1 hh
  exact hg_startNamed_other (by omega) s

/-- A headgate that a LOAD's mask names on one of its cores starts, or waits for its task's HALT, as it would alone. -/
theorem hg_startLoad (hc : c ∈ s.loadCores p x) (hh : h < 4) (hbit : bit (nHgs x) h = true) (hnodup : (s.loadCores p x).Nodup) :
    ∃ w : State, w.hg (4 * c + h) = s.hg (4 * c + h) ∧ (w.part p).walker = .loading r n (nNext x) ∧ (∀ r, w.launch r = s.launch r) ∧
      (∀ c, w.ctx c = s.ctx c) ∧ (s.startLoad p r n x).hg (4 * c + h) = (w.startOrWait p (4 * c + h) (nEntry x h)).hg (4 * c + h) := by
  rw [startLoad_eq]
  generalize hz : s.modPart p _ = z
  obtain ⟨v, hv, hviewv, hcore⟩ := hg_foldl_at (g := fun s c => s.startCore p x c) (keep := State.startView) (j := 4 * c + h)
    (fun d hd => hg_startCore_other (by omega)) (fun _ _ => startView_startCore) hc hnodup z
  obtain ⟨w, hw, hvieww, hhg⟩ := hg_foldl_at (g := fun s h => s.startNamed p x c h) (keep := State.startView) (j := 4 * c + h)
    (fun d hd => hg_startNamed_other (by omega)) (fun _ _ => startView_startNamed) (List.mem_range.2 hh) List.nodup_range v
  obtain ⟨hpart, hlaunch, hctx⟩ := startView_eq (p := p) (hvieww.trans hviewv)
  subst hz
  refine ⟨w, hw.trans hv, by rw [hpart, modPart_eq, part_setPart, if_pos rfl], hlaunch, hctx, ?_⟩
  exact hcore.trans (hhg.trans (by rw [State.startNamed, if_pos hbit]))

/-! ## The state of a started headgate (17 R360) -/

theorem getS_congr {k l : Hg} (h : k.s = l.s) (i : SReg) : k.getS i = l.getS i := by rw [Hg.getS, Hg.getS, h]

theorem getS_fresh (k : Hg) (pc : Word) (sr : List Word) {i : SReg} (hi : i ≠ 0) : (k.fresh pc sr).getS i = sr.getD (i.val - 1) 0 := by
  have hval : i.val ≠ 0 := fun h => hi (Fin.ext h)
  unfold Hg.getS
  rw [if_neg hi]
  show (Vector.ofFn _)[i.val] = _
  rw [Vector.getElem_ofFn]
  exact if_neg hval

/-- A program starts at a multiple of 4. -/
theorem and_pcMask (x : Word) : x &&& 0xFFFFFFFFFFFFFFFC#64 = BitVec.ofNat 64 (x.toNat / 4 * 4) := by
  have hmask : ∀ i : Fin 64, (0xFFFFFFFFFFFFFFFC#64).getLsbD i = decide (2 ≤ i.val) := by decide
  apply BitVec.eq_of_getLsbD_eq
  intro i hi
  have hshift : x.toNat / 4 * 4 = (x.toNat >>> 2) <<< 2 := by rw [Nat.shiftRight_eq_div_pow, Nat.shiftLeft_eq]
  rw [BitVec.getLsbD_and, hmask ⟨i, hi⟩, BitVec.getLsbD_ofNat, hshift, Nat.testBit_shiftLeft, Nat.testBit_shiftRight]
  by_cases h2 : 2 ≤ i
  · simp [h2, hi, BitVec.getLsbD, Nat.add_sub_cancel' h2]
  · simp [h2]

/-- A free headgate begins the program of the node that its walker has reached. -/
theorem hg_startOrWait_free {next : Nat} (hfree : s.isFree k = true) (hw : (s.part p).walker = .loading r n next) :
    (s.startOrWait p k pc).hg k =
      { (s.hg k).fresh pc (BitVec.ofNat 64 (r * 2 ^ 16 + n) :: (List.range 8).map fun i => (s.launch r).word (8 + i)) with
        sys := (s.ctx (s.launch r).owner).sys, tvec := (s.ctx (s.launch r).owner).tvec, icache := [], run := .program, stopped := false,
        pendStart := none, startAt := s.hgCycle k + 4 } := by
  rw [State.startOrWait, if_pos hfree, State.startHg, hw]
  simp only [modHg_eq, hg_setHg, if_true]

/-- What a LOAD's start gives a free headgate: its PC, its mode, and its registers (17 R360). -/
theorem hg_startLoad_free (hc : c ∈ s.loadCores p x) (hh : h < 4) (hbit : bit (bits x 160 4) h = true)
    (hfree : s.isFree (4 * c + h) = true) (hnodup : (s.loadCores p x).Nodup) :
    let k := (s.startLoad p r n x).hg (4 * c + h)
    k.run = .program ∧ k.pc = BitVec.ofNat 64 (bits x (256 + 64 * h) 64 / 4 * 4) ∧ k.sys = (s.ctx (s.launch r).owner).sys ∧
    k.getS 1 = BitVec.ofNat 64 (r * 2 ^ 16 + n) ∧ ∀ j : Fin 8, k.getS ⟨2 + j.val, by omega⟩ = (s.launch r).word (8 + j.val) := by
  obtain ⟨w, hhg, hwalker, hlaunch, hctx, hstart⟩ := hg_startLoad (r := r) (n := n) hc hh hbit hnodup
  have hfree' : w.isFree (4 * c + h) = true := by rwa [State.isFree, hhg]
  rw [hg_startOrWait_free hfree' hwalker, hlaunch, hctx] at hstart
  intro k
  obtain ⟨hrun, hpc, hsys, hs⟩ : k.run = .program ∧ k.pc = nEntry x h &&& 0xFFFFFFFFFFFFFFFC#64 ∧
      k.sys = (s.ctx (s.launch r).owner).sys ∧ k.s = ((w.hg (4 * c + h)).fresh (nEntry x h)
        (BitVec.ofNat 64 (r * 2 ^ 16 + n) :: (List.range 8).map fun i => (s.launch r).word (8 + i))).s := by
    rw [show k = _ from hstart]
    exact ⟨rfl, rfl, rfl, rfl⟩
  have hgetS := fun (i : SReg) hi => (getS_congr hs i).trans (getS_fresh _ _ _ hi)
  have hentry : (nEntry x h).toNat = bits x (256 + 64 * h) 64 := toNat_word_bits x _
  refine ⟨hrun, by rw [hpc, and_pcMask, hentry], hsys, hgetS 1 (by decide), fun j => ?_⟩
  have hj : (⟨2 + j.val, by omega⟩ : SReg) ≠ 0 := Fin.ne_of_val_ne (show 2 + j.val ≠ 0 by omega)
  rw [hgetS _ hj, show 2 + j.val - 1 = j.val + 1 by omega, List.getD_cons_succ,
    List.getD_eq_getElem _ _ (by simp), List.getElem_map, List.getElem_range]

end Start

/-! ## The end of a load (12 R302, R303; 17 R361) -/

section LoadEnd

variable {next : Nat} (hw : (s.part s.inp.unit).walker = .loading r n next)
include hw

theorem exec_loadEnd_open (h : s.loadEnded s.inp.unit = false) : exec .loadEnd s = .next s := by
  show execLoadEnd s = _
  simp only [execLoadEnd, hw, h, Bool.and_false, Bool.false_eq_true, if_false]

theorem exec_loadEnd (hon : s.walkerOn s.inp.unit = true) (h : s.loadEnded s.inp.unit = true) : exec .loadEnd s = .next (
    s.orWait (s.walkerW s.inp.unit) (s.loadBoundaryAt s.inp.unit >>= fun u =>
      .ok (goesTo (u.modPart s.inp.unit fun q => { q with load := none }) s.inp.unit r next))) := by
  show execLoadEnd s = _
  simp only [execLoadEnd, hw, hon, h, Bool.and_self, if_true, State.walkTo]

end LoadEnd

end Sys2Proof.Machine

namespace Sys2Proof.Proofs

open Sys2Proof.Machine Sys2Proof.Claims

/-- Settles O47: an event of the walker acts at the node that it reads (`nodeEvent_ok`), as the node's kind says, and cancels the launch past
the last node and at a malformed one (`nodeEvent_past`, `nodeEvent_malformed`); a LOAD's headgates start one by one (`hg_startLoad_free`). -/
theorem graphNodesDoWhatTheirKindsSay : Obligations.GraphNodesDoWhatTheirKindsSay := by
  intro s t u r n x w p
  refine ⟨fun hr => ⟨fun hk hend => ?end_, fun hread => ⟨fun hk => ?cond, fun hk => ?while_, fun hk => ?hold⟩, fun hk => ?arm,
      fun hk hc => ⟨exec_graphNodeLoad_plain hr hk hc, fun v => exec_graphNodeLoad_image hr hk hc⟩, exec_graphNodeLoad_quiescing hr⟩,
    fun i hi => ?event, fun since hw hon hdue hread => ?reread, fun since => exec_holdNodeReread_early,
    fun c h => hg_startLoad_free, fun next hw hon => ⟨fun hended => ?ended, exec_loadEnd_open hw⟩⟩
  case end_ => exact congrArg _ (nodeEvent_ok hr hk hend)
  case cond =>
    refine congrArg _ (nodeEvent_ok hr hk ?_)
    rw [State.readCond, nAddr, hread, acc_bind_ok]
    dsimp only
    by_cases h : condTrue x w
    · rw [if_pos h, nTest_pos h]; rfl
    · rw [if_neg h, nTest_neg h]; rfl
  case while_ =>
    have hact : ∀ v, u.whileNode p r n x (nTest x w) = .ok v → exec .graphNodeWhile s = .next v := by
      refine fun v hv => congrArg _ (nodeEvent_ok hr hk ?_)
      rw [State.readCond, nAddr, hread]
      exact hv
    exact ⟨fun h hlimit => hact _ (nTest_pos h ▸ whileNode_body hlimit), fun h => hact _ (nTest_neg h ▸ whileNode_exits),
      fun v h h0 hlimit hend => hact v (nTest_pos h ▸ (whileNode_limit h0 hlimit).trans hend)⟩
  case hold =>
    have hact : exec .graphNodeHold s = .next (u.holdNode p r n x (nTest x w)) := by
      refine congrArg _ (nodeEvent_ok hr hk ?_)
      rw [State.readCond, nAddr, hread]
      rfl
    exact ⟨fun h => hact.trans (by rw [nTest_pos h]; rfl), fun h => hact.trans (by rw [nTest_neg h]; rfl)⟩
  case arm =>
    exact ⟨fun harm => congrArg _ (nodeEvent_ok hr hk (armNode_arms harm)),
      fun e herr hend => congrArg _ (nodeEvent_ok hr hk ((armNode_fails herr).trans hend))⟩
  case event =>
    obtain ⟨kind, f, hkind, he⟩ := exec_graphNode (s := s) hi
    rw [he]
    refine ⟨fun hw hon => ⟨fun hpast hend => ?_, fun hn hread hbad hend => ?_⟩, fun hoff hlost => ?_⟩
    · rw [nodeEvent_past hw hon hpast, hend, State.walkerAct]
    · rw [nodeEvent_malformed hw hon hn hread hbad, hend, State.walkerAct]
    · rw [nodeEvent_off hoff fun r n hw hk => hlost r n hw (hkind hk)]
  case reread =>
    rw [exec_holdNodeReread hw hon hdue hread]
    exact ⟨fun h => by rw [nTest_pos h]; rfl, fun h => by rw [nTest_neg h]; rfl⟩
  case ended =>
    rw [exec_loadEnd hw hon hended]
    exact ⟨fun h => by rw [h]; rfl, fun wt h => by rw [h]; rfl⟩

end Sys2Proof.Proofs
end

section
/-! SUPPORT. Accesses of agents outside the device: which event acts for which register, how it answers, and an access of a register that no
check refuses (17 R356; 18 R363, R365, R387; 26 R446, R447, R449). -/

namespace Sys2Proof.Machine

open Sys2Proof.Claims

variable {s t : State} {i : Instr} {a : Agent} {f : Nat → Nat → Bool} {p : Word} {c n v x : Nat} {d : List Nat} {wt : Wait} {kind : Kind}

/-! ## How an access answers (26 R447, R449) -/

theorem agent_external : s.agent.external = true ↔ outside s := by
  unfold State.agent outside
  generalize s.inp.sub = n
  match n with
  | 0 | 1 | 2 | 3 | 4 | 5 => decide
  | n + 6 => exact iff_of_true rfl ⟨by omega, by omega⟩

theorem agentWrite_ok (h : s.mgmtWrite a (agentWaiter a) p n v = .ok t) : s.agentWrite a p n v = completes t false 0 := by
  rw [State.agentWrite, h]
  rfl

theorem agentWrite_fault (h : s.mgmtWrite a (agentWaiter a) p n v = .error (.fault c d)) : s.agentWrite a p n v = completes s true 0 := by
  rw [State.agentWrite, h]
  rfl

theorem agentWrite_wait (h : s.mgmtWrite a (agentWaiter a) p n v = .error (.wait wt)) :
    s.agentWrite a p n v = s.startWait (agentWaiter a) wt := by
  rw [State.agentWrite, h]
  rfl

theorem agentRead_ok (h : s.mgmtRead a (agentWaiter a) p n .load = .ok (t, v)) : s.agentRead a p n = completes t false v := by
  rw [State.agentRead, h]
  rfl

theorem agentRead_fault (h : s.mgmtRead a (agentWaiter a) p n .load = .error (.fault c d)) : s.agentRead a p n = completes s true 0 := by
  rw [State.agentRead, h]
  rfl

/-! ## The events of one register -/

theorem regEvent_acts (hout : outside s) (hspace : space s.inp.addr = 15) (hf : f s.inp.addr.toNat s.inp.val.toNat = true) :
    s.regEvent f = s.agentWrite (theAgent s) s.inp.addr 8 s.inp.val.toNat := by
  unfold State.regEvent State.target
  rw [agent_external.2 hout, hspace, hf]
  rfl

theorem regEvent_other (h : ¬outside s ∨ space s.inp.addr ≠ 15 ∨ f s.inp.addr.toNat s.inp.val.toNat = false) : s.regEvent f = s := by
  unfold State.regEvent State.target
  rw [if_neg]
  simp only [Bool.and_eq_true, agent_external, beq_iff_eq]
  rintro ⟨⟨hout, hspace⟩, hf⟩
  rcases h with h | h | h
  · exact h hout
  · exact h hspace
  · exact Bool.false_ne_true (h.symm.trans hf)

theorem routeSlot_isSome (o : Nat) : (routeSlot o).isSome = (decide (0x100 ≤ o) && decide (o < 0x300) && o % 8 == 0) := by
  simp [routeSlot, apply_ite Option.isSome, Bool.and_assoc, beq_eq_decide]

theorem isRoute_eq (x : Nat) : isRoute x = routeReg x := by
  rw [isRoute, routeSlot_isSome, ← Bool.and_assoc, ← Bool.and_assoc]
  rfl

theorem exec_of_writesRegister (h : writesRegister i = some f) : exec i s = .next (s.regEvent f) := by
  have hroute : exec .routeTableWrite s = .next (s.regEvent fun x _ => routeReg x) := by
    rw [← funext isRoute_eq]
    rfl
  unfold writesRegister at h
  split at h <;> cases h
  case h_20 => exact hroute
  all_goals rfl

/-- The registers whose write is a row of its own, with those of the clusters last. -/
theorem hasRow_eq (x v : Nat) : hasRow x v = (([0x000, 0x010, 0x030, 0x038, 0x040, 0x050].any fun o => partReg o x) ||
    (ctxReg x || moduleReg 0x10 x || moduleReg 0x28 x || (semReg x && v == 0) || coreReg 0x20 x || coreReg 0x28 x || routeReg x ||
      bpcReg x || blockReg 0x02 0 x || blockReg 0x07 0 x) || [0x000, 0x010, 0x018, 0x020].any fun o => clusterReg o x) := by
  have hlast : ∀ a b c d e f : Bool, (a || (b || (c || (d || (e || f))))) = (e || (f || (a || (b || (c || d))))) := by decide
  simp only [hasRow, isRoute_eq, List.any_cons, List.any_nil, Bool.or_false, Bool.or_assoc]
  rw [hlast (isCluster 0x000 x)]
  rfl

theorem plainRegister_eq (x v : Nat) : plainRegister x v = (mRegion x != 4 && mRegion x != 5 && !hasRow x v) := by
  rw [hasRow_eq, Bool.not_or, Bool.not_or, ← Bool.and_assoc, ← Bool.and_assoc]
  rfl

theorem exec_registerWrite : exec .registerWrite s = .next (s.regEvent plainRegister) := by
  rw [show plainRegister = fun x v => mRegion x != 4 && mRegion x != 5 && !hasRow x v from funext₂ plainRegister_eq]
  rfl

theorem exec_of_registerEvent (h : writesRegister i = some f ∨ (i = .registerWrite ∧ f = plainRegister)) :
    exec i s = .next (s.regEvent f) := by
  obtain h | ⟨rfl, rfl⟩ := h
  · exact exec_of_writesRegister h
  · exact exec_registerWrite

theorem exec_of_readEvent {f : Nat → Bool} (h : (i, f) ∈ [(Instr.semRead, semReg), (.kmfifoRead, coreReg 0x40)]) : exec i s = .next (
    if s.agent.external && space s.inp.addr == 15 && f s.inp.addr.toNat then s.agentRead s.agent s.inp.addr 8 else s) := by
  simp only [List.mem_cons, List.not_mem_nil, or_false, Prod.mk.injEq] at h
  obtain ⟨rfl, rfl⟩ | ⟨rfl, rfl⟩ := h
  · rfl
  · rfl

theorem exec_readEvent {f : Nat → Bool} (h : (i, f) ∈ [(Instr.semRead, semReg), (.kmfifoRead, coreReg 0x40)]) (hout : outside s)
    (hspace : space s.inp.addr = 15) (hf : f s.inp.addr.toNat = true) : exec i s = .next (s.agentRead (theAgent s) s.inp.addr 8) := by
  rw [exec_of_readEvent h, agent_external.2 hout, hspace, hf]
  rfl

/-! ## An access of a register -/

/-- An agent outside the device has no cluster that its requests would leave (23 R419). -/
theorem clusterOfWaiter_agent (a : Agent) : clusterOfWaiter (agentWaiter a) = none := by cases a <;> rfl

theorem routeStore_external (h : a.external = true) (x : Nat) : routeStore a x = none := by
  have hagent : (a == .rmc || a == .sysHg) = false := by simpa only [Agent.external, Bool.not_eq_true'] using h
  rw [routeStore, hagent]
  rfl

/-- What an access of one register needs: its pointer's zero fields and alignment, its generation, and a live and running place. -/
structure Reaches (s : State) (x : Nat) : Prop where
  zero : mgmtZeroOk x = true
  register : mgmtMemory x = false
  aligned : x % 8 = 0
  fresh : mRegion x = 3 → mGen x = s.mod.placegen % 256
  live : ∀ c, mgmtCore x = some c → s.live c = true
  runs : ∀ cl, (mgmtCluster x).1 = some cl → s.running cl = true

theorem Reaches.shape (h : Reaches s x) (hkind : kind = .load ∨ kind = .store) : s.mgmtShape x 8 kind = .ok () := by
  obtain ⟨h4, h5⟩ : mRegion x ≠ 4 ∧ mRegion x ≠ 5 := by simpa [mgmtMemory] using h.register
  have hform : (mgmtMemory x || (decide (8 ≤ 8) && (kind == .load || kind == .store))) = true := by rcases hkind with rfl | rfl <;> simp
  have hgen : (!((mRegion x == 3 || mRegion x == 4) && mGen x != s.mod.placegen % 256)) = true := by
    by_cases h3 : mRegion x = 3
    · simp [h.fresh h3]
    · simp [h3, h4]
  have halign : (x % 8 == 0 && (mgmtMemory x || 8 == 8)) = true := by simp [h.aligned]
  have hlive : ((mgmtCore x).map s.live).getD true = true := by
    cases hc : mgmtCore x with
    | none => rfl
    | some c => exact h.live c hc
  unfold State.mgmtShape
  rw [chk_of h.zero, chk_of hform, chk_of hgen, chk_of halign, chk_of hlive, chk_of (by simp [h4]), chk_of (by simp [h5])]
  rfl

theorem Reaches.crossing (h : Reaches s x) (a : Agent) : s.mgmtCrossing (agentWaiter a) x = .ok () := by
  unfold State.mgmtCrossing
  have hruns := h.runs
  generalize mgmtCluster x = m at hruns
  obtain ⟨door, place⟩ := m
  rw [clusterOfWaiter_agent]
  cases door with
  | none => rfl
  | some cl => exact if_pos (hruns cl rfl)

theorem Reaches.target (h : Reaches s p.toNat) (hkind : kind = .load ∨ kind = .store) (hallowed : s.mgmtAllowed a p.toNat kind = true) :
    s.mgmtTarget a (agentWaiter a) p 8 kind = (s.semTurn a p.toNat kind >>= fun _ => .ok .reg) := by
  obtain ⟨h4, h5⟩ : mRegion p.toNat ≠ 4 ∧ mRegion p.toNat ≠ 5 := by simpa [mgmtMemory] using h.register
  unfold State.mgmtTarget
  dsimp only
  rw [h.shape hkind, chk_of hallowed, h.crossing]
  simp only [acc_bind_ok]

theorem Reaches.read (h : Reaches s p.toNat) (hallowed : s.mgmtAllowed a p.toNat .load = true) :
    s.mgmtRead a (agentWaiter a) p 8 .load = (s.semTurn a p.toNat .load >>= fun _ => .ok (s.regRead a p.toNat)) := by
  rw [State.mgmtRead, h.target (.inl rfl) hallowed]
  cases s.semTurn a p.toNat .load <;> rfl

theorem Reaches.write (h : Reaches s p.toNat) (ha : a.external = true) (hallowed : s.mgmtAllowed a p.toNat .store = true) :
    s.mgmtWrite a (agentWaiter a) p 8 v = s.regWrite a none p.toNat (BitVec.ofNat 64 v) := by
  have hdevice : ¬(engOf (agentWaiter a) = 0 ∧ (a = .rmc ∨ a = .sysHg)) := by
    rintro ⟨-, rfl | rfl⟩ <;> cases ha
  unfold State.mgmtWrite
  dsimp only
  rw [h.shape (.inr rfl), routeStore_external ha, acc_bind_ok]
  dsimp only
  rw [h.target (.inr rfl) hallowed]
  exact congrArg (s.regWrite a · p.toNat (BitVec.ofNat 64 v)) (if_neg hdevice)

/-! ## Transactions of a host (26 R449) -/

theorem exec_mread (hout : outside s) : exec .mread s = .next (
    if hostSizeOk s.inp.addr s.inp.idx then s.agentRead (theAgent s) s.inp.addr s.inp.idx else completes s true 0) := by
  show execMread s = _
  rw [execMread, agent_external.2 hout]
  rfl

theorem exec_mwrite (hout : outside s) : exec .mwrite s = .next (
    if hostSizeOk s.inp.addr s.inp.idx then s.agentWrite (theAgent s) s.inp.addr s.inp.idx (s.dataIn % 256 ^ s.inp.idx)
    else completes s true 0) := by
  show execMwrite s = _
  rw [execMwrite, agent_external.2 hout]
  rfl

theorem dataIn_nil (h : s.inp.data = []) : s.dataIn = s.inp.val.toNat := by rw [State.dataIn, h]; rfl

theorem dataIn_bytes (h : s.inp.data ≠ []) : s.dataIn = pack 8 s.inp.data := if_neg (by simpa using h)

/-! ## Semaphores (17 R356) -/

/-- The two host ports own semaphores, port A with the code 1 and port B with the code 2. -/
theorem port_owns {o : Fin 2} (h : s.inp.sub = o.val) : outside s ∧ (theAgent s).semOwner = some (o.val + 1) := by
  have hcode : ∀ o : Fin 2, (o.val ≠ 2 ∧ o.val ≠ 3) ∧ (Agent.ofCode o.val).semOwner = some (o.val + 1) := by decide
  rw [outside, theAgent, h]
  exact hcode o

/-- The number of the semaphore that an offset of the module block names. -/
abbrev semNo (x : Nat) : Nat := (bits x 0 24 - 0x100) / 8

section Semaphore

variable (hsem : semReg x = true)
include hsem

theorem semReg_bounds : mRegion x = 0 ∧ 0x100 ≤ bits x 0 24 ∧ bits x 0 24 < 0x300 := by
  simpa [semReg, mRegion, and_assoc] using hsem

theorem val_semNo : (Fin.ofNat 64 (semNo x)).val = semNo x := by
  obtain ⟨-, hlo, hhi⟩ := semReg_bounds hsem
  exact Nat.mod_eq_of_lt (by unfold semNo; omega)

theorem semTurn_load (s : State) (a : Agent) : s.semTurn a x .load = waitFor (s.inTurn (.sem (semNo x)) a.semRank) := by
  have hmgmt : mgmtSem x = some (semNo x) := if_pos (semReg_bounds hsem)
  unfold State.semTurn
  rw [hmgmt]

variable (hzero : bits x 24 32 = 0) (haligned : x % 8 = 0)

include haligned

theorem regRead_sem (s : State) (a : Agent) : s.regRead a x = ((s.semRead (semNo x) a).1, (s.semRead (semNo x) a).2.toNat) := by
  obtain ⟨hregion, hlo, hhi⟩ := semReg_bounds hsem
  have h8 : bits x 0 24 % 8 = 0 := by rw [bits_zero]; omega
  have hmod : s.moduleRead (bits x 0 24) a = s.semRead (semNo x) a := by
    unfold State.moduleRead
    dsimp only
    iterate 9 rw [if_neg (by omega)]
    rw [if_pos ⟨hlo, hhi⟩]
  unfold State.regRead
  rw [hregion, hmod]
  rfl

theorem regWrite_sem (s : State) (a : Agent) (v : Word) : s.regWrite a none x v = .ok (s.semWrite (semNo x) a v) := by
  obtain ⟨hregion, hlo, hhi⟩ := semReg_bounds hsem
  have h8 : bits x 0 24 % 8 = 0 := by rw [bits_zero]; omega
  have hmod : s.moduleWrite (bits x 0 24) a v = s.semWrite (semNo x) a v := by
    unfold State.moduleWrite
    iterate 7 rw [if_neg (by omega)]
    rw [if_pos ⟨hlo, hhi⟩]
  unfold State.regWrite
  rw [hregion, hmod]
  rfl

include hzero

theorem reaches_sem (s : State) : Reaches s x := by
  obtain ⟨hregion, hlo, hhi⟩ := semReg_bounds hsem
  have hgen : bits x 48 8 = 0 ∧ bits x 24 24 = 0 := by unfold bits at *; omega
  exact
    { zero := by simp [mgmtZeroOk, hregion, mGen, hgen]
      register := by simp [mgmtMemory, hregion]
      aligned := haligned
      fresh := fun h => absurd (hregion.symm.trans h) (by decide)
      live := by simp [mgmtCore, hregion]
      runs := by simp [mgmtCluster, hregion] }

end Semaphore

/-- A port's read of a semaphore that is taken counts as the port's turn and leaves the semaphore. -/
theorem semRead_taken {k o : Nat} (h : a.semOwner = some o) (htaken : bit (s.mod.sems.get (Fin.ofNat 64 k)).toNat 0 = true) :
    s.semRead k a = (s.noteTurn (.sem k) o, s.mod.sems.get (Fin.ofNat 64 k)) := by
  have hrank : a.semRank = o := by rw [Agent.semRank, h]; rfl
  unfold State.semRead
  rw [h, hrank]
  dsimp only
  rw [if_pos htaken]

theorem semRead_free {k o : Nat} (h : a.semOwner = some o) (hfree : bit (s.mod.sems.get (Fin.ofNat 64 k)).toNat 0 = false) :
    s.semRead k a = ((s.noteTurn (.sem k) o).modMod fun m =>
      { m with sems := m.sems.set (Fin.ofNat 64 k) (BitVec.ofNat 64 (o * 256 + 1)) }, s.mod.sems.get (Fin.ofNat 64 k)) := by
  have hrank : a.semRank = o := by rw [Agent.semRank, h]; rfl
  unfold State.semRead
  rw [h, hrank]
  dsimp only
  rw [if_neg (ne_true_of_eq_false hfree)]

theorem semWrite_owner {k : Nat} (htaken : bit (s.mod.sems.get (Fin.ofNat 64 k)).toNat 0 = true)
    (howner : a.semOwner = some (bits (s.mod.sems.get (Fin.ofNat 64 k)).toNat 8 2)) :
    s.semWrite k a 0 = s.modMod fun m => { m with sems := m.sems.set (Fin.ofNat 64 k) 0 } := if_pos ⟨rfl, htaken, howner⟩

theorem semWrite_other {k : Nat} (howner : a.semOwner ≠ some (bits (s.mod.sems.get (Fin.ofNat 64 k)).toNat 8 2)) (v : Word) :
    s.semWrite k a v = s := if_neg fun h => howner h.2.2

section Port

variable {o : Fin 2} (hsub : s.inp.sub = o.val) (hspace : space s.inp.addr = 15) (hsem : semReg s.inp.addr.toNat = true)
  (hzero : bits s.inp.addr.toNat 24 32 = 0) (haligned : s.inp.addr.toNat % 8 = 0)
include hsub hspace hsem hzero haligned

theorem exec_semRead_port (hallowed : s.mgmtAllowed (theAgent s) s.inp.addr.toNat .load = true)
    (hturn : s.inTurn (.sem (semNo s.inp.addr.toNat)) (o.val + 1) = true) : exec .semRead s = .next
      (completes (s.semRead (semNo s.inp.addr.toNat) (theAgent s)).1 false (s.semRead (semNo s.inp.addr.toNat) (theAgent s)).2.toNat) := by
  obtain ⟨hout, howner⟩ := port_owns hsub
  have hrank : (theAgent s).semRank = o.val + 1 := by rw [Agent.semRank, howner]; rfl
  have hread := (reaches_sem hsem hzero haligned s).read hallowed
  rw [semTurn_load hsem, hrank, waitFor_of hturn, acc_bind_ok, regRead_sem hsem haligned] at hread
  rw [exec_readEvent (f := semReg) (by simp) hout hspace hsem, agentRead_ok hread]

/-- A read out of its turn is made again (17 R356). -/
theorem exec_semRead_late (hallowed : s.mgmtAllowed (theAgent s) s.inp.addr.toNat .load = true)
    (hturn : s.inTurn (.sem (semNo s.inp.addr.toNat)) (o.val + 1) = false) : exec .semRead s = .next s := by
  obtain ⟨hout, howner⟩ := port_owns hsub
  have hrank : (theAgent s).semRank = o.val + 1 := by rw [Agent.semRank, howner]; rfl
  have hread := (reaches_sem hsem hzero haligned s).read hallowed
  rw [semTurn_load hsem, hrank, waitFor_not hturn, acc_bind_error] at hread
  rw [exec_readEvent (f := semReg) (by simp) hout hspace hsem, State.agentRead, hread]
  rfl

theorem exec_semFree_port (hallowed : s.mgmtAllowed (theAgent s) s.inp.addr.toNat .store = true) (hval : s.inp.val = 0) :
    acks .semFree s (s.semWrite (semNo s.inp.addr.toNat) (theAgent s) 0) := by
  obtain ⟨hout, -⟩ := port_owns hsub
  have hext : (theAgent s).external = true := agent_external.2 hout
  have hwrite := (reaches_sem hsem hzero haligned s).write (v := s.inp.val.toNat) hext hallowed
  rw [BitVec.ofNat_toNat, BitVec.setWidth_eq, regWrite_sem hsem haligned, hval] at hwrite
  rw [acks, exec_of_writesRegister rfl, regEvent_acts hout hspace (by rw [hsem, hval]; rfl), hval, agentWrite_ok hwrite]

end Port

/-! ## Registers of a core (18 R365, R387) -/

/-- The pointer of a register of a live core in a running cluster, of the present placement. -/
theorem reaches_core (hregion : bits x 56 4 = 3) (hzero : bits x 44 4 = 0 ∧ bits x 12 20 = 0) (haligned : x % 8 = 0)
    (hgen : bits x 48 8 = s.mod.placegen % 256) (hlive : s.live (bits x 32 12) = true)
    (hrail : (s.cluster (clusterOf (bits x 32 12))).rail = 0) (hcur : (s.cluster (clusterOf (bits x 32 12))).cur ≠ 0) : Reaches s x where
  zero := by simp [mgmtZeroOk, mRegion, hregion, hzero]
  register := by simp [mgmtMemory, mRegion, hregion]
  aligned := haligned
  fresh _ := hgen
  live := by simpa [mgmtCore, mRegion, hregion] using hlive
  runs := by simp [mgmtCluster, mRegion, hregion, State.running, hrail, hcur]

theorem kmRead_empty (h : (s.core c).kmfifo = []) : s.kmRead c = (s, 0) := by
  rw [State.kmRead, h]

theorem kmRead_word {r : Nat} {l : List Nat} (h : (s.core c).kmfifo = r :: l) (hpos : (s.core c).kmpos < 3) : s.kmRead c =
    (s.modCore c fun k => { k with kmpos := k.kmpos + 1 }, BitVec.ofNat 64 (r / 2 ^ (64 * (s.core c).kmpos))) := by
  rw [State.kmRead, h]
  exact if_pos hpos

theorem exec_kmfifoRead (hroot : s.inp.sub = 6) (hspace : space s.inp.addr = 15) (hreach : Reaches s s.inp.addr.toNat)
    (hregion : bits s.inp.addr.toNat 56 4 = 3) (hoff : bits s.inp.addr.toNat 0 12 = 0x40) : exec .kmfifoRead s = .next
      (completes (s.kmRead (bits s.inp.addr.toNat 32 12)).1 false (s.kmRead (bits s.inp.addr.toNat 32 12)).2.toNat) := by
  have hout : outside s := by rw [outside, hroot]; decide
  have ha : theAgent s = .root := by rw [theAgent, hroot]; rfl
  have hread : s.mgmtRead .root (agentWaiter .root) s.inp.addr 8 .load = .ok (s.regRead .root s.inp.addr.toNat) := by
    have hmgmt : mgmtSem s.inp.addr.toNat = none := if_neg (by simp [mRegion, hregion])
    have hturn : s.semTurn .root s.inp.addr.toNat .load = .ok () := by
      unfold State.semTurn
      rw [hmgmt]
    rw [hreach.read rfl, hturn]
    rfl
  have hcore : s.regRead .root s.inp.addr.toNat =
      ((s.kmRead (bits s.inp.addr.toNat 32 12)).1, (s.kmRead (bits s.inp.addr.toNat 32 12)).2.toNat) := by
    unfold State.regRead
    rw [show mRegion s.inp.addr.toNat = 3 from hregion, hoff]
    rfl
  rw [exec_readEvent (f := coreReg 0x40) (by simp) hout hspace (by simp [coreReg, hregion, hoff]), ha,
    agentRead_ok (hread.trans (congrArg _ hcore))]

end Sys2Proof.Machine
end

section
namespace Sys2Proof.Proofs

open Sys2Proof.Machine Sys2Proof.Claims

/-- Settles O43: an event of a register is the agent's write or read of it (`exec_of_registerEvent`, `exec_readEvent`) and answers as that
does; a semaphore's and KMFIFO's pointer reach their register (`reaches_sem`, `reaches_core`), where a port takes or frees the one and
the root monitor reads the other (`semRead_free`, `semWrite_owner`, `kmRead_word`). -/
theorem agentsReachTheManagementSpace : Obligations.AgentsReachTheManagementSpace := by
  intro s t u c n v d wt a w x size
  refine ⟨fun i f hi => ?writes, fun i f hi => ?reads, fun hout => ⟨fun hsize => ?transactions, fun hsize => ?refused⟩,
    fun o hsub hspace hsem hzero haligned => ?semaphores,
    fun _ hlive hsub hspace hregion hz44 hz12 hn hoff hgen hrail hcur => ?kmfifo⟩
  case writes =>
    rw [exec_of_registerEvent hi]
    refine ⟨fun hout hspace hf => ?_, fun h => congrArg _ (regEvent_other h)⟩
    have hacts := regEvent_acts hout hspace hf
    rw [acks, exec_of_registerEvent hi, hacts]
    exact ⟨fun h => congrArg _ (agentWrite_ok h), fun h => congrArg _ (agentWrite_fault h), fun h => congrArg _ (agentWrite_wait h)⟩
  case reads =>
    refine ⟨fun hout hspace hf => ?_, fun hf => ?_⟩
    · rw [exec_readEvent hi hout hspace hf]
      exact ⟨fun h => congrArg _ (agentRead_ok h), fun h => congrArg _ (agentRead_fault h)⟩
    · rw [exec_of_readEvent hi, hf, Bool.and_false]
      rfl
  case transactions =>
    rw [acks, exec_mread hout, exec_mwrite hout, if_pos hsize, if_pos hsize]
    exact ⟨fun h => congrArg _ (agentRead_ok h), fun h => congrArg _ (agentRead_fault h),
      fun hd h => congrArg _ (agentWrite_ok (dataIn_nil hd ▸ h)), fun hd h => congrArg _ (agentWrite_ok (dataIn_bytes hd ▸ h))⟩
  case refused =>
    have hsize' : ¬hostSizeOk s.inp.addr s.inp.idx = true := ne_true_of_eq_false hsize
    rw [exec_mread hout, exec_mwrite hout, if_neg hsize', if_neg hsize']
    exact ⟨rfl, rfl⟩
  case semaphores =>
    obtain ⟨-, howner⟩ := port_owns hsub
    intro k y
    rw [show Turn.sem k.val = .sem (semNo x) from congrArg _ (val_semNo hsem)]
    refine ⟨fun hallowed hturn => ?_, exec_semRead_late hsub hspace hsem hzero haligned, fun hallowed hval => ?_⟩
    · rw [exec_semRead_port hsub hspace hsem hzero haligned hallowed hturn]
      exact ⟨fun htaken => by rw [semRead_taken howner htaken], fun hfree => by rw [semRead_free howner hfree]⟩
    · have hfree := exec_semFree_port hsub hspace hsem hzero haligned hallowed hval
      exact ⟨fun htaken hown => semWrite_owner htaken (howner.trans (congrArg some hown.symm)) ▸ hfree,
        fun hother => (semWrite_other (fun h => hother (Option.some.inj (howner.symm.trans h)).symm) 0).subst (motive := acks _ s) hfree⟩
  case kmfifo =>
    have haligned : x % 8 = 0 := by rw [bits_zero] at hoff; omega
    have hreach : Reaches s x := reaches_core hregion ⟨hz44, hz12⟩ haligned hgen (hn ▸ hlive) (hn ▸ hrail) (hn ▸ hcur)
    have hexec := exec_kmfifoRead hsub hspace hreach hregion hoff
    rw [show bits s.inp.addr.toNat 32 12 = n from hn] at hexec
    rw [hexec]
    refine ⟨fun h => by rw [kmRead_empty h]; rfl, fun r l h hpos => ?_⟩
    rw [kmRead_word h hpos, BitVec.toNat_ofNat]

end Sys2Proof.Proofs
end

section
/-! SUPPORT. Writes of the root monitor, which a partition's and a module's registers always take, and what a partition's registers do
(18 R366 to R368, R385, R460). -/

namespace Sys2Proof.Machine

open Sys2Proof.Claims

variable {s t : State} {i : Instr} {f : Nat → Nat → Bool} {p r k : Nat} {v : Word} {wt : Wait}

/-! ## A write of the root monitor -/

section Root

variable (hroot : rootAt s r) (hi : writesRegister i = some f) (hf : f s.inp.addr.toNat s.inp.val.toNat = true)
include hroot hi hf

theorem exec_rootWrite : exec i s = .next (s.agentWrite .root s.inp.addr 8 s.inp.val.toNat) := by
  obtain ⟨hsub, hspace, -⟩ := hroot
  have hout : outside s := by rw [outside, hsub]; decide
  have ha : theAgent s = .root := by rw [theAgent, hsub]; rfl
  rw [exec_of_writesRegister hi, regEvent_acts hout hspace hf, ha]

variable (hreach : Reaches s s.inp.addr.toNat)
include hreach

theorem acks_rootWrite (hwrite : s.regWrite .root none s.inp.addr.toNat s.inp.val = .ok t) : acks i s t := by
  rw [acks, exec_rootWrite hroot hi hf, agentWrite_ok]
  rw [hreach.write rfl rfl, BitVec.ofNat_toNat, BitVec.setWidth_eq, hwrite]

theorem rootWrite_waits (hwrite : s.regWrite .root none s.inp.addr.toNat s.inp.val = .error (.wait wt)) :
    exec i s = .next (s.startWait (agentWaiter .root) wt) := by
  rw [exec_rootWrite hroot hi hf, agentWrite_wait]
  rw [hreach.write rfl rfl, BitVec.ofNat_toNat, BitVec.setWidth_eq, hwrite]

theorem rootWrite_faults {c : Nat} {d : List Nat} (hwrite : s.regWrite .root none s.inp.addr.toNat s.inp.val = .error (.fault c d)) :
    exec i s = .next (completes s true 0) := by
  rw [exec_rootWrite hroot hi hf, agentWrite_fault]
  rw [hreach.write rfl rfl, BitVec.ofNat_toNat, BitVec.setWidth_eq, hwrite]

end Root

/-- The registers of the module and of the partitions are no core's and no cluster's. -/
theorem reaches_root (hroot : rootAt s r) (hr : r = 0 ∨ r = 1) : Reaches s s.inp.addr.toNat := by
  obtain ⟨-, -, hregion, hzero, haligned⟩ := hroot
  have hregion : mRegion s.inp.addr.toNat = r := hregion
  exact
    { zero := hzero
      register := by rcases hr with rfl | rfl <;> simp [mgmtMemory, hregion]
      aligned := haligned
      fresh := by omega
      live := by rcases hr with rfl | rfl <;> simp [mgmtCore, hregion]
      runs := by rcases hr with rfl | rfl <;> simp [mgmtCluster, hregion] }

theorem acks_partWrite (hroot : rootAt s 1) (hi : writesRegister i = some f) (hf : f s.inp.addr.toNat s.inp.val.toNat = true) :
    acks i s (s.partWrite (bits s.inp.addr.toNat 40 7) (bits s.inp.addr.toNat 0 12) s.inp.val) := by
  refine acks_rootWrite hroot hi hf (reaches_root hroot (.inr rfl)) ?_
  obtain ⟨-, -, hregion, -⟩ := hroot
  unfold State.regWrite
  rw [show mRegion s.inp.addr.toNat = 1 from hregion]
  rfl

section Registers

variable (s : State) (p : Nat) (v : Word)

theorem partWrite_pctl : s.partWrite p 0x000 v = s.pctlWrite p v := rfl
theorem partWrite_pcmd : s.partWrite p 0x010 v = s.pcmdWrite p v := rfl
theorem partWrite_pstopbase : s.partWrite p 0x030 v = s.pstopbaseWrite p v := rfl
theorem partWrite_pringbase : s.partWrite p 0x038 v = s.pringbaseWrite p v := rfl
theorem partWrite_pringctl : s.partWrite p 0x040 v = s.pringctlWrite p v := rfl
theorem partWrite_pringrd : s.partWrite p 0x050 v = s.pringrdWrite p v := by
  unfold State.partWrite
  iterate 9 rw [if_neg (by decide)]
  rw [if_pos rfl]

end Registers

/-! ## PCTL and PCMD (18 R366, R368) -/

theorem pctlWrite_enabled (hen : (s.part p).en = true) (h : bit v.toNat 0 = true ∨ (s.part p).av = true ∨ (s.part p).sv = true) :
    s.pctlWrite p v = s := by
  have hkept : (bit v.toNat 0 || (s.part p).av || (s.part p).sv) = true := by simpa [or_assoc] using h
  rw [State.pctlWrite, if_pos hen, if_pos hkept]

theorem pctlWrite_disables (hen : (s.part p).en = true) (h0 : bit v.toNat 0 = false) (hav : (s.part p).av = false)
    (hsv : (s.part p).sv = false) : s.pctlWrite p v = (s.modPart p fun q => { q with en := false, cores := [] }).advancePlace := by
  rw [State.pctlWrite, if_pos hen, if_neg (by simp [h0, hav, hsv])]

theorem pctlWrite_disabled (hen : (s.part p).en = false) : s.pctlWrite p v =
    (let u := s.modPart p fun q => { q with nrect := bits v.toNat 1 3 }
     if bit v.toNat 0 then u.enable p else u) := by
  rw [State.pctlWrite, if_neg (ne_true_of_eq_false hen)]

theorem enable_ok (h : s.enableOk p = true) : s.enable p =
    (let w := s.modPart p fun q => { q with en := true, cores := s.coresOfRects (s.part p).rectList, waysNow := q.ways }
     ((w.lclusters p).foldl (fun s cl => s.l2Leave cl fun y => decide (y < (s.part p).waysNow)) w).advancePlace) := if_pos h

theorem enable_refused (h : s.enableOk p = false) : s.enable p = s.modPart p fun q => { q with err := true } :=
  if_neg (ne_true_of_eq_false h)

theorem pcmdWrite_resume (h : v.toNat % 4 = 1) : s.pcmdWrite p v = s.resumePart p := by
  have hop : bits v.toNat 0 2 = 1 := (bits_zero _ 2).trans h
  rw [State.pcmdWrite, hop]
  rfl

theorem pcmdWrite_halt (h : v.toNat % 4 = 2) : s.pcmdWrite p v = s.haltLine p := by
  have hop : bits v.toNat 0 2 = 2 := (bits_zero _ 2).trans h
  rw [State.pcmdWrite, hop]
  rfl

theorem pcmdWrite_switch (h : v.toNat % 4 = 3) : s.pcmdWrite p v = s.switchCmd p := by
  have hop : bits v.toNat 0 2 = 3 := (bits_zero _ 2).trans h
  rw [State.pcmdWrite, hop]
  rfl

theorem haltLine_up (h : (s.part p).halted = true) : s.haltLine p = s := if_pos h

theorem haltLine_down (h : (s.part p).halted = false) :
    s.haltLine p = s.modPart p fun q => { q with halted := true, done := false, haltWt := s.wt } := if_neg (ne_true_of_eq_false h)

theorem switchCmd_asks (hsv : (s.part p).sv = true) (h : (s.part p).av = true → (s.part p).shadow ≠ (s.part p).active) :
    s.switchCmd p = s.askSwitch p (1024 + (s.part p).shadow) := by
  have hgo : (!(s.part p).sv || ((s.part p).av && (s.part p).shadow == (s.part p).active)) = false := by simpa [hsv] using h
  exact if_neg (ne_true_of_eq_false hgo)

theorem switchCmd_ignored (h : (s.part p).sv = false ∨ ((s.part p).av = true ∧ (s.part p).shadow = (s.part p).active)) :
    s.switchCmd p = s := by
  have hstay : (!(s.part p).sv || ((s.part p).av && (s.part p).shadow == (s.part p).active)) = true := by simpa using h
  exact if_pos hstay

/-! ## What a resume changes (18 R368) -/

/-- The headgates of a list resume. -/
def State.resumeHgs (s : State) (p : Nat) (l : List Nat) : State := l.foldl (fun s k => s.modHg k fun h => h.resume (s.plotRuns p h)) s

/-- The cores of a list go on. -/
def State.unhalt (s : State) (l : List Nat) : State := l.foldl (fun s c => s.modCore c fun k => { k with halted := false }) s

theorem resumeHgs_keeps {α : Type} (g : State → α) (hg : ∀ s k x, g (s.setHg k x) = g s) (s : State) (p : Nat) (l : List Nat) :
    g (s.resumeHgs p l) = g s := foldl_keeps s g _ (fun s k => hg s k _) l

theorem unhalt_keeps {α : Type} (g : State → α) (hg : ∀ s k x, g (s.setCore k x) = g s) (s : State) (l : List Nat) :
    g (s.unhalt l) = g s := foldl_keeps s g _ (fun s k => hg s k _) l

theorem pc_resumeHgs (s : State) (p k : Nat) (l : List Nat) : ((s.resumeHgs p l).hg k).pc = (s.hg k).pc := by
  refine foldl_keeps s (fun s => (s.hg k).pc) _ (fun s b => ?_) l
  by_cases hk : k = b
  · subst hk
    simp [Hg.resume]
  · simp [hk]

theorem hg_resumeHgs_other (s : State) (p : Nat) {l : List Nat} (hk : k ∉ l) : (s.resumeHgs p l).hg k = s.hg k :=
  hg_foldl_other (fun b hb s => by rw [modHg_eq, hg_setHg, if_neg (ne_of_mem_of_not_mem hb hk).symm]) s

theorem stopped_resumeHgs (s : State) (p : Nat) {l : List Nat} (hk : k ∈ l) : ((s.resumeHgs p l).hg k).stopped = false := by
  induction l using List.reverseRecOn with
  | nil => cases hk
  | append_singleton l b ih =>
    rw [State.resumeHgs, List.foldl_append]
    by_cases hb : k = b
    · subst hb
      simp [Hg.resume]
    · have hl : k ∈ l := by simpa [hb] using hk
      simpa [hb, State.resumeHgs] using ih hl

/-- The partition of a resume, before its cores and headgates go on. -/
def State.resumedPart (s : State) (p : Nat) : State :=
  s.modPart p fun q => { q with halted := false, done := false, plots := q.plots.map fun e => (e.1, e.2.resume (s.plotCycle e.2)) }

theorem resumePart_accepted (hhalted : (s.part p).halted = true) (hdone : (s.part p).done = true) :
    s.resumePart p = ((s.resumedPart p).unhalt (s.part p).cores).resumeHgs p (s.partHgs p) := by
  have hhgs : ((s.resumedPart p).unhalt (s.part p).cores).partHgs p = s.partHgs p := by
    have hcores := unhalt_keeps (fun t => (t.part p).cores) (fun _ _ _ => rfl) (s.resumedPart p) (s.part p).cores
    simp only [State.partHgs, hcores]
    simp [State.resumedPart]
  rw [← hhgs, State.resumePart]
  dsimp only
  rw [if_pos (by rw [hhalted, hdone]; rfl)]
  rfl

/-- A resume lowers the halt line for the partition and its headgates, which go on where they stand. -/
theorem resumePart_lowers (hhalted : (s.part p).halted = true) (hdone : (s.part p).done = true) :
    let t := s.resumePart p
    t.mem = s.mem ∧ t.wt = s.wt ∧ (t.part p).halted = false ∧ (t.part p).done = false ∧
      (∀ k ∈ s.partHgs p, (t.hg k).stopped = false ∧ (t.hg k).pc = (s.hg k).pc) ∧ (∀ k, k ∉ s.partHgs p → t.hg k = s.hg k) ∧
      ∀ n, n ≠ p → t.part n = s.part n := by
  intro t
  have ht : t = ((s.resumedPart p).unhalt (s.part p).cores).resumeHgs p (s.partHgs p) := resumePart_accepted hhalted hdone
  have keeps {α : Type} (g : State → α) (hcore : ∀ s k x, g (s.setCore k x) = g s) (hhg : ∀ s k x, g (s.setHg k x) = g s) :
      g t = g (s.resumedPart p) := by
    rw [ht, resumeHgs_keeps g hhg, unhalt_keeps g hcore]
  have hhgs (k : Nat) : ((s.resumedPart p).unhalt (s.part p).cores).hg k = s.hg k := unhalt_keeps (fun t => t.hg k) (fun _ _ _ => rfl) _ _
  have hpart (n : Nat) : t.part n = (s.resumedPart p).part n := keeps (fun t => t.part n) (fun _ _ _ => rfl) fun _ _ _ => rfl
  refine ⟨keeps State.mem (fun _ _ _ => rfl) fun _ _ _ => rfl, keeps State.wt (fun _ _ _ => rfl) fun _ _ _ => rfl, ?_, ?_,
    fun k hk => ⟨?_, ?_⟩, fun k hk => ?_, fun n hn => ?_⟩
  · simp [hpart, State.resumedPart]
  · simp [hpart, State.resumedPart]
  · rw [ht, stopped_resumeHgs _ p hk]
  · rw [ht, pc_resumeHgs, hhgs]
  · rw [ht, hg_resumeHgs_other _ p hk, hhgs]
  · simp [hpart, State.resumedPart, hn]

theorem resumePart_ignored (h : (s.part p).halted = false ∨ (s.part p).done = false) : s.resumePart p = s := by
  have hoff : ((s.part p).halted && (s.part p).done) = false := by rwa [Bool.and_eq_false_iff]
  exact if_neg (ne_true_of_eq_false hoff)

/-! ## PRINGRD (18 R367) -/

theorem pringrdWrite_takes (h : (bits v.toNat 0 32 + 2 ^ 32 - (s.part p).rd) % 2 ^ 32 ≤ ((s.part p).wr + 2 ^ 32 - (s.part p).rd) % 2 ^ 32) :
    s.pringrdWrite p v = (s.modPart p fun q => { q with rd := bits v.toNat 0 32 }).flushPending p := if_pos h

theorem pringrdWrite_ignored (h : ((s.part p).wr + 2 ^ 32 - (s.part p).rd) % 2 ^ 32 < (bits v.toNat 0 32 + 2 ^ 32 - (s.part p).rd) % 2 ^ 32) :
    s.pringrdWrite p v = s := if_neg (Nat.not_le.2 h)

end Sys2Proof.Machine
end

section
namespace Sys2Proof.Proofs

open Sys2Proof.Machine Sys2Proof.Claims

/-- Settles O44: the root monitor's write of a partition's register reaches it (`acks_partWrite`), and each register's equation says what
it does; a resume is followed through its folds over the cores and the headgates (`resumePart_lowers`, `stopped_resumeHgs`). -/
theorem partitionRegistersTakeEffect : Obligations.PartitionRegistersTakeEffect := by
  intro s hroot x p q v set
  have ⟨_, _, hregion, _⟩ := hroot
  have takes : ∀ {i f}, writesRegister i = some f → f x v.toNat = true → acks i s (s.partWrite p (bits x 0 12) v) :=
    acks_partWrite hroot
  have hreg : ∀ {o}, bits x 0 12 = o → partReg o x = true := fun ho => by rw [partReg, hregion, ho]; simp
  refine ⟨fun ho => ?pctl, fun ho => ?pcmd, fun ho => ?pstopbase, fun ho => ?pringbase, fun ho => ?pringctl, fun ho => ?pringrd⟩
  case pctl =>
    have hacks := takes (i := .partitionEnable) rfl (hreg ho)
    rw [ho, partWrite_pctl] at hacks
    refine ⟨fun hen => ?_, fun hen => ⟨fun h => ?_, fun h0 hav hsv => ?_⟩⟩
    · rw [pctlWrite_disabled hen] at hacks
      refine ⟨fun h0 => ?_, fun h0 hok => ?_, fun h0 hbad => ?_⟩
      · rwa [if_neg (ne_true_of_eq_false h0)] at hacks
      · rwa [if_pos h0, enable_ok hok] at hacks
      · rwa [if_pos h0, enable_refused hbad] at hacks
    · rwa [pctlWrite_enabled hen h] at hacks
    · rwa [pctlWrite_disables hen h0 hav hsv] at hacks
  case pcmd =>
    have command : ∀ {i m}, writesRegister i = some (fun x v => partReg 0x010 x && v % 4 == m) → v.toNat % 4 = m →
        acks i s (s.pcmdWrite p v) := fun hi hm => by
      have hacks := takes hi (by simp [hreg ho, hm])
      rwa [ho, partWrite_pcmd] at hacks
    refine ⟨fun hm hhalted hdone => ?_, fun hm hoff => ?_, fun hm hup => ?_, fun hm hdown => ?_, fun hm hsv hother => ?_, fun hm hno => ?_⟩
    · have hacks := command (i := .pcmdResume) rfl hm
      rw [pcmdWrite_resume hm] at hacks
      exact ⟨_, hacks, resumePart_lowers hhalted hdone⟩
    · have hacks := command (i := .pcmdResume) rfl hm
      rwa [pcmdWrite_resume hm, resumePart_ignored hoff] at hacks
    · have hacks := command (i := .pcmdHalt) rfl hm
      rwa [pcmdWrite_halt hm, haltLine_down hup] at hacks
    · have hacks := command (i := .pcmdHalt) rfl hm
      rwa [pcmdWrite_halt hm, haltLine_up hdown] at hacks
    · have hacks := command (i := .pcmdSwitch) rfl hm
      rwa [pcmdWrite_switch hm, switchCmd_asks hsv hother] at hacks
    · have hacks := command (i := .pcmdSwitch) rfl hm
      rwa [pcmdWrite_switch hm, switchCmd_ignored hno] at hacks
  case pstopbase =>
    have hacks := takes (i := .pstopbaseWrite) rfl (hreg ho)
    rw [ho, partWrite_pstopbase, State.pstopbaseWrite] at hacks
    exact ⟨fun hok => by rwa [if_pos hok] at hacks, fun hbad => by rwa [if_neg (ne_true_of_eq_false hbad)] at hacks⟩
  case pringbase =>
    have hacks := takes (i := .pringbaseWrite) rfl (hreg ho)
    rw [ho, partWrite_pringbase, State.pringbaseWrite] at hacks
    exact ⟨fun hok => by rwa [if_pos hok] at hacks, fun hbad => by rwa [if_neg (ne_true_of_eq_false hbad)] at hacks⟩
  case pringctl =>
    intro n u
    have hacks := takes (i := .pringctlWrite) rfl (hreg ho)
    rw [ho, partWrite_pringctl, State.pringctlWrite] at hacks
    have hbase : (u.part p).ringbase = q.ringbase := by simp [u, set, q]
    have harea : u.areaOk (u.part p).ringbase (64 * 2 ^ n) = s.areaOk q.ringbase (64 * 2 ^ n) := hbase ▸ rfl
    refine ⟨fun h6 h16 hok => ?_, fun hbad => ?_⟩
    · rwa [if_pos ⟨h6, h16, harea.trans hok⟩] at hacks
    · have hno : ¬(6 ≤ n ∧ n ≤ 16 ∧ u.areaOk (u.part p).ringbase (64 * 2 ^ n) = true) := by
        rintro ⟨h6, h16, hok⟩
        rcases hbad with h | h | h
        · omega
        · omega
        · exact Bool.false_ne_true (h.symm.trans (harea.symm.trans hok))
      rwa [if_neg hno] at hacks
  case pringrd =>
    have hacks := takes (i := .pringrdWrite) rfl (hreg ho)
    rw [ho, partWrite_pringrd] at hacks
    exact ⟨fun hle => by rwa [pringrdWrite_takes hle] at hacks, fun hlt => by rwa [pringrdWrite_ignored hlt] at hacks⟩

end Sys2Proof.Proofs
end

section
/-! SUPPORT. Context descriptors, invalidations, task tables and routing entries: what the root monitor's writes do, and how a page walk and
an invalidation end (10 R255, R256; 18 R369, R373 to R375; 19 R393). -/

namespace Sys2Proof.Machine

open Sys2Proof.Claims

variable {s t : State} {i : Instr} {f : Nat → Nat → Bool} {c cl k op p r x : Nat} {d : List Nat} {v : Word} {w : WalkReq} {wt : Wait}

/-! ## Context descriptors (18 R369) -/

theorem acks_moduleWrite (hroot : rootAt s 0) (hi : writesRegister i = some f) (hf : f s.inp.addr.toNat s.inp.val.toNat = true) :
    acks i s (s.moduleWrite (bits s.inp.addr.toNat 0 24) .root s.inp.val) := by
  refine acks_rootWrite hroot hi hf (reaches_root hroot (.inl rfl)) ?_
  obtain ⟨-, -, hregion, -⟩ := hroot
  unfold State.regWrite
  rw [show mRegion s.inp.addr.toNat = 0 from hregion]
  rfl

theorem moduleWrite_ctx (h : ctxReg x = true) (a : Agent) (v : Word) :
    s.moduleWrite (bits x 0 24) a v = s.ctxWrite ((bits x 0 24 - 0x10000) / 32) 0 v := by
  obtain ⟨⟨⟨-, hlo⟩, hhi⟩, hword⟩ : ((bits x 56 4 = 0 ∧ 0x10000 ≤ bits x 0 24) ∧ bits x 0 24 < 0x18000) ∧ bits x 0 5 = 0 := by
    simpa [ctxReg] using h
  have h32 : bits x 0 24 % 32 = 0 := by rw [bits_zero] at *; omega
  unfold State.moduleWrite
  iterate 9 rw [if_neg (by omega)]
  rw [if_pos ⟨hlo, hhi⟩, h32]

theorem ctxWrite_kept (h : 1 < (s.ctx k).state) (v : Word) : s.ctxWrite k 0 v = s := if_pos h

theorem ctxWrite_creates (h : (s.ctx k).state = 0) (hop : v.toNat % 8 = 1) : s.ctxWrite k 0 v =
    (let d := (s.ctx k).setWord 0 v
     s.setCtx k { d with
       state := 1, saved := { placement := (s.part d.part).cores }, parked := false, tokens := newTokens (s.part d.part).cores }) := by
  have hcode : bits v.toNat 0 3 = 1 := (bits_zero _ 3).trans hop
  unfold State.ctxWrite
  dsimp only
  rw [if_neg (by omega), if_pos ⟨rfl, h, hcode⟩]

theorem ctxWrite_destroys (h : (s.ctx k).state = 1) (hop : v.toNat % 8 = 0) :
    s.ctxWrite k 0 v = s.setCtx k { (s.ctx k).setWord 0 v with state := 0, saved := {}, parked := false, tokens := [] } := by
  have hcode : bits v.toNat 0 3 = 0 := (bits_zero _ 3).trans hop
  unfold State.ctxWrite
  dsimp only
  rw [if_neg (by omega), if_neg (by omega), if_pos ⟨rfl, h, hcode⟩]

theorem ctxWrite_sets (hstate : (s.ctx k).state ≤ 1) (hop : v.toNat % 8 ≠ 1 - (s.ctx k).state) :
    s.ctxWrite k 0 v = s.setCtx k ((s.ctx k).setWord 0 v) := by
  have hcode : bits v.toNat 0 3 = v.toNat % 8 := bits_zero _ 3
  unfold State.ctxWrite
  dsimp only
  rw [if_neg (by omega), if_neg (by omega), if_neg (by omega)]

/-! ## Invalidations (18 R375) -/

theorem moduleWrite_xinv (h : moduleReg 0x10 x = true) (a : Agent) (v : Word) : s.moduleWrite (bits x 0 24) a v = s.xinvWrite v := by
  have hoff : bits x 0 24 = 0x10 := by simp only [moduleReg, Bool.and_eq_true, beq_iff_eq] at h; exact h.2
  rw [hoff]
  rfl

theorem xinvWrite_busy (h : s.mod.xinvBusy = true) (v : Word) : s.xinvWrite v = s.modMod fun m => { m with xinvLost := true } := if_pos h

theorem xinvWrite_idle (h : s.mod.xinvBusy = false) (hop : bits v.toNat 62 2 ≠ 0) :
    s.xinvWrite v = (s.dropEntries v).modMod fun m => { m with xinvBusy := true, xinv := v } := by
  rw [State.xinvWrite, if_neg (ne_true_of_eq_false h), if_neg hop]

theorem smap_get_mapVal {α β : Type} (g : α → β) (m : SMap α) (j : Nat) :
    SMap.get? (m.map fun e => (e.1, g e.2)) j = (SMap.get? m j).map g := by
  induction m with
  | nil => rfl
  | cons e m ih =>
    simp only [List.map_cons, SMap.get?, ih]
    split <;> rfl

theorem tlb_dropEntries (s : State) (v : Word) (cl : Nat) :
    ((s.dropEntries v).cluster cl).tlb = (s.cluster cl).tlb.filter fun e => !xinvMatch v e := by
  have hget := smap_get_mapVal (fun c : Cluster => { c with tlb := c.tlb.filter fun e => !xinvMatch v e }) s.clusters cl
  have hcluster : (s.dropEntries v).cluster cl =
      ((SMap.get? s.clusters cl).map fun c : Cluster => { c with tlb := c.tlb.filter fun e => !xinvMatch v e }).getD {} :=
    congrArg (·.getD {}) hget
  rw [hcluster, State.cluster, SMap.getD]
  cases SMap.get? s.clusters cl <;> rfl

theorem xinvMatch_iff (e : TlbEntry) (hop : bits v.toNat 62 2 = op) (h : op = 1 ∨ op = 2 ∨ op = 3) : xinvMatch v e = true ↔
    op = 3 ∨ (e.ctx = bits v.toNat 48 10 ∧
      (op = 1 ∨ (e.va ≤ bits v.toNat 16 32 * 65536 ∧ bits v.toNat 16 32 * 65536 < e.va + e.size))) := by
  unfold xinvMatch
  rw [hop]
  rcases h with rfl | rfl | rfl
  · simp
  · simp [and_assoc]
  · simp

theorem exec_xinvComplete : exec .xinvComplete s = .next s.xinvEnd := rfl

theorem xinvEnd_idle (h : s.mod.xinvBusy = false) : s.xinvEnd = s := if_neg (ne_true_of_eq_false h)

theorem xinvEnd_done (h : s.mod.xinvBusy = true) (hready : s.flushReady (walkWaiter 512) (s.cores.map (·.1)) = .ok ()) :
    s.xinvEnd.mod.xinvBusy = false := by
  rw [State.xinvEnd, if_pos h]
  dsimp only
  rw [hready]
  rfl

theorem xinvEnd_waits (h : s.mod.xinvBusy = true) (hready : s.flushReady (walkWaiter 512) (s.cores.map (·.1)) = .error (.wait wt)) :
    s.xinvEnd = s.startWait (walkWaiter 512) wt := by
  rw [State.xinvEnd, if_pos h]
  dsimp only
  rw [hready]
  rfl

/-! ## The end of a page walk (18 R373, R374) -/

section Walk

variable {n : Nat} (hw : (s.cluster cl).walks[n]? = some w)
include hw

theorem walkDone_leaf {e : TlbEntry} (h : s.walk cl w.ctx w.va = (t, .leaf e)) : s.walkDone cl n =
    (t.modCluster cl fun c => { c with walks := c.walks.eraseIdx n }).modCluster cl fun c => c.cacheLeaf e := by
  unfold State.walkDone
  rw [hw]
  dsimp only
  rw [h]

theorem walkDone_wait (h : s.walk cl w.ctx w.va = (t, .wait wt)) : s.walkDone cl n = t.startWait (walkWaiter cl) wt := by
  unfold State.walkDone
  rw [hw]
  dsimp only
  rw [h]

theorem walkDone_fail {j : Joined} {l : List Joined} (h : s.walk cl w.ctx w.va = (t, .fail c)) (hj : w.joined = j :: l) :
    let u := t.modCluster cl fun c => { c with walks := c.walks.eraseIdx n }
    u.partOf (coreOf (seqOf j.waiter)) = some p → s.walkDone cl n = w.joined.foldl (fun s j => s.walkFailed c j)
      ((u.record p (coreOf (seqOf j.waiter)) 8 0 c 0xFFFF 0 [w.va, w.ctx, l.length]).haltLine p) := by
  intro u hp
  have hfirst : (w.joined.map (·.waiter)).headD 0 = j.waiter := by rw [hj]; rfl
  have hmore : w.joined.length - 1 = l.length := by rw [hj]; rfl
  unfold State.walkDone
  rw [hw]
  dsimp only
  rw [h]
  dsimp only
  rw [hfirst, hmore, hp]

end Walk

/-! ## Task tables (10 R255, R256) -/

theorem reaches_rootCore (hroot : rootAt s 3) (hgen : bits s.inp.addr.toNat 48 8 = s.mod.placegen % 256)
    (hlive : s.live (bits s.inp.addr.toNat 32 12) = true) (hrail : (s.cluster (clusterOf (bits s.inp.addr.toNat 32 12))).rail = 0)
    (hcur : (s.cluster (clusterOf (bits s.inp.addr.toNat 32 12))).cur ≠ 0) : Reaches s s.inp.addr.toNat := by
  obtain ⟨-, -, hregion, hzero, haligned⟩ := hroot
  have hzeros : bits s.inp.addr.toNat 44 4 = 0 ∧ bits s.inp.addr.toNat 12 20 = 0 := by simpa [mgmtZeroOk, mRegion, hregion] using hzero
  exact reaches_core hregion hzeros haligned hgen hlive hrail hcur

theorem regWrite_core (hregion : bits x 56 4 = 3) (a : Agent) (b : Option Nat) (v : Word) :
    s.regWrite a b x v = s.coreWrite (bits x 32 12) (bits x 0 12) v := by
  unfold State.regWrite
  rw [show mRegion x = 3 from hregion]
  rfl

theorem tskctlWrite_ready (h : (s.modCore c fun k => { k with tskctl := v &&& 0xFF00FF#64 }).tasksReady c = .ok ()) :
    s.tskctlWrite c v = .ok ((s.modCore c fun k => { k with tskctl := v &&& 0xFF00FF#64 }).copyTasks c) := by
  rw [State.tskctlWrite, State.copyTasksNow, h, acc_bind_ok]

theorem tskctlWrite_error {e : Stop} (h : (s.modCore c fun k => { k with tskctl := v &&& 0xFF00FF#64 }).tasksReady c = .error e) :
    s.tskctlWrite c v = .error e := by
  rw [State.tskctlWrite, State.copyTasksNow, h, acc_bind_error]

theorem ttbaseWrite_ready (hok : ttbaseOk v = true) (h : (s.modCore c fun k => { k with ttbase := v }).tasksReady c = .ok ()) :
    s.ttbaseWrite c v = .ok ((s.modCore c fun k => { k with ttbase := v }).copyTasks c) := by
  rw [State.ttbaseWrite, chk_of hok, acc_bind_ok, State.copyTasksNow, h, acc_bind_ok]

theorem ttbaseWrite_error {e : Stop} (hok : ttbaseOk v = true) (h : (s.modCore c fun k => { k with ttbase := v }).tasksReady c = .error e) :
    s.ttbaseWrite c v = .error e := by
  rw [State.ttbaseWrite, chk_of hok, acc_bind_ok, State.copyTasksNow, h, acc_bind_error]

theorem ttbaseWrite_bad (h : ttbaseOk v = false) : s.ttbaseWrite c v = .error (.fault cAddr []) := by
  rw [State.ttbaseWrite, chk_not h, acc_bind_error]

/-- Touched banks leave the cores and the memory as they are. -/
theorem touchBanks_keeps {α : Type} (g : State → α) (hc : ∀ s k x, g (s.setCluster k x) = g s) (hp : ∀ s k x, g (s.setPart k x) = g s)
    (s : State) (cl : Nat) (bank : Nat → Nat) (l : List Nat) : g (l.foldl (fun s b => s.touchBank cl (bank b)) s) = g s :=
  foldl_keeps s g _ (fun s _ => touchBank_keeps s g hc hp cl _) l

/-! ## Routing entries (19 R393) -/

theorem reaches_route (hroot : rootAt s 6) (hroute : routeReg s.inp.addr.toNat = true) (hlive : s.live (bits s.inp.addr.toNat 28 12) = true) :
    Reaches s s.inp.addr.toNat := by
  obtain ⟨-, -, hregion, hzero, haligned⟩ := hroot
  have hregion : mRegion s.inp.addr.toNat = 6 := hregion
  have hblock : mBlock s.inp.addr.toNat = 0x10 := by
    simp only [routeReg, Bool.and_eq_true, beq_iff_eq, decide_eq_true_eq, and_assoc] at hroute
    exact hroute.2.1
  exact
    { zero := hzero
      register := by simp [mgmtMemory, hregion]
      aligned := haligned
      fresh := fun h => absurd (hregion.symm.trans h) (by decide)
      live := by simpa [mgmtCore, hregion, hblock, mIndex] using hlive
      runs := by simp [mgmtCluster, hregion] }

theorem regWrite_route (h : routeReg x = true) (a : Agent) (b : Option Nat) (v : Word) :
    s.regWrite a b x v = .ok (s.routeWrite (bits x 28 12) ((bits x 0 12 - 0x100) / 128) ((bits x 0 12 - 0x100) % 128 / 8) v) := by
  simp only [routeReg, Bool.and_eq_true, beq_iff_eq, decide_eq_true_eq, and_assoc] at h
  obtain ⟨hregion, hblock, hlo, hhi, h8⟩ := h
  have hslot : routeSlot (mOff x) = some ((bits x 0 12 - 0x100) / 128, (bits x 0 12 - 0x100) % 128 / 8) := if_pos ⟨hlo, hhi, h8⟩
  have hoff : mOff x ≠ 0 := by unfold mOff; omega
  unfold State.regWrite State.reg6Write
  rw [show mRegion x = 6 from hregion, show mBlock x = 0x10 from hblock]
  show Except.ok (s.routerWrite (mIndex x) (mOff x) v) = _
  rw [State.routerWrite, if_neg hoff, hslot]
  rfl

theorem routeWrite_put {e : Nat} (h : bit v.toNat 35 = false ∨ s.rteRefusal c v.toNat = none) : s.routeWrite c cl e v =
    (s.pinOuts c).modCore c fun k => { k with
      routes := k.routes.set (Fin.ofNat 4 cl) ((k.routes.get (Fin.ofNat 4 cl)).set (Fin.ofNat 16 e) (v &&& 0xFF8FFFFFF#64)) } := by
  unfold State.routeWrite
  dsimp only
  by_cases h35 : bit v.toNat 35 = false
  · rw [if_pos (by rw [h35]; rfl)]
  · rw [if_neg (by simpa using h35), h.resolve_left h35]

theorem routeWrite_refused {e : Nat} (h35 : bit v.toNat 35 = true) (h : s.rteRefusal c v.toNat = some r) :
    s.routeWrite c cl e v = s.routeRefused c cl e r := by
  unfold State.routeWrite
  dsimp only
  rw [if_neg (by rw [h35]; decide), h]

end Sys2Proof.Machine
end

section
namespace Sys2Proof.Proofs

open Sys2Proof.Machine Sys2Proof.Claims

/-- Settles O45: each write of the root monitor reaches its register (`acks_moduleWrite`, `regWrite_core`, `regWrite_route`), and the
equations of the registers say what they do; the ends of a walk and of an invalidation are the cases of `walkDone` and `xinvEnd`. -/
theorem contextsTranslationsAndRoutesFollowTheirRegisters : Obligations.ContextsTranslationsAndRoutesFollowTheirRegisters := by
  intro s x v
  refine ⟨fun hroot hctx => ?contexts, fun hroot hreg i op hi hop => ?xinv, fun hidle => ?idle, fun hbusy => ?ends, fun w hw => ?walk,
    fun hw => ?nowalk, fun hroot hgen => ?tasks, fun c => ?copies, fun hroot hroute => ?routes⟩
  case contexts =>
    intro k c d
    have writes : ∀ {i m}, writesRegister i = some (fun x v => ctxReg x && v % 8 == m) → v.toNat % 8 = m → acks i s (s.ctxWrite k 0 v) :=
      fun hi hm => by
        have hacks := acks_moduleWrite hroot hi (by rw [hctx, hm]; simp)
        rwa [moduleWrite_ctx hctx] at hacks
    refine ⟨fun hm => ?_, fun hm => ?_⟩
    · have hacks := writes (i := .ctxCreate) rfl hm
      refine ⟨fun h => ?_, fun h => ?_, fun h => ?_⟩
      · rwa [ctxWrite_creates h hm] at hacks
      · rwa [ctxWrite_sets (Nat.le_of_eq h) (by rw [hm, h]; decide)] at hacks
      · rwa [ctxWrite_kept h] at hacks
    · have hacks := writes (i := .ctxDestroy) rfl hm
      refine ⟨fun h => ?_, fun h => ?_, fun h => ?_⟩
      · rwa [ctxWrite_destroys h hm] at hacks
      · rwa [ctxWrite_sets (Nat.le_of_lt (Nat.lt_one_iff.2 h)) (by rw [hm, h]; decide)] at hacks
      · rwa [ctxWrite_kept h] at hacks
  case xinv =>
    have hops : (op = 1 ∨ op = 2 ∨ op = 3) ∧ writesRegister i = some fun x v => moduleReg 0x10 x && bits v 62 2 == op := by
      simp only [List.mem_cons, List.not_mem_nil, or_false, Prod.mk.injEq] at hi
      obtain ⟨rfl, rfl⟩ | ⟨rfl, rfl⟩ | ⟨rfl, rfl⟩ := hi
      · exact ⟨.inl rfl, rfl⟩
      · exact ⟨.inr (.inl rfl), rfl⟩
      · exact ⟨.inr (.inr rfl), rfl⟩
    obtain ⟨hcode, hwrites⟩ := hops
    have hacks := acks_moduleWrite hroot hwrites (by rw [hreg, hop]; simp)
    rw [moduleWrite_xinv hreg] at hacks
    refine ⟨fun hbusy => by rwa [xinvWrite_busy hbusy] at hacks, fun hidle => ?_⟩
    rw [xinvWrite_idle hidle (by rw [hop]; omega)] at hacks
    refine ⟨_, hacks, rfl, rfl, fun cl e => ?_⟩
    show e ∈ ((s.dropEntries v).cluster cl).tlb ↔ _
    rw [tlb_dropEntries, List.mem_filter, Bool.not_eq_true', ← Bool.not_eq_true, xinvMatch_iff e hop hcode]
  case idle => rw [exec_xinvComplete, xinvEnd_idle hidle]
  case ends => exact ⟨fun h => ⟨_, exec_xinvComplete, xinvEnd_done hbusy h⟩, fun wt h => congrArg _ (xinvEnd_waits hbusy h)⟩
  case walk =>
    exact ⟨fun t e h => congrArg _ (walkDone_leaf hw h), fun t wt h => congrArg _ (walkDone_wait hw h),
      fun t c p j l h hj hp => congrArg _ (walkDone_fail hw h hj hp)⟩
  case nowalk =>
    have hnone : s.walkDone s.inp.unit s.inp.idx = s := by
      unfold State.walkDone
      rw [hw]
    exact congrArg _ hnone
  case tasks =>
    intro c hlive hrail hcur
    have hreach := reaches_rootCore hroot hgen hlive hrail hcur
    have ⟨_, _, hregion, _⟩ := hroot
    have hreg : ∀ {o}, bits x 0 12 = o → coreReg o x = true := fun ho => by rw [coreReg, hregion, ho]; simp
    refine ⟨fun ho => ⟨fun h => ?_, fun wt h => ?_⟩, fun ho => ⟨fun hok h => ?_, fun wt hok h => ?_, fun hbad => ?_⟩⟩
    · refine acks_rootWrite hroot rfl (hreg ho) hreach ?_
      rw [regWrite_core hregion, ho]
      exact tskctlWrite_ready h
    · refine rootWrite_waits hroot rfl (hreg ho) hreach ?_
      rw [regWrite_core hregion, ho]
      exact tskctlWrite_error h
    · refine acks_rootWrite hroot rfl (hreg ho) hreach ?_
      rw [regWrite_core hregion, ho]
      exact ttbaseWrite_ready hok h
    · refine rootWrite_waits hroot rfl (hreg ho) hreach ?_
      rw [regWrite_core hregion, ho]
      exact ttbaseWrite_error hok h
    · refine rootWrite_faults hroot rfl (hreg ho) hreach (c := cAddr) (d := []) ?_
      rw [regWrite_core hregion, ho]
      exact ttbaseWrite_bad hbad
  case copies =>
    refine ⟨touchBanks_keeps State.cores (fun _ _ _ => rfl) (fun _ _ _ => rfl) s _ _ _,
      touchBanks_keeps State.mem (fun _ _ _ => rfl) (fun _ _ _ => rfl) s _ _ _, ?_⟩
    rw [State.copyTasks]
    simp only [Core.taskPtrs, List.map_map, Function.comp_def]
  case routes =>
    intro c cls e put hlive
    have hslot := hroute
    simp only [routeReg, Bool.and_eq_true, decide_eq_true_eq] at hslot
    obtain ⟨⟨⟨-, hlo⟩, hhi⟩, -⟩ := hslot
    have hwrite := regWrite_route (s := s) hroute .root none v
    have hreach := reaches_route hroot hroute hlive
    refine ⟨fun h => acks_rootWrite hroot rfl hroute hreach (hwrite.trans (congrArg _ (routeWrite_put h))),
      fun r h35 h => acks_rootWrite hroot rfl hroute hreach (hwrite.trans (congrArg _ ?_))⟩
    have hcls : cls.val = (bits x 0 12 - 0x100) / 128 := Nat.mod_eq_of_lt (by omega)
    have he : e.val = (bits x 0 12 - 0x100) % 128 / 8 := Nat.mod_eq_of_lt (by omega)
    rw [routeWrite_refused h35 h, hcls, he]
    rfl

end Sys2Proof.Proofs
end

section
/-! SUPPORT. A switch is requested and takes its flip; the task scheduler; the stop records (10 R257 to R261; 14 R338; 18 R376 to R379). -/

namespace Sys2Proof.Machine

open Sys2Proof.Claims

variable {s t : State} {a c d h inc k n p x : Nat} {e : Nat} {m : Msg} {rest : List Nat} {out : Option Nat}

/-! ## A pre-emption is taken (18 R376) -/

theorem switchable_iff : s.switchable p inc = true ↔
    (s.ctx inc).state = 1 ∧ (s.ctx inc).part = p ∧ ¬((s.part p).av = true ∧ (s.part p).active = inc) := by
  simp [State.switchable, and_assoc, imp_iff_not_or]

/-- What is kept by every change of a cell, the fill of the shadows keeps. -/
theorem fillShadows_keeps {α : Type} (g : State → α) (hg : ∀ s k x, g (s.setCell k x) = g s) (s : State) (p inc : Nat) :
    g (s.fillShadows p inc) = g s := by
  have hput : ∀ (s : State) (keep : List Nat) (key : Nat) (f : Cell → Cell),
      g (if keep.contains key then s else s.modCell key f) = g s := fun s keep key f => by
    split
    · rfl
    · exact hg s _ _
  unfold State.fillShadows
  dsimp only
  rw [foldl_keeps _ g _ fun s e => hput s _ _ _, foldl_keeps _ g _ fun s e => hput s _ _ _]

/-- The partition and the contexts of an accepted request, before its headgates and cells. -/
def State.takeRequest (s : State) (p x : Nat) : State :=
  let t := (s.modPart p fun q => { q with switch := true, sw := .requested (x % 1024) s.wt (s.wt + q.yield_) false }).modCtx (x % 1024)
    fun c => { c with state := 2 }
  if (s.part p).av then t.modCtx (s.part p).active fun c => { c with parked := decide (1024 ≤ x) } else t

theorem acceptSwitch_keeps {α : Type} (g : State → α) (hcell : ∀ s k x, g (s.setCell k x) = g s) (hhg : ∀ s k x, g (s.setHg k x) = g s)
    (s : State) (p x : Nat) : g (s.acceptSwitch p x) = g (s.takeRequest p x) := by
  unfold State.acceptSwitch
  dsimp only
  rw [fillShadows_keeps g hcell, foldl_keeps _ g (fun s k => s.modHg k Hg.dropStaged) fun s k => hhg s k _]
  rfl

theorem takeRequest_keeps {α : Type} (g : State → α) (hpart : ∀ s k x, g (s.setPart k x) = g s) (hctx : ∀ s k x, g (s.setCtx k x) = g s)
    (s : State) (p x : Nat) : g (s.takeRequest p x) = g s := by
  unfold State.takeRequest
  dsimp only
  split
  · rw [modCtx_eq, hctx, modCtx_eq, hctx, modPart_eq, hpart]
  · rw [modCtx_eq, hctx, modPart_eq, hpart]

theorem part_takeRequest (s : State) (p x : Nat) : (s.takeRequest p x).part p =
    { s.part p with switch := true, sw := .requested (x % 1024) s.wt (s.wt + (s.part p).yield_) false } := by
  unfold State.takeRequest
  dsimp only
  split <;> simp

theorem state_takeRequest (s : State) (p x : Nat) : ((s.takeRequest p x).ctx (x % 1024)).state = 2 := by
  unfold State.takeRequest
  dsimp only
  split
  · by_cases h : x % 1024 = (s.part p).active
    · simp [← h]
    · simp [h]
  · simp

section Preempt

variable (hpreq : (s.part s.inp.unit).preq = x :: rest) (hen : (s.part s.inp.unit).en = true) (hsw : (s.part s.inp.unit).sw = .none)
  (hstage : s.mod.stage = 5) (htear0 : s.mod.tearAt 0 = false) (htear1 : s.mod.tearAt 1 = false)
include hpreq hen hsw hstage htear0 htear1

theorem exec_preemptRequest : exec .preemptRequest s = .next
    (let t := s.modPart s.inp.unit fun q => { q with preq := rest }
     if s.switchable s.inp.unit (x % 1024) then t.acceptSwitch s.inp.unit x else t) := by
  show execPreemptRequest s = _
  unfold execPreemptRequest
  dsimp only
  rw [hpreq, hen, hsw, hstage, htear0, htear1]
  rfl

end Preempt

/-! ## Until the flip (18 R377, R378) -/

section Requested

variable {b : Bool} (hsw : (s.part s.inp.unit).sw = .requested inc a d b)
include hsw

theorem exec_yieldDeadline (hb : b = false) :
    exec .yieldDeadline s = .next (if d < s.wt then s.beginFlip s.inp.unit inc else s) := by
  show execYieldDeadline s = _
  unfold execYieldDeadline
  dsimp only
  rw [hsw, hb]

theorem exec_cooperativeStop (hb : b = true) : exec .cooperativeStop s = .next
    (if (s.part s.inp.unit).plots.all fun e => !e.2.active || e.2.yield == 2 then s.beginFlip s.inp.unit inc else s) := by
  show execCooperativeStop s = _
  unfold execCooperativeStop
  dsimp only
  rw [hsw, hb]

theorem exec_cooperativeTimeout (hb : b = true) :
    exec .cooperativeTimeout s = .next (if 2 * d - a ≤ s.wt then s.beginFlip s.inp.unit inc else s) := by
  show execCooperativeTimeout s = _
  unfold execCooperativeTimeout
  dsimp only
  rw [hsw, hb]

end Requested

/-! ## The flip (18 R379) -/

theorem exec_contextFlip (hsw : (s.part s.inp.unit).sw = .flip inc a) : exec .contextFlip s = .next
    (s.orWait (s.walkerW s.inp.unit) ((s.flip s.inp.unit inc).mapError Stop.undone)) := by
  show execContextFlip s = _
  unfold execContextFlip
  dsimp only
  rw [hsw]

/-- A flip that is done leaves its partition without a switch, and restoring. -/
theorem part_flip (h : s.flip p inc = .ok t) : (t.part p).sw = .none ∧ (t.part p).restoring = some (inc, s.outgoing p) := by
  unfold State.flip at h
  obtain ⟨-, -, h⟩ := acc_bind_cases h
  obtain ⟨-, -, h⟩ := acc_bind_cases h
  dsimp only at h
  split at h
  · obtain ⟨u, -, h⟩ := acc_bind_cases h
    cases h
    simp
  · generalize (s.saveActive p).emptyPart p = u at h
    cases h
    simp

/-- A flip waits for an earlier switch. -/
theorem flip_late (h : (s.part p).restoring ≠ none) : s.flip p inc = .error (.wait .busy) := by
  have hbusy : (s.answered p && (s.part p).restoring.isNone) = false := by simp [Option.ne_none_iff_isSome.1 h]
  unfold State.flip
  rw [waitFor_not hbusy, acc_bind_error]

/-! ## The task scheduler (10 R257 to R261) -/

theorem exec_taskSchedulerCycle (hc : s.partOf s.inp.unit = some p) (hon : s.coreOn s.inp.unit = true) (hhalted : (s.part p).halted = false)
    (hav : (s.part p).av = true) : exec .taskSchedulerCycle s = .next (s.schedule p s.inp.unit) := by
  show execTaskSchedulerCycle s = _
  unfold execTaskSchedulerCycle
  dsimp only
  rw [hc]
  dsimp only
  rw [hon, hhalted, hav]
  rfl

theorem schedule_noTable (h : (s.core c).ttcount = 0) : s.schedule p c = s := if_pos h

section Head

variable (hcount : (s.core c).ttcount ≠ 0) (hheads : (s.core c).heads = [(n, m)])
include hcount hheads

/-- The one head of a core's queues is sound, and its entry passes: its task starts unless the cluster is asked to be quiet. -/
theorem schedule_passes (hsound : (s.core c).taskFault m.type = none) (hpasses : s.taskPasses c ((s.core c).taskEntry m.type) = true)
    (hhg : s.taskHg c ((s.core c).taskEntry m.type) = some h) : s.schedule p c =
    (let u := (s.wakeNamed c ((s.core c).taskEntry m.type)).modCore c fun k => { k with taskReady := 2 ^ n }
     if s.quiescing (clusterOf c) then u else u.startTask c n h m ((s.core c).taskEntry m.type)) := by
  unfold State.schedule
  dsimp only
  rw [if_neg hcount, hheads]
  simp only [List.filterMap_cons, List.filterMap_nil, List.filter_cons, List.filter_nil, hsound, hpasses, Option.map_none, Option.isNone_none,
    if_true, List.foldl_cons, List.foldl_nil, List.isEmpty_nil, Bool.not_true, Bool.false_eq_true, if_false, leastBy, hhg, Nat.zero_add]

theorem schedule_holds (hsound : (s.core c).taskFault m.type = none) (hpasses : s.taskPasses c ((s.core c).taskEntry m.type) = false) :
    s.schedule p c = (s.wakeNamed c ((s.core c).taskEntry m.type)).modCore c fun k => { k with taskReady := 0 } := by
  unfold State.schedule
  dsimp only
  rw [if_neg hcount, hheads]
  simp only [List.filterMap_cons, List.filterMap_nil, List.filter_cons, List.filter_nil, hsound, hpasses, Option.map_none, Option.isNone_none,
    if_true, List.foldl_cons, List.foldl_nil, List.isEmpty_nil, Bool.not_true, Bool.false_eq_true, if_false, leastBy, ite_self]

theorem schedule_discards {cause : Nat} (hfault : (s.core c).taskFault m.type = some cause) :
    s.schedule p c = (s.modCore c fun k => { k with taskReady := 0 }).taskFaulty p c n m.type cause := by
  unfold State.schedule
  dsimp only
  rw [if_neg hcount, hheads]
  simp only [List.filterMap_cons, List.filterMap_nil, List.filter_cons, List.filter_nil, hfault, Option.map_some, Option.isNone_some,
    if_true, List.foldl_cons, List.foldl_nil, List.isEmpty_cons, Bool.not_false, Bool.false_eq_true, if_false]

end Head

/-- A headgate as the task of a message starts on it, from the bits of the entry. -/
def Hg.startedTask (k : Hg) (n : Nat) (m : Msg) (e at_ : Nat) : Hg :=
  { (k.fresh (BitVec.ofNat 64 (bits e 192 64))
      [m.header, BitVec.ofNat 64 (m.sent % 2 ^ 32 * 2 ^ 32 + m.arrived % 2 ^ 32), BitVec.ofNat 64 n]).setV 0 (BitVec.ofNat 512 m.payload) with
    run := .task (taskClaims e), stopped := false, startAt := at_ }

/-- The headgate that a task starts on issues from the second cycle after this one. -/
theorem hg_startTask (s : State) (c n h : Nat) (m : Msg) (e : Nat) :
    (s.startTask c n h m e).hg (4 * c + h) = (s.hg (4 * c + h)).startedTask n m e (s.cycleOf (clusterOf c) + 2) := by
  rw [State.startTask]
  dsimp only
  rw [modHg_eq, hg_setHg, if_pos rfl]
  rfl

section StartedTask

variable (k : Hg) (n : Nat) (m : Msg) (e at_ : Nat)

theorem pc_startedTask : (k.startedTask n m e at_).pc = BitVec.ofNat 64 (bits e 192 64 / 4 * 4) := by
  have hpc : (BitVec.ofNat 64 (bits e 192 64)).toNat = bits e 192 64 := Nat.mod_eq_of_lt (Nat.mod_lt _ (by decide))
  exact (and_pcMask _).trans (by rw [hpc])

theorem getS_startedTask {i : SReg} (hi : i ≠ 0) : (k.startedTask n m e at_).getS i =
    [m.header, BitVec.ofNat 64 (m.sent % 2 ^ 32 * 2 ^ 32 + m.arrived % 2 ^ 32), BitVec.ofNat 64 n].getD (i.val - 1) 0 :=
  (getS_congr rfl i).trans (getS_fresh k (BitVec.ofNat 64 (bits e 192 64)) _ hi)

theorem getV_startedTask : (k.startedTask n m e at_).getV 0 = BitVec.ofNat 512 m.payload := by
  unfold Hg.startedTask
  generalize k.fresh _ _ = l
  show (l.setV 0 (BitVec.ofNat 512 m.payload)).getV 0 = _
  rw [getV_setV, if_pos rfl]

end StartedTask

/-! ## The stop records (14 R338) -/

theorem exec_stopRecordsDone (hen : (s.part s.inp.unit).en = true) (hhalted : (s.part s.inp.unit).halted = true)
    (hdone : (s.part s.inp.unit).done = false) (hcores : ∀ c ∈ (s.part s.inp.unit).cores, (s.core c).halted = true) :
    exec .stopRecordsDone s = .next ((s.writeStops s.inp.unit).modPart s.inp.unit fun q => { q with done := true }) := by
  have hall : (s.part s.inp.unit).cores.all (fun c => (s.core c).halted) = true := List.all_eq_true.2 hcores
  show execStopRecordsDone s = _
  unfold execStopRecordsDone
  dsimp only
  rw [hen, hhalted, hdone, hall]
  rfl

theorem writeStops_off (h : (s.part p).stopbase = 0) : s.writeStops p = s := if_pos h

end Sys2Proof.Machine
end

section
/-! SUPPORT. What stopping a plot keeps: the tick, and which context is active on a partition (14 R334; 18 R378). -/

namespace Sys2Proof.Machine

open Sys2Proof.Claims

variable {s : State} {p : Nat} {v : Nat × Bool × Nat}

/-- The tick, and which context is active on a partition. -/
def State.activeView (p : Nat) (s : State) : Nat × Bool × Nat := (s.wt, (s.part p).av, (s.part p).active)

/-- In this tick a partition has this context active. -/
def State.actsAs (s : State) (p : Nat) (v : Nat × Bool × Nat) : Prop := s.activeView p = v

theorem aside_activeView (p : Nat) : Aside (State.activeView p) where
  cluster _ _ _ := rfl
  lost s k := by
    simp only [State.activeView, modPart_eq, part_setPart, wt_setPart]
    split
    · next h => rw [h]
    · rfl
  bytes _ _ _ _ := rfl
  core _ _ _ := rfl

/-! ## Changes of one item, branches and folds -/

namespace State.actsAs

theorem modHg {k : Nat} {f : Hg → Hg} (h : s.actsAs p v) : (s.modHg k f).actsAs p v := h
theorem modCell {k : Nat} {f : Cell → Cell} (h : s.actsAs p v) : (s.modCell k f).actsAs p v := h
theorem modCore {k : Nat} {f : Core → Core} (h : s.actsAs p v) : (s.modCore k f).actsAs p v := h
theorem modCluster {k : Nat} {f : Cluster → Cluster} (h : s.actsAs p v) : (s.modCluster k f).actsAs p v := h
theorem modMod {f : Module → Module} (h : s.actsAs p v) : (s.modMod f).actsAs p v := h

theorem modPart {k : Nat} {f : Part → Part} (h : s.actsAs p v) (hf : ∀ q, (f q).av = q.av ∧ (f q).active = q.active) :
    (s.modPart k f).actsAs p v := by
  unfold State.actsAs State.activeView
  rw [modPart_eq, part_setPart, wt_setPart]
  split
  · next hk => rw [(hf _).1, (hf _).2, ← hk]; exact h
  · exact h

theorem touchAs {sp a w : Nat} {st : Bool} (h : s.actsAs p v) : (s.touchAs sp a w st).actsAs p v :=
  ((aside_activeView p).touchAs s sp a w st).trans h

theorem homeWrite {a n x : Nat} (h : s.actsAs p v) : (s.homeWrite a n x).actsAs p v := by
  obtain ⟨m, d, hw⟩ := homeWrite_eq s a n x
  rw [hw]
  exact h

theorem ite {c : Prop} [Decidable c] {t : State} (hs : s.actsAs p v) (ht : t.actsAs p v) : (if c then s else t).actsAs p v := by
  split
  · exact hs
  · exact ht

theorem foldl {α : Type} {f : State → α → State} {l : List α} (h : s.actsAs p v) (hf : ∀ s x, s.actsAs p v → (f s x).actsAs p v) :
    (l.foldl f s).actsAs p v := by
  induction l generalizing s with
  | nil => exact h
  | cons x l ih => exact ih (hf s x h)

/-! ## Records and the halt line -/

theorem devStore {a n x : Nat} (h : s.actsAs p v) : (s.devStore a n x).actsAs p v := .foldl (.homeWrite h) fun _ _ h => .touchAs h

theorem putRecord {k : Nat} {r : TrapRec} (h : s.actsAs p v) : (s.putRecord k r).actsAs p v :=
  .ite (.ite (.modCore h) (.modPart (.modCore h) fun _ => ⟨rfl, rfl⟩))
    (.ite (.modPart h fun _ => ⟨rfl, rfl⟩) (.modPart (.devStore h) fun _ => ⟨rfl, rfl⟩))

theorem record {k core unit hg cause plot : Nat} {iaddr : Word} {d : List Nat} (h : s.actsAs p v) :
    (s.record k core unit hg cause plot iaddr d).actsAs p v := .putRecord (.modCore h)

theorem haltLine {k : Nat} (h : s.actsAs p v) : (s.haltLine k).actsAs p v := .ite h (.modPart h fun _ => ⟨rfl, rfl⟩)

/-! ## Plots and their marks -/

theorem modPlot {k id : Nat} {f : Plot → Plot} (h : s.actsAs p v) : (s.modPlot k id f).actsAs p v := by
  unfold State.modPlot
  split
  · exact .modPart h fun _ => ⟨rfl, rfl⟩
  · exact h

theorem modCells {q : Plot} {f : Nat → Nat → Cell → Cell} (h : s.actsAs p v) : (s.modCells q f).actsAs p v := .foldl h fun _ _ h => .modCell h

theorem modBound {q : Plot} {f : Hg → Hg} (h : s.actsAs p v) : (s.modBound q f).actsAs p v := .foldl h fun _ _ h => .modHg h

theorem modFurrowEnd {k : Nat} {q : Plot} {f : Furrow} {g : Plot → Plot} (h : s.actsAs p v) : (s.modFurrowEnd k q f g).actsAs p v :=
  .ite (.modPart h fun _ => ⟨rfl, rfl⟩) (.modPlot h)

theorem fallBallast {q : Plot} (h : s.actsAs p v) : (s.fallBallast q).actsAs p v := .foldl h fun _ _ h => .modCluster h

theorem commitDrain {k rcMark rc : Nat} {counts : List Nat} (h : s.actsAs p v) : (s.commitDrain k rcMark rc counts).actsAs p v := .modHg h

theorem putUnitWord {k sl u i data : Nat} (h : s.actsAs p v) : (s.putUnitWord k sl u i data).actsAs p v := by
  have htaken (k a : Nat) : (s.bankTaken k a).actsAs p v := by
    unfold State.bankTaken
    split
    · exact .modCluster h
    · exact h
  unfold State.putUnitWord
  split
  · exact .touchAs (.homeWrite (htaken _ _))
  · exact h

theorem mendUnits {k : Nat} (h : s.actsAs p v) : (s.mendUnits k).actsAs p v := by
  refine .foldl h fun _ _ h => .ite h (.foldl h fun _ _ h => ?_)
  split
  · exact .putUnitWord h
  · exact h

theorem commitMark {k id : Nat} {q : Plot} (h : s.actsAs p v) : (s.commitMark k id q).actsAs p v := by
  unfold State.commitMark
  split
  · exact h
  · next m rest _ =>
    have hdrains := State.actsAs.foldl (l := m.drains) (.modCells (q := q) (f := fun _ _ c => c.commit) h)
      fun s e h => State.actsAs.commitDrain (s := s) (k := e.1) (rcMark := m.rc) (rc := q.rc) (counts := e.2) h
    have hplot {t : State} {f : Plot → Plot} (ht : t.actsAs p v) : (t.modPlot k id f).actsAs p v := .modPlot ht
    refine .ite (.fallBallast ?_) ?_
    all_goals
      exact hplot (.foldl (.modBound (.modHg (.foldl hdrains fun _ _ h => .ite (.modHg h) h))) fun _ _ h => .modCell h)

theorem commitDue {k id n : Nat} (h : s.actsAs p v) : (s.commitDue k id n).actsAs p v := by
  induction n generalizing s with
  | zero => exact h
  | succ n ih =>
    unfold State.commitDue
    split
    · split
      · exact .ite (ih (.commitMark h)) h
      · exact h
    · exact h

/-! ## Plots that stop -/

theorem restart {k id : Nat} {hold : Bool} (h : s.actsAs p v) : (s.restart k id hold).actsAs p v := by
  unfold State.restart
  dsimp only
  split
  · exact .commitDue h
  · exact .foldl (.foldl (.modPlot (.modCells (.commitDue h))) fun _ _ h => .modFurrowEnd h) fun _ _ h => .modHg (.ite (.mendUnits h) h)

theorem noteTiming {k id : Nat} (h : s.actsAs p v) : (s.noteTiming k id).actsAs p v := by
  unfold State.noteTiming
  dsimp only
  split
  · exact .ite (.ite (.record (.commitDue h)) (.haltLine (.record (.commitDue h)))) h
  · exact h

theorem timing {k id : Nat} {held : Plot} (h : s.actsAs p v) : (s.timing k id held).actsAs p v := by
  unfold State.timing
  dsimp only
  split
  · exact .commitDue h
  · exact .ite (.modPlot (.restart (.record (.commitDue h)))) (.haltLine (.modPlot (.restart (.record (.commitDue h)))))

theorem rinsePlot {k id : Nat} (h : s.actsAs p v) : (s.rinsePlot k id).actsAs p v := by
  have htimed : (match s.plot? k id with
      | some q => if s.plotOn q && s.pastLimit q then s.timing k id q else s
      | none => s).actsAs p v := by
    split
    · exact .ite (.timing h) h
    · exact h
  unfold State.rinsePlot
  dsimp only
  split
  · exact .ite (.restart (.commitDue htimed)) (.commitDue htimed)
  · exact .commitDue htimed

theorem haltPlot {k id : Nat} (h : s.actsAs p v) : (s.haltPlot k id).actsAs p v := by
  unfold State.haltPlot
  split
  · exact .ite (.restart (.modPlot (.noteTiming h))) h
  · exact h

end State.actsAs

/-! ## The flip begins (18 R378) -/

theorem beginFlip_flips (s : State) (p inc : Nat) : ((s.beginFlip p inc).part p).sw = .flip inc s.wt ∧
    ((s.part p).av = true → ((s.beginFlip p inc).ctx (s.part p).active).state = 4) := by
  have hrinsed : (((s.part p).plots.map (·.1)).foldl (fun s id => s.rinsePlot p id) s).actsAs p (s.activeView p) :=
    .foldl rfl fun _ _ h => .rinsePlot h
  obtain ⟨hwt, hav, hactive⟩ := by simpa [State.actsAs, State.activeView] using hrinsed
  unfold State.beginFlip
  dsimp only
  rw [hav, hactive]
  split
  · simp [hwt]
  · next hoff => simp [hwt, hoff]

/-! ## The halt line reaches a core (14 R334) -/

variable {c : Nat}

theorem exec_haltLineArrival (hc : s.partOf s.inp.unit = some p) : exec .haltLineArrival s = .next
    (if (s.part p).halted && !(s.core s.inp.unit).halted then s.haltCore p s.inp.unit else s) := by
  show execHaltLineArrival s = _
  unfold execHaltLineArrival
  dsimp only
  rw [hc]

theorem core_haltCore (s : State) (p c : Nat) : ((s.haltCore p c).core c).halted = true ∧ ((s.haltCore p c).core c).haltWt = s.wt := by
  have hstopped : ∀ ids : List Nat, (ids.foldl (fun s id => s.haltPlot p id)
      ((List.range 4).foldl (fun s h => s.modHg (4 * c + h) fun x => x.haltAt s.wt) s)).actsAs p (s.activeView p) := fun _ =>
    .foldl (.foldl rfl fun _ _ h => .modHg h) fun _ _ h => .haltPlot h
  have hwt (ids : List Nat) := congrArg Prod.fst (hstopped ids)
  unfold State.haltCore
  dsimp only
  rw [modCore_eq, core_setCore, if_pos rfl]
  exact ⟨rfl, hwt _⟩

/-- The four headgates of a core stop. -/
def State.haltHgs (s : State) (c : Nat) : State := (List.range 4).foldl (fun s h => s.modHg (4 * c + h) fun x => x.haltAt s.wt) s

theorem haltHgs_keeps {α : Type} (f : State → α) (hf : ∀ s k x, f (s.setHg k x) = f s) (s : State) (c : Nat) : f (s.haltHgs c) = f s :=
  foldl_keeps s f _ (fun s _ => hf s _ _) _

@[simp] theorem stopped_haltAt (h : Hg) (wt : Nat) : (h.haltAt wt).stopped = true := by
  unfold Hg.haltAt
  split
  · assumption
  · rfl

theorem stopped_haltHgs (s : State) (c : Nat) {k : Nat} (hk : k < 4) : ((s.haltHgs c).hg (4 * c + k)).stopped = true := by
  obtain rfl | rfl | rfl | rfl : k = 0 ∨ k = 1 ∨ k = 2 ∨ k = 3 := by omega
  all_goals simp [State.haltHgs, List.range_succ]

/-- On a core where no plot has its switch the halt line stops the headgates alone. -/
theorem haltCore_noPlot (h : ∀ e ∈ (s.part p).plots, e.2.swCore ≠ c) :
    s.haltCore p c = (s.haltHgs c).modCore c fun k => { k with halted := true, haltWt := (s.haltHgs c).wt } := by
  have hplots : ((s.haltHgs c).part p).plots = (s.part p).plots := haltHgs_keeps (fun t => (t.part p).plots) (fun _ _ _ => rfl) s c
  have hids : (((s.haltHgs c).part p).plots.filter fun e => e.2.swCore == c) = [] :=
    hplots ▸ List.filter_eq_nil_iff.2 fun e he => by simpa using h e he
  unfold State.haltCore
  dsimp only
  rw [show ((((List.range 4).foldl (fun s h => s.modHg (4 * c + h) fun x => x.haltAt s.wt) s).part p).plots.filter
    fun e => e.2.swCore == c) = [] from hids]
  rfl

end Sys2Proof.Machine
end

section
/-! SUPPORT. What the spill and the restoring of a bank leave alone, and the end of a switch (18 R380, R381). -/

namespace Sys2Proof.Machine

open Sys2Proof.Claims

variable {s t : State} {p c k inc b n : Nat} {out : Option Nat} {rest : List Nat}

/-- A view of the state that a copy between a bank and a shadow area does not change: it sees no byte of memory and none that is poisoned or
undefined, no cluster, no context, and of a partition not that bytes of it are lost. Unlike one that is `Aside` it may see the cores. -/
structure Copied {α : Type} (f : State → α) : Prop extends Untouched f where
  bytes : ∀ s m w u, f { s with mem := m, mod := { s.mod with poison := w, undef := u } } = f s
  ctx : ∀ s k x, f (s.setCtx k x) = f s

section Copied

variable {α : Type} {f : State → α} (hf : Copied f)
include hf

theorem Copied.clearRange (s : State) (lo n : Nat) : f (s.clearRange lo n) = f s := hf.bytes s _ _ _

theorem Copied.l2Evict (s : State) (cl line w : Nat) : f (s.l2Evict cl line w) = f s := by
  unfold State.l2Evict
  split
  · rfl
  · next x _ =>
    dsimp only
    rw [modCluster_eq, hf.cluster]
    cases x.dirty with
    | true => exact (hf.cluster _ _ _).trans (hf.toUntouched.devTouch _)
    | false => cases x.lost with
      | true => exact hf.clearRange s _ _
      | false => rfl

theorem Copied.touchAs (s : State) (sp a w : Nat) (st : Bool) : f (s.touchAs sp a w st) = f s := by
  have hevict (cl : Nat) (v : Option (Nat × L2Line)) : f (match v with | some x => s.l2Evict cl x.1 w | none => s) = f s := by
    cases v with
    | none => rfl
    | some x => exact hf.l2Evict s cl x.1 w
  unfold State.touchAs
  split
  · rfl
  · split
    · exact hf.toUntouched.touchBank _ _
    · dsimp only
      split <;> simp only [modCluster_eq, hf.cluster, hf.toUntouched.touchBank]
      exact hevict _ _

theorem Copied.copyArea (s : State) (src dst n : Nat) : f (s.copyArea src dst n) = f s :=
  calc f (s.copyArea src dst n)
    _ = f ((s.areaBytes src n).foldl (fun t e => t.setByte (dst + e.1) e.2) (s.clearRange dst n)) := hf.bytes _ _ _ _
    _ = f (s.clearRange dst n) := foldl_keeps _ f _ (fun t _ => hf.bytes t _ t.mod.poison t.mod.undef) _
    _ = f s := hf.clearRange s dst n

theorem Copied.areaTouch (s : State) (a n : Nat) (st : Bool) : f (s.areaTouch a n st) = f s :=
  (hf.cluster _ _ _).trans (foldl_keeps s f _ (fun s _ => hf.touchAs s _ _ _ _) _)

theorem Copied.spillTo (s : State) (o a key lo n : Nat) : f (s.spillTo o a key lo n) = f s := by
  unfold State.spillTo
  split
  · rw [modCtx_eq, hf.ctx, hf.areaTouch, hf.copyArea]
  · rfl

theorem Copied.restoreFrom (s : State) (a : Option Nat) (lo n : Nat) : f (s.restoreFrom a lo n) = f s := by
  cases a with
  | none => exact hf.clearRange s lo n
  | some a => exact (hf.areaTouch _ _ _ _).trans (hf.copyArea s a lo n)

/-- The next bank of a core is restored: for such a view the core alone has changed, by that bank. -/
theorem Copied.spillRestore (hbank : (s.core c).unrestored = b :: rest) (h : s.spillRestore p inc out c = .ok t) :
    ∃ u : State, f u = f s ∧ t = u.modCore c fun k => { k with unrestored := rest } := by
  unfold State.spillRestore at h
  rw [hbank] at h
  dsimp only at h
  obtain ⟨-, -, h⟩ := acc_bind_cases h
  refine ⟨_, ?_, (Except.ok.inj h).symm⟩
  rw [hf.restoreFrom]
  split
  · exact (hf.spillTo _ _ _ _ _ _).trans (hf.toUntouched.devTouch _)
  · exact hf.toUntouched.devTouch _

end Copied

theorem copied_core (k : Nat) : Copied (State.core · k) := ⟨untouched_core k, fun _ _ _ _ => rfl, fun _ _ _ => rfl⟩
theorem copied_cores (p : Nat) : Copied fun s => (s.part p).cores :=
  ⟨untouched_part p Part.cores fun _ _ => rfl, fun _ _ _ _ => rfl, fun _ _ _ => rfl⟩

section Restored

variable (hbank : (s.core c).unrestored = b :: rest) (h : s.spillRestore p inc out c = .ok t)
include hbank h

theorem unrestored_spillRestore (k : Nat) : (t.core k).unrestored = if k = c then rest else (s.core k).unrestored := by
  obtain ⟨u, hu, rfl⟩ := (copied_core k).spillRestore hbank h
  rw [modCore_eq, core_setCore]
  split
  · rfl
  · rw [hu]

theorem cores_spillRestore (n : Nat) : (t.part n).cores = (s.part n).cores := by
  obtain ⟨u, hu, rfl⟩ := (copied_cores n).spillRestore hbank h
  exact hu

/-- The last bank of a partition's cores is restored. -/
theorem allRestored_spillRestore (hrest : rest = []) (hothers : ∀ k ∈ (s.part p).cores, k ≠ c → (s.core k).unrestored = []) :
    t.allRestored p = true := by
  rw [State.allRestored, cores_spillRestore hbank h, List.all_eq_true]
  intro k hk
  rw [unrestored_spillRestore hbank h, List.isEmpty_iff]
  split
  · exact hrest
  · next hne => exact hothers k hk hne

end Restored

theorem part_endSwitch (h : s.allRestored p = true) :
    ((s.endSwitch p inc out).part p).restoring = none ∧
      ((s.endSwitch p inc out).part p).switch = (((s.endSwitch p inc out).part p).sw != .none) := by
  unfold State.endSwitch
  rw [if_pos h]
  dsimp only
  rw [modPart_eq, part_setPart, if_pos rfl]
  exact ⟨rfl, rfl⟩

theorem exec_bankSpillRestore (hc : s.partOf s.inp.unit = some p) (hr : (s.part p).restoring = some (inc, out)) :
    exec .bankSpillRestore s = .next (s.orWait (coreWaiter s.inp.unit)
      (s.spillRestore p inc out s.inp.unit >>= fun t => .ok (t.endSwitch p inc out))) := by
  show execBankSpillRestore s = _
  unfold execBankSpillRestore
  dsimp only
  rw [hc]
  dsimp only
  rw [hr]

end Sys2Proof.Machine
end

section
namespace Sys2Proof.Proofs

open Sys2Proof.Machine Sys2Proof.Claims

/-- Settles O48: each event is one equation (`exec_preemptRequest`, `exec_contextFlip`, `exec_bankSpillRestore`, `exec_haltLineArrival`,
`exec_taskSchedulerCycle`, `exec_stopRecordsDone`); a flip and a halt stop plots, which keeps the tick and the active context
(`State.actsAs`), and a bank's spill and restoring keep the other cores (`Copied`). -/
theorem switchesHaltsAndTasks : Obligations.SwitchesHaltsAndTasks := by
  intro s t p q
  refine ⟨fun x rest hpreq hen hsw hstage htear0 htear1 => ?preempt, fun inc a d => ⟨fun hsw => ?deadline, fun hsw => ?cooperative⟩,
    fun inc => beginFlip_flips s p inc, fun inc a hsw => ?flip, ?spill, ?core, ?start, fun hen hhalted hdone hcores => ?records⟩
  case preempt =>
    intro inc
    rw [exec_preemptRequest hpreq hen hsw hstage htear0 htear1]
    refine ⟨fun hstate hpart hnot => ?_, fun hno => ?_⟩
    · have hgo : s.switchable p inc = true := switchable_iff.2 ⟨hstate, hpart, hnot⟩
      refine ⟨_, congrArg _ (if_pos hgo), ?_⟩
      have hpart := acceptSwitch_keeps (fun t => t.part p) (fun _ _ _ => rfl) (fun _ _ _ => rfl) (s.modPart p fun q => { q with preq := rest }) p x
      refine ⟨?_, ?_, ?_, ?_, ?_, ?_⟩
      · rw [hpart, part_takeRequest]
        simp [q, inc]
      · rw [hpart, part_takeRequest]
        simp
      · rw [hpart, part_takeRequest]
      · rw [acceptSwitch_keeps (fun t => t.ctx inc) (fun _ _ _ => rfl) fun _ _ _ => rfl]
        exact state_takeRequest _ p x
      · rw [acceptSwitch_keeps State.mem (fun _ _ _ => rfl) fun _ _ _ => rfl,
          takeRequest_keeps State.mem (fun _ _ _ => rfl) fun _ _ _ => rfl]
        rfl
      · rw [acceptSwitch_keeps State.wt (fun _ _ _ => rfl) fun _ _ _ => rfl,
          takeRequest_keeps State.wt (fun _ _ _ => rfl) fun _ _ _ => rfl]
        rfl
    · have hstay : ¬s.switchable p inc = true := fun h => by
        obtain ⟨h1, h2, h3⟩ := switchable_iff.1 h
        rcases hno with hno | hno | hno
        · exact hno h1
        · exact hno h2
        · exact h3 hno
      exact congrArg _ (if_neg hstay)
  case deadline =>
    rw [exec_yieldDeadline hsw rfl]
    exact ⟨fun h => by rw [if_pos h], fun h => by rw [if_neg (Nat.not_lt.2 h)]⟩
  case cooperative =>
    rw [exec_cooperativeStop hsw rfl, exec_cooperativeTimeout hsw rfl]
    exact ⟨fun h => by rw [if_pos h], fun h => by rw [if_neg (ne_true_of_eq_false h)],
      fun h => by rw [if_pos h], fun h => by rw [if_neg (Nat.not_le.2 h)]⟩
  case flip =>
    rw [exec_contextFlip hsw]
    refine ⟨fun h => ⟨?_, part_flip h⟩, fun h => ?_⟩
    · rw [h]
      rfl
    · rw [flip_late h]
      rfl
  case spill =>
    rintro inc out _ pp b rest rfl hc hr hbank
    rw [exec_bankSpillRestore hc hr]
    refine ⟨fun h => ⟨?_, ?_, fun hrest hothers => ?_⟩, fun wt h => ?_⟩
    · rw [h]
      rfl
    · rw [unrestored_spillRestore hbank h, if_pos rfl]
    · exact part_endSwitch (allRestored_spillRestore hbank h hrest hothers)
    · rw [h]
      rfl
  case core =>
    rintro _ pp rfl hc
    refine ⟨fun hup hrun => ?_, fun hno => ?_, fun hon hdown hav => ?_⟩
    · have hexec := exec_haltLineArrival hc
      rw [hup, hrun, Bool.not_false, Bool.and_true, if_pos rfl] at hexec
      obtain ⟨hhalted, hwt⟩ := core_haltCore s pp s.inp.unit
      refine ⟨_, hexec, hhalted, hwt, fun hplots => ?_⟩
      rw [haltCore_noPlot hplots, modCore_eq, mem_setCore]
      exact ⟨haltHgs_keeps State.mem (fun _ _ _ => rfl) s s.inp.unit, fun k hk => by rw [hg_setCore, stopped_haltHgs s _ hk]⟩
    · have hoff : ((s.part pp).halted && !(s.core s.inp.unit).halted) = false := by simpa [or_iff_not_imp_left] using hno
      rw [exec_haltLineArrival hc, hoff]
      rfl
    · intro k
      rw [exec_taskSchedulerCycle hc hon hdown hav]
      refine ⟨fun h => by rw [schedule_noTable h], fun n m hcount hheads => ?_⟩
      intro e
      refine ⟨fun h hsound hpasses hhg => ?_, fun hsound hpasses => ?_, fun cause hfault => ?_⟩
      · rw [schedule_passes hcount hheads hsound hpasses hhg]
        exact ⟨fun hrun => by rw [hrun]; rfl, fun hquiet => by rw [hquiet]; rfl⟩
      · rw [schedule_holds hcount hheads hsound hpasses]
        rfl
      · rw [schedule_discards hcount hheads hfault]
        rfl
  case start =>
    intro c n h m e k
    have hk : k = _ := hg_startTask s c n h m e
    rw [hk]
    exact ⟨pc_startedTask .., rfl, getS_startedTask _ _ _ _ _ (by decide), getS_startedTask _ _ _ _ _ (by decide), rfl, rfl,
      getS_startedTask _ _ _ _ _ (by decide), getV_startedTask ..⟩
  case records =>
    exact ⟨exec_stopRecordsDone hen hhalted hdone hcores, fun h => writeStops_off h⟩

end Sys2Proof.Proofs
end

section
/-! SUPPORT. The registers of a cluster below its bank map, its clock pattern, its rail and wake, its ballast, and one level of a sensor: what
each does (23 R417 to R428; 24 R431, R432). -/

namespace Sys2Proof.Machine

open Sys2Proof.Claims

variable {s t : State} {i : Instr} {cl d e o pat r w x y : Nat} {v : Word} {by_ : Option Nat} {c : Cluster} {l : SensorLevel}

/-! ## A write of the root monitor (23 R417, R424) -/

/-- The registers below the bank map wait at no door: they are reached whatever the cluster's clock and rail. -/
theorem reaches_cluster (hroot : rootAt s 2) (hlow : bits s.inp.addr.toNat 0 12 < 0x100) : Reaches s s.inp.addr.toNat := by
  obtain ⟨-, -, hregion, hzero, haligned⟩ := hroot
  have hregion : mRegion s.inp.addr.toNat = 2 := hregion
  exact
    { zero := hzero
      register := by simp [mgmtMemory, hregion]
      aligned := haligned
      fresh := fun h => absurd (hregion.symm.trans h) (by decide)
      live := by simp [mgmtCore, hregion]
      runs := by simp [mgmtCluster, hregion, hlow] }

theorem acks_clusterWrite (hroot : rootAt s 2) (hi : writesRegister i = some fun x _ => clusterReg o x)
    (ho : bits s.inp.addr.toNat 0 12 = o) (hlow : o < 0x100) :
    acks i s (s.clusterWrite (bits s.inp.addr.toNat 32 9) o s.inp.val none) := by
  have ⟨_, _, hregion, _, _⟩ := hroot
  refine acks_rootWrite hroot hi (by simp [clusterReg, hregion, ho]) (reaches_cluster hroot (ho ▸ hlow)) ?_
  unfold State.regWrite
  rw [show mRegion s.inp.addr.toNat = 2 from hregion, ho]
  rfl

theorem clusterWrite_ctl : s.clusterWrite cl 0x000 v by_ = s.modCluster cl fun c => { c with ctl := v &&& 3 } := rfl
theorem clusterWrite_swallow : s.clusterWrite cl 0x010 v by_ = s.clSwallowWrite cl v := rfl
theorem clusterWrite_rail : s.clusterWrite cl 0x018 v by_ = s.clRailWrite cl v := rfl
theorem clusterWrite_wake : s.clusterWrite cl 0x020 v by_ = s.clWakeWrite cl v by_ := rfl

/-! ## The clock pattern (23 R417 to R419, R421) -/

theorem effPattern_modCluster (s : State) (cl : Nat) (f : Cluster → Cluster) : (s.modCluster cl f).effPattern cl =
    if s.thermal cl 2 then (f (s.cluster cl)).req &&& 0x5555 else (f (s.cluster cl)).req := by
  simp only [State.effPattern, modCluster_eq, cluster_setCluster, if_true]
  rfl

theorem cluster_notePend_other (s : State) (h : d ≠ cl) : (s.notePend cl).cluster d = s.cluster d := by
  simp [State.notePend, h]

theorem cluster_notePend (s : State) (cl : Nat) : (s.notePend cl).cluster cl = { s.cluster cl with
    swpend := if (s.cluster cl).cur = s.effPattern cl then none else some ((s.cluster cl).swpend.getD s.wt) } := by
  simp only [State.notePend, modCluster_eq, cluster_setCluster, if_true]
  split <;> rfl

theorem cluster_setCur (s : State) (cl w : Nat) : (s.setCur cl w).cluster cl = { s.cluster cl with
    cycBase := (s.cluster cl).cycles s.wt, cycWt := s.wt, cur := w, swpend := none,
    waiters := if w = 0 then (s.cluster cl).waiters else [] } := by
  simp [State.setCur]

theorem clSwallowWrite_refused (h0 : bits v.toNat 0 16 = 0) (hquiet : s.isQuiet cl = false) : s.clSwallowWrite cl v = s.clRefuse cl 1 :=
  if_pos ⟨h0, by rw [hquiet]; rfl⟩

theorem clSwallowWrite_takes (h : bits v.toNat 0 16 ≠ 0 ∨ s.isQuiet cl = true) :
    s.clSwallowWrite cl v = (s.modCluster cl fun c => { c with req := bits v.toNat 0 16 }).notePend cl := by
  refine if_neg fun ⟨h0, hquiet⟩ => ?_
  rw [h.resolve_left (not_not_intro h0)] at hquiet
  exact absurd hquiet (by decide)

/-- A pattern that is taken is the requested one; a change stays pending exactly while the delivered one is another than the effective one. -/
theorem clSwallowWrite_pends (s : State) (cl r : Nat) :
    let t := (s.modCluster cl fun c => { c with req := r }).notePend cl
    (t.cluster cl).req = r ∧ (t.cluster cl).cur = (s.cluster cl).cur ∧
      ((t.cluster cl).swpend = none ↔ (s.cluster cl).cur = (if s.thermal cl 2 then r &&& 0x5555 else r)) ∧
      ∀ d, d ≠ cl → t.cluster d = s.cluster d := by
  intro t
  have hset : (s.modCluster cl fun c => { c with req := r }).cluster cl = { s.cluster cl with req := r } := by simp
  have ht : t.cluster cl = _ := cluster_notePend _ cl
  rw [hset, effPattern_modCluster] at ht
  refine ⟨by rw [ht], by rw [ht], by simp [ht], fun d hd => ?_⟩
  rw [show t.cluster d = _ from cluster_notePend_other _ hd]
  simp [hd]

theorem changing_iff : c.changing = true ↔ c.swpend ≠ none ∧ c.rail = 0 ∧ c.railTo = none := by
  simp [Cluster.changing, Option.isSome_iff_ne_none, and_assoc]

theorem quiescePoint_acts (h16 : s.wt % 16 = 0) (hc : (s.cluster cl).changing = true) (hq : ∀ d ∈ s.concerned cl, s.inFlight d = false) :
    s.quiescePoint cl =
      (s.concerned cl).foldl (fun s d => s.modCluster d fun x => { x with forced := false }) (s.setCur cl (s.effPattern cl)) :=
  if_pos ⟨h16, hc, by simpa using hq⟩

theorem quiescePoint_stays (h : s.wt % 16 ≠ 0 ∨ (s.cluster cl).changing = false) : s.quiescePoint cl = s := by
  refine if_neg fun ⟨h16, hc, _⟩ => ?_
  rcases h with h | h
  · exact h h16
  · exact absurd hc (by rw [h]; decide)

theorem overdue_changing (hc : c.changing = true) (hw : c.swpend = some w) (wt : Nat) : c.overdue wt = decide (w + 4096 ≤ wt) := by
  simp [Cluster.overdue, hc, hw]

theorem overdue_settled (hc : c.changing = false) (wt : Nat) : c.overdue wt = false := by
  rw [Cluster.overdue, hc, Bool.false_and]

theorem exec_swallowForceTimeout : exec .swallowForceTimeout s = .next (if (s.cluster s.inp.unit).overdue s.wt then
    (s.concerned s.inp.unit).foldl (fun s d => s.modCluster d fun x => { x with forced := true }) s else s) := rfl

/-! ## The rail: refusals and transitions downwards (23 R422, R423; 24 R432) -/

theorem railRefusal_reserved : s.railRefusal cl 3 = some 4 := rfl

theorem railRefusal_running (h : (s.cluster cl).cur ≠ 0) : s.railRefusal cl 1 = some 2 := if_pos h

theorem railRefusal_stopped (hcur : (s.cluster cl).cur = 0) (hto : (s.cluster cl).railTo = none) : s.railRefusal cl 1 = none := by
  simp [State.railRefusal, hcur, hto]

theorem clRailWrite_same (hto : (s.cluster cl).railTo = none) (hx : bits v.toNat 0 2 = (s.cluster cl).rail) : s.clRailWrite cl v = s :=
  if_pos ⟨by rw [hto]; rfl, hx⟩

section Asked

variable (hnew : ¬((s.cluster cl).railTo = none ∧ bits v.toNat 0 2 = (s.cluster cl).rail))
include hnew

theorem clRailWrite_asks : s.clRailWrite cl v = match s.railRefusal cl (bits v.toNat 0 2) with
    | some e => s.clRefuse cl e
    | none => s.modCluster cl fun c => { c with railReq := bits v.toNat 0 2, railTo := some (bits v.toNat 0 2), railAt := s.wt } :=
  if_neg fun ⟨hto, hx⟩ => hnew ⟨Option.isNone_iff_eq_none.1 hto, hx⟩

theorem clRailWrite_refused (h : s.railRefusal cl (bits v.toNat 0 2) = some e) : s.clRailWrite cl v = s.clRefuse cl e := by
  rw [clRailWrite_asks hnew, h]

theorem clRailWrite_begins (h : s.railRefusal cl (bits v.toNat 0 2) = none) : s.clRailWrite cl v =
    s.modCluster cl fun c => { c with railReq := bits v.toNat 0 2, railTo := some (bits v.toNat 0 2), railAt := s.wt } := by
  rw [clRailWrite_asks hnew, h]

end Asked

theorem exec_railTransitionDone : exec .railTransitionDone s = .next (s.railDown s.inp.unit) := rfl

theorem railDown_early (hto : (s.cluster cl).railTo = some 1) (hwt : s.wt < (s.cluster cl).railAt + 320) : s.railDown cl = s := by
  simp [State.railDown, hto, hwt]

section Down

variable (hpat : (s.cluster cl).wakePat = none)
include hpat

theorem railDown_retention (hto : (s.cluster cl).railTo = some 1) (hwt : (s.cluster cl).railAt + 320 ≤ s.wt) :
    s.railDown cl = s.modCluster cl fun c => { c with rail := 1, railTo := none } := by
  simp [State.railDown, hto, hpat, Nat.not_lt.2 hwt]

theorem railDown_off (hto : (s.cluster cl).railTo = some 2) (hready : s.offReady cl = .ok ()) :
    s.railDown cl = (s.enterOff cl).modCluster cl fun c => { c with rail := 2, railTo := none } := by
  simp only [State.railDown, hto, hpat, hready]

end Down

/-! ## The wake (23 R425; 24 R431) -/

/-- A wake ends with the rail on, QREQ clear and the written pattern delivered, cut where T2 is in force. -/
theorem cluster_wakeFinish (s : State) (cl w : Nat) :
    let k := (s.wakeFinish cl w).cluster cl
    k.rail = 0 ∧ k.req = w ∧ k.railTo = none ∧ bit k.ctl.toNat 0 = false ∧ k.cur = (if s.thermal cl 2 then w &&& 0x5555 else w) := by
  have hbit : bit ((s.cluster cl).ctl &&& ~~~1#64).toNat 0 = false := by
    rw [bit_eq_testBit, BitVec.testBit_toNat]
    simp
  intro k
  have hk : k = _ := cluster_setCur _ cl _
  rw [effPattern_modCluster] at hk
  rw [hk]
  simpa using hbit

theorem clWakeWrite_idle (h : bit v.toNat 16 = false) : s.clWakeWrite cl v by_ = s := if_pos (by rw [h]; rfl)

section Wake

variable (h : bit v.toNat 16 = true)
include h

theorem clWakeWrite_again (hto : (s.cluster cl).railTo = some 0) :
    s.clWakeWrite cl v by_ = s.modCluster cl fun c => { c with wakePat := some (bits v.toNat 0 16) } := by
  simp [State.clWakeWrite, h, hto]

theorem clWakeWrite_lowering (hto : (s.cluster cl).railTo = some y) (hy : y ≠ 0) :
    s.clWakeWrite cl v by_ = s.modCluster cl fun c => { c with wakePat := some (bits v.toNat 0 16), wakeBy := by_ } := by
  obtain ⟨n, rfl⟩ := Nat.exists_eq_succ_of_ne_zero hy
  simp [State.clWakeWrite, h, hto]

theorem clWakeWrite_goes (hto : (s.cluster cl).railTo = none) : s.clWakeWrite cl v by_ = s.wakeGo cl (bits v.toNat 0 16) := by
  simp [State.clWakeWrite, h, hto]

end Wake

theorem wakeGo_hot (h : s.thermal cl 3 = true) :
    s.wakeGo cl pat = (s.clRefuse cl 5).modCluster cl fun c => { c with wakePat := none, wakeBy := none } := if_pos h

theorem wakeGo_on (h : s.thermal cl 3 = false) (hrail : (s.cluster cl).rail = 0) : s.wakeGo cl pat = s.wakeFinish cl pat := by
  rw [State.wakeGo, if_neg (ne_true_of_eq_false h), if_pos hrail]

theorem wakeGo_raises (h : s.thermal cl 3 = false) (hrail : (s.cluster cl).rail ≠ 0) : s.wakeGo cl pat =
    s.modCluster cl fun c => { c with railReq := 0, railTo := some 0, railAt := s.wt, wakePat := some pat, wakeBy := none } := by
  rw [State.wakeGo, if_neg (ne_true_of_eq_false h), if_neg hrail]

section Up

variable (hto : (s.cluster cl).railTo = some 0) (hpat : (s.cluster cl).wakePat = some w)
include hto hpat

theorem railUp_early (hrail : (s.cluster cl).rail = 1) (hwt : s.wt < (s.cluster cl).railAt + 800) : s.railUp cl = s := by
  simp [State.railUp, hto, hpat, hrail, hwt]

theorem railUp_retention (hrail : (s.cluster cl).rail = 1) (hwt : (s.cluster cl).railAt + 800 ≤ s.wt) : s.railUp cl = s.wakeFinish cl w := by
  simp [State.railUp, hto, hpat, hrail, Nat.not_lt.2 hwt]

theorem railUp_off (hrail : (s.cluster cl).rail = 2) (hread : s.readRetention cl = .ok t) : s.railUp cl = t.wakeFinish cl w := by
  simp [State.railUp, hto, hpat, hrail, hread]

end Up

/-! ## Ballast (23 R428) -/

theorem ballastLevel_rising (h : c.ballastAt = some x) (wt : Nat) : c.ballastLevel wt = 16 - (x - wt + 199) / 200 := by
  rw [Cluster.ballastLevel, h]

theorem ballastLevel_falling (h : c.ballastAt = none) (hfall : c.ballastFall = some (x, y)) (wt : Nat) :
    c.ballastLevel wt = y - (wt - x) / 200 := by
  rw [Cluster.ballastLevel, h, hfall]

theorem ballastLevel_off (h : c.ballastAt = none) (hfall : c.ballastFall = none) (wt : Nat) : c.ballastLevel wt = 0 := by
  rw [Cluster.ballastLevel, h, hfall]

/-! ## One level of a sensor (23 R426) -/

theorem exec_thermalSample : exec .thermalSample s =
    .next (if s.wt % 1600 = 0 then s.thermalSample (s.inp.unit % 64) s.inp.data else s) := rfl

theorem sample_enters (hon : l.on = false) {th : Nat} (h : th ≤ x) (wt : Nat) :
    (l.sample x th wt).on = true ∧ (l.sample x th wt).entered = wt := by
  simp [SensorLevel.sample, hon, h]

theorem sample_below (hon : l.on = false) {th : Nat} (h : x < th) (wt : Nat) : (l.sample x th wt).on = false := by
  simp [SensorLevel.sample, hon, Nat.not_le.2 h]

theorem sample_leaves_iff (hon : l.on = true) (x th wt : Nat) :
    (l.sample x th wt).on = false ↔ x + 4 ≤ th ∧ 1000 ≤ l.low + 1 ∧ l.entered + 3200000 ≤ wt := by
  by_cases hlow : x + 4 ≤ th
  · simp only [SensorLevel.sample, hon, hlow, if_true, true_and]
    split
    · next hend => exact iff_of_true rfl hend
    · next hend => exact iff_of_false (by simp) hend
  · simp [SensorLevel.sample, hon, hlow]

end Sys2Proof.Machine
end

section
namespace Sys2Proof.Proofs

open Sys2Proof.Machine Sys2Proof.Claims

/-- Settles O52: a register of a cluster below its bank map takes every write of the root monitor (`acks_clusterWrite`), and each register
and each event of the clock, the rail, the ballast and a sensor is the case of its equation. -/
theorem clustersFollowTheirClockAndRail : Obligations.ClustersFollowTheirClockAndRail := by
  intro s v
  refine ⟨?registers, fun cl x => ?refusals, ?events, ?sample, ?skip, fun l x th wt => ?level⟩
  case registers =>
    intro hroot cl c r refuse
    have takes : ∀ {i o}, writesRegister i = some (fun x _ => clusterReg o x) → o < 0x100 → bits s.inp.addr.toNat 0 12 = o →
        acks i s (s.clusterWrite cl o v none) := fun hi hlow ho => acks_clusterWrite hroot hi ho hlow
    refine ⟨takes rfl (by decide), fun ho => ?swallow, fun ho => ?rail, fun ho => ?wake⟩
    case swallow =>
      have hacks := takes (i := .clSwallowReqWrite) rfl (by decide) ho
      rw [clusterWrite_swallow] at hacks
      refine ⟨fun h0 hquiet => ?_, fun h => ?_⟩
      · rwa [clSwallowWrite_refused h0 hquiet] at hacks
      · rw [clSwallowWrite_takes h] at hacks
        exact ⟨_, hacks, clSwallowWrite_pends s cl r⟩
    case rail =>
      have hacks := takes (i := .clRailReqWrite) rfl (by decide) ho
      rw [clusterWrite_rail] at hacks
      refine ⟨fun hto hx => ?_, fun hnew => ⟨fun e he => ?_, fun hok => ?_⟩⟩
      · rwa [clRailWrite_same hto hx] at hacks
      · rwa [clRailWrite_refused hnew he] at hacks
      · rwa [clRailWrite_begins hnew hok] at hacks
    case wake =>
      have hacks := takes (i := .clWakeWrite) rfl (by decide) ho
      rw [clusterWrite_wake] at hacks
      refine ⟨fun h => ?_, fun h => ⟨fun hto => ?_, fun y hto hy => ?_, fun hto => ?_⟩⟩
      · rwa [clWakeWrite_idle h] at hacks
      · rwa [clWakeWrite_again h hto] at hacks
      · rwa [clWakeWrite_lowering h hto hy] at hacks
      · rw [clWakeWrite_goes h hto] at hacks
        refine ⟨fun hhot => ?_, fun hcool hrail => ?_, fun hcool hrail => ?_⟩
        · rwa [wakeGo_hot hhot] at hacks
        · rwa [wakeGo_on hcool hrail] at hacks
        · rwa [wakeGo_raises hcool hrail] at hacks
  case refusals =>
    refine ⟨?_, ?_, ?_⟩
    · rintro rfl
      exact railRefusal_reserved
    · rintro rfl
      exact railRefusal_running
    · rintro rfl
      exact railRefusal_stopped
  case events =>
    intro cl c
    refine ⟨changing_iff, fun h16 hc hq => congrArg _ (quiescePoint_acts h16 hc hq), fun h => congrArg _ (quiescePoint_stays h),
      fun w => by simp [cluster_setCur], fun w hc hw => ?force, fun hc => ?settled,
      fun hto hpat => ⟨fun hwt => congrArg _ (railDown_retention hpat hto hwt), fun hwt => congrArg _ (railDown_early hto hwt)⟩,
      fun hto hpat hready => ?off,
      fun w hto hpat => ⟨fun hrail hwt => congrArg _ (railUp_retention hto hpat hrail hwt),
        fun hrail hwt => congrArg _ (railUp_early hto hpat hrail hwt), fun t hrail hread => congrArg _ (railUp_off hto hpat hrail hread)⟩,
      cluster_wakeFinish s cl, rfl, fun x hx _ _ => ballastLevel_rising hx s.wt, fun x l h hfall => ballastLevel_falling h hfall s.wt,
      fun h hfall => ballastLevel_off h hfall s.wt⟩
    case force =>
      rw [exec_swallowForceTimeout, overdue_changing hc hw]
      exact ⟨fun h => by rw [if_pos (decide_eq_true h)], fun h => by rw [if_neg (by simpa using h)]⟩
    case settled =>
      rw [exec_swallowForceTimeout, overdue_settled hc]
      rfl
    case off => rw [exec_railTransitionDone, railDown_off hpat hto hready]
  case sample =>
    intro h
    rw [exec_thermalSample, if_pos h]
  case skip =>
    intro h
    rw [exec_thermalSample, if_neg h]
  case level =>
    exact ⟨fun hon => ⟨fun h => sample_enters hon h wt, fun h => sample_below hon h wt⟩, fun hon => sample_leaves_iff hon x th wt⟩

end Sys2Proof.Proofs
end

section
/-! SUPPORT. What a store of the device leaves of the module's own state; the defect map, retirement, tests and patrol; the whole-wafer halt
(25 R437 to R444; 26 R454, R455). -/

namespace Sys2Proof.Machine

open Sys2Proof.Claims

variable {s : State} {i : Instr} {f : Nat → Nat → Bool} {c cl e n o op p x : Nat} {v : Word}

/-! ## The module's own state -/

/-- A write at a home changes the memory, and of the module's own state the poisoned words alone. -/
theorem homeWrite_bytes (s : State) (a n v : Nat) :
    ∃ m w, s.homeWrite a n v = { s with mem := m, mod := { s.mod with poison := w } } := by
  obtain ⟨m, hm⟩ := writeN_eq n s a v
  rw [State.homeWrite, hm, State.unpoison]
  split
  · exact ⟨m, s.mod.poison, rfl⟩
  · exact ⟨m, _, rfl⟩

theorem Aside.devStore {α : Type} {g : State → α} (hg : Aside g) (s : State) (a n v : Nat) : g (s.devStore a n v) = g s := by
  obtain ⟨m, w, hw⟩ := homeWrite_bytes s a n v
  calc g (s.devStore a n v)
    _ = g (s.homeWrite a n v) := foldl_keeps _ g _ (fun s i => hg.touchAs s ..) _
    _ = g s := by rw [hw]; exact hg.bytes s m w s.mod.undef

section Kept

variable {β : Type} (g : Module → β) (hg : ∀ m w u, g { m with poison := w, undef := u } = g m)
include hg

/-- The module's own state, but for the words that are poisoned and the ranges that are undefined, is no part of a write-back. -/
theorem aside_mod : Aside fun s => g s.mod := ⟨⟨fun _ _ _ => rfl, fun _ _ => rfl⟩, fun _ _ _ _ => hg _ _ _, fun _ _ _ => rfl⟩

theorem writeEntry_keeps (s : State) (c : Nat) : g (s.writeEntry c).mod = g s.mod := (aside_mod g hg).devStore s _ _ _
theorem writeHeader_keeps (s : State) (gen : Nat) : g (s.writeHeader gen).mod = g s.mod := (aside_mod g hg).devStore s _ _ _

end Kept

/-- The generations of the placement and of the defect map (18 R364; 25 R439). -/
def Module.generations (m : Module) : Nat × Nat := (m.placegen, m.mapgen)

/-- Both generations advance by one. -/
def nextGenerations (x : Nat × Nat) : Nat × Nat := ((x.1 + 1) % 2 ^ 32, (x.2 + 1) % 2 ^ 32)

theorem generations_advanceMap (s : State) (c : Nat) : (s.advanceMap c).mod.generations = nextGenerations s.mod.generations := by
  have h : ((s.writeEntry c).writeHeader ((s.mod.mapgen + 1) % 2 ^ 32)).mod.generations = s.mod.generations :=
    (writeHeader_keeps Module.generations (fun _ _ _ => rfl) _ _).trans (writeEntry_keeps Module.generations (fun _ _ _ => rfl) s c)
  exact congrArg nextGenerations h

/-! ## RETCMD (25 R437, R440) -/

theorem moduleWrite_retcmd (h : moduleReg 0x28 x = true) (a : Agent) (v : Word) : s.moduleWrite (bits x 0 24) a v = s.retcmdWrite v := by
  have hoff : bits x 0 24 = 0x28 := by simp only [moduleReg, Bool.and_eq_true, beq_iff_eq] at h; exact h.2
  rw [hoff]
  rfl

theorem writesRegister_retcmd (h : (i, op) ∈ [(Instr.retcmdTest, 1), (.retcmdRetire, 2), (.retcmdCellbad, 3)]) :
    op ≠ 0 ∧ writesRegister i = some fun x v => moduleReg 0x28 x && bits v 62 2 == op := by
  simp only [List.mem_cons, List.not_mem_nil, or_false, Prod.mk.injEq] at h
  obtain ⟨rfl, rfl⟩ | ⟨rfl, rfl⟩ | ⟨rfl, rfl⟩ := h
  · exact ⟨by decide, rfl⟩
  · exact ⟨by decide, rfl⟩
  · exact ⟨by decide, rfl⟩

/-- RETSTAT keeps LOST through a command (25 R437). -/
abbrev keepLost (s t : State) : State := t.modMod fun m => { m with retstat := m.retstat ||| (s.mod.retstat &&& 4#64) }

theorem retcmdWrite_busy (hop : bits v.toNat 62 2 ≠ 0) (hbusy : bit s.mod.retstat.toNat 0 = true) :
    s.retcmdWrite v = s.modMod fun m => { m with retstat := m.retstat ||| 4#64 } := by
  rw [State.retcmdWrite, if_neg hop, if_pos hbusy]

section Idle

variable (hidle : bit s.mod.retstat.toNat 0 = false)
include hidle

theorem retcmdWrite_refused (hop : bits v.toNat 62 2 ≠ 0) (he : s.retRefusal v = some e) :
    s.retcmdWrite v = s.modMod fun m => { m with retstat := BitVec.ofNat 64 (e * 256 + 2) ||| (s.mod.retstat &&& 4#64) } := by
  rw [State.retcmdWrite, if_neg hop, if_neg (ne_true_of_eq_false hidle), he]

variable (hok : s.retRefusal v = none)
include hok

theorem retcmdWrite_test (hop : bits v.toNat 62 2 = 1) : s.retcmdWrite v = keepLost s (s.beginTest (bits v.toNat 0 12)) := by
  rw [State.retcmdWrite, if_neg (by omega), if_neg (ne_true_of_eq_false hidle), hok, hop]
  rfl

theorem retcmdWrite_retire (hop : bits v.toNat 62 2 = 2) : s.retcmdWrite v = keepLost s (s.beginRetire (bits v.toNat 0 12)) := by
  rw [State.retcmdWrite, if_neg (by omega), if_neg (ne_true_of_eq_false hidle), hok, hop]
  rfl

theorem retcmdWrite_cellbad (hop : bits v.toNat 62 2 = 3) :
    s.retcmdWrite v = keepLost s (s.cellBad (bits v.toNat 0 12) (bits v.toNat 16 10)) := by
  rw [State.retcmdWrite, if_neg (by omega), if_neg (ne_true_of_eq_false hidle), hok, hop]
  rfl

end Idle

/-- A command with its reserved bits zero names no core that is dead (25 R440). -/
theorem retRefusal_dead (hhigh : bits v.toNat 26 36 = 0) (hmid : bits v.toNat 12 4 = 0)
    (hcell : bits v.toNat 62 2 = 3 → bits v.toNat 16 10 ≤ 575) (hdead : s.live (bits v.toNat 0 12) = false) : s.retRefusal v = some 3 := by
  unfold State.retRefusal
  dsimp only
  rw [if_neg (by omega), if_pos (by rw [hdead]; rfl)]

/-! ## The ends of a TEST and of a RETIRE (25 R440, R441) -/

/-- The state in which a TEST's core is written back to the map, with the result's code (25 R441). -/
def State.tested (s : State) (result : Nat) : State :=
  (s.blankCore s.mod.retCore).modMod fun m =>
    { m with retOp := 0, retstat := BitVec.ofNat 64 (result * 256) ||| (m.retstat &&& 4#64), defects := { m.defects with testing := [] } }

theorem endTest_eq (s : State) (result : Nat) : ∃ n, s.endTest result = (s.tested n).writeEntry s.mod.retCore := ⟨_, rfl⟩

/-- A TEST ends with its result in CODE, and BUSY clear (25 R441). -/
theorem endTest_ends (s : State) (result : Nat) :
    (s.endTest result).mod.retOp = 0 ∧ bit (s.endTest result).mod.retstat.toNat 0 = false := by
  obtain ⟨n, hn⟩ := endTest_eq s result
  rw [hn, writeEntry_keeps Module.retOp fun _ _ _ => rfl, writeEntry_keeps Module.retstat fun _ _ _ => rfl]
  refine ⟨rfl, ?_⟩
  unfold State.tested State.modMod
  dsimp only
  rw [bit_eq_testBit, BitVec.testBit_toNat, BitVec.getLsbD_or, BitVec.getLsbD_and, BitVec.getLsbD_ofNat, Nat.testBit_zero, Nat.mul_mod]
  simp

theorem exec_testComplete_ends (h : s.mod.retOp = 1) : exec .testComplete s = .next (s.endTest s.inp.val.toNat) :=
  congrArg Host.Outcome.next (if_pos h)

theorem exec_testComplete_idle (h : s.mod.retOp ≠ 1) : exec .testComplete s = .next s := congrArg Host.Outcome.next (if_neg h)

theorem exec_retireComplete_ends (h : s.mod.retOp = 2) : exec .retireComplete s = .next (s.endRetire s.mod.retCore) :=
  congrArg Host.Outcome.next (if_pos h)

theorem exec_retireComplete_idle (h : s.mod.retOp ≠ 2) : exec .retireComplete s = .next s := congrArg Host.Outcome.next (if_neg h)

/-- The state of a retirement when the core is retired and its slice's bytes are lost (25 R440, steps 4 and 6). -/
def State.lostSlice (s : State) (c : Nat) : State :=
  (s.dropBeyond (clusterOf c) (((s.liveOf (clusterOf c)).length - 1) * sliceBytes)).modMod fun m =>
    { m with defects := { m.defects with retired := c :: m.defects.retired }, live := m.live - 1 }

/-- The state of a retirement in which its map is advanced (25 R440, steps 4 to 6). -/
def State.relaid (s : State) (c : Nat) : State :=
  let s := ((s.lostSlice c).undefineCluster (clusterOf c)).recount c
  (s.modMod fun m => { m with minslice := s.minSlice }).dropTokens c

/-- A command is over (25 R440, step 7). -/
def State.retFreed (s : State) : State := s.modMod fun m => { m with retOp := 0, retstat := m.retstat &&& ~~~1#64 }

theorem generations_retFreed (s : State) : s.retFreed.mod.generations = s.mod.generations := rfl

theorem bit_retFreed (s : State) : bit s.retFreed.mod.retstat.toNat 0 = false := by
  show bit (s.mod.retstat &&& ~~~1#64).toNat 0 = false
  rw [bit_eq_testBit, BitVec.testBit_toNat, BitVec.getLsbD_and]
  simp

theorem endRetire_eq (s : State) (c : Nat) : s.endRetire c = ((s.relaid c).advanceMap c).retFreed := rfl

theorem generations_undefineCluster (s : State) (cl : Nat) : (s.undefineCluster cl).mod.generations = s.mod.generations :=
  foldl_keeps s (fun s => s.mod.generations) (fun s a => s.undefine a bankBytes) (fun _ _ => rfl) _

theorem generations_remeasured (s : State) (c n : Nat) :
    (((s.recount c).modMod fun m => { m with minslice := n }).dropTokens c).mod.generations = s.mod.generations := rfl

theorem generations_relaid (s : State) (c : Nat) : (s.relaid c).mod.generations = s.mod.generations :=
  calc (s.relaid c).mod.generations
    _ = ((s.lostSlice c).undefineCluster (clusterOf c)).mod.generations := generations_remeasured _ c _
    _ = (s.lostSlice c).mod.generations := generations_undefineCluster _ _
    _ = s.mod.generations := rfl

/-- A RETIRE ends with BUSY clear, and both generations advance (25 R439, R440). -/
theorem endRetire_ends (s : State) (c : Nat) : (s.endRetire c).mod.retOp = 0 ∧ bit (s.endRetire c).mod.retstat.toNat 0 = false ∧
    (s.endRetire c).mod.placegen = (s.mod.placegen + 1) % 2 ^ 32 ∧ (s.endRetire c).mod.mapgen = (s.mod.mapgen + 1) % 2 ^ 32 := by
  have hgen : (s.endRetire c).mod.generations = nextGenerations s.mod.generations := by
    rw [endRetire_eq, generations_retFreed, generations_advanceMap, generations_relaid]
  obtain ⟨hplace, hmap⟩ := Prod.mk.inj hgen
  exact ⟨rfl, bit_retFreed _, hplace, hmap⟩

/-! ## Patrol (25 R442, R443) -/

/-- What patrol's read of a unit does, by what it finds there. -/
def State.patrolFinds (s : State) (found a : Nat) : State :=
  match found with
  | 0 => s
  | 1 => s.eccLog false a
  | _ => s.poisonWord a

theorem untouched_inp : Untouched State.inp := ⟨fun _ _ _ => rfl, fun _ _ => rfl⟩

theorem exec_patrolScrub (hbank : s.bankOfAddr s.inp.addr.toNat = some (cl, n)) (hon : s.mod.scrubctl ≠ 0)
    (hawake : ((s.cluster cl).bank n).state < 2) :
    exec .patrolScrub s = .next ((s.touchBank cl n).patrolFinds s.inp.idx s.inp.addr.toNat) := by
  show execPatrolScrub s = _
  unfold execPatrolScrub
  dsimp only
  rw [hbank]
  dsimp only
  rw [if_neg (not_or.2 ⟨hon, Nat.not_le.2 hawake⟩), show (s.touchBank cl n).inp = s.inp from untouched_inp.touchBank cl n]
  rfl

theorem exec_patrolScrub_off (hoff : s.mod.scrubctl = 0) : exec .patrolScrub s = .next s := by
  show execPatrolScrub s = _
  unfold execPatrolScrub
  dsimp only
  split
  · rw [if_pos (.inl hoff)]
  · rfl

/-- Logging an event changes ECCLOG at most. -/
theorem eccLog_eq (s : State) (unc : Bool) (a : Nat) : ∃ x, s.eccLog unc a = s.modMod fun m => { m with ecclog := x } := by
  unfold State.eccLog
  split
  · split
    · exact ⟨s.mod.ecclog, rfl⟩
    · exact ⟨_, rfl⟩
  · exact ⟨s.mod.ecclog, rfl⟩

theorem eccu_eccLog (s : State) (unc : Bool) (a : Nat) : (s.eccLog unc a).mod.eccu = s.mod.eccu := by
  obtain ⟨x, h⟩ := eccLog_eq s unc a
  rw [h]
  rfl

theorem eccu_poisonWord (s : State) (a : Nat) : (s.poisonWord a).mod.eccu = min 0xFFFF (s.mod.eccu + 1) := by
  unfold State.poisonWord State.modMod
  dsimp only
  rw [eccu_eccLog]

theorem poison_poisonWord (s : State) (a : Nat) : a / 8 ∈ (s.poisonWord a).mod.poison := by
  show a / 8 ∈ if (s.eccLog true a).mod.poison.contains (a / 8) then _ else _
  split
  · next h => exact List.contains_iff_mem.1 h
  · exact List.mem_cons_self

/-! ## Row remapping (25 R444) -/

theorem exec_sliceRowRemap_dead (h : s.live (s.inp.unit % 4096) = false) : exec .sliceRowRemap s = .next s := by
  show execSliceRowRemap s = _
  rw [execSliceRowRemap, h]
  rfl

/-- The defect map with one spare row fewer in a bank of a slice (25 R444). -/
def Defects.useSpare (d : Defects) (c b : Nat) : Defects := { d with spares := SMap.set d.spares (16 * c + b) (d.bankSpare c b - 1) }

/-- The usable capacity of a core's slice falls, and a replacement is asked for (25 R444). -/
def State.wearSlice (s : State) (c mib : Nat) : State :=
  let s := s.modMod fun m => { m with defects := { s.mod.defects with usable := SMap.set s.mod.defects.usable c mib } }
  s.modMod fun m => { m with minslice := s.minSlice, replaceReq := true }

section Remap

variable (hlive : s.live (s.inp.unit % 4096) = true)
include hlive

theorem exec_sliceRowRemap_spare (h : 0 < s.mod.defects.bankSpare (s.inp.unit % 4096) (s.inp.idx % 16)) :
    exec .sliceRowRemap s = .next ((s.modMod fun m =>
      { m with defects := s.mod.defects.useSpare (s.inp.unit % 4096) (s.inp.idx % 16) }).writeEntry (s.inp.unit % 4096)) := by
  show execSliceRowRemap s = _
  unfold execSliceRowRemap
  dsimp only
  rw [if_neg (by rw [hlive]; decide), if_pos h]
  rfl

theorem exec_sliceRowRemap_worn (h : s.mod.defects.bankSpare (s.inp.unit % 4096) (s.inp.idx % 16) = 0) :
    exec .sliceRowRemap s = .next ((s.wearSlice (s.inp.unit % 4096)
      (min s.inp.val.toNat (min 479 (s.mod.defects.mib (s.inp.unit % 4096) - 1)))).writeEntry (s.inp.unit % 4096)) := by
  show execSliceRowRemap s = _
  unfold execSliceRowRemap
  dsimp only
  rw [if_neg (by rw [hlive]; decide), if_neg (Nat.not_lt.2 (Nat.le_of_eq h))]
  rfl

end Remap

/-- What the rewritten image leaves of a worn slice's state. -/
theorem writeEntry_wearSlice (s : State) (c mib : Nat) : ((s.wearSlice c mib).writeEntry c).mod.replaceReq = true ∧
    SMap.getD ((s.wearSlice c mib).writeEntry c).mod.defects.usable c 480 = mib := by
  rw [writeEntry_keeps Module.replaceReq fun _ _ _ => rfl, writeEntry_keeps Module.defects fun _ _ _ => rfl]
  exact ⟨rfl, (smap_getD_set s.mod.defects.usable c c mib 480).trans (if_pos rfl)⟩

/-! ## The whole-wafer halt (26 R454, R455) -/

/-- The halt lines of the enabled partitions of a table go up. -/
def State.haltAll (s : State) (l : SMap Part) : State := l.foldl (fun s e => if e.2.en then s.haltLine e.1 else s) s

/-- Every RMC stops. -/
def State.stopRmcs (s : State) : State :=
  (List.range 64).foldl (fun s r => s.modHg (rmcBase + r) fun h => { h with stopped := true }) s

/-- The request for a halt stands in DBGSTAT. -/
def State.haltAsked (s : State) (code : Nat) : State := s.modMod fun m => { m with dbgstat := BitVec.ofNat 64 (code * 256 + 1), dbgWt := s.wt }

theorem waferHalt_begins (h : bit s.mod.dbgstat.toNat 0 = false) (code : Nat) : s.waferHalt code =
    (let u := (s.haltAsked code).haltAll s.parts
     if u.mod.rmch then u.stopRmcs else u) := if_neg (ne_true_of_eq_false h)

theorem haltAll_keeps {α : Type} (g : State → α) (hg : ∀ s p x, g (s.setPart p x) = g s) (s : State) (l : SMap Part) :
    g (s.haltAll l) = g s := by
  refine foldl_keeps s g _ (fun s e => ?_) l
  split
  · unfold State.haltLine
    split
    · rfl
    · exact hg s _ _
  · rfl

theorem stopRmcs_keeps {α : Type} (g : State → α) (hg : ∀ s k x, g (s.setHg k x) = g s) (s : State) : g s.stopRmcs = g s :=
  foldl_keeps s g _ (fun s _ => hg s _ _) _

theorem waferHalt_keeps {α : Type} (g : State → α) (hhg : ∀ s k x, g (s.setHg k x) = g s) (h : bit s.mod.dbgstat.toNat 0 = false)
    (code : Nat) : g (s.waferHalt code) = g ((s.haltAsked code).haltAll s.parts) := by
  rw [waferHalt_begins h]
  dsimp only
  split
  · exact stopRmcs_keeps g hhg _
  · rfl

theorem halted_haltLine (s : State) (p q : Nat) : ((s.haltLine q).part p).halted = ((s.part p).halted || p == q) := by
  by_cases hpq : p = q
  · subst hpq
    by_cases hup : (s.part p).halted = true
    · simp [haltLine_up hup, hup]
    · simp [haltLine_down (Bool.eq_false_of_not_eq_true hup)]
  · have hother : (s.haltLine q).part p = s.part p := by
      unfold State.haltLine
      split
      · rfl
      · simp [hpq]
    simp [hother, hpq]

theorem halted_haltAll (l : SMap Part) : ∀ (s : State) (p : Nat),
    ((s.haltAll l).part p).halted = ((s.part p).halted || l.any fun e => e.2.en && p == e.1) := by
  induction l with
  | nil => exact fun s p => (Bool.or_false _).symm
  | cons e l ih =>
    intro s p
    rw [State.haltAll, List.foldl_cons, ← State.haltAll, ih, List.any_cons, ← Bool.or_assoc]
    congr 1
    cases e.2.en with
    | true => exact halted_haltLine s p e.1
    | false => exact (Bool.or_false _).symm

theorem mem_of_key {α : Type} {m : SMap α} (h : p ∈ m.map (·.1)) (d : α) : (p, SMap.getD m p d) ∈ m := by
  induction m with
  | nil => cases h
  | cons e m ih =>
    obtain ⟨k, x⟩ := e
    by_cases hk : k = p
    · subst hk
      simp [SMap.getD, SMap.get?]
    · have hm : p ∈ m.map (·.1) := by simpa [Ne.symm hk] using h
      have hget : SMap.getD ((k, x) :: m) p d = SMap.getD m p d := by simp [SMap.getD, SMap.get?, hk]
      rw [hget]
      exact List.mem_cons_of_mem _ (ih hm)

/-- A whole-wafer halt raises the halt line of every enabled partition. -/
theorem halted_waferHalt (h : bit s.mod.dbgstat.toNat 0 = false) (code : Nat) (hen : (s.part p).en = true) (hp : p ∈ s.parts.map (·.1)) :
    ((s.waferHalt code).part p).halted = true := by
  rw [waferHalt_keeps (fun s => (s.part p).halted) (fun _ _ _ => rfl) h, halted_haltAll, Bool.or_eq_true, List.any_eq_true]
  exact .inr ⟨(p, s.part p), mem_of_key hp _, by simp [hen]⟩

theorem dbgctlWrite_halts (h0 : bit v.toNat 0 = true) (h1 : bit v.toNat 1 = false) :
    s.dbgctlWrite v = (s.modMod fun m => { m with dbgctl := v &&& 4#64 }).waferHalt 2 := by
  unfold State.dbgctlWrite
  dsimp only
  rw [if_pos h0, if_neg (ne_true_of_eq_false h1)]

theorem dbgctlWrite_resumes (h1 : bit v.toNat 1 = true) (h0 : bit v.toNat 0 = false) :
    s.dbgctlWrite v = (s.modMod fun m => { m with dbgctl := v &&& 4#64 }).resumeAll := by
  unfold State.dbgctlWrite
  dsimp only
  rw [if_neg (ne_true_of_eq_false h0), if_pos h1]

theorem resumeAll_early (h : s.dbgDone = false) : s.resumeAll = s := if_neg (ne_true_of_eq_false h)

theorem dbgstat_resumeAll (h : s.dbgDone = true) : s.resumeAll.mod.dbgstat = 0 := by
  rw [State.resumeAll, if_pos h]
  rfl

/-! ## Region 6 but for its routers (26 R446) -/

/-- A register of region 6 that is no router's is no core's and no cluster's. -/
theorem reaches_block (hroot : rootAt s 6) (hblock : bits s.inp.addr.toNat 40 8 ≠ 0x10) : Reaches s s.inp.addr.toNat := by
  obtain ⟨-, -, hregion, hzero, haligned⟩ := hroot
  have hregion : mRegion s.inp.addr.toNat = 6 := hregion
  have hblock : mBlock s.inp.addr.toNat ≠ 0x10 := hblock
  exact
    { zero := hzero
      register := by simp [mgmtMemory, hregion]
      aligned := haligned
      fresh := fun h => absurd (hregion.symm.trans h) (by decide)
      live := by simp [mgmtCore, hregion, hblock]
      runs := by simp [mgmtCluster, hregion] }

theorem acks_blockWrite (hroot : rootAt s 6) (hi : writesRegister i = some f) (hf : f s.inp.addr.toNat s.inp.val.toNat = true)
    (hblock : bits s.inp.addr.toNat 40 8 ≠ 0x10) : acks i s (s.reg6Write s.inp.addr.toNat s.inp.val) := by
  refine acks_rootWrite hroot hi hf (reaches_block hroot hblock) ?_
  obtain ⟨-, -, hregion, -⟩ := hroot
  unfold State.regWrite
  rw [show mRegion s.inp.addr.toNat = 6 from hregion]
  rfl

theorem blockReg_iff {b : Nat} : blockReg b o x = true ↔ bits x 56 4 = 6 ∧ bits x 40 8 = b ∧ bits x 0 12 = o := by
  simp only [blockReg, Bool.and_eq_true, beq_iff_eq, and_assoc]

theorem reg6Write_dbgctl (h : blockReg 7 0 x = true) (hindex : bits x 28 12 = 0) : s.reg6Write x v = s.dbgctlWrite v := by
  obtain ⟨-, hblock, hoff⟩ := blockReg_iff.1 h
  unfold State.reg6Write
  rw [show mBlock x = 7 from hblock]
  exact if_pos ⟨hindex, hoff⟩

end Sys2Proof.Machine
end

section
namespace Sys2Proof.Proofs

open Sys2Proof.Machine Sys2Proof.Claims

/-- Settles O54: RETCMD's write by its four answers (`retcmdWrite_busy` to `retcmdWrite_cellbad`); after it, patrol and a remapped row leave of
the module's own state what they name, since a rewritten image changes none of its registers (`writeEntry_keeps`); the whole-wafer halt
raises every enabled partition's line (`halted_waferHalt`). -/
theorem healthDebugAndFaultSteps : Obligations.HealthDebugAndFaultSteps := by
  intro s v
  refine ⟨fun hroot hreg i op hi hop => ?retcmd, fun x => retRefusal_dead, exec_testComplete_idle,
    fun h => ⟨_, exec_testComplete_ends h, endTest_ends s _⟩, exec_retireComplete_idle,
    fun h => ⟨_, exec_retireComplete_ends h, endRetire_ends s _⟩, fun cl n hbank hon hawake => ?patrol, exec_patrolScrub_off, ?remap,
    fun hroot hreg hindex => ?debug, rfl, fun code h => ⟨?stat, ?mem, fun p => halted_waferHalt h code⟩, rfl, rfl⟩
  case retcmd =>
    obtain ⟨hop0, hwrites⟩ := writesRegister_retcmd hi
    have hacks := acks_moduleWrite hroot hwrites (by rw [hreg, hop]; simp)
    rw [moduleWrite_retcmd hreg] at hacks
    subst hop
    refine ⟨fun hbusy => by rwa [retcmdWrite_busy hop0 hbusy] at hacks, fun hidle => ⟨fun e he => ?_, fun hok => ⟨fun h => ?_, fun h => ?_,
      fun h => ?_⟩⟩⟩
    · rwa [retcmdWrite_refused hidle hop0 he] at hacks
    · rwa [retcmdWrite_test hidle hok h] at hacks
    · rwa [retcmdWrite_retire hidle hok h] at hacks
    · rwa [retcmdWrite_cellbad hidle hok h] at hacks
  case patrol =>
    have hmod : (s.touchBank cl n).mod = s.mod := untouched_mod.touchBank cl n
    rw [exec_patrolScrub hbank hon hawake]
    refine ⟨fun h => by rw [h]; rfl, fun h => by rw [h]; rfl, fun h => ⟨_, by rw [h]; rfl, ?_, poison_poisonWord _ _⟩⟩
    rw [eccu_poisonWord, hmod]
  case remap =>
    exact ⟨exec_sliceRowRemap_dead, exec_sliceRowRemap_spare,
      fun hlive h => ⟨_, exec_sliceRowRemap_worn hlive h, writeEntry_wearSlice s _ _⟩⟩
  case debug =>
    intro u
    have hblock : bits s.inp.addr.toNat 40 8 ≠ 0x10 := by
      have ⟨_, h, _⟩ := blockReg_iff.1 hreg
      omega
    have hwrite := reg6Write_dbgctl (s := s) (v := v) hreg hindex
    refine ⟨fun h0 h1 => ?_, fun h1 h0 => ?_⟩
    · have hacks := acks_blockWrite (i := .dbgctlHaltall) hroot rfl (by rw [hreg, h0]; rfl) hblock
      rwa [hwrite, dbgctlWrite_halts h0 h1] at hacks
    · have hacks := acks_blockWrite (i := .dbgctlResumeall) hroot rfl (by rw [hreg, h1]; rfl) hblock
      rw [hwrite, dbgctlWrite_resumes h1 h0] at hacks
      exact ⟨fun h => by rwa [resumeAll_early h] at hacks, fun h => ⟨_, hacks, dbgstat_resumeAll h⟩⟩
  case stat =>
    have hmod := waferHalt_keeps State.mod (fun _ _ _ => rfl) h code
    rw [hmod, haltAll_keeps State.mod fun _ _ _ => rfl]
    rfl
  case mem =>
    have hmem := waferHalt_keeps State.mem (fun _ _ _ => rfl) h code
    rw [hmem, haltAll_keeps State.mem fun _ _ _ => rfl]
    rfl

end Sys2Proof.Proofs
end

section
/-! SUPPORT. Power-on reset, the mailbox of the root monitor, and the RMCs' wake and doorbell (24 R433; 26 R446, R449, R452, R453, R458). -/

namespace Sys2Proof.Machine

open Sys2Proof.Claims

variable {s t u : State} {cl op r x : Nat} {i : Instr} {v : Word} {d : State → State × Nat}

/-! ## Stores while no partition is there -/

/-- A state whose bytes, banks and cells alone may differ from another's: what the device's stores do before there is a partition. -/
def State.sameButBytes (s t : State) : Prop :=
  ∃ m w y l cs, t = { s with mem := m, mod := { s.mod with poison := w, undef := y }, clusters := l, cells := cs }

theorem partsOfCluster_bare (h : s.parts = []) : s.partsOfCluster cl = [] := by
  rw [State.partsOfCluster, h]
  rfl

namespace State.sameButBytes

theorem refl (s : State) : s.sameButBytes s := ⟨_, _, _, _, _, rfl⟩

theorem trans (h : s.sameButBytes t) (h' : t.sameButBytes u) : s.sameButBytes u := by
  obtain ⟨_, _, _, _, _, rfl⟩ := h
  obtain ⟨_, _, _, _, _, rfl⟩ := h'
  exact ⟨_, _, _, _, _, rfl⟩

theorem parts (h : s.sameButBytes t) : t.parts = s.parts := by
  obtain ⟨_, _, _, _, _, rfl⟩ := h
  rfl

theorem modCluster {f : Cluster → Cluster} (h : s.sameButBytes t) : s.sameButBytes (t.modCluster cl f) := h.trans ⟨_, _, _, _, _, rfl⟩
theorem idleCell (h : s.sameButBytes t) (k : Nat) : s.sameButBytes (t.idleCell k) := h.trans ⟨_, _, _, _, _, rfl⟩
theorem clearRange (h : s.sameButBytes t) (lo n : Nat) : s.sameButBytes (t.clearRange lo n) := h.trans ⟨_, _, _, _, _, rfl⟩

theorem homeWrite (h : s.sameButBytes t) (a n v : Nat) : s.sameButBytes (t.homeWrite a n v) := by
  obtain ⟨m, w, hw⟩ := homeWrite_bytes t a n v
  exact h.trans ⟨m, w, t.mod.undef, t.clusters, t.cells, hw⟩

theorem foldl {β : Type} {g : State → β → State} (hg : ∀ u b, s.sameButBytes u → s.sameButBytes (g u b)) (h : s.sameButBytes t)
    (l : List β) : s.sameButBytes (l.foldl g t) := by
  induction l generalizing t with
  | nil => exact h
  | cons b l ih => exact ih (hg t b h)

section Bare

variable (hbare : s.parts = [])
include hbare

theorem touchBank (h : s.sameButBytes t) (cl n : Nat) : s.sameButBytes (t.touchBank cl n) := by
  have hwake : s.sameButBytes (t.beginWake cl n) := by
    unfold State.beginWake
    dsimp only
    split
    · exact h
    · exact h.modCluster
  unfold State.touchBank
  dsimp only
  split
  · rw [partsOfCluster_bare]
    · exact hwake.modCluster.modCluster
    · exact hwake.parts.trans hbare
  · exact hwake.modCluster

theorem devTouch (h : s.sameButBytes t) (l : List (Nat × Nat)) : s.sameButBytes (t.devTouch l) :=
  foldl (fun _ b h => touchBank hbare h b.1 b.2) h l

theorem l2Evict (h : s.sameButBytes t) (cl line w : Nat) : s.sameButBytes (t.l2Evict cl line w) := by
  unfold State.l2Evict
  split
  · exact h
  · refine State.sameButBytes.modCluster ?_
    split
    · exact (devTouch hbare h _).modCluster
    · split
      · exact h.clearRange _ _
      · exact h

theorem touchAs (h : s.sameButBytes t) (sp a w : Nat) (st : Bool) : s.sameButBytes (t.touchAs sp a w st) := by
  unfold State.touchAs
  split
  · exact h
  · next cl n _ =>
    split
    · exact touchBank hbare h cl n
    · dsimp only
      split
      · exact (touchBank hbare h cl _).modCluster
      · split
        · exact (touchBank hbare (touchBank hbare (l2Evict hbare h cl _ w) cl n) cl _).modCluster
        · exact (touchBank hbare (touchBank hbare h cl n) cl _).modCluster
      · exact (touchBank hbare h cl n).modCluster

theorem devStore (h : s.sameButBytes t) (a n v : Nat) : s.sameButBytes (t.devStore a n v) :=
  foldl (fun _ i h => touchAs hbare h 0 (a + 64 * i) 0 true) (h.homeWrite a n v) _

theorem writeImage (h : s.sameButBytes t) : s.sameButBytes t.writeImage :=
  foldl (fun _ _ h => devStore hbare h _ _ _) (devStore hbare h _ _ _) _

end Bare

theorem classesAtBoot (h : s.sameButBytes t) : s.sameButBytes t.classesAtBoot :=
  foldl (fun _ _ h => h.modCluster) h _

theorem idleCells (h : s.sameButBytes t) (l : List Nat) : s.sameButBytes (l.foldl (fun s k => s.idleCell k) t) :=
  foldl (fun _ k h => h.idleCell k) h l

theorem minslice (h : s.sameButBytes t) (n : Nat) :
    (s.modMod fun m => { m with minslice := n }).sameButBytes (t.modMod fun m => { m with minslice := n }) := by
  obtain ⟨_, _, _, _, _, rfl⟩ := h
  exact ⟨_, _, _, _, _, rfl⟩

theorem measured (hbare : s.parts = []) (h : s.sameButBytes t) (n : Nat) :
    (s.modMod fun m => { m with minslice := n }).sameButBytes (t.modMod fun m => { m with minslice := n }).writeImage :=
  .writeImage hbare (h.minslice n)

end State.sameButBytes

/-! ## STAGE of BOOTSTAT (26 R452) -/

theorem bits_setBits_below (x n v : Nat) {k lo : Nat} (hk : k ≤ lo) : bits (setBits x lo n v) 0 k = bits x 0 k := by
  obtain ⟨d, rfl⟩ := Nat.exists_eq_add_of_le hk
  have hfield : ∀ y, y * 2 ^ (k + d) = 2 ^ k * (2 ^ d * y) := fun y => by rw [pow_add, mul_comm, mul_assoc]
  have hle : 2 ^ k * (2 ^ d * bits x (k + d) n) ≤ x := by
    rw [← hfield]
    exact (Nat.mul_le_mul_right _ (Nat.mod_le _ _)).trans (Nat.div_mul_le_self x _)
  rw [bits_zero, bits_zero, setBits, hfield, hfield, Nat.add_mul_mod_self_left, Nat.sub_mul_mod hle]

theorem bits_setBits_lowest (x n v : Nat) : bits (setBits x 0 n v) 0 n = v % 2 ^ n := by
  rw [bits_zero, setBits, bits_zero, pow_zero, mul_one, mul_one, ← Nat.mul_div_self_eq_mod_sub_self, Nat.mul_add_mod, Nat.mod_mod]

theorem bits_ofNat (y : Nat) {k : Nat} (hk : k ≤ 64) : bits (BitVec.ofNat 64 y).toNat 0 k = bits y 0 k := by
  rw [bits_zero, bits_zero, BitVec.toNat_ofNat, Nat.mod_mod_of_dvd _ (pow_dvd_pow 2 hk)]

theorem stage_setStage (m : Module) (stage err : Nat) : (m.setStage stage err).stage = stage % 2 ^ 8 := by
  unfold Module.setStage Module.stage
  rw [bits_ofNat _ (by decide), bits_setBits_below _ _ _ (le_refl 8), bits_setBits_lowest]

theorem stage_version (m : Module) (version : Nat) :
    Module.stage { m with bootstat := BitVec.ofNat 64 (setBits m.bootstat.toNat 32 32 version) } = m.stage := by
  unfold Module.stage
  rw [bits_ofNat _ (by decide), bits_setBits_below _ _ _ (by decide)]

/-! ## Power-on reset (26 R446, R452) -/

/-- Stage 2 of the boot, in which the hosts may write the firmware area (26 R452). -/
def Module.awaitsImage (m : Module) : Module := { m.setStage 2 0 with caps := SMap.set m.caps 0 (capEntry 3 m.fwLo m.fwHi false true) }

/-- The firmware area is set (26 R452). -/
def State.setFirmware (s : State) (base size : Word) : State := s.modMod fun m => { m with fwbase := base, fwsize := size }

/-- The cells that the defect map names: all of a dead core's, and the defective ones. -/
def State.badCells (s : State) : List Nat :=
  s.mod.defects.dead.flatMap (fun c => (List.range 576).map (c * 576 + ·)) ++ s.mod.defects.cells.map fun e => e.1 * 576 + e.2

/-- The state with the defect map image written (25 R438). -/
def State.imaged (s : State) : State := (s.classesAtBoot.modMod fun m => { m with minslice := s.minSlice }).writeImage

theorem bootFirst_eq (s : State) (base size : Word) : s.bootFirst base size =
    ((s.setFirmware base size).imaged.badCells.foldl (fun s k => s.idleCell k) (s.setFirmware base size).imaged).modMod Module.awaitsImage := by
  unfold State.bootFirst State.badCells State.imaged State.setFirmware
  rfl

theorem sameButBytes_imaged (hbare : s.parts = []) : ∃ n, (s.modMod fun m => { m with minslice := n }).sameButBytes s.imaged := by
  refine ⟨s.minSlice, ?_⟩
  unfold State.imaged
  exact .measured hbare (.classesAtBoot (.refl s)) s.minSlice

/-- Before there is a partition, stage 1 of the boot sets the firmware area and MINSLICE and stores into banks and cells alone. -/
theorem bootFirst_bare (hbare : s.parts = []) (base size : Word) : ∃ t n,
    ((s.setFirmware base size).modMod fun m => { m with minslice := n }).sameButBytes t ∧ s.bootFirst base size = t.modMod Module.awaitsImage := by
  obtain ⟨n, h⟩ := sameButBytes_imaged (s := s.setFirmware base size) hbare
  exact ⟨_, n, h.idleCells _, bootFirst_eq s base size⟩

/-- The state in which the root monitor begins to boot (log 5). -/
def State.poweredOn (s : State) : State :=
  State.modMod { State.reset with agenda := s.agenda, fresh := s.fresh, inp := s.inp } fun m => m.fused s.inp.idx s.inp.data

theorem exec_powerOnReset (s : State) : exec .powerOnReset s = .next (s.poweredOn.bootFirst s.inp.addr s.inp.val) := rfl

theorem powerOnReset_boots (s : State) : ∃ t, exec .powerOnReset s = .next t ∧ bits t.mod.bootstat.toNat 0 8 = 2 ∧
    t.mod.fwbase = s.inp.addr ∧ t.mod.fwsize = s.inp.val ∧ t.hgs = [] ∧ t.parts = [] ∧ t.wt = 0 ∧ t.agenda = s.agenda := by
  obtain ⟨t, n, ⟨m, w, y, l, cs, rfl⟩, h⟩ := bootFirst_bare (s := s.poweredOn) rfl s.inp.addr s.inp.val
  rw [exec_powerOnReset, h]
  exact ⟨_, rfl, stage_setStage _ 2 0, rfl, rfl, rfl, rfl, rfl, rfl⟩

theorem modPort_trains (s : State) (k : Nat) (w : Word) : (s.modMod fun m => m.modPort k fun h => { h with mods := w }) = s.modMod fun m =>
    if k = 0 then { m with portA := { m.portA with mods := w } } else { m with portB := { m.portB with mods := w } } := rfl

theorem exec_hostPortTraining (s : State) : exec .hostPortTraining s =
    .next (s.modMod fun m => m.modPort (s.inp.unit % 2) fun h => { h with mods := s.inp.val &&& 0xFF#64 }) := rfl

/-! ## A command of the mailbox (26 R453) -/

theorem exec_mailCommand
    (h : (i, op) ∈ [(Instr.mbBoot, 1), (.mbAttest, 2), (.mbPubkey, 3), (.mbManifest, 4), (.mbInstall, 5), (.mbCmap, 6)]) :
    ∃ d, exec i s = .next (s.mailbox op d) := by
  simp only [List.mem_cons, List.not_mem_nil, or_false, Prod.mk.injEq] at h
  obtain ⟨rfl, rfl⟩ | ⟨rfl, rfl⟩ | ⟨rfl, rfl⟩ | ⟨rfl, rfl⟩ | ⟨rfl, rfl⟩ | ⟨rfl, rfl⟩ := h
  · exact ⟨State.boot, rfl⟩
  · exact ⟨State.attest, rfl⟩
  · exact ⟨State.pubkey, rfl⟩
  · exact ⟨State.manifest, rfl⟩
  · exact ⟨State.install, rfl⟩
  · exact ⟨State.cmapCmd, rfl⟩

theorem mbBad_iff (m : Module) :
    m.mbBad = true ↔ bits m.mbcmd.toNat 56 8 = 0 ∨ 6 < bits m.mbcmd.toNat 56 8 ∨ bits m.mbcmd.toNat 32 24 ≠ 0 := by
  unfold Module.mbBad
  rw [Bool.or_eq_true, Bool.or_eq_true, beq_iff_eq, decide_eq_true_eq, bne_iff_ne, or_assoc]
  rfl

theorem mailbox_idle (h : bit s.mod.mbstat.toNat 0 = false) : s.mailbox op d = s := by
  unfold State.mailbox
  rw [if_pos (by rw [Module.mbBusy, h]; rfl)]

section Busy

variable (hbusy : bit s.mod.mbstat.toNat 0 = true)
include hbusy

theorem mailbox_bad (h : s.mod.mbBad = true) : s.mailbox op d = s.modMod fun m => m.mbDone 1 := by
  unfold State.mailbox
  rw [if_neg (by rw [Module.mbBusy, hbusy]; decide), if_pos h]

theorem mailbox_other (h : s.mod.mbBad = false) (hop : bits s.mod.mbcmd.toNat 56 8 ≠ op) : s.mailbox op d = s := by
  unfold State.mailbox
  rw [if_neg (by rw [Module.mbBusy, hbusy]; decide), if_neg (ne_true_of_eq_false h), if_pos (show s.mod.mbOp ≠ op from hop)]

end Busy

/-- A command that stands for an operation of R453 ends with what the operation answers. -/
theorem mailbox_runs (h : mailReady s op) (hop : 1 ≤ op ∧ op ≤ 6) : s.mailbox op d = (d s).1.modMod fun m => m.mbDone (d s).2 := by
  obtain ⟨hbusy, hcmd, hzero⟩ := h
  have hgood : ¬s.mod.mbBad = true := by rw [mbBad_iff]; omega
  unfold State.mailbox
  rw [if_neg (by rw [Module.mbBusy, hbusy]; decide), if_neg hgood, if_neg (not_not.2 (show s.mod.mbOp = op from hcmd))]

/-! ## BOOT and ATTEST (26 R452, R453) -/

theorem boot_early (h : s.mod.stage ≠ 2) : s.boot = (s, 1) := by
  unfold State.boot
  dsimp only
  rw [if_pos h]

theorem mod_startRmcs (s : State) (pc : Word) : (s.startRmcs pc).mod = s.mod := by
  unfold State.startRmcs
  refine foldl_keeps s State.mod _ (fun s r => ?_) _
  rw [modHg_eq, mod_setHg]

/-- BOOT in stage 2 goes on to stage 4 with RESULT 0, and with any other it waits in stage 2 again. -/
theorem stage_boot (h : s.mod.stage = 2) :
    (s.boot.2 = 0 → s.boot.1.mod.stage = 4) ∧ (s.boot.2 ≠ 0 → s.boot.1.mod.stage = 2) := by
  unfold State.boot
  dsimp only
  rw [if_neg (not_not.2 h)]
  split
  · exact ⟨fun hr => absurd hr Nat.one_ne_zero, fun _ => stage_setStage _ 2 2⟩
  · split
    · exact ⟨fun hr => absurd hr two_ne_zero, fun _ => stage_setStage _ 2 1⟩
    · refine ⟨fun _ => ?_, fun hr => absurd rfl hr⟩
      rw [mod_startRmcs, mod_modMod, stage_version]
      exact stage_setStage _ 4 0

/-- Of two states of the module the second differs in MBDATA alone. -/
def Module.sameButMail (m m' : Module) : Prop := m' = { m with mbdata := m'.mbdata }

theorem Module.sameButMail.setMb {m m' : Module} (h : m.sameButMail m') (i n v : Nat) : m.sameButMail (m'.setMb i n v) := by
  unfold Module.setMb
  induction List.range n generalizing m' with
  | nil => exact h
  | cons k l ih =>
    refine ih (m' := { m' with mbdata := _ }) ?_
    unfold Module.sameButMail at h
    rw [h]
    rfl

theorem attest_eq (s : State) : s.attest.2 = 0 ∧ s.attest.1 = { s with mod := { s.mod with mbdata := s.attest.1.mod.mbdata } } := by
  have hrefl : s.mod.sameButMail s.mod := rfl
  have h : s.mod.sameButMail s.attest.1.mod := (((hrefl.setMb 64 8 _).setMb 72 1 _).setMb 73 1 _).setMb 0 64 _
  exact ⟨rfl, congrArg (fun m => { s with mod := m }) h⟩

/-! ## PUBKEY, MANIFEST, INSTALL and CMAP (26 R448, R453) -/

theorem pubkey_takes (h : bits s.mod.mbcmd.toNat 0 32 < 8) :
    s.pubkey = (s.modMod fun m => { m with pubkeys := SMap.set m.pubkeys (bits s.mod.mbcmd.toNat 0 32) (m.mbNum 0 64) }, 0) :=
  if_neg (Nat.not_le.2 h)

theorem pubkey_refused (h : 8 ≤ bits s.mod.mbcmd.toNat 0 32) : s.pubkey = (s, 1) := if_pos h

/-- An answer that leaves the state alone unless its RESULT is 0, and then leaves a state that meets P. -/
def changesOnly (s : State) (P : State → Prop) (x : State × Nat) : Prop := (x.2 ≠ 0 → x.1 = s) ∧ (x.2 = 0 → P x.1)

theorem changesOnly_refusal {P : State → Prop} (h : r ≠ 0) : changesOnly s P (s, r) := ⟨fun _ => rfl, fun h0 => absurd h0 h⟩

theorem changesOnly_done {P : State → Prop} (h : P t) : changesOnly s P (t, 0) := ⟨fun h0 => absurd rfl h0, fun _ => h⟩

theorem manifest_changes (s : State) : changesOnly s (fun t => ∃ l, t = s.modMod fun m => { m with manifest := some l }) s.manifest := by
  unfold State.manifest
  dsimp only
  split
  · exact changesOnly_refusal (by decide)
  · split
    · exact changesOnly_refusal (by decide)
    · split
      · exact changesOnly_refusal (by decide)
      · split
        · exact changesOnly_refusal (by decide)
        · split
          · exact changesOnly_refusal (by decide)
          · split
            · exact changesOnly_done ⟨_, rfl⟩
            · exact changesOnly_refusal (by decide)

theorem install_changes (s : State) : changesOnly s (fun _ => True) s.install := by
  unfold State.install
  dsimp only
  split
  · exact changesOnly_refusal (by decide)
  · split
    · exact changesOnly_refusal (by decide)
    · split
      · split
        · exact changesOnly_refusal (by decide)
        · split
          · exact changesOnly_done trivial
          · exact changesOnly_refusal (by decide)
      · exact changesOnly_refusal (by decide)

theorem install_unknown (h : s.mod.manifest = none) (hpart : bits (s.mod.mbNum 0 4) 64 8 ≤ 2) : s.install = (s, 4) := by
  unfold State.install
  dsimp only
  rw [if_neg (Nat.not_lt.2 hpart), h]
  rfl

theorem cmapCmd_refused (h : (s.mod.mbWord 0).toNat / 2 ^ 56 ≠ 0xF5 ∨
    2 ^ 20 < bits (s.mod.mbWord 0).toNat 21 20 + bits s.mod.mbcmd.toNat 0 32) : s.cmapCmd = (s, 5) :=
  if_pos (h.imp_right .inr)

/-- The granules of the context-memory map after CMAP sets or clears n of them from g on (26 R448). -/
def cmapGranules (l : List Nat) (g n : Nat) (set : Bool) : List Nat :=
  let other := l.filter fun k => !(decide (g ≤ k) && decide (k < g + n))
  if set then (List.range n).map (g + ·) ++ other else other

theorem mem_cmapGranules (l : List Nat) (g n : Nat) (set : Bool) (k : Nat) :
    k ∈ cmapGranules l g n set ↔ if g ≤ k ∧ k < g + n then set = true else k ∈ l := by
  have hrange : k ∈ (List.range n).map (g + ·) ↔ g ≤ k ∧ k < g + n := by
    rw [List.mem_map]
    constructor
    · rintro ⟨j, hj, rfl⟩
      have := List.mem_range.1 hj
      omega
    · exact fun ⟨hlo, hhi⟩ => ⟨k - g, List.mem_range.2 (by omega), by omega⟩
  have hother : k ∈ (l.filter fun k => !(decide (g ≤ k) && decide (k < g + n))) ↔ k ∈ l ∧ ¬(g ≤ k ∧ k < g + n) := by
    simp only [List.mem_filter, Bool.not_eq_true', ← Bool.not_eq_true, Bool.and_eq_true, decide_eq_true_eq]
  have hmem : k ∈ cmapGranules l g n set ↔ (set = true ∧ g ≤ k ∧ k < g + n) ∨ (k ∈ l ∧ ¬(g ≤ k ∧ k < g + n)) := by
    cases set with
    | true => rw [cmapGranules, if_pos rfl, List.mem_append, hrange, hother, eq_self, true_and]
    | false => rw [cmapGranules, if_neg Bool.false_ne_true, hother]; simp
  rw [hmem]
  split
  · next hk => simp [hk]
  · next hk => simp only [hk, and_false, not_false_eq_true, and_true, false_or]

/-- CMAP's change of the context-memory map. -/
def State.setGranules (s : State) (g n : Nat) (set : Bool) : State := s.modMod fun m => { m with cmap := cmapGranules m.cmap g n set }

theorem cmapCmd_takes (hspace : (s.mod.mbWord 0).toNat / 2 ^ 56 = 0xF5) (hzero : bits (s.mod.mbWord 0).toNat 41 15 = 0)
    (hfits : bits (s.mod.mbWord 0).toNat 21 20 + bits s.mod.mbcmd.toNat 0 32 ≤ 2 ^ 20) :
    s.cmapCmd = (s.setGranules (bits (s.mod.mbWord 0).toNat 21 20) (bits s.mod.mbcmd.toNat 0 32) (bit (s.mod.mbWord 1).toNat 63), 0) :=
  if_neg (by rintro (h | h | h); exacts [h hspace, h hzero, absurd hfits (Nat.not_le.2 h)])

/-! ## The RMCs' wake and doorbell (24 R433; 26 R458) -/

theorem rmcHalted_iff (h : Hg) : h.rmcHalted = true ↔ h.run = .idle ∧ h.wait = .halt := by simp [Hg.rmcHalted]

theorem rmcWake_wakes (hwake : (s.reticle r).rmc.wakepend = true) (hfault : (s.reticle r).rmc.fault = false)
    (hhalted : (s.hg (16384 + r)).run = .idle ∧ (s.hg (16384 + r)).wait = .halt) : s.rmcWake r =
      (s.modReticle r fun t => { t with rmc := { t.rmc with wakepend := false } }).modHg (16384 + r) fun h =>
        { h with run := .program, wait := .none } := by
  have hh : (s.hg (rmcBase + r)).rmcHalted = true := (rmcHalted_iff _).2 hhalted
  unfold State.rmcWake
  dsimp only
  rw [if_pos (by rw [hwake, hfault, hh]; rfl)]
  rfl

theorem rmcWake_stays (h : (s.reticle r).rmc.wakepend = false ∨ (s.reticle r).rmc.fault = true ∨
    ¬((s.hg (16384 + r)).run = .idle ∧ (s.hg (16384 + r)).wait = .halt)) : s.rmcWake r = s := by
  unfold State.rmcWake
  dsimp only
  rw [if_neg]
  simp only [Bool.and_eq_true, Bool.not_eq_true', rmcHalted_iff]
  rintro ⟨⟨hwake, hfault⟩, hhalted⟩
  rcases h with h | h | h
  · exact Bool.false_ne_true (h.symm.trans hwake)
  · exact Bool.false_ne_true (hfault.symm.trans h)
  · exact h hhalted

theorem doorbell_resumes (hfault : (s.reticle r).rmc.fault = false)
    (hhalted : (s.hg (16384 + r)).run = .idle ∧ (s.hg (16384 + r)).wait = .halt) :
    s.doorbell r = s.modHg (16384 + r) fun h => { h with run := .program, wait := .none } := by
  have hh : (s.hg (rmcBase + r)).rmcHalted = true := (rmcHalted_iff _).2 hhalted
  unfold State.doorbell
  dsimp only
  rw [if_neg (ne_true_of_eq_false hfault), if_pos hh]
  rfl

theorem doorbell_latches (hfault : (s.reticle r).rmc.fault = false)
    (hruns : ¬((s.hg (16384 + r)).run = .idle ∧ (s.hg (16384 + r)).wait = .halt)) :
    s.doorbell r = s.modReticle r fun t => { t with rmc := { t.rmc with wakepend := true } } := by
  have hh : ¬(s.hg (rmcBase + r)).rmcHalted = true := fun h => hruns ((rmcHalted_iff _).1 h)
  unfold State.doorbell
  dsimp only
  rw [if_neg (ne_true_of_eq_false hfault), if_neg hh]
  rfl

/-- A doorbell after a fault clears FAULT and restarts the RMC at RMCPC. -/
theorem doorbell_restarts (hfault : (s.reticle r).rmc.fault = true) : ((s.doorbell r).reticle r).rmc.fault = false ∧
    ((s.doorbell r).hg (16384 + r)).pc = ((s.reticle r).rmc.pc &&& 0xFFFFFFFFFFFFFFFC#64) ∧
      ((s.doorbell r).hg (16384 + r)).run = .program := by
  unfold State.doorbell
  dsimp only
  rw [if_pos hfault]
  simp [rmcBase]

theorem reg6Write_doorbell (h : blockReg 2 0 x = true) (hr : bits x 28 12 < 64) : s.reg6Write x v = s.doorbell (bits x 28 12) := by
  obtain ⟨-, hblock, hoff⟩ := blockReg_iff.1 h
  unfold State.reg6Write
  rw [show mBlock x = 2 from hblock, show mOff x = 0 from hoff]
  exact if_pos hr

end Sys2Proof.Machine
end

section
namespace Sys2Proof.Proofs

open Sys2Proof.Machine Sys2Proof.Claims

/-- Settles O53: stage 1 of the boot stores into banks and cells alone (`bootFirst_eq`); a mailbox command that stands for an operation ends
with what the operation answers (`mailbox_runs`), operation by operation; the wake and the doorbell of an RMC are their cases. -/
theorem bootMailboxAndFirmware : Obligations.BootMailboxAndFirmware := by
  intro s
  have ends : ∀ {i op d}, mailReady s op → 1 ≤ op ∧ op ≤ 6 → exec i s = .next (s.mailbox op d) → mailEnds i s (d s).1 (d s).2 :=
    fun hready hop hexec => hexec.trans (congrArg _ (mailbox_runs hready hop))
  refine ⟨powerOnReset_boots s, ?training, fun i op hi => ?command, fun hready => ⟨fun hstage => ?early, fun hstage => ?boot⟩,
    fun hready => ?attest, fun hready => ⟨fun hslot => ?takes, fun hslot => ?refused⟩, fun hready => ?manifest, fun hready => ?install,
    fun hready => ⟨fun hspace hzero hfits => ?cmap, fun hbad => ?nocmap⟩,
    ⟨fun hwake hfault hhalted => congrArg _ (rmcWake_wakes hwake hfault hhalted), fun h => congrArg _ (rmcWake_stays h)⟩,
    fun hroot hreg hr => ?doorbell⟩
  case training => rw [exec_hostPortTraining, modPort_trains]
  case command =>
    obtain ⟨d, hexec⟩ := exec_mailCommand (s := s) hi
    refine ⟨fun hidle => by rw [hexec, mailbox_idle hidle], fun hbusy => ⟨fun hbad => ?_, fun hop h1 h6 hzero => ?_⟩⟩
    · exact hexec.trans (congrArg _ (mailbox_bad hbusy ((mbBad_iff _).2 hbad)))
    · have hgood : ¬s.mod.mbBad = true := by rw [mbBad_iff]; omega
      rw [hexec, mailbox_other hbusy (Bool.eq_false_of_not_eq_true hgood) hop]
  case early =>
    have h := ends (i := .mbBoot) hready (by decide) rfl
    rwa [boot_early hstage] at h
  case boot => exact ⟨_, _, ends hready (by decide) rfl, stage_boot hstage⟩
  case attest =>
    have h := ends (i := .mbAttest) hready (by decide) rfl
    obtain ⟨hresult, hstate⟩ := attest_eq s
    rw [hresult] at h
    exact ⟨_, h, hstate⟩
  case takes =>
    have h := ends (i := .mbPubkey) hready (by decide) rfl
    rwa [pubkey_takes hslot] at h
  case refused =>
    have h := ends (i := .mbPubkey) hready (by decide) rfl
    rwa [pubkey_refused hslot] at h
  case manifest => exact ⟨ends hready (by decide) rfl, manifest_changes s⟩
  case install =>
    exact ⟨ends hready (by decide) rfl, (install_changes s).1, fun h hpart => congrArg Prod.snd (install_unknown h hpart)⟩
  case cmap =>
    have h := ends (i := .mbCmap) hready (by decide) rfl
    rw [cmapCmd_takes hspace hzero hfits] at h
    exact ⟨_, h, rfl, mem_cmapGranules _ _ _ _⟩
  case nocmap =>
    have h := ends (i := .mbCmap) hready (by decide) rfl
    rwa [cmapCmd_refused hbad] at h
  case doorbell =>
    have hblock : bits s.inp.addr.toNat 40 8 ≠ 0x10 := by
      have ⟨_, h, _⟩ := blockReg_iff.1 hreg
      omega
    have hacks := acks_blockWrite (i := .rmcDoorbell) hroot rfl hreg hblock
    rw [reg6Write_doorbell hreg hr] at hacks
    refine ⟨fun hfault hhalted => ?_, fun hfault hruns => ?_, fun hfault => ⟨_, hacks, doorbell_restarts hfault⟩⟩
    · rwa [doorbell_resumes hfault hhalted] at hacks
    · rwa [doorbell_latches hfault hruns] at hacks

end Sys2Proof.Proofs
end
